-- ==== Sys2Proof/Word.lean ====
section
/-! DEFINITION. Word types (00 R11, 03 R71) and their plainest arithmetic. -/
namespace Sys2Proof

/-- A byte of memory. -/
abbrev Byte := BitVec 8
/-- A register of 32 bits: one lane of a vector register, or a uniform register (03 R71). -/
abbrev Word := BitVec 32
/-- A 64-bit value: a register pair (01 R19), an address, a program counter. -/
abbrev DWord := BitVec 64
/-- One bit per lane of a group (00 R9: 256 lanes). -/
abbrev LaneMask := BitVec 256
/-- One bit per slice of a group (00 R9: 64 slices). -/
abbrev SliceMask := BitVec 64

/-- The 64-bit value of a pair, the low half in the even register (03 R72). -/
def pairOf (lo hi : Word) : DWord := hi ++ lo
/-- The low half of a 64-bit value. -/
def loHalf (x : DWord) : Word := x.setWidth 32
/-- The high half of a 64-bit value. -/
def hiHalf (x : DWord) : Word := (x >>> 32).setWidth 32

end Sys2Proof
end

