-- ==== Sys2Proof/Syntax.lean ====
section
/-! DEFINITION. The one inductive of instructions: one constructor per row of spec/opcode_table.json.
The first 179 rows are instruction words (their fields are the raw bit fields of the word, R16); the other 126 rows are
the indivisible steps of the machine's own engines, homes, hub, referee and management (spec/95_what_each_step_holds.md),
whose arguments name the unit or the queue entry the step acts on, or carry what the outside world supplies. -/
namespace Sys2Proof

/-- One constructor per row of spec/opcode_table.json. -/
inductive Instr where
  /-- ADD (R83): Adds a and b per element under ETYPE, saturating when SAT is set. -/
  | add (d : BitVec 8) (a : BitVec 8) (b : BitVec 8)
  /-- SUB (R83): Subtracts b from a per element, saturating when SAT is set. -/
  | sub (d : BitVec 8) (a : BitVec 8) (b : BitVec 8)
  /-- MUL (R83): Multiplies a by b per element and fits the exact product. -/
  | mul (d : BitVec 8) (a : BitVec 8) (b : BitVec 8)
  /-- MULH (R83): Writes the high w bits of the exact 2w-bit product. -/
  | mulh (d : BitVec 8) (a : BitVec 8) (b : BitVec 8)
  /-- MAD (R83): Writes a times b plus d, fitted once. -/
  | mad (d : BitVec 8) (a : BitVec 8) (b : BitVec 8)
  /-- MIN (R83): Writes the smaller of a and b per element. -/
  | min (d : BitVec 8) (a : BitVec 8) (b : BitVec 8)
  /-- MAX (R83): Writes the larger of a and b per element. -/
  | max (d : BitVec 8) (a : BitVec 8) (b : BitVec 8)
  /-- ABS (R84): Writes the absolute value of each element of a. -/
  | abs (d : BitVec 8) (a : BitVec 8)
  /-- NEG (R84): Writes the negation of each element of a. -/
  | neg (d : BitVec 8) (a : BitVec 8)
  /-- AND (R85): Writes a AND b over the whole word. -/
  | and (d : BitVec 8) (a : BitVec 8) (b : BitVec 8)
  /-- OR (R85): Writes a OR b over the whole word. -/
  | or (d : BitVec 8) (a : BitVec 8) (b : BitVec 8)
  /-- XOR (R85): Writes a XOR b over the whole word. -/
  | xor (d : BitVec 8) (a : BitVec 8) (b : BitVec 8)
  /-- ANDN (R85): Writes a AND NOT b over the whole word. -/
  | andn (d : BitVec 8) (a : BitVec 8) (b : BitVec 8)
  /-- NOT (R84): Writes every bit of a inverted. -/
  | not (d : BitVec 8) (a : BitVec 8)
  /-- SHL (R86): Shifts each element of a left by the amount in b. -/
  | shl (d : BitVec 8) (a : BitVec 8) (b : BitVec 8)
  /-- SHR (R86): Shifts each element of a right, filling zeros. -/
  | shr (d : BitVec 8) (a : BitVec 8) (b : BitVec 8)
  /-- SAR (R86): Shifts each element of a right, filling copies of its top bit. -/
  | sar (d : BitVec 8) (a : BitVec 8) (b : BitVec 8)
  /-- ROL (R86): Rotates each element of a left by the amount in b. -/
  | rol (d : BitVec 8) (a : BitVec 8) (b : BitVec 8)
  /-- POPC (R84): Writes the count of set bits of each element. -/
  | popc (d : BitVec 8) (a : BitVec 8)
  /-- CLZ (R84): Writes the count of leading zero bits of each element. -/
  | clz (d : BitVec 8) (a : BitVec 8)
  /-- BREV (R84): Reverses the bits of each element. -/
  | brev (d : BitVec 8) (a : BitVec 8)
  /-- BFE (R87): Extracts a bit field of a given by position and width in b. -/
  | bfe (d : BitVec 8) (a : BitVec 8) (b : BitVec 8)
  /-- BFI (R87): Inserts the low bits of a into a field of d. -/
  | bfi (d : BitVec 8) (a : BitVec 8) (b : BitVec 8)
  /-- SEL (R88): Selects a where the guard is true and b where it is false. -/
  | sel (d : BitVec 8) (a : BitVec 8) (b : BitVec 8)
  /-- CMP (R89): Compares a with b under a condition and writes a predicate. -/
  | cmp (c : BitVec 4) (p : BitVec 4) (a : BitVec 8) (b : BitVec 8)
  /-- MOV (R84): Copies a into d. -/
  | mov (d : BitVec 8) (a : BitVec 8)
  /-- PLOG (R90): Combines two predicates with AND, OR or XOR. -/
  | plog (c : BitVec 4) (p : BitVec 4) (q : BitVec 4) (r : BitVec 4)
  /-- ADDI (R91): Adds a signed 8-bit immediate to each element. -/
  | addi (d : BitVec 8) (a : BitVec 8) (imm : BitVec 8)
  /-- MOVI (R91): Writes a sign-extended 16-bit immediate. -/
  | movi (d : BitVec 8) (imm : BitVec 16)
  /-- MOVHI (R91): Writes a 16-bit immediate into the upper half of d. -/
  | movhi (d : BitVec 8) (imm : BitVec 16)
  /-- SHLI (R91): Shifts each element left by an immediate amount. -/
  | shli (d : BitVec 8) (a : BitVec 8) (imm : BitVec 8)
  /-- SHRI (R91): Shifts each element right by an immediate, filling zeros. -/
  | shri (d : BitVec 8) (a : BitVec 8) (imm : BitVec 8)
  /-- SARI (R91): Shifts each element right arithmetically by an immediate. -/
  | sari (d : BitVec 8) (a : BitVec 8) (imm : BitVec 8)
  /-- ANDI (R91): ANDs a with a zero-extended 8-bit immediate. -/
  | andi (d : BitVec 8) (a : BitVec 8) (imm : BitVec 8)
  /-- ORI (R91): ORs a with a zero-extended 8-bit immediate. -/
  | ori (d : BitVec 8) (a : BitVec 8) (imm : BitVec 8)
  /-- FADD (R122): Adds floating-point elements, rounded once. -/
  | fadd (d : BitVec 8) (a : BitVec 8) (b : BitVec 8)
  /-- FSUB (R122): Subtracts floating-point elements, rounded once. -/
  | fsub (d : BitVec 8) (a : BitVec 8) (b : BitVec 8)
  /-- FMUL (R122): Multiplies floating-point elements, rounded once. -/
  | fmul (d : BitVec 8) (a : BitVec 8) (b : BitVec 8)
  /-- FFMA (R122): Fused multiply-add of a, b and d, rounded once. -/
  | ffma (d : BitVec 8) (a : BitVec 8) (b : BitVec 8)
  /-- FMIN (R122): Writes the smaller float operand with the NaN rule. -/
  | fmin (d : BitVec 8) (a : BitVec 8) (b : BitVec 8)
  /-- FMAX (R122): Writes the larger float operand with the NaN rule. -/
  | fmax (d : BitVec 8) (a : BitVec 8) (b : BitVec 8)
  /-- FABS (R123): Clears the sign bit of every element. -/
  | fabs (d : BitVec 8) (a : BitVec 8)
  /-- FNEG (R123): Inverts the sign bit of every element. -/
  | fneg (d : BitVec 8) (a : BitVec 8)
  /-- FCMP (R124): Compares float operands under a condition into a predicate. -/
  | fcmp (c : BitVec 4) (p : BitVec 4) (a : BitVec 8) (b : BitVec 8)
  /-- FCLASS (R125): Writes a 10-bit class mask for each element. -/
  | fclass (d : BitVec 8) (a : BitVec 8)
  /-- FRCP (R126): Writes the correctly rounded reciprocal. -/
  | frcp (d : BitVec 8) (a : BitVec 8)
  /-- FRSQ (R126): Writes the correctly rounded reciprocal square root. -/
  | frsq (d : BitVec 8) (a : BitVec 8)
  /-- FSQRT (R126): Writes the correctly rounded square root. -/
  | fsqrt (d : BitVec 8) (a : BitVec 8)
  /-- FEXP2 (R126): Writes the correctly rounded 2 to the power x. -/
  | fexp2 (d : BitVec 8) (a : BitVec 8)
  /-- FLOG2 (R126): Writes the correctly rounded base-2 logarithm. -/
  | flog2 (d : BitVec 8) (a : BitVec 8)
  /-- FSIN (R126): Writes the correctly rounded sine. -/
  | fsin (d : BitVec 8) (a : BitVec 8)
  /-- FCOS (R126): Writes the correctly rounded cosine. -/
  | fcos (d : BitVec 8) (a : BitVec 8)
  /-- FTANH (R126): Writes the correctly rounded hyperbolic tangent. -/
  | ftanh (d : BitVec 8) (a : BitVec 8)
  /-- FDOT2 (R127): Adds a two-element 16-bit dot product to an FP32 d. -/
  | fdot2 (d : BitVec 8) (a : BitVec 8) (b : BitVec 8)
  /-- FSCALE (R128): Multiplies each element by 2 to the power b. -/
  | fscale (d : BitVec 8) (a : BitVec 8) (b : BitVec 8)
  /-- CVT (R131): Converts elements of a to DTYPE under the mode's rounding. -/
  | cvt (d : BitVec 8) (a : BitVec 8) (p : BitVec 2) (t : BitVec 4)
  /-- CVTR (R131): Converts elements of a to DTYPE under an explicit rounding mode. -/
  | cvtr (d : BitVec 8) (a : BitVec 8) (m : BitVec 3) (p : BitVec 1) (t : BitVec 4)
  /-- RNDINT (R132): Rounds each element to an integral value in its format. -/
  | rndint (d : BitVec 8) (a : BitVec 8)
  /-- SHFL (R94): Copies a from the lane named by b. -/
  | shfl (d : BitVec 8) (a : BitVec 8) (b : BitVec 8)
  /-- SHFLX (R94): Copies a from lane l XOR imm8. -/
  | shflx (d : BitVec 8) (a : BitVec 8) (imm : BitVec 8)
  /-- VOTE_ANY (R95): Writes true when the predicate holds in any active lane. -/
  | voteAny (d : BitVec 8) (a : BitVec 8)
  /-- VOTE_ALL (R95): Writes true when the predicate holds in every active lane. -/
  | voteAll (d : BitVec 8) (a : BitVec 8)
  /-- VOTE_BAL (R95): Writes words of the 256-bit ballot into vector registers. -/
  | voteBal (d : BitVec 8) (a : BitVec 8)
  /-- REDU (R96): Combines a over the active lanes into every active lane. -/
  | redu (d : BitVec 8) (a : BitVec 8) (o : BitVec 3)
  /-- SCAN (R96): Writes inclusive or exclusive prefix combinations of a. -/
  | scan (d : BitVec 8) (a : BitVec 8) (e : BitVec 1) (o : BitVec 3)
  /-- MATCH (R97): Writes the lowest active lane holding an equal value. -/
  | laneMatch (d : BitVec 8) (a : BitVec 8)
  /-- BCAST (R94): Copies a from the lane named by imm8. -/
  | bcast (d : BitVec 8) (a : BitVec 8) (imm : BitVec 8)
  /-- UADD (R100): Adds two uniform operands. -/
  | uadd (d : BitVec 8) (a : BitVec 8) (b : BitVec 8)
  /-- USUB (R100): Subtracts two uniform operands. -/
  | usub (d : BitVec 8) (a : BitVec 8) (b : BitVec 8)
  /-- UMUL (R100): Multiplies two uniform operands, low W bits. -/
  | umul (d : BitVec 8) (a : BitVec 8) (b : BitVec 8)
  /-- UMAD (R100): Writes x times y plus d in uniform registers. -/
  | umad (d : BitVec 8) (a : BitVec 8) (b : BitVec 8)
  /-- UAND (R100): ANDs two uniform operands. -/
  | uand (d : BitVec 8) (a : BitVec 8) (b : BitVec 8)
  /-- UOR (R100): ORs two uniform operands. -/
  | uor (d : BitVec 8) (a : BitVec 8) (b : BitVec 8)
  /-- UXOR (R100): XORs two uniform operands. -/
  | uxor (d : BitVec 8) (a : BitVec 8) (b : BitVec 8)
  /-- USHL (R100): Shifts a uniform operand left. -/
  | ushl (d : BitVec 8) (a : BitVec 8) (b : BitVec 8)
  /-- USHR (R100): Shifts a uniform operand right, filling zeros. -/
  | ushr (d : BitVec 8) (a : BitVec 8) (b : BitVec 8)
  /-- USAR (R100): Shifts a uniform operand right arithmetically. -/
  | usar (d : BitVec 8) (a : BitVec 8) (b : BitVec 8)
  /-- UMIN (R100): Writes the smaller uniform operand. -/
  | umin (d : BitVec 8) (a : BitVec 8) (b : BitVec 8)
  /-- UMAX (R100): Writes the larger uniform operand. -/
  | umax (d : BitVec 8) (a : BitVec 8) (b : BitVec 8)
  /-- UCMP (R101): Compares uniform operands into a uniform predicate. -/
  | ucmp (c : BitVec 4) (p : BitVec 4) (a : BitVec 8) (b : BitVec 8)
  /-- USEL (R101): Selects a or b by q0 into a uniform register. -/
  | usel (d : BitVec 8) (a : BitVec 8) (b : BitVec 8)
  /-- UMOVI (R102): Writes a sign-extended immediate to a uniform register. -/
  | umovi (d : BitVec 8) (imm : BitVec 16)
  /-- UMOVHI (R102): Writes an immediate into the upper half of a uniform register. -/
  | umovhi (d : BitVec 8) (imm : BitVec 16)
  /-- UADDI (R100): Adds a signed 8-bit immediate to a uniform operand. -/
  | uaddi (d : BitVec 8) (a : BitVec 8) (imm : BitVec 8)
  /-- UMOV (R102): Copies a uniform operand. -/
  | umov (d : BitVec 8) (a : BitVec 8)
  /-- GETSR (R103): Writes a uniform, constant or special register into a vector register. -/
  | getsr (d : BitVec 8) (a : BitVec 8)
  /-- BRA (R62): Branches each lane by its predicate, pushing a DIV entry on divergence. -/
  | bra (p : BitVec 4) (imm : BitVec 16)
  /-- BRAQ (R63): Branches the whole gang on a uniform predicate. -/
  | braq (p : BitVec 4) (imm : BitVec 16)
  /-- CALL (R64): Pushes a CALL entry and jumps to the target. -/
  | call (imm : BitVec 24)
  /-- RET (R64): Pops a CALL entry and returns its lanes. -/
  | ret
  /-- MARK (R65): Pushes a MARK entry naming the join point. -/
  | mark (imm : BitVec 16)
  /-- JOIN (R65): Pops the join stack and resumes waiting lanes. -/
  | join
  /-- REGANG (R47): Makes the slices wait at a regang site for the group. -/
  | regang (imm : BitVec 16)
  /-- EXIT (R67): Kills the active lanes and resumes waiting lanes or lets the slice die. -/
  | exit
  /-- YIELD (R54): Makes the gang not ready until the other ready gangs have issued. -/
  | yield
  /-- SPINW (R55): Sets the gang spinning with an open range. -/
  | spinw
  /-- TRAP (R69): Raises SOFTWARE with the immediate as cause. -/
  | trap (imm : BitVec 16)
  /-- NOP (R68): Advances the PC with no other effect. -/
  | nop
  /-- SETMODE (R70): Writes mode bits 15:0 of every slice of the gang. -/
  | setmode (imm : BitVec 16)
  /-- SETGRD (R70): Writes the guard field of every slice's mode word. -/
  | setgrd (g : BitVec 4)
  /-- LDB (R150): Loads one byte per active lane, extended by ETYPE. -/
  | ldb (d : BitVec 8) (a : BitVec 8) (imm : BitVec 8)
  /-- LDH (R150): Loads two bytes per active lane, extended by ETYPE. -/
  | ldh (d : BitVec 8) (a : BitVec 8) (imm : BitVec 8)
  /-- LDW (R150): Loads four bytes per active lane. -/
  | ldw (d : BitVec 8) (a : BitVec 8) (imm : BitVec 8)
  /-- LDD (R150): Loads eight bytes into a register pair. -/
  | ldd (d : BitVec 8) (a : BitVec 8) (imm : BitVec 8)
  /-- LDQ (R150): Loads sixteen bytes into four registers. -/
  | ldq (d : BitVec 8) (a : BitVec 8) (imm : BitVec 8)
  /-- STB (R150): Stores one byte per active lane. -/
  | stb (d : BitVec 8) (a : BitVec 8) (imm : BitVec 8)
  /-- STH (R150): Stores two bytes per active lane. -/
  | sth (d : BitVec 8) (a : BitVec 8) (imm : BitVec 8)
  /-- STW (R150): Stores four bytes per active lane. -/
  | stw (d : BitVec 8) (a : BitVec 8) (imm : BitVec 8)
  /-- STD (R150): Stores eight bytes from a register pair. -/
  | std (d : BitVec 8) (a : BitVec 8) (imm : BitVec 8)
  /-- STQ (R150): Stores sixteen bytes from four registers. -/
  | stq (d : BitVec 8) (a : BitVec 8) (imm : BitVec 8)
  /-- LDU (R151): Loads a uniform value for the gang. -/
  | ldu (d : BitVec 8) (a : BitVec 8) (imm : BitVec 8)
  /-- STU (R151): Stores a uniform value for the gang. -/
  | stu (d : BitVec 8) (a : BitVec 8) (imm : BitVec 8)
  /-- SXLD (R154): Unpacks one SX element per lane into FP32. -/
  | sxld (d : BitVec 8) (a : BitVec 8) (imm : BitVec 8)
  /-- SXST (R155): Packs one SX block from each set of 16 lanes and stores it. -/
  | sxst (d : BitVec 8) (a : BitVec 8) (imm : BitVec 8)
  /-- PREF (R156): Requests a line into the L1 or L2 without trapping. -/
  | pref (t : BitVec 2) (a : BitVec 8) (imm : BitVec 8)
  /-- LDS (R183): Subscribes a standing slot to a word, optionally with acquire. -/
  | lds (sc : BitVec 3) (q : BitVec 1) (p : BitVec 4) (a : BitVec 8) (imm : BitVec 8)
  /-- UNSUB (R185): Ends a subscription, moving the slot to CLOSING. -/
  | unsub (p : BitVec 4) (a : BitVec 8) (imm : BitVec 8)
  /-- AADD (R157): Atomic add returning the old value. -/
  | aadd (d : BitVec 8) (a : BitVec 8) (b : BitVec 8)
  /-- AMIN (R157): Atomic minimum returning the old value. -/
  | amin (d : BitVec 8) (a : BitVec 8) (b : BitVec 8)
  /-- AMAX (R157): Atomic maximum returning the old value. -/
  | amax (d : BitVec 8) (a : BitVec 8) (b : BitVec 8)
  /-- AAND (R157): Atomic AND returning the old value. -/
  | aand (d : BitVec 8) (a : BitVec 8) (b : BitVec 8)
  /-- AOR (R157): Atomic OR returning the old value. -/
  | aor (d : BitVec 8) (a : BitVec 8) (b : BitVec 8)
  /-- AXOR (R157): Atomic XOR returning the old value. -/
  | axor (d : BitVec 8) (a : BitVec 8) (b : BitVec 8)
  /-- AXCH (R157): Atomic exchange returning the old value. -/
  | axch (d : BitVec 8) (a : BitVec 8) (b : BitVec 8)
  /-- ACAS (R157): Atomic compare-and-swap returning the old value. -/
  | acas (d : BitVec 8) (a : BitVec 8) (b : BitVec 8)
  /-- FAADD (R161): Contributes one keyed float value per lane to an ordered-add queue. -/
  | faadd (d : BitVec 8) (a : BitVec 8) (b : BitVec 8)
  /-- FAOPEN (R160): Opens an ordered-add queue for a target word. -/
  | faopen (d : BitVec 8) (a : BitVec 8) (b : BitVec 8)
  /-- BANKCFG_GROW (R164): Turns a cache bank into 16 scratchpad pages of the team. -/
  | bankcfgGrow (p : BitVec 4)
  /-- BANKCFG_SHRINK (R164): Returns the team's latest GROW bank to cache mode. -/
  | bankcfgShrink (p : BitVec 4)
  /-- BANKCFG_FIFO (R164): Turns a cache bank into FIFO f of the team. -/
  | bankcfgFifo (p : BitVec 4) (f : BitVec 2)
  /-- BANKCFG_UNFIFO (R164): Returns FIFO f's bank to cache mode. -/
  | bankcfgUnfifo (p : BitVec 4) (f : BitVec 2)
  /-- BIND (R210): Binds a region to a sync object in the package sync table. -/
  | bind (r : BitVec 2) (p : BitVec 4) (a : BitVec 8) (b : BitVec 8)
  /-- UNBIND (R211): Frees a sync object's table entry. -/
  | unbind (p : BitVec 4) (a : BitVec 8)
  /-- ACQ (R212): Reads a sync object at its home and invalidates bound regions. -/
  | acq (d : BitVec 8) (a : BitVec 8) (sc : BitVec 3)
  /-- REL_ST (R213): Cleans or skips, then stores a value to a sync object as a release. -/
  | relSt (d : BitVec 8) (a : BitVec 8) (sc : BitVec 3)
  /-- REL_ADD (R213): Cleans or skips, then adds a value to a sync object as a release. -/
  | relAdd (d : BitVec 8) (a : BitVec 8) (sc : BitVec 3)
  /-- FENCE (R214): Waits for outstanding accesses, then cleans and/or invalidates the L1. -/
  | fence (n : BitVec 1) (c : BitVec 1) (sc : BitVec 3)
  /-- WAITC (R215): Waits until selected outstanding counters fall to a threshold. -/
  | waitc (t : BitVec 8) (m : BitVec 4)
  /-- BATCH (R240): Closes the open batch and returns its number. -/
  | batch (d : BitVec 8)
  /-- WAITB (R240): Waits until closed batches up to n are complete. -/
  | waitb (a : BitVec 8)
  /-- BARINIT (R244): Arms a barrier register with a count. -/
  | barinit (a : BitVec 8) (b : BitVec 4)
  /-- BARA (R245): Makes k arrivals on a barrier and returns the lap. -/
  | bara (d : BitVec 8) (a : BitVec 8) (r : BitVec 1) (b : BitVec 4)
  /-- BARW (R246): Waits until a barrier's lap passes the voted lap. -/
  | barw (a : BitVec 8) (q : BitVec 1) (b : BitVec 4)
  /-- CPY (R233): Posts a copy on the core's copy unit. -/
  | cpy (r : BitVec 1) (b : BitVec 4) (a : BitVec 8) (imm : BitVec 8)
  /-- CPYX (R236): Posts a relay copy with a remote completion flag. -/
  | cpyx (r : BitVec 1) (b : BitVec 4) (a : BitVec 8) (imm : BitVec 8)
  /-- CPYS (R232): Posts a copy into the team's operand slots. -/
  | cpys (r : BitVec 1) (b : BitVec 4) (a : BitVec 8) (imm : BitVec 8)
  /-- SCLAIM (R253): Claims the lowest run of n free operand slots. -/
  | sclaim (d : BitVec 8) (p : BitVec 4) (imm : BitVec 8)
  /-- SREL (R254): Releases n operand slots after their operations finish. -/
  | srel (a : BitVec 8) (imm : BitVec 8)
  /-- TPOST (R262): Posts a task record to the core's task queue. -/
  | tpost (a : BitVec 8) (b : BitVec 8)
  /-- TQRY (R272): Returns the state and step of a queued task. -/
  | tqry (d : BitVec 8) (a : BitVec 8)
  /-- KVAPP (R284): Appends one token's key and value to a slab. -/
  | kvapp (p : BitVec 4) (a : BitVec 8) (b : BitVec 8)
  /-- KVGROW (R286): Doubles a slab and starts moving its pages to a new run. -/
  | kvgrow (r : BitVec 1) (c : BitVec 4) (a : BitVec 8) (b : BitVec 8)
  /-- KVEVICT (R296): Checks and queues an eviction of a slab on the die's eviction engine. -/
  | kvevict (r : BitVec 1) (c : BitVec 4) (a : BitVec 8) (b : BitVec 8)
  /-- SLABLD (R283): Loads a slab descriptor into a free slab-table entry. -/
  | slabld (d : BitVec 8) (a : BitVec 8) (p : BitVec 4)
  /-- SLABST (R283): Stores a slab entry to memory and frees it unless KEEP. -/
  | slabst (d : BitVec 8) (a : BitVec 8) (k : BitVec 1)
  /-- PIN (R317): Raises a frame's pin count within the partition quota. -/
  | pin (p : BitVec 4) (a : BitVec 8)
  /-- UNPIN (R318): Lowers a frame's pin count. -/
  | unpin (p : BitVec 4) (a : BitVec 8)
  /-- PHINT (R319): Sets the tier hint of a run of frames. -/
  | phint (h : BitVec 2) (a : BitVec 8) (imm : BitVec 8)
  /-- PCNT (R320): Reads and optionally clears a frame's access counter. -/
  | pcnt (d : BitVec 8) (a : BitVec 8) (c : BitVec 1)
  /-- LAUNCH (R383): Starts a child grid from a launch record. -/
  | launch (d : BitVec 8) (a : BitVec 8)
  /-- SOLO (R348): Collapses the handler to the single SOLO lane. -/
  | solo
  /-- TRET (R349): Closes the handler frame, reissuing or skipping the logged instruction. -/
  | tret (k : BitVec 1)
  /-- CRD (R350): Reads a control register into a uniform register. -/
  | crd (d : BitVec 8) (imm : BitVec 16)
  /-- CWR (R350): Writes a uniform value to a control register. -/
  | cwr (d : BitVec 8) (imm : BitVec 16)
  /-- TLBI_VA (R352): Shoots down one address of an ASID and waits for acknowledgement. -/
  | tlbiVa (a : BitVec 8) (b : BitVec 8)
  /-- TLBI_ASID (R352): Shoots down all addresses of an ASID. -/
  | tlbiAsid (b : BitVec 8)
  /-- TLBI_GVA (R352): Sends a G-stage shootdown of one address. -/
  | tlbiGva (a : BitVec 8) (b : BitVec 8)
  /-- TLBI_VMID (R352): Sends a G-stage shootdown of all addresses of the VMID. -/
  | tlbiVmid (b : BitVec 8)
  /-- PTST (R353): Translates an address without trapping and returns the result. -/
  | ptst (d : BitVec 8) (a : BitVec 8) (c : BitVec 2)
  /-- IFENCE (R354): Cleans the core's L1 for the ASID and invalidates instruction caches. -/
  | ifence
  /-- UNSOLO (R348): Leaves SOLO mode and regangs the handler slices. -/
  | unsolo
  /-- MIGR_MOVE (R323): Starts a move of a frame or 2 MiB run to a new place. -/
  | migrMove (d : BitVec 8) (a : BitVec 8) (b : BitVec 8)
  /-- MIGR_RETIRE (R327): Frees a forwarding entry or a failed claim entry. -/
  | migrRetire (d : BitVec 8) (a : BitVec 8) (b : BitVec 8)
  /-- MIGR_CLAIM (R330): Takes a claim entry and sends a pool-frame claim to the owner. -/
  | migrClaim (d : BitVec 8) (a : BitVec 8) (b : BitVec 8)
  /-- SNAP (R405): Sends a snapshot trigger numbered N. -/
  | snap (d : BitVec 8) (imm : BitVec 16)
  /-- FTMAP (R355): Serves a first-touch fault by mapping a local frame. -/
  | ftmap (d : BitVec 8) (a : BitVec 8)
  /-- RINGP (R356): Writes a fault-ring entry and parks the group. -/
  | ringp (d : BitVec 8)
  /-- GRES (R357): Resumes a parked group by closing its frame. -/
  | gres (d : BitVec 8) (a : BitVec 8) (k : BitVec 1)
  /-- GKILL (R357): Kills a parked group of the partition. -/
  | gkill (d : BitVec 8) (a : BitVec 8)
  /-- RESERVED_OPCODE (R34): A word with opcode 0x00, 0xFF or a reserved opcode raises ILLEGAL. -/
  | reservedOpcode (w : BitVec 32)
  /-- REGANG_MERGE (R47): When every live slice waits, slices at each site merge and advance. -/
  | regangMerge (gid : Nat)
  /-- YIELD_RELEASE (R54): A yielding gang becomes ready once the others have issued. -/
  | yieldRelease (gid : Nat) (gang : Nat)
  /-- SPIN_AGE_PROMOTE (R56): A spinner ready for 256 clocks ranks by age for one issue. -/
  | spinAgePromote (gid : Nat) (gang : Nat)
  /-- POST_TAKEN (R53): An engine queue takes a post from a partition's post buffer. -/
  | postTaken (core : Nat) (part : Nat)
  /-- LOAD_DATA_RETURN (R76): Load data returns and writes its destination register. -/
  | loadDataReturn (core : Nat) (id : Nat)
  /-- STORE_PERFORMED (R149): A store completes and leaves the store counter. -/
  | storePerformed (core : Nat) (id : Nat)
  /-- ATOMIC_REPLY (R158): An atomic's reply returns the old value and leaves the counter. -/
  | atomicReply (core : Nat) (id : Nat)
  /-- GROUP_RETIRE (R43): A group with all slices dead and counters zero retires and frees its registers. -/
  | groupRetire (gid : Nat)
  /-- WAITC_PASS (R215): A WAITC gang becomes ready when its counters reach the threshold. -/
  | waitcPass (gid : Nat) (gang : Nat)
  /-- WAITB_PASS (R240): A WAITB passes once its batches complete and invalidates their ranges. -/
  | waitbPass (gid : Nat) (gang : Nat)
  /-- BARW_PASS (R246): A BARW passes when the lap advances and invalidates LAST ranges. -/
  | barwPass (gid : Nat) (gang : Nat)
  /-- TRANSLATION_WALK (R303): An L1 miss translates through the TLB and page tables. -/
  | translationWalk (core : Nat) (id : Nat)
  /-- BANK_MODE_CHANGE (R139): A bank changes mode after its accesses drain, writing back and zeroing. -/
  | bankModeChange (core : Nat)
  /-- FIFO_PUSH_COMPLETE (R138): A waiting FIFO push completes when an entry is popped. -/
  | fifoPushComplete (core : Nat) (id : Nat)
  /-- FIFO_POP_COMPLETE (R138): A waiting FIFO pop returns when an entry arrives. -/
  | fifoPopComplete (core : Nat) (id : Nat)
  /-- ORDERED_ADD_APPLY (R162): A full ordered-add queue adds its values in key order and sets the flag. -/
  | orderedAddApply (n : Nat)
  /-- HOME_STORE_APPLY (R172): A store enters a word's coherence order at its home. pa holds, above the 57 bits of the address, which agent stores: 0 the CPU die,
  1 + p pool package p (log 57). -/
  | homeStoreApply (pa : Nat) (bytes : List (BitVec 8))
  /-- PUSH_ARRIVAL (R176): A push reaches the core's inbox and is taken, coalesced or refused. -/
  | pushArrival (n : Nat)
  /-- REFUSED_PUSH_RETURN (R176): A refused push returns to the home, which sets the subscription pending. -/
  | refusedPushReturn (n : Nat)
  /-- INBOX_DELIVERY (R178): The core writes an inbox entry to its slot, invalidating first for ACQ. -/
  | inboxDelivery (core : Nat)
  /-- INBOX_SIGNAL (R177): A refusing core at 48 entries or fewer signals the homes. -/
  | inboxSignal (core : Nat)
  /-- REDELIVERY (R177): A signalled home sends redeliveries for pending subscriptions. -/
  | redelivery (home : Nat) (core : Nat)
  /-- REDELIVERY_ACCEPT (R177): The core accepts a redelivery and makes the slot LIVE. -/
  | redeliveryAccept (n : Nat)
  /-- SUB_REMOVE (R186): The home removes an UNSUB'd entry and replies behind its pushes. -/
  | subRemove (n : Nat)
  /-- UNSUB_COMPLETE (R186): The core writes pending entries and a final write, freeing the slot. -/
  | unsubComplete (n : Nat)
  /-- SUB_LOSS (R187): A lost subscription gets a final write with SUB_LOST and becomes FREE. -/
  | subLoss (home : Nat) (idx : Nat) (cause : Nat)
  /-- SUB_PARK (R190): A home marks a subscription parked on request. -/
  | subPark (n : Nat)
  /-- SUB_REPOINT (R191): A home re-points a restored subscription and may redeliver. -/
  | subRepoint (n : Nat)
  /-- LEASE_RENEW (R218): A holder renews its leases every P/4. -/
  | leaseRenew (home : Nat) (agent : Nat)
  /-- LEASE_RELEASE (R218): A holder with nothing in a region releases its lease. -/
  | leaseRelease (home : Nat) (agent : Nat) (region : Nat)
  /-- LEASE_EXPIRY (R219): An unrenewed lease expires and the home reverts and revokes. -/
  | leaseExpiry (home : Nat) (agent : Nat) (region : Nat)
  /-- RANGE_LOCK_START (R222): A waiting engine operation takes its range locks and starts. -/
  | rangeLockStart (die : Nat) (n : Nat)
  /-- COPY_TRANSFER (R233): A channel takes a queued copy and moves its bytes. -/
  | copyTransfer (core : Nat) (id : Nat)
  /-- COPY_FAULT (R235): After data stops at a faulting page, the copy raises COPY_FAULT. -/
  | copyFault (core : Nat) (id : Nat)
  /-- COPY_COMPLETE (R233): A copy completes and makes its flag, barrier and batch actions. -/
  | copyComplete (core : Nat) (id : Nat)
  /-- RELAY_ENQUEUE (R236): A CPYX moves from the descriptor queue to the relay queue. -/
  | relayEnqueue (core : Nat) (id : Nat)
  /-- BARRIER_ARRIVAL (R242): An arrival reaches the home core and decrements PENDING. -/
  | barrierArrival (n : Nat)
  /-- SLOT_ZERO (R254): The zeroing engine zeroes a released slot and frees it. -/
  | slotZero (core : Nat)
  /-- TASK_FETCH (R263): The scheduler fetches and validates a posted task record. -/
  | taskFetch (core : Nat) (id : Nat)
  /-- TASK_START (R266): A ready task is given to a free engine and registers locks. -/
  | taskStart (core : Nat) (id : Nat)
  /-- TASK_STEP (R268): An engine step translates, runs and commits. -/
  | taskStep (core : Nat) (id : Nat)
  /-- TASK_COMPLETE (R266): A task writes DONE, arrives, releases locks and readies dependants. -/
  | taskComplete (core : Nat) (id : Nat)
  /-- GROW_PAGE_MOVE (R286): The copy unit moves one slab page and advances WMARK. -/
  | growPageMove (core : Nat) (id : Nat)
  /-- EVICT_RUN (R297): The eviction engine compacts surviving tokens into the new run. -/
  | evictRun (die : Nat)
  /-- EVICT_SWITCH (R298): The entry switches to the new run and GEN advances. -/
  | evictSwitch (die : Nat)
  /-- EVICT_COMPLETE (R299): Once old pages have no readers the eviction arrives and completes. -/
  | evictComplete (die : Nat) (id : Nat)
  /-- EVICT_FAULT (R299): A fault before the switch stops the eviction with KV_ERR cause 8. -/
  | evictFault (die : Nat)
  /-- SHOOTDOWN (R310): A translation unit invalidates entries and lines, then acknowledges. -/
  | shootdown (gstage : Bool) (asid : Nat) (vmid : Nat) (va : Option Nat)
  /-- MIGRATE_LINE (R325): The migration engine copies line W from O to N. -/
  | migrateLine (slot : Nat)
  /-- STALLED_WRITE_RETRY (R325): A write refused by a full stalled-write window is retried. -/
  | stalledWriteRetry (n : Nat)
  /-- CLAIM_REQUEST (R330): The owner's hub receives a claim and sets CLAIM. -/
  | claimRequest (frame : Nat) (claimant : Nat) (part : Nat)
  /-- HANDOVER_RELEASE (R332): The owner releases the pool frame to the claimant. -/
  | handoverRelease (frame : Nat)
  /-- HOLIM_EXPIRY (R330): The owner's handover limit expires and the claim is refused. -/
  | holimExpiry (frame : Nat)
  /-- CLAIM_TIMEOUT (R330): The claimant fails a claim after twice its HOLIM. -/
  | claimTimeout (entry : Nat)
  /-- CLAIM_GRANT (R332): The claimant clears MIG and frees the claim entry. -/
  | claimGrant (entry : Nat)
  /-- CLAIM_REFUSAL (R332): The claimant marks the claim entry failed. -/
  | claimRefusal (entry : Nat) (owner : Nat)
  /-- SHARE_INC (R313): Frame operation: raises the share count. -/
  | shareInc (part : Nat) (frame : Nat)
  /-- SHARE_DEC (R313): Frame operation: lowers the share count. -/
  | shareDec (part : Nat) (frame : Nat)
  /-- PIN_INC (R313): Frame operation: pins the frame as PIN does. -/
  | pinInc (part : Nat) (frame : Nat)
  /-- PIN_DEC (R313): Frame operation: unpins the frame as UNPIN does. -/
  | pinDec (part : Nat) (frame : Nat)
  /-- PIN_CLR (R313): Frame operation: clears the pin count and adjusts the quota. -/
  | pinClr (part : Nat) (frame : Nat)
  /-- ACC_CLR (R313): Frame operation: clears the access counter. -/
  | accClr (part : Nat) (frame : Nat)
  /-- ASSIGN (R313): Frame operation: allocates the frame to a partition. -/
  | assign (part : Nat) (frame : Nat) (operand : Nat)
  /-- FREE (R313): Frame operation: frees the frame. -/
  | free (part : Nat) (frame : Nat)
  /-- LEASE_CLR (R351): A write to LEASE_CLR clears LEASE_LOST for a region. -/
  | leaseClr (die : Nat) (part : Nat) (v : BitVec 32)
  /-- TFCUR_WRITE (R344): A write to TFCUR moves the SOLO lane within FMASK. -/
  | tfcurWrite (gid : Nat) (v : BitVec 32)
  /-- CONTROL_REG_WRITE (R351): A write to a register without behaviour of its own. -/
  | controlRegWrite (space : Nat) (unit : Nat) (off : Nat) (v : BitVec 64)
  /-- TRAP_DELIVERY (R340): The lowest-key trap entry is delivered and the handler frame opens. -/
  | trapDelivery (gid : Nat)
  /-- HELD_TRAP_ENTER (R337): A held asynchronous trap enters the queue when an entry frees. -/
  | heldTrapEnter (core : Nat)
  /-- HELD_TRAP_RETRY (R337): A source facing a full held-trap buffer offers the trap again every 64 clocks. -/
  | heldTrapRetry (core : Nat)
  /-- FAULT_QUEUE_POST (R399): A record and group handle are posted to the referee's fault queue. -/
  | faultQueuePost
  /-- FAULT_QUEUE_RETRY (R399): A posting that finds the queue full is retried every 64 home clocks. -/
  | faultQueueRetry
  /-- REFEREE_FORWARD (R400): The referee writes a fault entry to the partition's ring and signals. -/
  | refereeForward
  /-- REFEREE_RING_RETRY (R400): An entry blocked by a full referee ring is offered again every 64 home clocks. -/
  | refereeRingRetry (n : Nat)
  /-- PQPOP (R371): Reading PQPOP moves the oldest pending team entry into PQE. -/
  | pqpop (die : Nat)
  /-- COMMIT (R369): A commit checks a bind record and places the team on one clock. -/
  | commit (die : Nat) (v : BitVec 32)
  /-- PREEMPT (R371): The pacer loads an incoming context and requests a swap. -/
  | preempt (die : Nat) (v : BitVec 32)
  /-- SWAP (R358): The 128-clock swap exchanges outgoing and incoming contexts. -/
  | swap (die : Nat)
  /-- SPILL (R361): The spill engine writes the outgoing context to the save area. -/
  | spill (core : Nat) (slot : Nat)
  /-- SPILL_COMPLETE (R371): The spill ends, storage is released and a RESTORE entry is queued. -/
  | spillComplete (core : Nat) (slot : Nat)
  /-- RESTORE_FILL (R362): The spill engine restores slots, slab entries and scratchpad. -/
  | restoreFill (core : Nat) (slot : Nat)
  /-- TEAM_RELEASE (R367): A draining team's slot becomes FREE once its operations finish. -/
  | teamRelease (core : Nat) (slot : Nat)
  /-- SUBMIT (R389): A write to SUBMIT hands the packet buffer to the launch port. -/
  | submit (page : Nat) (pkt : List (BitVec 8))
  /-- LAUNCH_PACKET (R380): The launch port checks a packet and creates a grid or refuses it. -/
  | launchPacket
  /-- FABRIC_FRAME_RX (R392): An Ethernet port receives a Puwieg frame and hands on or drops it. -/
  | fabricFrameRx (port : Nat) (frame : List (BitVec 8)) (fcsOk : Bool)
  /-- LAUNCH_REQUEST (R383): The port checks a LAUNCH request and creates a child grid. -/
  | launchRequest
  /-- LAUNCH_REPLY (R383): The port's reply writes the grid identifier or status into d. -/
  | launchReply (n : Nat)
  /-- RESPONSE_WRITE (R390): The port writes a response to the source's ring, holding it when full. -/
  | responseWrite (page : Nat)
  /-- GRID_DEAL (R377): Once predecessors complete the hub deals teams to pending queues. -/
  | gridDeal (grid : BitVec 64)
  /-- GRID_COMPLETE (R377): The last team retires; regions are cleaned and DONE is stored. -/
  | gridComplete (grid : BitVec 64)
  /-- FUNCTION_LEVEL_RESET (R395): An FLR tears down the function's grids and resets its page. -/
  | functionLevelReset (vf : Nat)
  /-- HOT_RESET (R396): A hot reset resets the endpoint; SELF-clear grids are torn down. -/
  | hotReset
  /-- DIE_READMIT (R398): A reset die is readmitted after UCIe retraining. -/
  | dieReadmit (die : Nat)
  /-- COLD_START (R402): A cold start begins the boot stages from a firmware slot. -/
  | coldStart
  /-- BOOT_STAGE (R402): A boot stage completes or fails its checks. -/
  | bootStage (reason : Nat)
  /-- BOOT_STAGE_TIMEOUT (R402): A stage lasting more than 2^30 home clocks fails the start. -/
  | bootStageTimeout
  /-- GET_BOOT_STATUS (R408): Mailbox command returning BOOT_STATUS. -/
  | getBootStatus (src : Nat) (arg : List (BitVec 8))
  /-- SET_OWNER (R408): Mailbox command setting which source may issue owner commands. -/
  | setOwner (src : Nat) (arg : List (BitVec 8))
  /-- IMAGE_BEGIN (R408): Mailbox command erasing and opening the unused image slot. -/
  | imageBegin (src : Nat) (arg : List (BitVec 8))
  /-- IMAGE_DATA (R408): Mailbox command writing image bytes at an offset. -/
  | imageData (src : Nat) (arg : List (BitVec 8))
  /-- IMAGE_END (R408): Mailbox command verifying the image and marking it bootable. -/
  | imageEnd (src : Nat) (arg : List (BitVec 8))
  /-- COMMIT_SVN (R401): Mailbox command raising the anti-rollback count. -/
  | commitSvn (src : Nat) (arg : List (BitVec 8))
  /-- SET_PARTITION (R388): Mailbox command writing a partition record under R388. -/
  | setPartition (src : Nat) (arg : List (BitVec 8))
  /-- GET_PARTITION (R408): Mailbox command reading a partition record. -/
  | getPartition (src : Nat) (arg : List (BitVec 8))
  /-- SET_TENANT (R408): Mailbox command writing a tenant table entry. -/
  | setTenant (src : Nat) (arg : List (BitVec 8))
  /-- GET_TENANT (R408): Mailbox command reading a tenant entry with KEY as 0. -/
  | getTenant (src : Nat) (arg : List (BitVec 8))
  /-- TEAR_DOWN (R394): Mailbox command tearing down a live grid. -/
  | tearDown (src : Nat) (arg : List (BitVec 8))
  /-- DIE_RESET (R398): Mailbox command warm-resetting a compute die. -/
  | dieReset (src : Nat) (arg : List (BitVec 8))
  /-- SNAP_MAILBOX (R404): Mailbox command sending a snapshot trigger. -/
  | snapMailbox (src : Nat) (arg : List (BitVec 8))
  /-- SET_HOLIM (R331): Mailbox command writing the hub's handover limit. -/
  | setHolim (src : Nat) (arg : List (BitVec 8))
  /-- READ_LOG (R408): Mailbox command reading entries of the referee log. -/
  | readLog (src : Nat) (arg : List (BitVec 8))
  /-- READ_SENSORS (R408): Mailbox command returning current sensor readings. -/
  | readSensors (src : Nat) (arg : List (BitVec 8))
  /-- SPDM (R401): Mailbox or DOE command carrying an SPDM 1.3 attestation message. -/
  | spdm (src : Nat) (arg : List (BitVec 8))
  /-- SNAPTRIG (R404): A referee write to SNAPTRIG sends a snapshot trigger. -/
  | snaptrig (n : BitVec 16)
  /-- SNAPSHOT_LATCH (R404): A block receiving a trigger latches its counters and SNAPNUM. -/
  | snapshotLatch (block : Nat)
  /-- SNAPSHOT_COMPLETE (R404): A trigger completes when every block has acknowledged. -/
  | snapshotComplete
  /-- GCMD_GRES (R357): A GCMD write of 0 resumes the group named by GHANDLE. -/
  | gcmdGres (part : Nat)
  /-- GCMD_GRES_SKIP (R357): A GCMD write of 1 resumes the group with SKIP. -/
  | gcmdGresSkip (part : Nat)
  /-- GCMD_GKILL (R357): A GCMD write of 2 kills the group named by GHANDLE. -/
  | gcmdGkill (part : Nat)
  /-- PACER_RECORD_WRITE (R367): The pacer writes a bind record into a slot, moving it from FREE to BOUND, or writes STATE 0x00 to free a refused slot. -/
  | pacerRecordWrite (core : Nat) (slot : Nat) (bytes : List (BitVec 8))
  /-- RSPHEAD_WRITE (R390): A host write to RSPHEAD frees ring room, so a held response is written and the function's packets are taken again. -/
  | rspheadWrite (page : Nat) (v : BitVec 32)
  /-- RSPBASE_WRITE (R396): A write to RSPBASE after a hot reset ends the discarding of responses for a self-hosted function. -/
  | rspbaseWrite (page : Nat) (v : BitVec 64)
  /-- LINE_REQUEST (R203): A home takes a line request from a CPU-die hart or a pool package, granting leases, counting ACC and reporting joins to sync objects. -/
  | lineRequest (agent : Nat) (pa : Nat) (write : Bool)
  /-- COMPLETION_TIMEOUT (R393): An upstream-window access whose host completion times out is reported with REASON 5. -/
  | completionTimeout (core : Nat) (id : Nat)
  /-- SENSOR_BEYOND_LIMIT (R408): A sensor reading that passes its limit makes the referee write a log entry with EVENT 6. -/
  | sensorBeyondLimit (sensor : Nat)
deriving DecidableEq, Repr

end Sys2Proof
end

