-- ==== Sys2Proof/Decode.lean ====
section
/-! DEFINITION. Decoding of instruction words (01 R15 to R17, R31, R33) and the encoder beside it.
A word is a number below 2^32, bit 0 its least significant bit; in memory it is stored little-endian (R15).
A word with a reserved opcode is the row RESERVED_OPCODE; a word of a known opcode whose fields no row admits is
rejected, and the step then raises the trap that R35 gives it (Machine/Operands.lean, decodeCheck). -/
namespace Sys2Proof

/-- Bits lo .. lo+n-1 of the word w. -/
def fld (n lo w : Nat) : BitVec n := BitVec.ofNat n (w / 2 ^ lo)

/-- The opcodes of the opcode map (01 R31): every other opcode byte is reserved. -/
def opcodeUsed (op : Nat) : Bool :=
  (1 ≤ op && op ≤ 35) || (48 ≤ op && op ≤ 70) || (80 ≤ op && op ≤ 86) || (96 ≤ op && op ≤ 114) || (128 ≤ op && op ≤ 141) || (144 ≤ op && op ≤ 171) || (176 ≤ op && op ≤ 189) || (192 ≤ op && op ≤ 200) || (208 ≤ op && op ≤ 214) || (240 ≤ op && op ≤ 251)

/-- The instruction a word stands for; none where no row of the opcode table admits its fields. -/
def decodeWord (w : Nat) : Option Instr :=
  match w / 2 ^ 24 with
  | 1 => some (.add (fld 8 16 w) (fld 8 8 w) (fld 8 0 w))
  | 2 => some (.sub (fld 8 16 w) (fld 8 8 w) (fld 8 0 w))
  | 3 => some (.mul (fld 8 16 w) (fld 8 8 w) (fld 8 0 w))
  | 4 => some (.mulh (fld 8 16 w) (fld 8 8 w) (fld 8 0 w))
  | 5 => some (.mad (fld 8 16 w) (fld 8 8 w) (fld 8 0 w))
  | 6 => some (.min (fld 8 16 w) (fld 8 8 w) (fld 8 0 w))
  | 7 => some (.max (fld 8 16 w) (fld 8 8 w) (fld 8 0 w))
  | 8 => if w / 2 ^ 0 % 2 ^ 8 = 0 then some (.abs (fld 8 16 w) (fld 8 8 w)) else none
  | 9 => if w / 2 ^ 0 % 2 ^ 8 = 0 then some (.neg (fld 8 16 w) (fld 8 8 w)) else none
  | 10 => some (.and (fld 8 16 w) (fld 8 8 w) (fld 8 0 w))
  | 11 => some (.or (fld 8 16 w) (fld 8 8 w) (fld 8 0 w))
  | 12 => some (.xor (fld 8 16 w) (fld 8 8 w) (fld 8 0 w))
  | 13 => some (.andn (fld 8 16 w) (fld 8 8 w) (fld 8 0 w))
  | 14 => if w / 2 ^ 0 % 2 ^ 8 = 0 then some (.not (fld 8 16 w) (fld 8 8 w)) else none
  | 15 => some (.shl (fld 8 16 w) (fld 8 8 w) (fld 8 0 w))
  | 16 => some (.shr (fld 8 16 w) (fld 8 8 w) (fld 8 0 w))
  | 17 => some (.sar (fld 8 16 w) (fld 8 8 w) (fld 8 0 w))
  | 18 => some (.rol (fld 8 16 w) (fld 8 8 w) (fld 8 0 w))
  | 19 => if w / 2 ^ 0 % 2 ^ 8 = 0 then some (.popc (fld 8 16 w) (fld 8 8 w)) else none
  | 20 => if w / 2 ^ 0 % 2 ^ 8 = 0 then some (.clz (fld 8 16 w) (fld 8 8 w)) else none
  | 21 => if w / 2 ^ 0 % 2 ^ 8 = 0 then some (.brev (fld 8 16 w) (fld 8 8 w)) else none
  | 22 => some (.bfe (fld 8 16 w) (fld 8 8 w) (fld 8 0 w))
  | 23 => some (.bfi (fld 8 16 w) (fld 8 8 w) (fld 8 0 w))
  | 24 => some (.sel (fld 8 16 w) (fld 8 8 w) (fld 8 0 w))
  | 25 => some (.cmp (fld 4 20 w) (fld 4 16 w) (fld 8 8 w) (fld 8 0 w))
  | 26 => if w / 2 ^ 0 % 2 ^ 8 = 0 then some (.mov (fld 8 16 w) (fld 8 8 w)) else none
  | 27 => if w / 2 ^ 4 % 2 ^ 4 = 0 ∧ w / 2 ^ 12 % 2 ^ 4 = 0 then some (.plog (fld 4 20 w) (fld 4 16 w) (fld 4 8 w) (fld 4 0 w)) else none
  | 28 => some (.addi (fld 8 16 w) (fld 8 8 w) (fld 8 0 w))
  | 29 => some (.movi (fld 8 16 w) (fld 16 0 w))
  | 30 => some (.movhi (fld 8 16 w) (fld 16 0 w))
  | 31 => some (.shli (fld 8 16 w) (fld 8 8 w) (fld 8 0 w))
  | 32 => some (.shri (fld 8 16 w) (fld 8 8 w) (fld 8 0 w))
  | 33 => some (.sari (fld 8 16 w) (fld 8 8 w) (fld 8 0 w))
  | 34 => some (.andi (fld 8 16 w) (fld 8 8 w) (fld 8 0 w))
  | 35 => some (.ori (fld 8 16 w) (fld 8 8 w) (fld 8 0 w))
  | 48 => some (.fadd (fld 8 16 w) (fld 8 8 w) (fld 8 0 w))
  | 49 => some (.fsub (fld 8 16 w) (fld 8 8 w) (fld 8 0 w))
  | 50 => some (.fmul (fld 8 16 w) (fld 8 8 w) (fld 8 0 w))
  | 51 => some (.ffma (fld 8 16 w) (fld 8 8 w) (fld 8 0 w))
  | 52 => some (.fmin (fld 8 16 w) (fld 8 8 w) (fld 8 0 w))
  | 53 => some (.fmax (fld 8 16 w) (fld 8 8 w) (fld 8 0 w))
  | 54 => if w / 2 ^ 0 % 2 ^ 8 = 0 then some (.fabs (fld 8 16 w) (fld 8 8 w)) else none
  | 55 => if w / 2 ^ 0 % 2 ^ 8 = 0 then some (.fneg (fld 8 16 w) (fld 8 8 w)) else none
  | 56 => some (.fcmp (fld 4 20 w) (fld 4 16 w) (fld 8 8 w) (fld 8 0 w))
  | 57 => if w / 2 ^ 0 % 2 ^ 8 = 0 then some (.fclass (fld 8 16 w) (fld 8 8 w)) else none
  | 58 => if w / 2 ^ 0 % 2 ^ 8 = 0 then some (.frcp (fld 8 16 w) (fld 8 8 w)) else none
  | 59 => if w / 2 ^ 0 % 2 ^ 8 = 0 then some (.frsq (fld 8 16 w) (fld 8 8 w)) else none
  | 60 => if w / 2 ^ 0 % 2 ^ 8 = 0 then some (.fsqrt (fld 8 16 w) (fld 8 8 w)) else none
  | 61 => if w / 2 ^ 0 % 2 ^ 8 = 0 then some (.fexp2 (fld 8 16 w) (fld 8 8 w)) else none
  | 62 => if w / 2 ^ 0 % 2 ^ 8 = 0 then some (.flog2 (fld 8 16 w) (fld 8 8 w)) else none
  | 63 => if w / 2 ^ 0 % 2 ^ 8 = 0 then some (.fsin (fld 8 16 w) (fld 8 8 w)) else none
  | 64 => if w / 2 ^ 0 % 2 ^ 8 = 0 then some (.fcos (fld 8 16 w) (fld 8 8 w)) else none
  | 65 => if w / 2 ^ 0 % 2 ^ 8 = 0 then some (.ftanh (fld 8 16 w) (fld 8 8 w)) else none
  | 66 => some (.fdot2 (fld 8 16 w) (fld 8 8 w) (fld 8 0 w))
  | 67 => some (.fscale (fld 8 16 w) (fld 8 8 w) (fld 8 0 w))
  | 68 => if w / 2 ^ 6 % 2 ^ 2 = 0 then some (.cvt (fld 8 16 w) (fld 8 8 w) (fld 2 4 w) (fld 4 0 w)) else none
  | 69 => some (.cvtr (fld 8 16 w) (fld 8 8 w) (fld 3 5 w) (fld 1 4 w) (fld 4 0 w))
  | 70 => if w / 2 ^ 0 % 2 ^ 8 = 0 then some (.rndint (fld 8 16 w) (fld 8 8 w)) else none
  | 80 => some (.shfl (fld 8 16 w) (fld 8 8 w) (fld 8 0 w))
  | 81 => some (.shflx (fld 8 16 w) (fld 8 8 w) (fld 8 0 w))
  | 82 => if w / 2 ^ 0 % 2 ^ 8 = 0 then some (.voteAny (fld 8 16 w) (fld 8 8 w)) else if w / 2 ^ 0 % 2 ^ 8 = 1 then some (.voteAll (fld 8 16 w) (fld 8 8 w)) else if w / 2 ^ 0 % 2 ^ 8 = 2 then some (.voteBal (fld 8 16 w) (fld 8 8 w)) else none
  | 83 => if w / 2 ^ 3 % 2 ^ 5 = 0 then some (.redu (fld 8 16 w) (fld 8 8 w) (fld 3 0 w)) else none
  | 84 => if w / 2 ^ 4 % 2 ^ 4 = 0 then some (.scan (fld 8 16 w) (fld 8 8 w) (fld 1 3 w) (fld 3 0 w)) else none
  | 85 => if w / 2 ^ 0 % 2 ^ 8 = 0 then some (.laneMatch (fld 8 16 w) (fld 8 8 w)) else none
  | 86 => some (.bcast (fld 8 16 w) (fld 8 8 w) (fld 8 0 w))
  | 96 => some (.uadd (fld 8 16 w) (fld 8 8 w) (fld 8 0 w))
  | 97 => some (.usub (fld 8 16 w) (fld 8 8 w) (fld 8 0 w))
  | 98 => some (.umul (fld 8 16 w) (fld 8 8 w) (fld 8 0 w))
  | 99 => some (.umad (fld 8 16 w) (fld 8 8 w) (fld 8 0 w))
  | 100 => some (.uand (fld 8 16 w) (fld 8 8 w) (fld 8 0 w))
  | 101 => some (.uor (fld 8 16 w) (fld 8 8 w) (fld 8 0 w))
  | 102 => some (.uxor (fld 8 16 w) (fld 8 8 w) (fld 8 0 w))
  | 103 => some (.ushl (fld 8 16 w) (fld 8 8 w) (fld 8 0 w))
  | 104 => some (.ushr (fld 8 16 w) (fld 8 8 w) (fld 8 0 w))
  | 105 => some (.usar (fld 8 16 w) (fld 8 8 w) (fld 8 0 w))
  | 106 => some (.umin (fld 8 16 w) (fld 8 8 w) (fld 8 0 w))
  | 107 => some (.umax (fld 8 16 w) (fld 8 8 w) (fld 8 0 w))
  | 108 => some (.ucmp (fld 4 20 w) (fld 4 16 w) (fld 8 8 w) (fld 8 0 w))
  | 109 => some (.usel (fld 8 16 w) (fld 8 8 w) (fld 8 0 w))
  | 110 => some (.umovi (fld 8 16 w) (fld 16 0 w))
  | 111 => some (.umovhi (fld 8 16 w) (fld 16 0 w))
  | 112 => some (.uaddi (fld 8 16 w) (fld 8 8 w) (fld 8 0 w))
  | 113 => if w / 2 ^ 0 % 2 ^ 8 = 0 then some (.umov (fld 8 16 w) (fld 8 8 w)) else none
  | 114 => if w / 2 ^ 0 % 2 ^ 8 = 0 then some (.getsr (fld 8 16 w) (fld 8 8 w)) else none
  | 128 => if w / 2 ^ 20 % 2 ^ 4 = 0 then some (.bra (fld 4 16 w) (fld 16 0 w)) else none
  | 129 => if w / 2 ^ 20 % 2 ^ 4 = 0 then some (.braq (fld 4 16 w) (fld 16 0 w)) else none
  | 130 => some (.call (fld 24 0 w))
  | 131 => if w / 2 ^ 0 % 2 ^ 24 = 0 then some (.ret) else none
  | 132 => if w / 2 ^ 16 % 2 ^ 8 = 0 then some (.mark (fld 16 0 w)) else none
  | 133 => if w / 2 ^ 0 % 2 ^ 24 = 0 then some (.join) else none
  | 134 => if w / 2 ^ 16 % 2 ^ 8 = 0 then some (.regang (fld 16 0 w)) else none
  | 135 => if w / 2 ^ 0 % 2 ^ 24 = 0 then some (.exit) else none
  | 136 => if w / 2 ^ 0 % 2 ^ 24 = 0 then some (.yield) else none
  | 137 => if w / 2 ^ 0 % 2 ^ 24 = 0 then some (.spinw) else none
  | 138 => if w / 2 ^ 16 % 2 ^ 8 = 0 then some (.trap (fld 16 0 w)) else none
  | 139 => if w / 2 ^ 0 % 2 ^ 24 = 0 then some (.nop) else none
  | 140 => if w / 2 ^ 16 % 2 ^ 8 = 0 then some (.setmode (fld 16 0 w)) else none
  | 141 => if w / 2 ^ 4 % 2 ^ 20 = 0 then some (.setgrd (fld 4 0 w)) else none
  | 144 => some (.ldb (fld 8 16 w) (fld 8 8 w) (fld 8 0 w))
  | 145 => some (.ldh (fld 8 16 w) (fld 8 8 w) (fld 8 0 w))
  | 146 => some (.ldw (fld 8 16 w) (fld 8 8 w) (fld 8 0 w))
  | 147 => some (.ldd (fld 8 16 w) (fld 8 8 w) (fld 8 0 w))
  | 148 => some (.ldq (fld 8 16 w) (fld 8 8 w) (fld 8 0 w))
  | 149 => some (.stb (fld 8 16 w) (fld 8 8 w) (fld 8 0 w))
  | 150 => some (.sth (fld 8 16 w) (fld 8 8 w) (fld 8 0 w))
  | 151 => some (.stw (fld 8 16 w) (fld 8 8 w) (fld 8 0 w))
  | 152 => some (.std (fld 8 16 w) (fld 8 8 w) (fld 8 0 w))
  | 153 => some (.stq (fld 8 16 w) (fld 8 8 w) (fld 8 0 w))
  | 154 => some (.ldu (fld 8 16 w) (fld 8 8 w) (fld 8 0 w))
  | 155 => some (.stu (fld 8 16 w) (fld 8 8 w) (fld 8 0 w))
  | 156 => some (.sxld (fld 8 16 w) (fld 8 8 w) (fld 8 0 w))
  | 157 => some (.sxst (fld 8 16 w) (fld 8 8 w) (fld 8 0 w))
  | 158 => if w / 2 ^ 18 % 2 ^ 6 = 0 then some (.pref (fld 2 16 w) (fld 8 8 w) (fld 8 0 w)) else none
  | 159 => some (.lds (fld 3 21 w) (fld 1 20 w) (fld 4 16 w) (fld 8 8 w) (fld 8 0 w))
  | 160 => if w / 2 ^ 20 % 2 ^ 4 = 0 then some (.unsub (fld 4 16 w) (fld 8 8 w) (fld 8 0 w)) else none
  | 161 => some (.aadd (fld 8 16 w) (fld 8 8 w) (fld 8 0 w))
  | 162 => some (.amin (fld 8 16 w) (fld 8 8 w) (fld 8 0 w))
  | 163 => some (.amax (fld 8 16 w) (fld 8 8 w) (fld 8 0 w))
  | 164 => some (.aand (fld 8 16 w) (fld 8 8 w) (fld 8 0 w))
  | 165 => some (.aor (fld 8 16 w) (fld 8 8 w) (fld 8 0 w))
  | 166 => some (.axor (fld 8 16 w) (fld 8 8 w) (fld 8 0 w))
  | 167 => some (.axch (fld 8 16 w) (fld 8 8 w) (fld 8 0 w))
  | 168 => some (.acas (fld 8 16 w) (fld 8 8 w) (fld 8 0 w))
  | 169 => some (.faadd (fld 8 16 w) (fld 8 8 w) (fld 8 0 w))
  | 170 => some (.faopen (fld 8 16 w) (fld 8 8 w) (fld 8 0 w))
  | 171 => if w / 2 ^ 0 % 2 ^ 16 = 0 ∧ w / 2 ^ 20 % 2 ^ 4 = 0 then some (.bankcfgGrow (fld 4 16 w)) else if w / 2 ^ 0 % 2 ^ 16 = 1 ∧ w / 2 ^ 20 % 2 ^ 4 = 0 then some (.bankcfgShrink (fld 4 16 w)) else if w / 2 ^ 0 % 2 ^ 3 = 2 ∧ w / 2 ^ 5 % 2 ^ 11 = 0 ∧ w / 2 ^ 20 % 2 ^ 4 = 0 then some (.bankcfgFifo (fld 4 16 w) (fld 2 3 w)) else if w / 2 ^ 0 % 2 ^ 3 = 3 ∧ w / 2 ^ 5 % 2 ^ 11 = 0 ∧ w / 2 ^ 20 % 2 ^ 4 = 0 then some (.bankcfgUnfifo (fld 4 16 w) (fld 2 3 w)) else none
  | 176 => if w / 2 ^ 22 % 2 ^ 2 = 0 then some (.bind (fld 2 20 w) (fld 4 16 w) (fld 8 8 w) (fld 8 0 w)) else none
  | 177 => if w / 2 ^ 0 % 2 ^ 8 = 0 ∧ w / 2 ^ 20 % 2 ^ 4 = 0 then some (.unbind (fld 4 16 w) (fld 8 8 w)) else none
  | 178 => if w / 2 ^ 3 % 2 ^ 5 = 0 then some (.acq (fld 8 16 w) (fld 8 8 w) (fld 3 0 w)) else none
  | 179 => if w / 2 ^ 3 % 2 ^ 5 = 0 then some (.relSt (fld 8 16 w) (fld 8 8 w) (fld 3 0 w)) else if w / 2 ^ 3 % 2 ^ 5 = 1 then some (.relAdd (fld 8 16 w) (fld 8 8 w) (fld 3 0 w)) else none
  | 180 => if w / 2 ^ 5 % 2 ^ 19 = 0 then some (.fence (fld 1 4 w) (fld 1 3 w) (fld 3 0 w)) else none
  | 181 => if w / 2 ^ 4 % 2 ^ 12 = 0 then some (.waitc (fld 8 16 w) (fld 4 0 w)) else none
  | 182 => if w / 2 ^ 0 % 2 ^ 16 = 0 then some (.batch (fld 8 16 w)) else none
  | 183 => if w / 2 ^ 0 % 2 ^ 8 = 0 ∧ w / 2 ^ 16 % 2 ^ 8 = 0 then some (.waitb (fld 8 8 w)) else none
  | 184 => if w / 2 ^ 4 % 2 ^ 4 = 0 ∧ w / 2 ^ 16 % 2 ^ 8 = 0 then some (.barinit (fld 8 8 w) (fld 4 0 w)) else none
  | 185 => if w / 2 ^ 5 % 2 ^ 3 = 0 then some (.bara (fld 8 16 w) (fld 8 8 w) (fld 1 4 w) (fld 4 0 w)) else none
  | 186 => if w / 2 ^ 5 % 2 ^ 3 = 0 ∧ w / 2 ^ 16 % 2 ^ 8 = 0 then some (.barw (fld 8 8 w) (fld 1 4 w) (fld 4 0 w)) else none
  | 187 => if w / 2 ^ 21 % 2 ^ 3 = 0 then some (.cpy (fld 1 20 w) (fld 4 16 w) (fld 8 8 w) (fld 8 0 w)) else none
  | 188 => if w / 2 ^ 21 % 2 ^ 3 = 0 then some (.cpyx (fld 1 20 w) (fld 4 16 w) (fld 8 8 w) (fld 8 0 w)) else none
  | 189 => if w / 2 ^ 21 % 2 ^ 3 = 0 then some (.cpys (fld 1 20 w) (fld 4 16 w) (fld 8 8 w) (fld 8 0 w)) else none
  | 192 => if w / 2 ^ 12 % 2 ^ 4 = 0 then some (.sclaim (fld 8 16 w) (fld 4 8 w) (fld 8 0 w)) else none
  | 193 => if w / 2 ^ 16 % 2 ^ 8 = 0 then some (.srel (fld 8 8 w) (fld 8 0 w)) else none
  | 194 => if w / 2 ^ 16 % 2 ^ 8 = 0 then some (.tpost (fld 8 8 w) (fld 8 0 w)) else none
  | 195 => if w / 2 ^ 0 % 2 ^ 8 = 0 then some (.tqry (fld 8 16 w) (fld 8 8 w)) else none
  | 196 => if w / 2 ^ 20 % 2 ^ 4 = 0 then some (.kvapp (fld 4 16 w) (fld 8 8 w) (fld 8 0 w)) else none
  | 197 => if w / 2 ^ 21 % 2 ^ 3 = 0 then some (.kvgrow (fld 1 20 w) (fld 4 16 w) (fld 8 8 w) (fld 8 0 w)) else none
  | 198 => if w / 2 ^ 21 % 2 ^ 3 = 0 then some (.kvevict (fld 1 20 w) (fld 4 16 w) (fld 8 8 w) (fld 8 0 w)) else none
  | 199 => if w / 2 ^ 4 % 2 ^ 4 = 0 then some (.slabld (fld 8 16 w) (fld 8 8 w) (fld 4 0 w)) else none
  | 200 => if w / 2 ^ 1 % 2 ^ 7 = 0 then some (.slabst (fld 8 16 w) (fld 8 8 w) (fld 1 0 w)) else none
  | 208 => if w / 2 ^ 0 % 2 ^ 8 = 0 ∧ w / 2 ^ 20 % 2 ^ 4 = 0 then some (.pin (fld 4 16 w) (fld 8 8 w)) else none
  | 209 => if w / 2 ^ 0 % 2 ^ 8 = 0 ∧ w / 2 ^ 20 % 2 ^ 4 = 0 then some (.unpin (fld 4 16 w) (fld 8 8 w)) else none
  | 210 => if w / 2 ^ 18 % 2 ^ 6 = 0 then some (.phint (fld 2 16 w) (fld 8 8 w) (fld 8 0 w)) else none
  | 211 => if w / 2 ^ 1 % 2 ^ 7 = 0 then some (.pcnt (fld 8 16 w) (fld 8 8 w) (fld 1 0 w)) else none
  | 212 => if w / 2 ^ 0 % 2 ^ 8 = 0 then some (.launch (fld 8 16 w) (fld 8 8 w)) else none
  | 213 => if w / 2 ^ 0 % 2 ^ 24 = 0 then some (.solo) else none
  | 214 => if w / 2 ^ 1 % 2 ^ 23 = 0 then some (.tret (fld 1 0 w)) else none
  | 240 => some (.crd (fld 8 16 w) (fld 16 0 w))
  | 241 => some (.cwr (fld 8 16 w) (fld 16 0 w))
  | 242 => if w / 2 ^ 16 % 2 ^ 8 = 0 then some (.tlbiVa (fld 8 8 w) (fld 8 0 w)) else if w / 2 ^ 8 % 2 ^ 16 = 416 then some (.tlbiAsid (fld 8 0 w)) else if w / 2 ^ 16 % 2 ^ 8 = 2 then some (.tlbiGva (fld 8 8 w) (fld 8 0 w)) else if w / 2 ^ 8 % 2 ^ 16 = 928 then some (.tlbiVmid (fld 8 0 w)) else none
  | 243 => if w / 2 ^ 2 % 2 ^ 6 = 0 then some (.ptst (fld 8 16 w) (fld 8 8 w) (fld 2 0 w)) else none
  | 244 => if w / 2 ^ 0 % 2 ^ 24 = 0 then some (.ifence) else none
  | 245 => if w / 2 ^ 0 % 2 ^ 24 = 0 then some (.unsolo) else none
  | 246 => some (.migrMove (fld 8 16 w) (fld 8 8 w) (fld 8 0 w))
  | 247 => some (.snap (fld 8 16 w) (fld 16 0 w))
  | 248 => if w / 2 ^ 0 % 2 ^ 8 = 0 then some (.ftmap (fld 8 16 w) (fld 8 8 w)) else none
  | 249 => if w / 2 ^ 0 % 2 ^ 16 = 0 then some (.ringp (fld 8 16 w)) else none
  | 250 => if w / 2 ^ 1 % 2 ^ 7 = 0 then some (.gres (fld 8 16 w) (fld 8 8 w) (fld 1 0 w)) else none
  | 251 => if w / 2 ^ 0 % 2 ^ 8 = 0 then some (.gkill (fld 8 16 w) (fld 8 8 w)) else none
  | op => if opcodeUsed op then none else some (.reservedOpcode (BitVec.ofNat 32 w))

/-- A field laid at bit lo of a word. -/
def put {n : Nat} (x : BitVec n) (lo : Nat) : Nat := x.toNat * 2 ^ lo
/-- The word of a row: its fixed bits plus its fields, each laid at its place. -/
def asm (base : Nat) (fs : List Nat) : Option Nat := some (base + fs.sum)

/-- The word of an instruction (01 R16 and each entry's encoding), as a number; none for a row that has no word. -/
def encodeNat : Instr → Option Nat
  | .add d a b => asm 16777216 [put d 16, put a 8, put b 0]
  | .sub d a b => asm 33554432 [put d 16, put a 8, put b 0]
  | .mul d a b => asm 50331648 [put d 16, put a 8, put b 0]
  | .mulh d a b => asm 67108864 [put d 16, put a 8, put b 0]
  | .mad d a b => asm 83886080 [put d 16, put a 8, put b 0]
  | .min d a b => asm 100663296 [put d 16, put a 8, put b 0]
  | .max d a b => asm 117440512 [put d 16, put a 8, put b 0]
  | .abs d a => asm 134217728 [put d 16, put a 8]
  | .neg d a => asm 150994944 [put d 16, put a 8]
  | .and d a b => asm 167772160 [put d 16, put a 8, put b 0]
  | .or d a b => asm 184549376 [put d 16, put a 8, put b 0]
  | .xor d a b => asm 201326592 [put d 16, put a 8, put b 0]
  | .andn d a b => asm 218103808 [put d 16, put a 8, put b 0]
  | .not d a => asm 234881024 [put d 16, put a 8]
  | .shl d a b => asm 251658240 [put d 16, put a 8, put b 0]
  | .shr d a b => asm 268435456 [put d 16, put a 8, put b 0]
  | .sar d a b => asm 285212672 [put d 16, put a 8, put b 0]
  | .rol d a b => asm 301989888 [put d 16, put a 8, put b 0]
  | .popc d a => asm 318767104 [put d 16, put a 8]
  | .clz d a => asm 335544320 [put d 16, put a 8]
  | .brev d a => asm 352321536 [put d 16, put a 8]
  | .bfe d a b => asm 369098752 [put d 16, put a 8, put b 0]
  | .bfi d a b => asm 385875968 [put d 16, put a 8, put b 0]
  | .sel d a b => asm 402653184 [put d 16, put a 8, put b 0]
  | .cmp c p a b => asm 419430400 [put c 20, put p 16, put a 8, put b 0]
  | .mov d a => asm 436207616 [put d 16, put a 8]
  | .plog c p q r => asm 452984832 [put c 20, put p 16, put q 8, put r 0]
  | .addi d a imm => asm 469762048 [put d 16, put a 8, put imm 0]
  | .movi d imm => asm 486539264 [put d 16, put imm 0]
  | .movhi d imm => asm 503316480 [put d 16, put imm 0]
  | .shli d a imm => asm 520093696 [put d 16, put a 8, put imm 0]
  | .shri d a imm => asm 536870912 [put d 16, put a 8, put imm 0]
  | .sari d a imm => asm 553648128 [put d 16, put a 8, put imm 0]
  | .andi d a imm => asm 570425344 [put d 16, put a 8, put imm 0]
  | .ori d a imm => asm 587202560 [put d 16, put a 8, put imm 0]
  | .fadd d a b => asm 805306368 [put d 16, put a 8, put b 0]
  | .fsub d a b => asm 822083584 [put d 16, put a 8, put b 0]
  | .fmul d a b => asm 838860800 [put d 16, put a 8, put b 0]
  | .ffma d a b => asm 855638016 [put d 16, put a 8, put b 0]
  | .fmin d a b => asm 872415232 [put d 16, put a 8, put b 0]
  | .fmax d a b => asm 889192448 [put d 16, put a 8, put b 0]
  | .fabs d a => asm 905969664 [put d 16, put a 8]
  | .fneg d a => asm 922746880 [put d 16, put a 8]
  | .fcmp c p a b => asm 939524096 [put c 20, put p 16, put a 8, put b 0]
  | .fclass d a => asm 956301312 [put d 16, put a 8]
  | .frcp d a => asm 973078528 [put d 16, put a 8]
  | .frsq d a => asm 989855744 [put d 16, put a 8]
  | .fsqrt d a => asm 1006632960 [put d 16, put a 8]
  | .fexp2 d a => asm 1023410176 [put d 16, put a 8]
  | .flog2 d a => asm 1040187392 [put d 16, put a 8]
  | .fsin d a => asm 1056964608 [put d 16, put a 8]
  | .fcos d a => asm 1073741824 [put d 16, put a 8]
  | .ftanh d a => asm 1090519040 [put d 16, put a 8]
  | .fdot2 d a b => asm 1107296256 [put d 16, put a 8, put b 0]
  | .fscale d a b => asm 1124073472 [put d 16, put a 8, put b 0]
  | .cvt d a p t => asm 1140850688 [put d 16, put a 8, put p 4, put t 0]
  | .cvtr d a m p t => asm 1157627904 [put d 16, put a 8, put m 5, put p 4, put t 0]
  | .rndint d a => asm 1174405120 [put d 16, put a 8]
  | .shfl d a b => asm 1342177280 [put d 16, put a 8, put b 0]
  | .shflx d a imm => asm 1358954496 [put d 16, put a 8, put imm 0]
  | .voteAny d a => asm 1375731712 [put d 16, put a 8]
  | .voteAll d a => asm 1375731713 [put d 16, put a 8]
  | .voteBal d a => asm 1375731714 [put d 16, put a 8]
  | .redu d a o => asm 1392508928 [put d 16, put a 8, put o 0]
  | .scan d a e o => asm 1409286144 [put d 16, put a 8, put e 3, put o 0]
  | .laneMatch d a => asm 1426063360 [put d 16, put a 8]
  | .bcast d a imm => asm 1442840576 [put d 16, put a 8, put imm 0]
  | .uadd d a b => asm 1610612736 [put d 16, put a 8, put b 0]
  | .usub d a b => asm 1627389952 [put d 16, put a 8, put b 0]
  | .umul d a b => asm 1644167168 [put d 16, put a 8, put b 0]
  | .umad d a b => asm 1660944384 [put d 16, put a 8, put b 0]
  | .uand d a b => asm 1677721600 [put d 16, put a 8, put b 0]
  | .uor d a b => asm 1694498816 [put d 16, put a 8, put b 0]
  | .uxor d a b => asm 1711276032 [put d 16, put a 8, put b 0]
  | .ushl d a b => asm 1728053248 [put d 16, put a 8, put b 0]
  | .ushr d a b => asm 1744830464 [put d 16, put a 8, put b 0]
  | .usar d a b => asm 1761607680 [put d 16, put a 8, put b 0]
  | .umin d a b => asm 1778384896 [put d 16, put a 8, put b 0]
  | .umax d a b => asm 1795162112 [put d 16, put a 8, put b 0]
  | .ucmp c p a b => asm 1811939328 [put c 20, put p 16, put a 8, put b 0]
  | .usel d a b => asm 1828716544 [put d 16, put a 8, put b 0]
  | .umovi d imm => asm 1845493760 [put d 16, put imm 0]
  | .umovhi d imm => asm 1862270976 [put d 16, put imm 0]
  | .uaddi d a imm => asm 1879048192 [put d 16, put a 8, put imm 0]
  | .umov d a => asm 1895825408 [put d 16, put a 8]
  | .getsr d a => asm 1912602624 [put d 16, put a 8]
  | .bra p imm => asm 2147483648 [put p 16, put imm 0]
  | .braq p imm => asm 2164260864 [put p 16, put imm 0]
  | .call imm => asm 2181038080 [put imm 0]
  | .ret => asm 2197815296 []
  | .mark imm => asm 2214592512 [put imm 0]
  | .join => asm 2231369728 []
  | .regang imm => asm 2248146944 [put imm 0]
  | .exit => asm 2264924160 []
  | .yield => asm 2281701376 []
  | .spinw => asm 2298478592 []
  | .trap imm => asm 2315255808 [put imm 0]
  | .nop => asm 2332033024 []
  | .setmode imm => asm 2348810240 [put imm 0]
  | .setgrd g => asm 2365587456 [put g 0]
  | .ldb d a imm => asm 2415919104 [put d 16, put a 8, put imm 0]
  | .ldh d a imm => asm 2432696320 [put d 16, put a 8, put imm 0]
  | .ldw d a imm => asm 2449473536 [put d 16, put a 8, put imm 0]
  | .ldd d a imm => asm 2466250752 [put d 16, put a 8, put imm 0]
  | .ldq d a imm => asm 2483027968 [put d 16, put a 8, put imm 0]
  | .stb d a imm => asm 2499805184 [put d 16, put a 8, put imm 0]
  | .sth d a imm => asm 2516582400 [put d 16, put a 8, put imm 0]
  | .stw d a imm => asm 2533359616 [put d 16, put a 8, put imm 0]
  | .std d a imm => asm 2550136832 [put d 16, put a 8, put imm 0]
  | .stq d a imm => asm 2566914048 [put d 16, put a 8, put imm 0]
  | .ldu d a imm => asm 2583691264 [put d 16, put a 8, put imm 0]
  | .stu d a imm => asm 2600468480 [put d 16, put a 8, put imm 0]
  | .sxld d a imm => asm 2617245696 [put d 16, put a 8, put imm 0]
  | .sxst d a imm => asm 2634022912 [put d 16, put a 8, put imm 0]
  | .pref t a imm => asm 2650800128 [put t 16, put a 8, put imm 0]
  | .lds sc q p a imm => asm 2667577344 [put sc 21, put q 20, put p 16, put a 8, put imm 0]
  | .unsub p a imm => asm 2684354560 [put p 16, put a 8, put imm 0]
  | .aadd d a b => asm 2701131776 [put d 16, put a 8, put b 0]
  | .amin d a b => asm 2717908992 [put d 16, put a 8, put b 0]
  | .amax d a b => asm 2734686208 [put d 16, put a 8, put b 0]
  | .aand d a b => asm 2751463424 [put d 16, put a 8, put b 0]
  | .aor d a b => asm 2768240640 [put d 16, put a 8, put b 0]
  | .axor d a b => asm 2785017856 [put d 16, put a 8, put b 0]
  | .axch d a b => asm 2801795072 [put d 16, put a 8, put b 0]
  | .acas d a b => asm 2818572288 [put d 16, put a 8, put b 0]
  | .faadd d a b => asm 2835349504 [put d 16, put a 8, put b 0]
  | .faopen d a b => asm 2852126720 [put d 16, put a 8, put b 0]
  | .bankcfgGrow p => asm 2868903936 [put p 16]
  | .bankcfgShrink p => asm 2868903937 [put p 16]
  | .bankcfgFifo p f => asm 2868903938 [put p 16, put f 3]
  | .bankcfgUnfifo p f => asm 2868903939 [put p 16, put f 3]
  | .bind r p a b => asm 2952790016 [put r 20, put p 16, put a 8, put b 0]
  | .unbind p a => asm 2969567232 [put p 16, put a 8]
  | .acq d a sc => asm 2986344448 [put d 16, put a 8, put sc 0]
  | .relSt d a sc => asm 3003121664 [put d 16, put a 8, put sc 0]
  | .relAdd d a sc => asm 3003121672 [put d 16, put a 8, put sc 0]
  | .fence n c sc => asm 3019898880 [put n 4, put c 3, put sc 0]
  | .waitc t m => asm 3036676096 [put t 16, put m 0]
  | .batch d => asm 3053453312 [put d 16]
  | .waitb a => asm 3070230528 [put a 8]
  | .barinit a b => asm 3087007744 [put a 8, put b 0]
  | .bara d a r b => asm 3103784960 [put d 16, put a 8, put r 4, put b 0]
  | .barw a q b => asm 3120562176 [put a 8, put q 4, put b 0]
  | .cpy r b a imm => asm 3137339392 [put r 20, put b 16, put a 8, put imm 0]
  | .cpyx r b a imm => asm 3154116608 [put r 20, put b 16, put a 8, put imm 0]
  | .cpys r b a imm => asm 3170893824 [put r 20, put b 16, put a 8, put imm 0]
  | .sclaim d p imm => asm 3221225472 [put d 16, put p 8, put imm 0]
  | .srel a imm => asm 3238002688 [put a 8, put imm 0]
  | .tpost a b => asm 3254779904 [put a 8, put b 0]
  | .tqry d a => asm 3271557120 [put d 16, put a 8]
  | .kvapp p a b => asm 3288334336 [put p 16, put a 8, put b 0]
  | .kvgrow r c a b => asm 3305111552 [put r 20, put c 16, put a 8, put b 0]
  | .kvevict r c a b => asm 3321888768 [put r 20, put c 16, put a 8, put b 0]
  | .slabld d a p => asm 3338665984 [put d 16, put a 8, put p 0]
  | .slabst d a k => asm 3355443200 [put d 16, put a 8, put k 0]
  | .pin p a => asm 3489660928 [put p 16, put a 8]
  | .unpin p a => asm 3506438144 [put p 16, put a 8]
  | .phint h a imm => asm 3523215360 [put h 16, put a 8, put imm 0]
  | .pcnt d a c => asm 3539992576 [put d 16, put a 8, put c 0]
  | .launch d a => asm 3556769792 [put d 16, put a 8]
  | .solo => asm 3573547008 []
  | .tret k => asm 3590324224 [put k 0]
  | .crd d imm => asm 4026531840 [put d 16, put imm 0]
  | .cwr d imm => asm 4043309056 [put d 16, put imm 0]
  | .tlbiVa a b => asm 4060086272 [put a 8, put b 0]
  | .tlbiAsid b => asm 4060192768 [put b 0]
  | .tlbiGva a b => asm 4060217344 [put a 8, put b 0]
  | .tlbiVmid b => asm 4060323840 [put b 0]
  | .ptst d a c => asm 4076863488 [put d 16, put a 8, put c 0]
  | .ifence => asm 4093640704 []
  | .unsolo => asm 4110417920 []
  | .migrMove d a b => asm 4127195136 [put d 16, put a 8, put b 0]
  | .migrRetire d a b => asm 4127195136 [put d 16, put a 8, put b 0]
  | .migrClaim d a b => asm 4127195136 [put d 16, put a 8, put b 0]
  | .snap d imm => asm 4143972352 [put d 16, put imm 0]
  | .ftmap d a => asm 4160749568 [put d 16, put a 8]
  | .ringp d => asm 4177526784 [put d 16]
  | .gres d a k => asm 4194304000 [put d 16, put a 8, put k 0]
  | .gkill d a => asm 4211081216 [put d 16, put a 8]
  | .reservedOpcode w => some w.toNat
  | .regangMerge _ => none
  | .yieldRelease _ _ => none
  | .spinAgePromote _ _ => none
  | .postTaken _ _ => none
  | .loadDataReturn _ _ => none
  | .storePerformed _ _ => none
  | .atomicReply _ _ => none
  | .groupRetire _ => none
  | .waitcPass _ _ => none
  | .waitbPass _ _ => none
  | .barwPass _ _ => none
  | .translationWalk _ _ => none
  | .bankModeChange _ => none
  | .fifoPushComplete _ _ => none
  | .fifoPopComplete _ _ => none
  | .orderedAddApply _ => none
  | .homeStoreApply _ _ => none
  | .pushArrival _ => none
  | .refusedPushReturn _ => none
  | .inboxDelivery _ => none
  | .inboxSignal _ => none
  | .redelivery _ _ => none
  | .redeliveryAccept _ => none
  | .subRemove _ => none
  | .unsubComplete _ => none
  | .subLoss _ _ _ => none
  | .subPark _ => none
  | .subRepoint _ => none
  | .leaseRenew _ _ => none
  | .leaseRelease _ _ _ => none
  | .leaseExpiry _ _ _ => none
  | .rangeLockStart _ _ => none
  | .copyTransfer _ _ => none
  | .copyFault _ _ => none
  | .copyComplete _ _ => none
  | .relayEnqueue _ _ => none
  | .barrierArrival _ => none
  | .slotZero _ => none
  | .taskFetch _ _ => none
  | .taskStart _ _ => none
  | .taskStep _ _ => none
  | .taskComplete _ _ => none
  | .growPageMove _ _ => none
  | .evictRun _ => none
  | .evictSwitch _ => none
  | .evictComplete _ _ => none
  | .evictFault _ => none
  | .shootdown _ _ _ _ => none
  | .migrateLine _ => none
  | .stalledWriteRetry _ => none
  | .claimRequest _ _ _ => none
  | .handoverRelease _ => none
  | .holimExpiry _ => none
  | .claimTimeout _ => none
  | .claimGrant _ => none
  | .claimRefusal _ _ => none
  | .shareInc _ _ => none
  | .shareDec _ _ => none
  | .pinInc _ _ => none
  | .pinDec _ _ => none
  | .pinClr _ _ => none
  | .accClr _ _ => none
  | .assign _ _ _ => none
  | .free _ _ => none
  | .leaseClr _ _ _ => none
  | .tfcurWrite _ _ => none
  | .controlRegWrite _ _ _ _ => none
  | .trapDelivery _ => none
  | .heldTrapEnter _ => none
  | .heldTrapRetry _ => none
  | .faultQueuePost => none
  | .faultQueueRetry => none
  | .refereeForward => none
  | .refereeRingRetry _ => none
  | .pqpop _ => none
  | .commit _ _ => none
  | .preempt _ _ => none
  | .swap _ => none
  | .spill _ _ => none
  | .spillComplete _ _ => none
  | .restoreFill _ _ => none
  | .teamRelease _ _ => none
  | .submit _ _ => none
  | .launchPacket => none
  | .fabricFrameRx _ _ _ => none
  | .launchRequest => none
  | .launchReply _ => none
  | .responseWrite _ => none
  | .gridDeal _ => none
  | .gridComplete _ => none
  | .functionLevelReset _ => none
  | .hotReset => none
  | .dieReadmit _ => none
  | .coldStart => none
  | .bootStage _ => none
  | .bootStageTimeout => none
  | .getBootStatus _ _ => none
  | .setOwner _ _ => none
  | .imageBegin _ _ => none
  | .imageData _ _ => none
  | .imageEnd _ _ => none
  | .commitSvn _ _ => none
  | .setPartition _ _ => none
  | .getPartition _ _ => none
  | .setTenant _ _ => none
  | .getTenant _ _ => none
  | .tearDown _ _ => none
  | .dieReset _ _ => none
  | .snapMailbox _ _ => none
  | .setHolim _ _ => none
  | .readLog _ _ => none
  | .readSensors _ _ => none
  | .spdm _ _ => none
  | .snaptrig _ => none
  | .snapshotLatch _ => none
  | .snapshotComplete => none
  | .gcmdGres _ => none
  | .gcmdGresSkip _ => none
  | .gcmdGkill _ => none
  | .pacerRecordWrite _ _ _ => none
  | .rspheadWrite _ _ => none
  | .rspbaseWrite _ _ => none
  | .lineRequest _ _ _ => none
  | .completionTimeout _ _ => none
  | .sensorBeyondLimit _ => none

/-- The word of an instruction, 32 bits (an instruction without a word gives the all-zero word). -/
def encode (i : Instr) : BitVec 32 := BitVec.ofNat 32 ((encodeNat i).getD 0)

/-- The four bytes of a word as memory holds them (R15: little-endian, the first at the lowest address). -/
def wordBytes (w : Nat) : List (BitVec 8) := [fld 8 0 w, fld 8 8 w, fld 8 16 w, fld 8 24 w]

/-- The word that four bytes of memory hold (R15). -/
def bytesWord : List (BitVec 8) → Option Nat
  | [a, b, c, d] => some (a.toNat + b.toNat * 2 ^ 8 + c.toNat * 2 ^ 16 + d.toNat * 2 ^ 24)
  | _ => none

/-- The instruction that four bytes of memory decode to. -/
def decodeBytes (bs : List (BitVec 8)) : Option Instr := (bytesWord bs).bind decodeWord

/-- The host's question: the instruction the decoder reads from a word numbered as the opcode table numbers it. -/
def decodeTableWord (_nbits w : Nat) : Option Instr := decodeBytes (wordBytes w)

end Sys2Proof
end

