-- ==== Sys2Proof/Config.lean ====
section
/-! DEFINITION. What the spec leaves open, as constants with no body: no proof can learn a value of one of them, so
every statement holds whatever they are. Each is named in the assumption log. The first argument of a free value is the
machine's time (State.time, a counter of steps) or the operands the value depends on. -/
namespace Sys2Proof.Config

/-- Which of the candidates for the next step goes first (02 R50 orders by clocks, which the model does not keep). -/
opaque pick (time : Nat) : Nat
/-- How many clocks of a core pass during a step (02 R58; the ratio of the clocks is open, 00 R5). -/
opaque clocks (core time : Nat) : Nat
/-- Which line of a full L1 set is replaced (05 R141: replacement is not visible to programs). -/
opaque l1Victim (time : Nat) : Nat
/-- Which entry of a full TLB is replaced (11 R306). -/
opaque tlbVictim (time : Nat) : Nat
/-- Whether fetch returns the old word of its instruction cache where memory already holds a new one (01 R36). -/
opaque fetchOld (time : Nat) : Bool
/-- Which word of a full instruction cache is replaced (00 R8 gives only its size). -/
opaque icacheVictim (time : Nat) : Nat
/-- Which line of a full set an L2 replaces (00 R1 gives only its size and its ways). -/
opaque l2Victim (time : Nat) : Nat
/-- Whether an L2 has written a modified line back by itself before a lease expires (07 R219). -/
opaque l2Cleaned (time line : Nat) : Bool
/-- The window base that the dispatcher chooses for a team, in units of 256 MiB (05 R137). -/
opaque windowBase (time : Nat) : BitVec 36
/-- Whether an image's Ed25519 signature verifies (14 R401). -/
opaque ed25519Ok (size : Nat) (image : List (Nat × Byte)) : Bool
/-- Whether an image's ML-DSA-65 signature verifies (14 R401). -/
opaque mldsaOk (size : Nat) (image : List (Nat × Byte)) : Bool
/-- The security version number of an image (14 R401; its place in the image is not given). -/
opaque imageSvn (size : Nat) (image : List (Nat × Byte)) : Nat
/-- The SPDM response to a request message (14 R401, R408: the messages are SPDM 1.3's). -/
opaque spdmResponse (request : List Byte) (time : Nat) : List Byte
/-- The device's Ed25519 signature of a message (14 R401; its key is the device's own). -/
opaque ed25519Sign (msg : List Byte) : List Byte
/-- The device's ML-DSA-65 signature of a message (14 R401; its key is the device's own). -/
opaque mldsaSign (msg : List Byte) : List Byte
/-- A counter of a unit whose events the model does not count: mcycle and minstret of a hart (14 R404). -/
opaque counter (block idx time : Nat) : DWord
/-- How many sensors the referee has, what each measures (KIND of 14 R408), and a current reading. -/
opaque sensorCount : Nat
opaque sensorKind (id : Nat) : BitVec 8
opaque sensor (id time : Nat) : BitVec 32
/-- The Ethernet address of a fabric port (14 R392 gives none). -/
opaque portMac (port : Nat) : BitVec 48
/-- A byte at the destination of a move that a warm reset has lost (11 R328: the data is undefined). -/
opaque lostByte (addr time : Nat) : Byte
/-- A bound of a function evaluation that stays open after the last precision tried: never reached (04 R126; log). -/
opaque unresolved (x : Nat) : Bool
/-- Which operation that a team released or a fault left is served first; which slot of equal rank is taken. -/
opaque order (time : Nat) : Nat

/-- The partition of a request that an agent outside the compute dies makes of a line (11 R312 counts by partition; no rule gives theirs). -/
opaque outsidePart (time : Nat) : BitVec 4
/-- COUNT in the final write of a lost subscription (06 R187 names VALUE, SEQ and the flags only). -/
opaque lossCount (time : Nat) : BitVec 4
/-- A byte of the host's memory behind the upstream window (14 R393: the host's memory is outside the package). -/
opaque hostByte (addr time : Nat) : Byte
/-- The identifier that TASK_FAULT names when the fetch of a task record faults (09 R263: it has not been read). -/
opaque unreadIdent (time : Nat) : BitVec 16
/-- What PTST writes for a leaf under handover (12 R353 names no result for MIG). -/
opaque ptstMig (time : Nat) : BitVec 64
/-- The status of FTMAP where a PTE of its walk cannot be read or is no legal non-leaf (12 R355 names none). -/
opaque ftmapStatus (time : Nat) : BitVec 32
/-- What a reserved special-register code reads as the high half of a 64-bit operand that names the code before it (01 R21, R23). -/
opaque reservedSpecial (code time : Nat) : BitVec 32
/-- What a read of a write-only register gives (14 R389, R406, R407 give no value). -/
opaque writeOnly (off time : Nat) : BitVec 32
/-- The number of this package in its pool, 0 to 15 (11 R311). -/
opaque package : BitVec 4

end Sys2Proof.Config
end

