-- ==== Sys2Proof/Machine/State.lean ====
section
/-! DEFINITION. The state of the package, as plain data: everything the spec gives the machine, and the reasons a step
can stop. Groups are numbered gid = (core * 32 + slot) * 64 + group and teams tid = core * 32 + slot, after the home core
and the home slot (12 R346, 13 R367). Every table keyed by a number is a list of pairs in which an unlisted key stands
for the entry at reset. -/
namespace Sys2Proof.Machine

/-- A table keyed by a number. -/
abbrev Sparse (α : Type) := List (Nat × α)

/-! ## Slices, groups and teams -/

/-- Kind of a join-stack entry (02 R45; an empty place is no entry of the list). -/
inductive JoinKind where
  | mark | div | call
deriving DecidableEq, Repr

/-- A join-stack entry (02 R45): the lanes that resume and bits [63:2] of where. A slice's list holds the entries by index, lowest first;
those at or above its depth are what pops have left behind. -/
structure JoinEntry where
  kind : JoinKind
  mask : BitVec 4
  pc : BitVec 62
deriving DecidableEq, Repr

/-- What a slice waits for (02 R47, R54; 07 R215; 08 R240, R246; codes of 12 R364). After YIELD: for each gang that was ready, its group,
its lowest slice and how many instructions that slice had issued. After SREL: the slots it releases (09
R254). again: a slice that a restore has brought back from a BARW, WAITB or WAITC: it does not wait, since it executes that instruction afresh (19 R422), and until
it has issued it is saved with the same code; n is how many instructions it had issued at the restore. -/
inductive Wait where
  | none
  | regang (site : BitVec 16)
  | barw (bar : Nat) (lap : Word) (acq : Bool)
  | waitb (n : BitVec 16)
  | waitc (mask : BitVec 4) (threshold : Nat)
  | yield (owed : List (Nat × Nat × Nat))
  | srel (first n : Nat)
  | again (code n : Nat)
deriving DecidableEq, Repr

/-- The wait of a slice that has issued n instructions. -/
def Wait.at (n : Nat) : Wait → Wait
  | .again c m => if m = n then .again c m else .none
  | w => w
/-- The wait that a closing frame gives back to a slice that has issued n instructions. -/
def Wait.stamp (n : Nat) : Wait → Wait
  | .again c _ => .again c n
  | w => w
/-- A slice with this wait may issue. -/
def Wait.free : Wait → Bool
  | .none | .again _ _ => true
  | _ => false

/-- Whether a gang spins and over which range of addresses (02 R55). -/
inductive Spin where
  | no
  | opened
  | closed (lo hi : DWord)
deriving DecidableEq, Repr

/-- What delivery saves of a handler slice (12 R340). -/
structure SavedSlice where
  mode : Word
  run : BitVec 4
  depth : Nat
  gang : Nat
  wait : Wait
deriving DecidableEq, Repr

/-- A slice (02 R41), with the gang attributes of R55 held by each of the gang's slices. issues counts what the slice has issued (the
model's own, for R54). -/
structure Slice where
  pc : DWord
  live : BitVec 4
  run : BitVec 4
  stack : List JoinEntry
  depth : Nat
  mode : Word
  loads : Nat
  stores : Nat
  atomics : Nat
  posts : Nat
  gang : Nat
  wait : Wait
  spin : Spin
  lastBack : Option DWord
  promoted : Bool
  handler : Option SavedSlice
  issues : Nat
deriving DecidableEq, Repr

/-- A trap record (12 R334). -/
structure Record where
  cause : BitVec 16
  nested : Bool
  logged : Bool
  async : Bool
  code : BitVec 8
  qleft : Nat
  lane : BitVec 8
  addr : DWord
  pc : DWord
  opword : DWord
deriving DecidableEq, Repr

/-- What a logged memory operation is, with what decode fixed of it (12 R338). -/
inductive MemKind where
  | load (w : Nat) (d : Nat)
  | store (w : Nat)
  | sxld (d : Nat)
  | sxst
  | atomic (op : Nat) (d : Nat)
  | lds (d : BitVec 4) (acq : Bool) (scope : Nat)
  | unsub (d : BitVec 4) (sent : Bool)
  | ldu (w : Nat) (d : Nat)
  | stu (w : Nat)
  | faadd (d : BitVec 4)
  | faopen (d : BitVec 4) (f64 : Bool) (count : Word)
  | bind (d : BitVec 4) (region : Nat) (base len : DWord)
  | unbind (d : BitVec 4)
  | acq (d : Nat) (scope : Nat)
  | rel (add : Bool) (scope : Nat)
  | slabld (d : Nat) (p : BitVec 4)
  | slabst (entry : Nat) (keep : Bool)
  | kvapp (p : BitVec 4) (entry : Nat) (pos : Word)
  | pin (d : BitVec 4)
  | unpin (d : BitVec 4)
  | pcnt (d : Nat) (clr : Bool)
  | phint (hint : BitVec 2) (n : Nat)
  | migr (d : Nat)
  | snap (d : Nat) (num : BitVec 16)
deriving DecidableEq, Repr

/-- What a translation gives an access: the physical address, the Svpbmt attribute (0 PMA, 1 NC, 2 IO; 3 for the team window, where pa is
the window offset), the permissions and D of the leaf for the L1, and the leaf itself with the size of its page. -/
structure Hit where
  pa : Nat
  attr : Nat
  canR : Bool
  canW : Bool
  dSet : Bool
  pteAddr : Nat
  level : Nat
  size : Nat
deriving DecidableEq, Repr

/-- A logged operation (12 R338), or one that only waits for the replies of homes or of the hub (11 R319, R322; 14 R405), from its issue until it is performed: what it captured (R76), the mode words it issued under, the lanes
still to be served (R360), and, once walked, where each part of each access lies. priv: issued at supervisor level. -/
structure LogOp where
  id : Nat
  gid : Nat
  key : DWord
  word : Word
  kind : MemKind
  pc : DWord
  gang : SliceMask
  active : LaneMask
  left : LaneMask
  modes : List Word
  addr : List DWord
  data : List (BitVec 128)
  walked : Bool
  hits : List (List Hit)
  priv : Bool
deriving DecidableEq, Repr

/-- An engine operation that an asynchronous trap stopped (12 R349). -/
inductive EngineRef where
  | none
  | copy (core id : Nat)
  | task (core id : Nat)
  | evict (die id : Nat)
deriving DecidableEq, Repr

/-- An entry of a trap queue (12 R336). atIssue: found at decode or issue (R349). -/
structure TrapEntry where
  record : Record
  fmask : LaneMask
  gang : SliceMask
  key : DWord
  log : Option LogOp
  atIssue : Bool
  resume : DWord
  engine : EngineRef
deriving DecidableEq, Repr

/-- An open handler frame (12 R340, R351). -/
structure Frame where
  tfu : List Word
  tfq : BitVec 3
  record : Record
  tfpc : DWord
  fmask : LaneMask
  log : Option LogOp
  tfcur : Nat
  atIssue : Bool
  engine : EngineRef
deriving DecidableEq, Repr

/-- A copy that a group posted, as its core remembers it (08 R240): post number, batch, destinations, and whether a
WAITB has observed it. The ranges of the last 16 are kept; of an older one that no WAITB has observed only the numbers count. -/
structure PostRange where
  no : Nat
  batch : BitVec 16
  ranges : List (DWord × Nat)
  seen : Bool
deriving DecidableEq, Repr

/-- A group (00 R9, 03 R71) with its trap queue, its batches and its handler frame. withdrawn: the logged instructions that a swap has withdrawn (12 R358,
R364), or that wait for an entry of the operand log (R339). -/
structure Group where
  core : Nat
  part : Nat
  tid : Nat
  num : Nat
  role : Nat
  budget : Nat
  slices : List Slice
  vregs : Sparse (List Word)
  preds : List LaneMask
  uregs : Sparse Word
  uq : BitVec 3
  issueNo : DWord
  queue : List TrapEntry
  frame : Option Frame
  parked : Bool
  parkSerial : BitVec 16
  solo : Bool
  openBatch : BitVec 16
  openLeft : Nat
  closed : List (BitVec 16 × Nat)
  posts : List PostRange
  postNo : Nat
  withdrawn : List LogOp
  retired : Bool
deriving DecidableEq, Repr

/-- A list of address ranges with the overflow mark (08 R241). -/
structure Ranges where
  items : List (DWord × Nat)
  full : Bool
deriving DecidableEq, Repr

/-- A barrier register (08 R241). -/
structure Barrier where
  lap : Word
  pending : BitVec 16
  expected : BitVec 16
  cur : Ranges
  last : Ranges
deriving DecidableEq, Repr

/-- A team on its home core (13 R367 to R369): its window (05 R137), scratchpad bytes by window offset, the banks added by
GROW, the pages allotted, its FIFOs and its barrier registers. filling: what its context keeps on the core is not yet back (12 R362); room: the core has
given it its banks, slots and entries. -/
structure Team where
  window : DWord
  scrSize : Nat
  scratch : List Host.Cell
  grow : List Nat
  pages : List (Nat × Nat)
  fifos : List (Option (List (BitVec 128)))
  bars : List Barrier
  filling : Bool
  room : Bool
deriving DecidableEq, Repr

/-! ## A core -/

/-- Mode of an SRAM bank (05 R134): a scratchpad bank names the team that owns each of its 16 pages. -/
inductive Bank where
  | cache
  | scratch (pages : List (Option Nat))
  | fifo (tid f : Nat)
deriving DecidableEq, Repr

/-- A line of the L1 (05 R141, R142; 14 R387 for the VMID tag), in the way of a bank, with what its fill recorded (11 R307), the size of its virtual
page and the partition of its team. -/
structure L1Line where
  asid : Nat
  vmid : Nat
  vline : Nat
  pline : Nat
  bank : Nat
  valid : BitVec 128
  dirty : BitVec 128
  data : BitVec 1024
  canR : Bool
  canW : Bool
  dSet : Bool
  size : Nat
  part : Nat
deriving DecidableEq, Repr

/-- State of an operand slot (09 R249). -/
inductive SlotState where
  | free
  | held (tid : Nat)
  | zeroing
deriving DecidableEq, Repr

/-- Kind of a copy-unit operation (08 R231; 10 R285 for a growth). -/
inductive CopyKind where
  | cpy | cpyx | cpys | grow
deriving DecidableEq, Repr

/-- Where an engine operation stands: posted, queued, waiting for its locks, running, its data moved, stopped by a fault. -/
inductive Phase where
  | posted | queued | waiting | running | moved | stopped
deriving DecidableEq, Repr

/-- A fault that an engine's translation met: first stage or home and second stage (11 R308), window or FIFO offset, lease. -/
inductive EngineFault where
  | stage1 | stage2 | window | lease
deriving DecidableEq, Repr

/-- A copy (08 R227 to R239): the descriptor registers, the queue entry it holds and the bytes completed. For a growth
(10 R286) regs holds the slab entry, the new data base and metadata base and the bytes of both runs, and progress counts within the page at WMARK. stopAt: where a swap stops it (12 R359). passed: up to which byte
the scout has translated both sides; met: the fault that it has met ahead, at a byte of the copy; fault: the kind, the side (08 R235) and the page. -/
structure Copy where
  id : Nat
  kind : CopyKind
  gid : Nat
  regs : List Word
  dfield : BitVec 8
  scout : Nat
  batch : BitVec 16
  entry : Nat
  phase : Phase
  progress : Nat
  stopAt : Option Nat
  passed : Nat
  met : Option (Nat × EngineFault × Nat × DWord)
  fault : Option (EngineFault × Nat × DWord)
deriving DecidableEq, Repr

/-- A slab-table entry (10 R278). -/
structure Slab where
  tid : Nat
  dbase : DWord
  mbase : DWord
  obase : DWord
  ombase : DWord
  len : Nat
  wmark : Nat
  moven : Nat
  log2p : Nat
  fmt : BitVec 8
  rwin : Nat
  state : Nat
  gen : BitVec 16
  sid : Word
deriving DecidableEq, Repr

/-- A queued task (09 R261 to R272). order: the order in which tasks were fetched. preds: the bound predecessors that are not complete;
cpysBefore: the CPYS that R232 orders before it. cells: what the engine holds between steps (09 R268, R271; 10 R294). cap: the captured entry
(10 R289), held the pages it holds, changed the mass arrays it changed. reloc: the slots and slab
entries that a restore has renumbered since the record was written (09 R256, 10 R281). fault: kind, operand, page. -/
structure Task where
  id : Nat
  gid : Nat
  recAddr : DWord
  base : DWord
  off : BitVec 16
  body : List Byte
  fetched : Bool
  order : Nat
  preds : List Nat
  cpysBefore : List (Nat × Nat)
  phase : Phase
  engine : Nat
  step : Nat
  status : Nat
  cells : List DWord
  held : List Nat
  changed : List (DWord × Nat)
  cap : Option Slab
  reloc : List (Nat × Nat) × List (Nat × Nat)
  fault : Option (EngineFault × Nat × DWord)
deriving DecidableEq, Repr

/-- State of a standing slot in the core directory (06 R168). -/
inductive SubState where
  | live | refused | closing
deriving DecidableEq, Repr

/-- An entry of the standing-slot directory (06 R168): an offset with no entry is FREE. gid: the group that issued the
LDS (R189). value, seq, count: what the slot last received. refuses: a push for the slot was refused, and the core refuses every further one until it has accepted a
redelivery (R176, R177); a slot that an UNSUB closes keeps it. -/
structure DirSlot where
  tid : Nat
  off : Nat
  st : SubState
  gid : Nat
  home : Nat
  idx : Nat
  acq : Bool
  value : DWord
  seq : BitVec 16
  count : Nat
  refuses : Bool
deriving DecidableEq, Repr

/-- A push on its way or in an inbox (06 R173, R176). regions: what an ACQ delivery invalidates, each with its ASID (R179); begun: the invalidation that precedes
its write has been made. -/
structure Push where
  home : Nat
  idx : Nat
  core : Nat
  tid : Nat
  off : Nat
  seq : BitVec 16
  value : DWord
  count : Nat
  redelivery : Bool
  begun : Bool
  regions : List (Nat × DWord × Nat)
deriving DecidableEq, Repr

/-- A SREL that the home core has taken: its group, its slots, and the tasks and copies (by core and identifier) that it waits for (09 R254). -/
structure Releasing where
  gid : Nat
  first : Nat
  n : Nat
  tasks : List Nat
  copies : List (Nat × Nat)
deriving DecidableEq, Repr

/-- An asynchronous trap waiting in the held-trap buffer (12 R337). -/
structure HeldTrap where
  gid : Nat
  record : Record
  engine : EngineRef
deriving DecidableEq, Repr

/-- An eviction (10 R295 to R299) with its queue entry: slot tokens of the old run are read and kept of them survive; snap: the old page read last, with its masses;
old: the entry before the switch. -/
structure Evict where
  id : Nat
  gid : Nat
  core : Nat
  place : Nat
  entry : Nat
  ndata : DWord
  nmeta : DWord
  param : Word
  dfield : BitVec 8
  batch : BitVec 16
  phase : Phase
  slot : Nat
  kept : Nat
  snap : Option (Nat × List Nat)
  old : Slab
  fault : Option (EngineFault × Nat × DWord)
deriving DecidableEq, Repr

/-- An engine post in a partition's post buffer (02 R53). -/
inductive Post where
  | copy (c : Copy)
  | task (t : Task)
  | evict (e : Evict)
  | launch (gid : Nat) (d : Nat) (ra : DWord)
deriving DecidableEq, Repr

/-- A post in a partition's post buffer, with the slices that posted it (02 R53). priv: issued at supervisor level. -/
structure PostSlot where
  gang : SliceMask
  post : Post
  priv : Bool
deriving DecidableEq, Repr

/-- A word held by the instruction cache of a partition (01 R36). -/
structure ICell where
  part : Nat
  asid : Nat
  vmid : Nat
  va : Nat
  word : Word
deriving DecidableEq, Repr

/-- A core (00 R8). -/
structure Core where
  banks : List Bank
  bankChange : List (Nat × Nat × Nat × BitVec 4)
  l1 : List L1Line
  opmem : List Host.Cell
  slots : List SlotState
  zeroQueue : List Nat
  releasing : List Releasing
  tasks : List Task
  copies : List Copy
  slabs : Sparse Slab
  directory : List DirSlot
  inbox : List Push
  refusedHomes : List Nat
  binds : Sparse (List Byte)
  log : List LogOp
  nextId : Nat
  postBuf : Sparse PostSlot
  lastPost : List Nat
  held : List HeldTrap
  retry : List HeldTrap
  icache : List ICell
  shadow : Sparse Group
  issued : List Nat
  l1Hits : Nat
  l1Misses : Nat
  delivered : Nat
deriving DecidableEq, Repr

/-! ## A compute die -/

/-- A line that an L2 holds (00 R1), by its number. While the die holds it modified, stale is what its home's memory still holds under the bytes that the L2
has changed (07 R219). -/
structure L2Line where
  line : Nat
  stale : List Host.Cell
deriving DecidableEq, Repr

/-- A leaf as the TLB holds it (11 R306): its stage, base and size of the virtual page, base of what it maps to, permissions and
attribute; pteAddr is the address of its PTE as the tables give it: guest-physical under a G-stage. -/
structure TlbEntry where
  gstage : Bool
  asid : Nat
  vmid : Nat
  vbase : Nat
  size : Nat
  pbase : Nat
  canR : Bool
  canW : Bool
  canX : Bool
  user : Bool
  aSet : Bool
  dSet : Bool
  pbmt : Nat
  level : Nat
  pteAddr : Nat
deriving DecidableEq, Repr

/-- A non-leaf PTE as the walk cache holds it (11 R306). -/
structure WalkEntry where
  gstage : Bool
  asid : Nat
  vmid : Nat
  level : Nat
  prefix_ : Nat
  pte : DWord
deriving DecidableEq, Repr

/-- The engine operation that owns a lock, and how RANGE_CONFLICT names it (07 R221, R223; 12 R335). -/
structure LockOwner where
  engine : Nat
  core : Nat
  id : Nat
  opid : Nat
deriving DecidableEq, Repr

/-- A range lock (07 R221). -/
structure Lock where
  asid : Nat
  base : Nat
  len : Nat
  write : Bool
  owner : LockOwner
deriving DecidableEq, Repr

/-- A pending team entry (13 R371). -/
structure Pending where
  grid : DWord
  team : Word
  prio : Nat
  part : Nat
  restore : Bool
  save : DWord
deriving DecidableEq, Repr

/-- A compute die: translation unit, range locks and the operations waiting for them, eviction queue, pacer (13 R371; pqRet: what the last read of PQPOP
returned), and whether the die is out of service (14 R398). relayQ: the relay queue in order, each copy by core and identifier (08 R236). -/
structure Die where
  l2 : List L2Line
  l2Hits : Nat
  l2Misses : Nat
  tlbMisses : Nat
  tlb : List TlbEntry
  walkCache : List WalkEntry
  locks : List Lock
  lockWait : List (LockOwner × List Lock)
  evicts : List Evict
  relayQ : List (Nat × Nat)
  pendingQ : List Pending
  pqe : List Byte
  pqRet : Word
  commitSt : Word
  committing : Option Nat
  preemptSt : Word
  preempting : Option (Nat × Nat × Nat)
  loaded : Bool
  partmap : List (BitVec 5)
  leaseLost : List (Nat × Nat × BitVec 2)
  down : Bool
  released : Nat
  relayBytes : Nat
deriving DecidableEq, Repr

/-! ## Homes and the hub -/

/-- State of a subscription at its home (06 R170). -/
inductive SubHome where
  | live | pending | parked
deriving DecidableEq, Repr

/-- An entry of a subscription table (06 R170). skip: stores applied since the last one sent (R175). -/
structure Sub where
  word : Nat
  core : Nat
  tid : Nat
  off : Nat
  acq : Bool
  scope : Nat
  lcore : Nat
  st : SubHome
  lastSeq : BitVec 16
  skip : Nat
deriving DecidableEq, Repr

/-- A lease (07 R217): agents 0 to 3 are the compute dies, 4 the CPU die, 5 + p package p of the pool. write: a write lease, else a read lease.
since: the time of its grant or last renewal. -/
structure Lease where
  agent : Nat
  region : Nat
  write : Bool
  since : Nat
deriving DecidableEq, Repr

/-- The directory's state of a line (00 R4, 07 R194): held shared by some agents, or modified by one. A line without a state is held by none. -/
inductive LineState where
  | shared (agents : List Nat)
  | modified (agent : Nat)
deriving DecidableEq, Repr

/-- A home (00 R4, 06 R170): the directory of its lines, subscriptions, the sequence number of each subscribed word, leases, relay-written flags. -/
structure Home where
  lines : Sparse LineState
  subs : Sparse Sub
  seqs : Sparse (BitVec 16)
  leases : List Lease
  relayMarks : List Nat
  applied : Nat
  pushes : Nat
  refused : Nat
deriving DecidableEq, Repr

/-- A dirty place of a sync-table entry (07 R202). -/
structure DirtyPlace where
  core : Nat
  ceiling : Nat
deriving DecidableEq, Repr

/-- A sync-table entry (07 R202); REACH and NDIRTY are read off it. -/
structure SyncEntry where
  obj : Nat
  asid : Nat
  regions : List (DWord × Nat)
  cores : BitVec 160
  pkgs : BitVec 16
  hosts : Bool
  dirty : List DirtyPlace
deriving DecidableEq, Repr

/-- A queue of the ordered-add unit (05 R159). -/
structure AddQueue where
  addr : Nat
  f64 : Bool
  count : Nat
  grid : DWord
  items : List (Nat × DWord)
deriving DecidableEq, Repr

/-- An entry of the relay-flag table (08 R237), oldest written first in the table. -/
structure RelayFlag where
  addr : Nat
  ranges : List (Nat × DWord × Nat)
  full : Bool
deriving DecidableEq, Repr

/-- A frame record (11 R311). -/
structure FrameRec where
  owner : BitVec 6
  share : BitVec 15
  pinc : BitVec 12
  acc : BitVec 8
  part : BitVec 4
  hint : BitVec 2
  claimant : BitVec 4
  claim : Bool
  handoff : Bool
  moving : Bool
  fwd : Bool
  local_ : Bool
  alloc : Bool
deriving DecidableEq, Repr

/-- A write that waits at a home: the bytes with their addresses, and whether it leaves a relay-written mark in place (08 R238). -/
structure HomeWrite where
  cells : List (Nat × Byte)
  keep : Bool
deriving DecidableEq, Repr

/-- A move of the migration engine (11 R321), or the forwarding entry it leaves when done (R326). slot: its move slot,
none once complete. subsLost: whether its page's subscriptions are lost with cause 1, once that is decided (06 R187). -/
structure Move where
  slot : Option Nat
  o : Nat
  n : Nat
  big : Bool
  w : Nat
  stalled : List HomeWrite
  subsLost : Option Bool
deriving DecidableEq, Repr

/-- A claim entry (11 R329) of a partition: failed with its REASON, or pending; granted: the frame is this package's, and MIG is still to be cleared (R332). -/
structure Claim where
  frame : Nat
  pte : Nat
  part : Nat
  failed : Option Nat
  granted : Bool
  owner : Nat
deriving DecidableEq, Repr

/-- A grid of the grid table (13 R375 to R377). src: the launch source that its responses go to; srcMac: for a fabric port, the source address and the 802.1Q tag of
the frame that carried its packet; live: its teams that have not ended; nextDie: where the dealing goes on. -/
structure Grid where
  id : DWord
  record : List Byte
  recAddr : DWord
  prio : Nat
  part : Nat
  satp : DWord
  hgatp : DWord
  cookie : DWord
  src : Nat
  srcMac : List Byte
  launched : Bool
  dealt : Nat
  nextDie : Nat
  live : Nat
  cores : BitVec 160
deriving DecidableEq, Repr

/-- What the hub remembers of a completed grid (13 R377). -/
structure DoneGrid where
  id : DWord
  regions : List (DWord × Nat)
deriving DecidableEq, Repr

/-- A launch packet waiting at the port (13 R378): its source page (0 to 127 a virtual function, 128 to 139 a CPU-die
launch page, 140 to 147 a fabric port). -/
structure Packet where
  src : Nat
  mac : List Byte
  bytes : List Byte
deriving DecidableEq, Repr

/-- A LAUNCH on its way to the port (13 R383), with the slices that count its post. -/
structure LaunchReq where
  gid : Nat
  gang : SliceMask
  d : Nat
  ra : DWord
  grid : DWord
deriving DecidableEq, Repr

/-- The reply to a LAUNCH (13 R383). -/
structure LaunchReply where
  gid : Nat
  d : Nat
  value : DWord
deriving DecidableEq, Repr

/-- A launch page (14 R389): packet buffer, response ring, held responses; discard: after a hot reset (R396). -/
structure LaunchPage where
  pkt : List Byte
  busy : Bool
  rstDone : Bool
  rspBase : DWord
  rspSz : Nat
  rspHead : BitVec 16
  rspTail : BitVec 16
  held : List (List Byte)
  discard : Bool
deriving DecidableEq, Repr

/-- The control page of a partition (14 R406). -/
structure ControlPage where
  fopa : DWord
  fops : BitVec 4
  ghandle : DWord
  gst : Nat
  rring : DWord
  rrSz : Nat
  rrHead : BitVec 16
  rrTail : BitVec 16
  rrMsia : DWord
  rrMsid : Word
deriving DecidableEq, Repr

/-- The control registers of a partition (12 R351). lists: the free frames of its six local lists. -/
structure PartRegs where
  leaseSt : Nat
  fopa : DWord
  fops : BitVec 4
  ring : DWord
  ringSz : Nat
  ringHead : BitVec 16
  ringTail : BitVec 16
  lists : List (List Nat)
  pinUsed : Nat
deriving DecidableEq, Repr

/-- A partition record (14 R386). -/
structure PartRec where
  clusters : BitVec 20
  pinq : Nat
  vfs : BitVec 128
  nearq : List Nat
  midq : Nat
  farq : Nat
  vmid : Nat
  valid : Bool
  self : Bool
  resetting : Bool
  sum : Bool
  adup : Bool
deriving DecidableEq, Repr

/-- A posting to the referee's fault queue (14 R399): the record, the group handle and the partition. -/
structure Posting where
  record : Record
  handle : DWord
  part : Nat
  asid : Nat
deriving DecidableEq, Repr

/-- What a home or a core has to do next in a subscription's life (06 R185, R186, R190, R191). -/
inductive SubMsg where
  | remove (core tid off : Nat)
  | removed (core tid off : Nat)
  | park (home idx : Nat)
  | repoint (home idx core tid : Nat)
deriving DecidableEq, Repr

/-- An arrival on its way to a barrier register (08 R242). -/
structure Arrival where
  tid : Nat
  bar : Nat
  ranges : List (DWord × Nat)
deriving DecidableEq, Repr

/-- The latched counters of a snapshot block (14 R406). -/
structure Snapshot where
  num : BitVec 16
  counters : List DWord
deriving DecidableEq, Repr

/-- What the device keeps of a team that is switched out, beside its save area: what the layout of 12 R363 to R365 has no place for, so that the
context resumes unchanged (R362, 19 R421). slots: the operand slots it held; grow: the banks it had added; held, posts: its traps in the held-trap buffer
and its posts that had not left their buffers (by group number); slabs: the slab entries it held; evicts: evictions that only wait for readers; subs: its
parked subscriptions, lost those lost meanwhile with the cause, moved those that a migration has carried elsewhere (06 R187): the home and index that the save
area names, and those that hold now. -/
structure Saved where
  grid : DWord
  team : Word
  window : DWord
  grow : Nat
  slots : List Nat
  slabs : List Nat
  groups : List Group
  tasks : List Task
  copies : List (Nat × Copy)
  evicts : List Evict
  held : List HeldTrap
  posts : List PostSlot
  subs : List DirSlot
  lost : List (DirSlot × Nat)
  moved : List ((Nat × Nat) × (Nat × Nat))
deriving DecidableEq, Repr

/-- A request of an agent outside the compute dies that waits for a retroactive clean (07 R203, R205): for a line, or with the bytes of a store. -/
structure OutsideReq where
  agent : Nat
  pa : Nat
  own : Bool
  store : Option (List Byte)
deriving DecidableEq, Repr

/-- A request of this package to the upstream host (14 R393): the requester ID, which is the lowest virtual function of the issuing partition, the host address,
and the bytes of a write; a read has none. -/
structure Upstream where
  requester : Option Nat
  addr : DWord
  data : Option (List Byte)
deriving DecidableEq, Repr

/-- A lowering of READERS that a cancelled task has yet to make (10 R289): page `page` of the slab that it captured, through the table entry of its team, so that the
lowering goes with a growth which carries the record on (R279, R286); pa: its address, once the team itself has gone; part: the partition of its request. -/
structure ReaderDrop where
  tid : Nat
  part : Nat
  entry : Nat
  page : Nat
  cap : Slab
  pa : Option Nat
deriving DecidableEq, Repr

/-- A TLB shootdown (11 R309): it names a first-stage space or a G-stage space, one address or all. -/
structure Shoot where
  gstage : Bool
  asid : Nat
  vmid : Nat
  va : Option Nat
deriving DecidableEq, Repr

/-- The hub (00 R1). drops: the READERS counters that cancelled tasks have yet to lower; shoots: the requests of the CPU die that wait (11 R309). -/
structure Hub where
  sync : List SyncEntry
  adds : List AddQueue
  relayFlags : List RelayFlag
  grids : List Grid
  doneGrids : List DoneGrid
  serial : Word
  tenants : Sparse (List Byte)
  packets : List Packet
  launchReqs : List LaunchReq
  launchReplies : List LaunchReply
  accepted : Nat
  refused : Nat
  pages : Sparse LaunchPage
  ctl : Sparse ControlPage
  regs : Sparse PartRegs
  frames : Sparse FrameRec
  moves : List Move
  retries : List HomeWrite
  claims : List (Option Claim)
  ownClaims : List (Nat × Nat)
  drops : List ReaderDrop
  shoots : List Shoot
  pushNet : List Push
  refusals : List Push
  leaseLost : List (Nat × Nat × Nat × BitVec 2)
  outside : List OutsideReq
  subMsgs : List SubMsg
  signals : List (Nat × Nat)
  arrivals : List Arrival
  holim : Word
  fabricIv : List DWord
  sent : List (Nat × List Byte)
  snapNum : BitVec 16
  snapFlight : Bool
  snapWait : List Nat
  snaps : Sparse Snapshot
  upstream : List Upstream
  saved : List Saved
deriving DecidableEq, Repr

/-- A firmware image slot (14 R401), with the bytes written since it was erased. -/
structure Image where
  bytes : Sparse Byte
  size : Nat
  opened : Bool
  bootable : Bool
deriving DecidableEq, Repr

/-- The referee core (14 R399 to R408). stage, reason, failcnt, slot, minimal: BOOT_STATUS (R403); boot: the last stage that the start under way has passed;
verified: an image has been verified since the last start; coldAt: when the last cold start was. changing: a SET_PARTITION that waits for teams to leave
(R388); doe: the response to the last SPDM message over PCIe DOE (R401). -/
structure Referee where
  postings : List Posting
  faultQ : List Posting
  parts : Sparse PartRec
  stage : Nat
  reason : Nat
  failcnt : Nat
  slot : Nat
  minimal : Bool
  boot : Option Nat
  verified : Bool
  coldAt : Nat
  images : List Image
  svnCount : Nat
  runSvn : Nat
  owner : Nat
  mbStatus : Nat
  mbAlen : Word
  mbData : List Host.Cell
  mbResult : List Byte
  log : List (List Byte)
  logNext : Nat
  msi : List (DWord × Word)
  notices : List (Nat × Nat)
  changing : Option (Nat × PartRec)
  doe : List Byte
deriving DecidableEq, Repr

/-- The gang that issues: its group and its slices. -/
structure Cur where
  gid : Nat
  gang : SliceMask
deriving DecidableEq, Repr

/-- The machine. cur: the gang whose instruction exec runs; inputs: what the outside world and the machine's clocks do,
each at a time; time counts steps (the model's own fields, not the spec's). -/
structure State where
  mem : List Host.Cell
  groups : Sparse Group
  teams : Sparse Team
  cores : Sparse Core
  dies : Sparse Die
  homes : Sparse Home
  hub : Hub
  referee : Referee
  cur : Option Cur
  inputs : List (Nat × Instr)
  time : Nat
deriving DecidableEq, Repr

/-- Why the machine stops with a fault. -/
inductive Fault where
  /-- Raised by a meaning of an instruction word when no gang issues (State.cur names none, or a gang with no live slice):
  the instruction has no issuer. Safe: the model stops where no hardware instruction exists. -/
  | noIssuer
  /-- Raised by the step when a fetched word decodes to no row and R35 gives it no trap: never reached. Safe. -/
  | undecodable
deriving DecidableEq, Repr

/-- Why the machine has no meaning for an instruction. -/
inductive Refusal where
  /-- Raised by an arm of exec that has no meaning yet. Safe. -/
  | notModelled (mnemonic : String)
deriving DecidableEq, Repr

/-! ## Reset -/

/-- A slice as a group's launch leaves it (02 R41, 01 R26). -/
def Slice.launch (entry : DWord) : Slice :=
  { pc := entry, live := 15, run := 15, stack := [], depth := 0, mode := 0x87, loads := 0, stores := 0, atomics := 0, posts := 0,
    gang := 0, wait := .none, spin := .no, lastBack := none, promoted := false, handler := none, issues := 0 }

/-- No group: what an unlisted key of State.groups stands for. -/
def Group.reset : Group :=
  { core := 0, part := 0, tid := 0, num := 0, role := 0, budget := 0, slices := [], vregs := [], preds := [], uregs := [],
    uq := 0, issueNo := 0, queue := [], frame := none, parked := false, parkSerial := 0, solo := false, openBatch := 1,
    openLeft := 0, closed := [], posts := [], postNo := 0, withdrawn := [], retired := true }

/-- No ranges. -/
def Ranges.empty : Ranges := { items := [], full := false }

/-- A barrier register at team launch: unarmed (08 R241). -/
def Barrier.reset : Barrier := { lap := 0, pending := 0, expected := 0, cur := .empty, last := .empty }

/-- No team. -/
def Team.reset : Team :=
  { window := 0, scrSize := 0, scratch := [], grow := [], pages := [], fifos := [none, none, none, none],
    bars := List.replicate 16 .reset, filling := false, room := true }

/-- A core after reset: every bank in cache mode with an empty L1, every slot free, nothing queued. -/
def Core.reset : Core :=
  { banks := List.replicate 24 .cache, bankChange := [], l1 := [], opmem := [], slots := List.replicate 64 .free,
    zeroQueue := [], releasing := [], tasks := [], copies := [], slabs := [], directory := [], inbox := [], refusedHomes := [], binds := [],
    log := [], nextId := 0, postBuf := [], lastPost := [8, 8], held := [], retry := [], icache := [], shadow := [], issued := List.replicate 8 0, l1Hits := 0,
    l1Misses := 0, delivered := 0 }

/-- A compute die after reset. -/
def Die.reset : Die :=
  { l2 := [], l2Hits := 0, l2Misses := 0, tlbMisses := 0, tlb := [], walkCache := [], locks := [], lockWait := [], evicts := [], relayQ := [], pendingQ := [], pqe := List.replicate 32 0, pqRet := 0, commitSt := 0, committing := none,
    preemptSt := 0, preempting := none, loaded := false, partmap := List.replicate 12 0, leaseLost := [], down := false, released := 0,
    relayBytes := 0 }

/-- A home after reset. -/
def Home.reset : Home :=
  { lines := [], subs := [], seqs := [], leases := [], relayMarks := [], applied := 0, pushes := 0, refused := 0 }

/-- A frame record of tier 0 or 1 that nothing has written (11 R311: OWNER 0 outside the pool). -/
def FrameRec.reset : FrameRec :=
  { owner := 0, share := 0, pinc := 0, acc := 0, part := 0, hint := 0, claimant := 0, claim := false, handoff := false,
    moving := false, fwd := false, local_ := false, alloc := false }

/-- A launch page after reset (14 R389). -/
def LaunchPage.reset : LaunchPage :=
  { pkt := List.replicate 128 0, busy := false, rstDone := false, rspBase := 0, rspSz := 4, rspHead := 0, rspTail := 0,
    held := [], discard := false }

/-- A control page after reset (14 R406). -/
def ControlPage.reset : ControlPage :=
  { fopa := 0, fops := 0, ghandle := 0, gst := 0, rring := 0, rrSz := 4, rrHead := 0, rrTail := 0, rrMsia := 0, rrMsid := 0 }

/-- The control registers of a partition after reset (12 R351). -/
def PartRegs.reset : PartRegs :=
  { leaseSt := 0, fopa := 0, fops := 0, ring := 0, ringSz := 4, ringHead := 0, ringTail := 0,
    lists := List.replicate 6 [], pinUsed := 0 }

/-- A partition record after reset: not valid (14 R386). -/
def PartRec.reset : PartRec :=
  { clusters := 0, pinq := 0, vfs := 0, nearq := [0, 0, 0, 0], midq := 0, farq := 0, vmid := 0, valid := false, self := false,
    resetting := false, sum := false, adup := false }

/-- A tenant entry after reset: all zero, so VALID is clear (13 R379). -/
def tenantReset : List Byte := List.replicate 128 0

/-- A slot of the slot table after reset: FREE (13 R367). -/
def bindReset : List Byte := List.replicate 256 0

/-- The hub after reset. -/
def Hub.reset : Hub :=
  { sync := [], adds := [], relayFlags := [], grids := [], doneGrids := [], serial := 1, tenants := [], packets := [],
    launchReqs := [], launchReplies := [], accepted := 0, refused := 0, pages := [], ctl := [], regs := [], frames := [],
    moves := [], retries := [], claims := List.replicate 16 none, ownClaims := [], drops := [], shoots := [], pushNet := [], refusals := [], leaseLost := [], outside := [], subMsgs := [],
    signals := [], arrivals := [], holim := 1000000, fabricIv := List.replicate 8 0, sent := [], snapNum := 0, snapFlight := false,
    snapWait := [], snaps := [], upstream := [], saved := [] }

/-- An empty image slot. -/
def Image.reset : Image := { bytes := [], size := 0, opened := false, bootable := false }

/-- The referee after a cold reset: no stage reached yet (14 R402), the PCIe host owns the mailbox (R408). -/
def Referee.reset : Referee :=
  { postings := [], faultQ := [], parts := [], stage := 0, reason := 0, failcnt := 0, slot := 0, minimal := false, boot := none, verified := false, coldAt := 0,
    images := [.reset, .reset], svnCount := 0, runSvn := 0, owner := 0, mbStatus := 0, mbAlen := 0, mbData := [], mbResult := [], log := [],
    logNext := 0, msi := [], notices := [], changing := none, doe := [] }

/-- The machine right after reset: no grid, no team, no input. -/
def State.reset : State :=
  { mem := [], groups := [], teams := [], cores := [], dies := [], homes := [], hub := .reset, referee := .reset,
    cur := none, inputs := [], time := 0 }

end Sys2Proof.Machine
end

