-- ==== Sys2Proof/Machine/Ops.lean ====
section
/-! DEFINITION. The named operations over the state: tables, bytes, registers, gangs, join stacks, trap queues, taking a
trap and returning from it. -/
namespace Sys2Proof.Machine

/-! ## Tables -/

/-- The entry of a table at a key; d where the key is unlisted. -/
def sget {α : Type} (d : α) : Sparse α → Nat → α
  | [], _ => d
  | (k, v) :: r, i => if k = i then v else sget d r i

/-- The entry at a key, if listed. -/
def sfind {α : Type} : Sparse α → Nat → Option α
  | [], _ => none
  | (k, v) :: r, i => if k = i then some v else sfind r i

/-- Write an entry: keys stay strictly rising. -/
def sput {α : Type} : Sparse α → Nat → α → Sparse α
  | [], i, x => [(i, x)]
  | (k, v) :: r, i, x => if i < k then (i, x) :: (k, v) :: r else if i = k then (i, x) :: r else (k, v) :: sput r i x

/-- Remove an entry. -/
def sdel {α : Type} : Sparse α → Nat → Sparse α
  | [], _ => []
  | (k, v) :: r, i => if i < k then (k, v) :: r else if i = k then r else (k, v) :: sdel r i

/-- Replace the entry at a position of a list. -/
def lset {α : Type} : List α → Nat → α → List α
  | [], _, _ => []
  | _ :: r, 0, x => x :: r
  | y :: r, n + 1, x => y :: lset r n x

/-- Remove the entry at a position of a list. -/
def ldrop {α : Type} : List α → Nat → List α
  | [], _ => []
  | _ :: r, 0 => r
  | y :: r, n + 1 => y :: ldrop r n

/-! ## Bytes of memory -/

/-- Memory in its canonical form: addresses strictly rising, no listed byte equal to what an unlisted address reads as. -/
def Memory.rising : List Host.Cell → Bool
  | [] => true
  | (a, b) :: r => decide (b ≠ 0) && (match r with | [] => true | (a', _) :: _ => decide (a < a')) && rising r

/-- The canonical form of memory, as a proposition. -/
abbrev Memory.wf (m : List Host.Cell) : Prop := Memory.rising m = true

/-- What a byte of memory that nothing has written reads as (DESIGN CHOICE, log 2). -/
def unwritten : Byte := 0

/-- The byte at an address. -/
def bget (m : List Host.Cell) (a : Nat) : Byte := sget unwritten m a

/-- Write one byte, keeping the canonical form. -/
def bput (m : List Host.Cell) (a : Nat) (b : Byte) : List Host.Cell := if b = unwritten then sdel m a else sput m a b

/-- n bytes from an address, lowest first. -/
def bgets (m : List Host.Cell) (a n : Nat) : List Byte := (List.range n).map fun i => bget m (a + i)

/-- Write bytes at an address, lowest first. -/
def bputs (m : List Host.Cell) (a : Nat) : List Byte → List Host.Cell
  | [] => m
  | b :: r => bputs (bput m a b) (a + 1) r

/-- Little-endian value of bytes (00 R11). -/
def leNat : List Byte → Nat
  | [] => 0
  | b :: r => b.toNat + 256 * leNat r

/-- The n low bytes of a value, little-endian (00 R11). -/
def leBytes : Nat → Nat → List Byte
  | 0, _ => []
  | n + 1, x => BitVec.ofNat 8 x :: leBytes n (x / 256)

/-- A field of a record: n bytes at an offset. -/
def recField (b : List Byte) (off n : Nat) : Nat := leNat ((b.drop off).take n)

/-- Sign extension of the low n bits of x to 64 bits (00 R14, sext). -/
def sext64 (x n : Nat) : DWord :=
  let y := x % 2 ^ n
  BitVec.ofInt 64 (if y < 2 ^ (n - 1) then (y : Int) else (y : Int) - 2 ^ n)

/-- ceil_div of 00 R14. -/
def ceilDiv (a b : Nat) : Nat := (a + b - 1) / b

/-! ## The parts of the state -/

def State.group (s : State) (gid : Nat) : Group := sget .reset s.groups gid
def State.team (s : State) (tid : Nat) : Team := sget .reset s.teams tid
def State.core (s : State) (c : Nat) : Core := sget .reset s.cores c
def State.die (s : State) (d : Nat) : Die := sget .reset s.dies d
def State.home (s : State) (h : Nat) : Home := sget .reset s.homes h
def State.setGroup (s : State) (gid : Nat) (g : Group) : State := { s with groups := sput s.groups gid g }
def State.setTeam (s : State) (tid : Nat) (t : Team) : State := { s with teams := sput s.teams tid t }
def State.setCore (s : State) (c : Nat) (k : Core) : State := { s with cores := sput s.cores c k }
def State.setDie (s : State) (d : Nat) (k : Die) : State := { s with dies := sput s.dies d k }
def State.setHome (s : State) (h : Nat) (k : Home) : State := { s with homes := sput s.homes h k }
def State.modGroup (s : State) (gid : Nat) (f : Group → Group) : State := s.setGroup gid (f (s.group gid))
def State.modTeam (s : State) (tid : Nat) (f : Team → Team) : State := s.setTeam tid (f (s.team tid))
def State.modCore (s : State) (c : Nat) (f : Core → Core) : State := s.setCore c (f (s.core c))
def State.modDie (s : State) (d : Nat) (f : Die → Die) : State := s.setDie d (f (s.die d))
def State.modHome (s : State) (h : Nat) (f : Home → Home) : State := s.setHome h (f (s.home h))
def State.modHub (s : State) (f : Hub → Hub) : State := { s with hub := f s.hub }
def State.modReferee (s : State) (f : Referee → Referee) : State := { s with referee := f s.referee }

/-- The compute die of a core (00 R1: 5 clusters of 8 cores). -/
def dieOf (core : Nat) : Nat := core / 40
/-- The cluster of a core. -/
def clusterOf (core : Nat) : Nat := core / 8

/-- The bind record of a team: the home slot's copy (13 R368). -/
def State.bindRec (s : State) (tid : Nat) : List Byte := sget bindReset (s.core (tid / 32)).binds (tid % 32)
/-- A field of a team's bind record. -/
def State.bindField (s : State) (tid off n : Nat) : Nat := recField (s.bindRec tid) off n
/-- ASID of a team: SATP [59:44] (13 R368). -/
def State.asid (s : State) (tid : Nat) : Nat := s.bindField tid 0x30 8 / 2 ^ 44 % 2 ^ 16
/-- VMID of a team: HGATP [57:44]. -/
def State.vmid (s : State) (tid : Nat) : Nat := s.bindField tid 0x38 8 / 2 ^ 44 % 2 ^ 14
/-- Isolated partition of a team. -/
def State.partOf (s : State) (tid : Nat) : Nat := s.bindField tid 2 1
/-- Grid identifier of a team. -/
def State.gridOf (s : State) (tid : Nat) : DWord := BitVec.ofNat 64 (s.bindField tid 0x10 8)
/-- A live grid. -/
def State.findGrid (s : State) (grid : DWord) : Option Grid := s.hub.grids.find? fun x => x.id == grid
/-- The priority that the launch path granted a team, whatever its bind record holds (13 R372). -/
def State.grantedPrio (s : State) (tid : Nat) : Nat :=
  match s.findGrid (s.gridOf tid) with
  | some x => min (s.bindField tid 1 1) x.prio
  | none => s.bindField tid 1 1
/-- The partition record (14 R386). -/
def State.partRec (s : State) (p : Nat) : PartRec := sget .reset s.referee.parts p
/-- The control registers of a partition (12 R351). -/
def State.regs (s : State) (p : Nat) : PartRegs := sget .reset s.hub.regs p
def State.modRegs (s : State) (p : Nat) (f : PartRegs → PartRegs) : State :=
  s.modHub fun h => { h with regs := sput h.regs p (f (sget .reset h.regs p)) }
/-- The control page of a partition (14 R406). -/
def State.ctl (s : State) (p : Nat) : ControlPage := sget .reset s.hub.ctl p
def State.modCtl (s : State) (p : Nat) (f : ControlPage → ControlPage) : State :=
  s.modHub fun h => { h with ctl := sput h.ctl p (f (sget .reset h.ctl p)) }
/-- The team is switched out, or being so: its slot is in state SWAP (13 R367). -/
def State.swapped (s : State) (tid : Nat) : Bool := s.bindField tid 0 1 == 3
/-- The groups of a team, by group number (13 R368: G of the bind record). -/
def State.teamGids (s : State) (tid : Nat) : List Nat := (List.range (s.bindField tid 4 2)).map fun g => tid * 64 + g
/-- The cores of a team: the home core and the member cores (13 R368). -/
def State.teamCores (s : State) (tid : Nat) : List Nat :=
  (tid / 32) :: ((List.range 3).map fun i => s.bindField tid (0x59 + i) 1).filter (· ≠ 0xFF)

/-! ## Slices, gangs and lanes -/

/-- The gang that a slice belongs to outside its group's handler frame. -/
def Slice.ownGang (x : Slice) : Nat := match x.handler with | some h => h.gang | none => x.gang

/-- What stands for a slice that does not exist: dead. -/
def Slice.dead : Slice := { Slice.launch 0 with live := 0, run := 0 }

def Group.slice (g : Group) (i : Nat) : Slice := g.slices.getD i .dead
def Group.setSlice (g : Group) (i : Nat) (x : Slice) : Group := { g with slices := lset g.slices i x }
/-- Change every slice of a set. -/
def Group.mapSlices (g : Group) (m : SliceMask) (f : Nat → Slice → Slice) : Group :=
  { g with slices := g.slices.mapIdx fun i x => if m.getLsbD i then f i x else x }

/-- A slice is dead when its live mask is zero (02 R43: no join-stack entry can then hold a live lane). -/
def Slice.isDead (x : Slice) : Bool := x.live == 0

/-- The set of the slices that satisfy a condition. -/
def sliceSet (p : Nat → Bool) : SliceMask :=
  (List.range 64).foldl (fun m i => if p i then m ||| (1#64 <<< i) else m) 0
/-- The set of the lanes that satisfy a condition. -/
def laneSet (p : Nat → Bool) : LaneMask :=
  (List.range 256).foldl (fun m i => if p i then m ||| (1#256 <<< i) else m) 0

/-- The live slices of a group. -/
def Group.liveSlices (g : Group) : SliceMask := sliceSet fun i => !(g.slice i).isDead
/-- The slices of a gang: the live slices that bear its number; while a frame is open, the handler slices among them that
run (12 R340, R348). -/
def Group.gangSlices (g : Group) (n : Nat) : SliceMask :=
  sliceSet fun i => let x := g.slice i
    !x.isDead && x.gang == n && (g.frame.isNone || (x.handler.isSome && x.run != 0))
/-- The lowest slice of a set; 0 for the empty set. -/
def lowestSlice (m : SliceMask) : Nat := ((List.range 64).find? fun i => m.getLsbD i).getD 0
/-- The lowest lane of a set; 0 for the empty set. -/
def lowestLane (m : LaneMask) : Nat := ((List.range 256).find? fun i => m.getLsbD i).getD 0
/-- The lowest live slice of the group, whose ETYPE rules uniform work (03 R99). -/
def Group.lowestLive (g : Group) : Nat := lowestSlice g.liveSlices

/-- The issuing gang, with the SOLO lane when the handler is in SOLO mode (12 R344). -/
structure Ctx where
  gid : Nat
  gang : SliceMask
  solo : Option Nat
deriving DecidableEq, Repr

/-- The SOLO lane of a group in SOLO mode. -/
def Group.soloLane (g : Group) : Option Nat := if g.solo then g.frame.map (·.tfcur % 256) else none

/-- Lane l is in the issuing gang and in its slice's run mask; in SOLO mode, it is the SOLO lane. -/
def runs (g : Group) (c : Ctx) (l : Nat) : Bool :=
  match c.solo with
  | some t => l == t
  | none => c.gang.getLsbD (l / 4) && (g.slice (l / 4)).run.getLsbD (l % 4)

/-- A vector predicate by its 4-bit P-field in lane l (01 R25): p7 reads true, bit 3 negates. -/
def readP (g : Group) (p : Nat) (l : Nat) : Bool :=
  (if p % 8 = 7 then true else (g.preds.getD (p % 8) 0).getLsbD l) ^^ decide (8 ≤ p % 16)

/-- A uniform predicate by its P-field (01 R25): q3 reads true, bit 3 negates. -/
def readQ (g : Group) (q : Nat) : Bool :=
  (if q % 8 = 3 then true else g.uq.getLsbD (q % 8)) ^^ decide (8 ≤ q % 16)

/-- The guard of lane l's slice reads true there (01 R29). -/
def guardTrue (g : Group) (l : Nat) : Bool := readP g ((g.slice (l / 4)).mode.toNat % 16) l

/-- Lane l is active (01 R29, 02 R42). -/
def isActive (g : Group) (c : Ctx) (l : Nat) : Bool := runs g c l && guardTrue g l

/-- The running lanes and the active lanes, as sets. -/
def runSet (g : Group) (c : Ctx) : LaneMask := laneSet (runs g c)
def activeSet (g : Group) (c : Ctx) : LaneMask := laneSet (isActive g c)
/-- The lanes of a set, ascending. -/
def lanesOf (m : LaneMask) : List Nat := (List.range 256).filter fun i => m.getLsbD i
/-- The slices of a set, ascending. -/
def slicesOf (m : SliceMask) : List Nat := (List.range 64).filter fun i => m.getLsbD i

/-! ## Registers -/

/-- Vector register n of lane l. -/
def vget (g : Group) (n l : Nat) : Word := (sget [] g.vregs n).getD l 0
/-- Uniform register n. -/
def uget (g : Group) (n : Nat) : Word := sget 0 g.uregs n
/-- Read a V-field in lane l (01 R18): a vector register, or a uniform register broadcast. -/
def readV (g : Group) (code l : Nat) : Word := if code < 128 then vget g code l else uget g (code - 128)
/-- Read a 64-bit V-field operand in lane l (01 R19). -/
def readV64 (g : Group) (code l : Nat) : DWord := pairOf (readV g code l) (readV g (code + 1) l)
/-- Write vector register n in the lanes for which f gives a value. -/
def vput (g : Group) (n : Nat) (f : Nat → Option Word) : Group :=
  { g with vregs := sput g.vregs n ((List.range 256).map fun l => (f l).getD (vget g n l)) }
/-- Write a 64-bit value into the pair n, n + 1 in the lanes for which f gives one. -/
def vput64 (g : Group) (n : Nat) (f : Nat → Option DWord) : Group :=
  vput (vput g n fun l => (f l).map loHalf) (n + 1) fun l => (f l).map hiHalf
/-- Write uniform register n. -/
def uput (g : Group) (n : Nat) (x : Word) : Group := { g with uregs := sput g.uregs n x }
/-- Write a pair of uniform registers. -/
def uput64 (g : Group) (n : Nat) (x : DWord) : Group := uput (uput g n (loHalf x)) (n + 1) (hiHalf x)
/-- Write a vector predicate by its destination P-field in the lanes for which f gives a value (01 R25): bit 3 stores the
complement, p7 discards. -/
def pput (g : Group) (p : Nat) (f : Nat → Option Bool) : Group :=
  if p % 8 = 7 then g
  else
    let old := g.preds.getD (p % 8) 0
    { g with preds := lset (g.preds ++ List.replicate (7 - g.preds.length) 0) (p % 8) (laneSet fun l => ((f l).map (· ^^ decide (8 ≤ p % 16))).getD (old.getLsbD l)) }
/-- Write a uniform predicate by its destination P-field (01 R25): bit 3 stores the complement, q3 discards. -/
def qput (g : Group) (q : Nat) (b : Bool) : Group :=
  if q % 8 = 3 then g
  else
    let v := b ^^ decide (8 ≤ q % 16)
    { g with uq := if v then g.uq ||| (1#3 <<< (q % 8)) else g.uq &&& ~~~(1#3 <<< (q % 8)) }

/-! ## Gangs after an instruction -/

/-- The least of the 64 gang numbers that is not used. -/
def freshGang (used : List Nat) : Nat := ((List.range 64).find? fun n => !used.contains n).getD 0

/-- Partition the gangs of a group by their slices' next PCs (02 R44): the part with the lowest slice keeps the number; every
other part takes the least unused one, which R44 leaves open (DESIGN CHOICE, log 63). -/
def regroupFrom (g : Group) (seen : List (Nat × DWord × Nat)) (used : List Nat) : List Nat → Group
  | [] => g
  | i :: r =>
    let x := g.slice i
    if x.isDead then regroupFrom g seen used r
    else
      match seen.find? fun e => e.1 == x.gang && e.2.1 == x.pc with
      | some e => regroupFrom (g.setSlice i { x with gang := e.2.2 }) seen used r
      | none =>
        if seen.any fun e => e.1 == x.gang then
          let n := freshGang used
          regroupFrom (g.setSlice i { x with gang := n }) ((x.gang, x.pc, n) :: seen) (n :: used) r
        else regroupFrom g ((x.gang, x.pc, x.gang) :: seen) used r

/-- A gang that splits stops spinning, in all of its parts (02 R55). -/
def Group.splitStops (g : Group) (ok : Nat → Bool) : Group :=
  { g with slices := g.slices.mapIdx fun i x =>
      if ok i && (List.range 64).any (fun j => let y := g.slice j; ok j && !y.isDead && y.gang == x.gang && y.pc != x.pc) then { x with spin := .no } else x }

/-- Split the gangs of a group by next PC. While a frame is open only the handler slices issue, so only they are split, and only they use numbers: the
others, and the numbers that the frame has saved, come back when it closes. -/
def Group.regroup (g : Group) : Group :=
  let ok (i : Nat) : Bool := g.frame.isNone || (g.slice i).handler.isSome
  let used := ((List.range 64).filter ok).filterMap fun i => let x := g.slice i
    if x.isDead then none else some x.gang
  regroupFrom (g.splitStops ok) [] used ((List.range 64).filter ok)

/-- A gang whose closed range its next PC leaves stops spinning (02 R55). -/
def Slice.spinCheck (x : Slice) : Slice :=
  match x.spin with
  | .closed lo hi => if lo ≤ x.pc ∧ x.pc ≤ hi then x else { x with spin := .no }
  | _ => x

/-- Advance the gang to PC + 4. -/
def advance (c : Ctx) (g : Group) : Group :=
  g.mapSlices c.gang fun _ x => ({ x with pc := x.pc + 4, promoted := false } : Slice).spinCheck

/-- What a store-class instruction does to spinning (02 R55). -/
def storeClass (c : Ctx) (g : Group) : Group := g.mapSlices c.gang fun _ x => { x with spin := .no, lastBack := none }

/-! ## Join stacks (02 R45, R46, R426) -/

/-- Push an entry; the caller has checked that fewer than 8 are held. -/
def Slice.push (x : Slice) (k : JoinKind) (pc : DWord) (mask : BitVec 4) : Slice :=
  let e : JoinEntry := { kind := k, mask := mask, pc := (pc >>> 2).setWidth 62 }
  { x with stack := x.stack.take x.depth ++ e :: x.stack.drop (x.depth + 1), depth := x.depth + 1 }

/-- The address an entry resumes at. -/
def JoinEntry.addr (e : JoinEntry) : DWord := (e.pc.setWidth 64) <<< 2

/-- The entry at an index, if one was ever pushed there. -/
def Slice.entry (x : Slice) (i : Nat) : JoinEntry := x.stack.getD i { kind := .mark, mask := 0, pc := 0 }

/-- The outcome of join_pop: the slice as it resumes or dies, or the JOIN_STACK cause. -/
inductive PopResult where
  | ok (x : Slice)
  | trap (cause : Nat)
deriving DecidableEq, Repr

/-- join_pop of 02 R46, from a depth down: entries whose lanes have all exited are discarded on the way. -/
def joinPop (x : Slice) (implicit : Bool) : Nat → PopResult
  | 0 => if implicit then .ok { x with depth := 0, run := 0 } else .trap 2
  | d + 1 =>
    let e := x.entry d
    if e.kind = .call ∧ implicit = false then .trap 3
    else if e.mask &&& x.live ≠ 0 then .ok { x with depth := d, run := e.mask &&& x.live, pc := e.addr }
    else joinPop x implicit d

/-- An implicit pop: it never traps (02 R426). -/
def implicitPop (x : Slice) : Slice :=
  match joinPop x true x.depth with
  | .ok y => y
  | .trap _ => x

/-! ## Outstanding counters (02 R42) -/

/-- Which counter a logged operation counts in: 0 loads, 1 stores, 2 atomics, 3 none (BIND and UNBIND, for which the spec names no
counter). -/
def MemKind.counter : MemKind → Nat
  | .load _ _ => 0 | .sxld _ => 0 | .lds _ _ _ => 0 | .ldu _ _ => 0 | .acq _ _ => 0 | .slabld _ _ => 0 | .pcnt _ _ => 0
  | .store _ => 1 | .sxst => 1 | .unsub _ _ => 1 | .stu _ => 1 | .rel _ _ => 1 | .slabst _ _ => 1 | .kvapp _ _ _ => 1
  | .atomic _ _ => 2 | .faadd _ => 2 | .faopen _ _ _ => 2 | .pin _ => 2 | .unpin _ => 2
  | .migr _ => 2 | .snap _ _ => 2 | .phint _ _ => 1
  | .bind _ _ _ _ => 3 | .unbind _ => 3

/-- How many lanes of slice i a set holds. -/
def lanesIn (m : LaneMask) (i : Nat) : Nat := ((List.range 4).filter fun j => m.getLsbD (4 * i + j)).length

/-- What an operation adds to slice i's counter: one, or one per lane for PCNT (11 R320) and FAADD (05 R161). -/
def MemKind.weight (k : MemKind) (active : LaneMask) (i : Nat) : Nat :=
  let n := lanesIn active i
  match k with
  | .pcnt _ _ => n
  | .faadd _ => n
  | _ => min n 1

def Slice.count (x : Slice) : Nat → Nat
  | 0 => x.loads | 1 => x.stores | 2 => x.atomics | _ => 0
/-- Change one of a slice's counters. -/
def Slice.setCount (x : Slice) (n v : Nat) : Slice :=
  match n with
  | 0 => { x with loads := v } | 1 => { x with stores := v } | 2 => { x with atomics := v } | _ => x

/-- Count an operation in its slices. -/
def countOp (g : Group) (k : MemKind) (m : SliceMask) (active : LaneMask) : Group :=
  g.mapSlices m fun i x => x.setCount k.counter (x.count k.counter + k.weight active i)
/-- Take an operation out of its slices' counters. -/
def uncountOp (g : Group) (k : MemKind) (m : SliceMask) (active : LaneMask) : Group :=
  g.mapSlices m fun i x => x.setCount k.counter (x.count k.counter - k.weight active i)

/-! ## Trap records and queues (12) -/

/-- Word 0 of a record (12 R334). -/
def Record.word0 (r : Record) : Word :=
  BitVec.ofNat 32 (r.cause.toNat * 2 ^ 16 + r.nested.toNat * 2 ^ 11 + r.logged.toNat * 2 ^ 10 + r.async.toNat * 2 ^ 9 + r.code.toNat)
/-- Word 1 of a record. -/
def Record.word1 (r : Record) : Word := BitVec.ofNat 32 (r.qleft * 2 ^ 8 + r.lane.toNat)
/-- The eight words of a record, as s120 to s127 and TFREC0 to TFREC7 hold them. -/
def Record.words (r : Record) : List Word :=
  [r.word0, r.word1, loHalf r.addr, hiHalf r.addr, loHalf r.pc, hiHalf r.pc, loHalf r.opword, hiHalf r.opword]
/-- The 32 bytes of a record. -/
def Record.bytes (r : Record) : List Byte := r.words.flatMap fun w => leBytes 4 w.toNat

/-- A group's handle (12 R346). -/
def groupHandle (g : Group) (serial : BitVec 16) : DWord :=
  BitVec.ofNat 64 (serial.toNat * 2 ^ 32 + g.num * 2 ^ 13 + g.tid % 32 * 2 ^ 8 + g.tid / 32)

/-- Insert by ascending key, behind equal keys (12 R336). -/
def enqueue (e : TrapEntry) : List TrapEntry → List TrapEntry
  | [] => [e]
  | x :: r => if e.key < x.key then e :: x :: r else x :: enqueue e r

/-- A group is live when it holds a live lane (12 R428). -/
def Group.isLive (g : Group) : Bool := !g.retired && g.liveSlices != 0

/-- The classes that the referee serves (12 R335): the group parks and no handler runs. -/
def refereeClass (r : Record) : Bool :=
  r.code == 0x02 || r.code == 0x0B ||
  (r.code == 0x0F && r.cause.toNat / 2 ^ 12 == 2) || (r.code == 0x10 && r.cause.toNat / 2 ^ 12 == 3) ||
  (r.code == 0x16 && r.cause.toNat % 256 == 8 && r.cause.toNat / 2 ^ 12 == 2)

/-- Park a group (12 R345): the park serial advances. -/
def Group.park (g : Group) : Group := { g with parked := true, parkSerial := g.parkSerial + 1 }

/-- Post a record to the referee (12 R345, 14 R399): it waits at the hub until the fault queue takes it. -/
def State.post (s : State) (g : Group) (r : Record) : State :=
  s.modReferee fun x => { x with postings := x.postings ++
    [{ record := r, handle := groupHandle g g.parkSerial, part := s.partOf g.tid, asid := s.asid g.tid }] }

/-- TVEC of a team (13 R368); 0 for none. -/
def State.tvec (s : State) (tid : Nat) : Nat := s.bindField tid 0x40 8
/-- The group's supervisor save area (12 R340). -/
def State.ssa (s : State) (g : Group) : DWord := BitVec.ofNat 64 (s.bindField g.tid 0x48 8 + 0x1000 * g.num)

/-- Open the group's handler frame on an entry (12 R340, deliver). While the frame holds a logged operation, no counter counts it (log 17). The handler
slices stop spinning, and closing the frame does not bring that back (DESIGN CHOICE: neither 02 R55 nor 12 R349 says; log 63). -/
def openFrame (s : State) (g : Group) (e : TrapEntry) : Group :=
  let h := sliceSet fun i => e.fmask &&& (0xF#256 <<< (4 * i)) != 0
  let r : Record := { e.record with qleft := g.queue.length, logged := e.log.isSome }
  let first := g.slice (lowestSlice h)
  let f : Frame :=
    { tfu := (List.range 16).map fun i => uget g (112 + i), tfq := g.uq, record := r,
      tfpc := if r.async then first.pc else e.resume, fmask := e.fmask, log := e.log, tfcur := lowestLane e.fmask,
      atIssue := e.atIssue, engine := e.engine }
  let hg := first.gang
  let g1 := g.mapSlices h fun i x =>
    { x with handler := some { mode := x.mode, run := x.run, depth := x.depth, gang := x.gang, wait := x.wait.at x.issues },
             mode := 0x87, run := (e.fmask >>> (4 * i)).setWidth 4, wait := .none, gang := hg, spin := .no,
             pc := BitVec.ofNat 64 (s.tvec g.tid + 0x40 * r.code.toNat) &&& ~~~3#64 }
  let g2 := match e.log with | some o => uncountOp g1 o.kind o.gang o.active | none => g1
  let regs : List Word := [loHalf (s.ssa g), hiHalf (s.ssa g), 0, 0, 0, 0, 0, 0] ++ r.words
  let g3 := (List.range 16).foldl (fun a i => uput a (112 + i) (regs.getD i 0)) g2
  { g3 with frame := some f, solo := false }

/-- Some logged instruction of the group with a lower key is not yet resolved (12 R340). -/
def olderLogged (s : State) (gid : Nat) (key : DWord) : Bool :=
  ((s.core (s.group gid).core).log.any fun o => o.gid == gid && !o.walked && o.key < key) || (s.group gid).withdrawn.any fun o => o.key < key

/-- Delivery of the group's first queue entry, when R340 allows it: the frame opens, and for a class that the referee serves, or
with TVEC 0 (13 R372), the group parks and its record goes to the referee; so too when every handler slice has died (02 R43), since then
no handler can run (log 16). -/
def tryDeliver (s : State) (gid : Nat) : State :=
  let g := s.group gid
  match g.queue with
  | [] => s
  | e :: r =>
    if g.parked || g.frame.isSome || g.retired || s.swapped g.tid || olderLogged s gid e.key || (e.record.async && g.liveSlices == 0) then s
    else
      let e' := if e.record.async then
          let l := lowestLane (laneSet fun i => (g.slice (i / 4)).live.getLsbD (i % 4))
          { e with fmask := 1#256 <<< l, record := { e.record with lane := BitVec.ofNat 8 l } }
        else e
      let g1 := openFrame s { g with queue := r } e'
      let s0 := s.modCore g.core fun k => { k with delivered := k.delivered + 1 }
      let noHandler := (List.range 64).all fun i => (g1.slice i).handler.isNone || (g1.slice i).isDead
      if s.tvec g.tid = 0 || refereeClass e'.record || noHandler then
        let g2 := g1.park
        (s0.setGroup gid g2).post g2 ((g2.frame.map (·.record)).getD e'.record)
      else s0.setGroup gid g1

/-- A slice stopped because its gang raised a precise trap that waits in the queue (12 R337). -/
def Group.stopped (g : Group) (i : Nat) : Bool := g.queue.any fun e => e.gang.getLsbD i

/-- Deliver at once when no gang of the group could still issue (log 5). -/
def deliverIfQuiet (s : State) (gid : Nat) : State :=
  let g := s.group gid
  if (List.range 64).all fun i => (g.slice i).isDead || g.stopped i || !(g.slice i).wait.free then tryDeliver s gid else s

/-- A trap that an instruction raises (12 R336, R337, R342). With the group's frame open it is NESTED: the group parks with its
frame open and the record goes to the referee. Else the gang stops, the entry joins the queue, and, when no other gang of the
group could still issue, it is delivered at once (log 5). With the queue full the instruction was not ready: its issue
number is taken back. -/
def raiseEntry (s : State) (c : Ctx) (e : TrapEntry) : State :=
  let g := s.group c.gid
  if g.frame.isSome then
    let g1 := g.park
    (s.setGroup c.gid g1).post g1 { e.record with nested := true }
  else if 8 ≤ g.queue.length then
    (s.setGroup c.gid { g.mapSlices c.gang (fun _ x => { x with issues := x.issues - 1 }) with issueNo := g.issueNo - 1 }).modCore g.core
      fun k => { k with issued := lset k.issued g.part (k.issued.getD g.part 0 - 1) }
  else
    deliverIfQuiet (s.setGroup c.gid { g with queue := enqueue e g.queue }) c.gid

/-- What an instruction says when it raises a trap: class, cause, the lanes in which its condition holds, the lane that the record
names, the address, the operation word. -/
structure TrapInfo where
  code : Nat
  cause : Nat
  fmask : LaneMask
  lane : Nat
  addr : DWord
  opw : Word
deriving DecidableEq, Repr

/-- A trap found at decode or issue of the word at the gang's PC (12 R334, R341). -/
def raiseTrap (s : State) (c : Ctx) (w : Word) (t : TrapInfo) : State :=
  let g := s.group c.gid
  let pc := (g.slice (lowestSlice c.gang)).pc
  raiseEntry s c
    { record := { cause := BitVec.ofNat 16 t.cause, nested := false, logged := false, async := false, code := BitVec.ofNat 8 t.code,
                  qleft := 0, lane := BitVec.ofNat 8 t.lane, addr := t.addr, pc := pc, opword := w.setWidth 64 ||| (t.opw.setWidth 64 <<< 32) },
      fmask := t.fmask, gang := c.gang, key := g.issueNo, log := none, atIssue := true,
      resume := if t.code = 0x15 then pc + 4 else pc, engine := .none }

/-- The team's lowest-numbered live group (12 R428). -/
def State.lowestLiveGroup (s : State) (tid : Nat) : Option Nat := (s.teamGids tid).find? fun gid => (s.group gid).isLive

/-- Resume the engine operation that a closing frame's trap stopped (12 R349). -/
def resumeEngine (s : State) : EngineRef → State
  | .none => s
  | .copy core id => s.modCore core fun k => { k with copies := k.copies.map fun x => if x.id = id then { x with phase := .queued, passed := x.progress, met := none, fault := none } else x }
  | .task core id => s.modCore core fun k => { k with tasks := k.tasks.map fun x => if x.id = id then { x with phase := .queued, fault := none } else x }
  | .evict die id => s.modDie die fun k => { k with evicts := k.evicts.map fun x => if x.id = id then { x with phase := .queued, fault := none } else x }

/-- Put an asynchronous trap into a group's queue. -/
def enterAsync (s : State) (gid : Nat) (r : Record) (e : EngineRef) : State :=
  let g := s.group gid
  deliverIfQuiet (s.setGroup gid { g with queue := enqueue { record := r, fmask := 0, gang := 0, key := g.issueNo, log := none,
                                                               atIssue := false, resume := 0, engine := e } g.queue }) gid

/-- The record of an asynchronous trap. -/
def asyncRecord (code cause : Nat) (addr : DWord) (opw : Nat) : Record :=
  { cause := BitVec.ofNat 16 cause, nested := false, logged := false, async := true, code := BitVec.ofNat 8 code, qleft := 0,
    lane := 0, addr := addr, pc := 0, opword := BitVec.ofNat 64 opw }

/-- The group that an asynchronous trap of a group goes to (12 R428): itself when it is live, else the team's lowest-numbered live group. -/
def State.asyncTarget (s : State) (gid : Nat) : Option Nat :=
  if (s.group gid).isLive then some gid else s.lowestLiveGroup (s.group gid).tid

/-- A new trap for a group may enter its queue: there is room, and no trap for the group that came before it waits in the core's buffer (12 R337). -/
def asyncRoom (s : State) (n : Nat) : Bool :=
  decide ((s.group n).queue.length < 8) && !(s.core (s.group n).core).held.any fun h => s.asyncTarget h.gid == some n

/-- Put an asynchronous trap, which names group gid and goes to group n, into n's queue, or else into the held-trap buffer of n's core (12 R337). -/
def queueAsync (s : State) (n gid : Nat) (r : Record) (e : EngineRef) : State :=
  if asyncRoom s n then enterAsync s n r e
  else s.modCore (s.group n).core fun k =>
    let h : HeldTrap := { gid := gid, record := r, engine := e }
    if k.held.length < 64 then { k with held := k.held ++ [h] } else { k with retry := k.retry ++ [h] }

/-- Raise an asynchronous trap (12 R428); with no live group of the team its record goes to the referee. -/
def raiseAsync (s : State) (gid : Nat) (r : Record) (e : EngineRef) : State :=
  match s.asyncTarget gid with
  | some n => queueAsync s n gid r e
  | none => s.post (s.group gid) r

/-- The operand log of a partition has room: 32 entries, each held until its lanes have passed translation and the home checks (12 R338), or,
at a FIFO, until every lane has been served (12 R360). -/
def logRoom (s : State) (g : Group) : Bool :=
  ((s.core g.core).log.filter fun o => (s.group o.gid).part == g.part && (!o.walked || o.hits.any (·.any fun h => h.attr == 3 && decide (0x4000000 ≤ h.pa)))).length < 32

/-- Insert an operation in key order. -/
def insertOp (o : LogOp) : List LogOp → List LogOp
  | [] => [o]
  | p :: r => if o.key < p.key then o :: p :: r else p :: insertOp o r

/-! ## Closing a frame -/

/-- Close the group's frame (12 R349): TRET and GRES. The reissued operation takes an entry of the operand log (R339); while the log is full it waits for one
(RESTORE_FILL gives it out; log 47). -/
def closeFrame (s : State) (gid : Nat) (skip : Bool) : State :=
  let g := s.group gid
  match g.frame with
  | none => s
  | some f =>
    let pc := if f.log.isNone && skip && f.atIssue && f.record.code != 0x15 then f.tfpc + 4 else f.tfpc
    let back : Slice → Slice := fun x =>
      match x.handler with
      | none => x
      | some v =>
        let y : Slice := { x with pc := pc &&& ~~~3#64, mode := v.mode, depth := v.depth, gang := v.gang,
                                  wait := v.wait.stamp x.issues, run := v.run &&& x.live, handler := none }
        if y.run = 0 then implicitPop y else y
    let g1 := { g with slices := g.slices.map back, uq := f.tfq, frame := none, solo := false, parked := false }
    let g2 := (List.range 16).foldl (fun a i => uput a (112 + i) (f.tfu.getD i 0)) g1
    let s1 := s.setGroup gid g2.regroup
    let s2 := match f.log with
      | some o => if skip then s1
                  else
                    let o' := { o with walked := false, hits := [] }
                    let s2 := s1.modGroup gid fun g => countOp g o.kind o.gang o.active
                    if logRoom s2 g then s2.modCore g.core fun k => { k with log := k.log ++ [{ o' with id := k.nextId }], nextId := k.nextId + 1 }
                    else s2.modGroup gid fun g => { g with withdrawn := insertOp o' g.withdrawn }
      | none => s1
    resumeEngine s2 f.engine

/-- The privilege level at which a group's gangs run (12 R343): supervisor inside an open frame. -/
def Group.priv (g : Group) : Bool := g.frame.isSome

end Sys2Proof.Machine
end

