-- ==== Sys2Proof/Machine/Flags.lean ====
section
/-! DEFINITION. The fields of the mode word (01 R26 to R28), the conditions of the comparisons (03 R89, 04 R124), and the helpers
val and fit of 03 R82. -/
namespace Sys2Proof.Machine

/-! ## The mode word -/

def mGuard (m : Word) : Nat := m.toNat % 16
def mEtype (m : Word) : Nat := m.toNat / 2 ^ 4 % 16
def mRnd (m : Word) : Nat := m.toNat / 2 ^ 8 % 8
def mFtz (m : Word) : Bool := m.getLsbD 11
def mSat (m : Word) : Bool := m.getLsbD 12
def mSxw (m : Word) : Nat := m.toNat / 2 ^ 13 % 4
/-- The magnitude width of an SXW code (04 R113). -/
def sxW (code : Nat) : Nat := match code with | 0 => 2 | 1 => 4 | _ => 7
/-- Bytes of an SX block by magnitude width (04 R113). -/
def sxBytes (w : Nat) : Nat := 2 + 2 * (w + 1)
def mFpx (m : Word) : Bool := m.getLsbD 15

/-- A mode word never holds a reserved encoding (01 R28). -/
def modeLegal (m : Nat) : Bool := decide (m / 2 ^ 4 % 16 ≠ 15) && decide (m / 2 ^ 8 % 8 < 5) && decide (m / 2 ^ 13 % 4 ≠ 3)

/-- The mode word of lane l's slice. -/
def laneMode (g : Group) (l : Nat) : Word := (g.slice (l / 4)).mode

/-! ## Element types (01 R27, 03 R82) -/

/-- Signed integer types. -/
def etSigned (et : Nat) : Bool := et == 0 || et == 2 || et == 4 || et == 6
/-- Types that occupy a register pair. -/
def etWide (et : Nat) : Bool := et == 6 || et == 7 || et == 11
/-- Width in bits of one element of an element type. -/
def etWidth (et : Nat) : Nat :=
  if et == 2 || et == 3 || et == 9 || et == 10 then 16
  else if et == 4 || et == 5 || et == 12 || et == 13 then 8
  else if etWide et then 64 else 32
/-- Elements in one operand. -/
def etCount (et : Nat) : Nat := (if etWide et then 64 else 32) / etWidth et
/-- ETYPE of the group's lowest live slice, which rules uniform work (03 R99). -/
def uniformEt (g : Group) : Nat := mEtype (g.slice g.lowestLive).mode
/-- The uniform class is 64 bits wide (03 R99). -/
def uWide (g : Group) : Bool := uniformEt g == 6 || uniformEt g == 7
/-- The uniform class is signed: INT64, or INT32, which every code but 1, 3, 5 and 7 gives. -/
def uSigned (g : Group) : Bool := !(uniformEt g == 1 || uniformEt g == 3 || uniformEt g == 5 || uniformEt g == 7)

/-! ## Integers (03 R82) -/

/-- val: the integer a w-bit pattern stands for. -/
def val (x w : Nat) (sg : Bool) : Int := if sg && x.testBit (w - 1) then (x : Int) - 2 ^ w else x
/-- The ends of a type's range. -/
def loEnd (w : Nat) (sg : Bool) : Int := if sg then -(2 ^ (w - 1)) else 0
def hiEnd (w : Nat) (sg : Bool) : Int := if sg then 2 ^ (w - 1) - 1 else 2 ^ w - 1
/-- fit: an exact integer as w bits, clamped first under sat. -/
def fit (v : Int) (w : Nat) (sg sat : Bool) : Nat :=
  ((if sat then min (max v (loEnd w sg)) (hiEnd w sg) else v) % (2 ^ w : Int)).toNat
/-- Element i of an operand of elements w bits wide. -/
def elem (x w i : Nat) : Nat := x / 2 ^ (w * i) % 2 ^ w
/-- An operand from its elements, element 0 lowest. -/
def packElems (w : Nat) : List Nat → Nat
  | [] => 0
  | e :: r => e % 2 ^ w + 2 ^ w * packElems w r

/-! ## Conditions -/

/-- CMP and UCMP (03 R89). -/
def intCond (c : Nat) (x y : Int) : Bool :=
  match c with
  | 0 => decide (x = y) | 1 => decide (x ≠ y) | 2 => decide (x < y) | 3 => decide (x ≤ y) | 4 => decide (x > y) | _ => decide (x ≥ y)

/-- PLOG (03 R90). -/
def boolOp (c : Nat) (x y : Bool) : Bool := match c with | 0 => x && y | 1 => x || y | _ => x ^^ y

end Sys2Proof.Machine
end

