-- ==== Sys2Proof/Machine/Operands.lean ====
section
/-! DEFINITION. Operand forms: the register fields of every opcode (01 R18 to R25), the decode checks in their order (01 R35), the
values of constants and special registers (01 R22, R23). -/
namespace Sys2Proof.Machine

/-- Fields of a word (01 R16). -/
def wOp (w : Word) : Nat := w.toNat / 2 ^ 24
def wD (w : Word) : Nat := w.toNat / 2 ^ 16 % 256
def wA (w : Word) : Nat := w.toNat / 2 ^ 8 % 256
def wB (w : Word) : Nat := w.toNat % 256

/-- A register operand: V-field or U-field of k registers, or a predicate; dst: it is written; reg: a constant or special register
is not allowed there (cause 10). -/
inductive Opnd where
  | v (code k : Nat) (dst : Bool)
  | u (code k : Nat) (dst reg : Bool)
  | vp (code : Nat) (dst : Bool)
  | up (code : Nat) (dst : Bool)
deriving DecidableEq, Repr

/-- Bits that must be zero in every word of an opcode (01 R17, R25). -/
def reservedMask (op : Nat) : Nat :=
  if op ∈ [0x08, 0x09, 0x0E, 0x13, 0x14, 0x15, 0x1A, 0x36, 0x37, 0x39, 0x3A, 0x3B, 0x3C, 0x3D, 0x3E, 0x3F, 0x40, 0x41, 0x46, 0x55, 0x71,
      0x72, 0xC3, 0xD4, 0xF8, 0xFB] then 0xFF
  else if op = 0x1B then 0xF0F0
  else if op = 0x44 then 0xC0
  else if op ∈ [0x52, 0xC0] then 0xF000
  else if op ∈ [0x53, 0xB2] then 0xF8
  else if op ∈ [0x54, 0xC7] then 0xF0
  else if op ∈ [0x80, 0x81, 0xA0, 0xA9, 0xAA, 0xC4] then 0xF00000
  else if op ∈ [0x83, 0x85, 0x87, 0x88, 0x89, 0x8B, 0xD5, 0xF4, 0xF5] then 0xFFFFFF
  else if op ∈ [0x84, 0x86, 0x8A, 0x8C, 0xC1, 0xC2] then 0xFF0000
  else if op = 0x8D then 0xFFFFF0
  else if op ∈ [0x9E, 0xD2, 0xF2] then 0xFC0000
  else if op = 0xAB then 0xF0FFE0
  else if op = 0xB0 then 0xC00000
  else if op ∈ [0xB1, 0xD0, 0xD1] then 0xF000FF
  else if op ∈ [0xB3, 0xB9] then 0xE0
  else if op = 0xB4 then 0xFFFFE0
  else if op = 0xB5 then 0xFFF0
  else if op ∈ [0xB6, 0xF9] then 0xFFFF
  else if op = 0xB7 then 0xFF00FF
  else if op = 0xB8 then 0xFF00F0
  else if op = 0xBA then 0xFF00E0
  else if op ∈ [0xBB, 0xBC, 0xBD, 0xC5, 0xC6] then 0xE00000
  else if op ∈ [0xC8, 0xD3, 0xFA] then 0xFE
  else if op = 0xD6 then 0xFFFFFE
  else if op = 0xF3 then 0xFC
  else 0

/-- Check 5: a reserved or unused field is nonzero (01 R17, R25 and each entry's cause 3). -/
def check5 (w : Word) : Bool :=
  let op := wOp w
  w &&& BitVec.ofNat 32 (reservedMask op) != 0 ||
  (op == 0x52 && wB w < 2 && wD w ≥ 16) ||
  (op == 0xAB && wB w % 8 < 2 && wB w / 8 % 4 != 0) ||
  (op == 0x9F && wD w / 16 % 2 == 0 && wD w / 32 != 0) ||
  ((op == 0xBB || op == 0xBC || op == 0xBD || op == 0xC5 || op == 0xC6) && wD w / 16 % 2 == 0 && wD w % 16 != 0)

/-- Check 11: the slice's ETYPE is one that the entry accepts (01 R27 and each entry; FAOPEN reads the uniform one, see check11). -/
def etypeOk (op et : Nat) : Bool :=
  if (decide (0x01 ≤ op) && decide (op ≤ 0x09)) || (decide (0x0F ≤ op) && decide (op ≤ 0x15)) || op == 0x1C || (decide (0x1F ≤ op) && decide (op ≤ 0x21)) then decide (et ≤ 7)
  else if op ∈ [0x16, 0x17, 0x19, 0x53, 0x54, 0xA1, 0xA2, 0xA3, 0xA4, 0xA5, 0xA6, 0xA7, 0xA8] then et == 0 || et == 1 || et == 6 || et == 7
  else if op ∈ [0x30, 0x31, 0x32, 0x33, 0x34, 0x35, 0x36, 0x37, 0x39, 0x3A, 0x3B, 0x3C, 0x43, 0x46] then decide (8 ≤ et) && decide (et ≤ 11)
  else if op ∈ [0x38, 0xA9] then et == 8 || et == 11
  else if op ∈ [0x3D, 0x3E, 0x3F, 0x40, 0x41] then decide (8 ≤ et) && decide (et ≤ 10)
  else if op = 0x42 then et == 9 || et == 10
  else if op ∈ [0x44, 0x45] then decide (et ≤ 13)
  else if op ∈ [0x9C, 0x9D] then et == 14
  else true

/-- The register operands of a word, under an element type (for the V-fields whose width follows ETYPE; a wide type makes
them pairs whether or not the entry accepts it, since check 7 comes before check 11: 01 R40, log 18) and the uniform class. -/
def operands (w : Word) (et : Nat) (uw : Bool) : List Opnd :=
  let op := wOp w; let d := wD w; let a := wA w; let b := wB w
  let k := if etWide et then 2 else 1
  let uk := if uw then 2 else 1
  -- vector integer
  if op ∈ [0x01, 0x02, 0x03, 0x04, 0x06, 0x07, 0x0A, 0x0B, 0x0C, 0x0D, 0x18, 0x30, 0x31, 0x32, 0x34, 0x35] then [.v d k true, .v a k false, .v b k false]
  else if op ∈ [0x05, 0x33] then [.v d k true, .v d k false, .v a k false, .v b k false]
  else if op ∈ [0x08, 0x09, 0x0E, 0x13, 0x14, 0x15, 0x1A, 0x1C, 0x1F, 0x20, 0x21, 0x22, 0x23, 0x36, 0x37, 0x3A, 0x3B, 0x3C, 0x3D, 0x3E, 0x3F, 0x40,
      0x41, 0x46, 0x51, 0x53, 0x54, 0x56] then [.v d k true, .v a k false]
  else if op ∈ [0x0F, 0x10, 0x11, 0x12] then [.v d k true, .v a k false, .v b 1 false]
  else if op ∈ [0x16, 0x50, 0x43] then [.v d k true, .v a k false, .v b 1 false]
  else if op = 0x17 then [.v d k true, .v d k false, .v a k false, .v b 1 false]
  else if op ∈ [0x19, 0x38] then [.vp (d % 16) true, .v a k false, .v b k false]
  else if op = 0x1B then [.vp (d % 16) true, .vp (a % 16) false, .vp (b % 16) false]
  else if op = 0x1D then [.v d 1 true]
  else if op = 0x1E then [.v d 1 true, .v d 1 false]
  -- float and conversion
  else if op ∈ [0x39, 0x55] then [.v d 1 true, .v a k false]
  else if op = 0x42 then [.v d 1 true, .v d 1 false, .v a 1 false, .v b 1 false]
  else if op ∈ [0x44, 0x45] then
    let dk := if etWide (b % 16) then 2 else 1
    [.v d dk true, .v d dk false, .v a k false]
  -- lane
  else if op = 0x52 then (if b < 2 then [.vp (d % 16) true] else if b = 2 then [.v d 1 true] else []) ++ [.vp (a % 16) false]
  -- uniform
  else if op ∈ [0x60, 0x61, 0x62, 0x64, 0x65, 0x66, 0x6A, 0x6B] then [.u d uk true false, .u a uk false false, .u b uk false false]
  else if op = 0x6D then [.u d uk true false, .u a uk false false, .u b uk false false, .up 0 false]
  else if op = 0x63 then [.u d uk true false, .u d uk false false, .u a uk false false, .u b uk false false]
  else if op ∈ [0x67, 0x68, 0x69] then [.u d uk true false, .u a uk false false, .u b 1 false false]
  else if op = 0x6C then [.up (d % 16) true, .u a uk false false, .u b uk false false]
  else if op = 0x6E then [.u d 1 true false]
  else if op = 0x6F then [.u d 1 true false, .u d 1 false false]
  else if op ∈ [0x70, 0x71] then [.u d uk true false, .u a uk false false]
  else if op = 0x72 then [.v d 1 true, .u a 1 false false]
  -- control
  else if op = 0x80 then [.vp (d % 16) false]
  else if op = 0x81 then [.up (d % 16) false]
  -- memory
  else if op ∈ [0x90, 0x91, 0x92] then [.v d 1 true, .v a 2 false]
  else if op = 0x93 then [.v d 2 true, .v a 2 false]
  else if op = 0x94 then [.v d 4 true, .v a 2 false]
  else if op ∈ [0x95, 0x96, 0x97] then [.v d 1 false, .v a 2 false]
  else if op = 0x98 then [.v d 2 false, .v a 2 false]
  else if op = 0x99 then [.v d 4 false, .v a 2 false]
  else if op = 0x9A then [.u d uk true false, .u a 2 false false]
  else if op = 0x9B then [.u d uk false false, .u a 2 false false]
  else if op = 0x9C then [.v d 1 true, .v a 2 false]
  else if op = 0x9D then [.v d 1 false, .v a 2 false]
  else if op = 0x9E then [.v a 2 false]
  else if op = 0x9F then [.vp (d % 16) true, .v a 4 false]
  else if op = 0xA0 then [.vp (d % 16) true, .v a 2 false]
  else if op ∈ [0xA1, 0xA2, 0xA3, 0xA4, 0xA5, 0xA6, 0xA7] then [.v d k true, .v a 2 false, .v b k false]
  else if op = 0xA8 then [.v d k true, .v a 2 false, .v b (2 * k) false]
  else if op = 0xA9 then [.vp (d % 16) true, .v a 2 false, .v b k false]
  else if op = 0xAA then [.up (d % 16) true, .u a 2 false false, .u b 1 false false]
  else if op = 0xAB then [.up (d % 16) true]
  -- sync
  else if op = 0xB0 then [.up (d % 16) true, .u a 2 false true, .u b 4 false true]
  else if op = 0xB1 then [.up (d % 16) true, .u a 2 false true]
  else if op = 0xB2 then [.v d 2 true, .v a 2 false]
  else if op = 0xB3 then [.v d 2 false, .v a 2 false]
  -- copies and barriers
  else if op = 0xB6 then [.u d 1 true false]
  else if op ∈ [0xB7, 0xB8] then [.u a 1 false false]
  else if op = 0xB9 then [.v d 1 true, .u a 1 false false]
  else if op = 0xBA then [.v a 1 false]
  else if op = 0xBC then [.u a 8 false false]
  else if op ∈ [0xBB, 0xBD] then [.u a 6 false false]
  -- slots and tasks
  else if op = 0xC0 then [.u d 1 true false, .up (a % 16) true]
  else if op = 0xC1 then [.u a 1 false false]
  else if op = 0xC2 then [.v a 4 false, .u b 1 false false]
  else if op = 0xC3 then [.v d 1 true, .u a 1 false false]
  -- slabs
  else if op = 0xC4 then [.up (d % 16) true, .v a 2 false, .u b 2 false true]
  else if op = 0xC5 then [.u a 4 false true, .u b 1 false false]
  else if op = 0xC6 then [.u a 4 false true, .u b 2 false false]
  else if op = 0xC7 then [.u d 1 true false, .u a 2 false true, .up (b % 16) true]
  else if op = 0xC8 then [.u d 1 false false, .u a 2 false true]
  -- placement and launch
  else if op ∈ [0xD0, 0xD1] then [.up (d % 16) true, .u a 2 false true]
  else if op = 0xD2 then [.u a 2 false true]
  else if op = 0xD3 then [.v d 1 true, .v a 2 false]
  else if op = 0xD4 then [.u d 2 true false, .u a 2 false true]
  -- privileged
  else if op = 0xF0 then [.u d 1 true false]
  else if op = 0xF1 then [.u d 1 false false]
  else if op = 0xF2 then (if d % 2 = 0 then [.u a 2 false true] else [.u a 1 false false]) ++ [.u b 1 false false]
  else if op = 0xF3 then [.u d 2 true false, .u a 2 false true]
  else if op = 0xF6 then [.u d 1 true false, .u a 2 false false, .u b 2 false false]
  else if op ∈ [0xF7, 0xF9] then [.u d 1 true false]
  else if op = 0xF8 then [.u d 1 true false, .u a 2 false true]
  else if op ∈ [0xFA, 0xFB] then [.u d 1 true false, .u a 2 false false]
  else []

/-- Check 6 (01 R19, R21): a destination names a broadcast, a constant or a special register. -/
def opnd6 : Opnd → Bool
  | .v c _ dst => dst && decide (128 ≤ c)
  | .u c _ dst _ => dst && decide (160 ≤ c)
  | _ => false
/-- Check 7: a 64-bit or wider operand names an odd code, be it a register's or a constant's (R21, 03 R99). -/
def opnd7 : Opnd → Bool
  | .v c k _ => decide (2 ≤ k) && decide (c % 2 = 1)
  | .u c k _ _ => decide (2 ≤ k) && decide (c % 2 = 1)
  | _ => false
/-- Check 8: a V-field's last register lies at or above the role's budget. -/
def opnd8 (budget : Nat) : Opnd → Bool
  | .v c k _ => decide (c < 128) && decide (budget < c + k)
  | _ => false
/-- A special-register code that is reserved (01 R23). -/
def specialReserved (c : Nat) : Bool :=
  c == 0xD3 || c == 0xD7 || (decide (0xDC ≤ c) && decide (c ≤ 0xDF)) || decide (0xE0 ≤ c)
/-- A special register marked per-slice (01 R23). -/
def specialPerSlice (c : Nat) : Bool := c == 0xC0 || c == 0xC1 || c == 0xD0
/-- Check 9: a U-field names a reserved special register, or a per-slice one outside GETSR. -/
def opnd9 (getsr : Bool) : Opnd → Bool
  | .u c _ _ _ => decide (0xC0 ≤ c) && (specialReserved c || (specialPerSlice c && !getsr))
  | _ => false
/-- Check 10: a uniform P-field with codes 4 to 7. -/
def opnd10 : Opnd → Bool
  | .up c _ => decide (4 ≤ c % 8)
  | _ => false
/-- Check 12 for operands: four registers not from a multiple of 4, or a constant where a register is required. -/
def opnd12 : Opnd → Bool
  | .v c k _ => decide (k = 4) && decide (c % 4 ≠ 0)
  | .u c k _ reg => (decide (k = 4) && decide (c % 4 ≠ 0)) || (reg && decide (160 ≤ c))
  | _ => false

/-- A scope code of 6 or 7 in the word (01 R30). -/
def scopeBad (w : Word) : Bool :=
  let op := wOp w
  (op == 0xB2 || op == 0xB3) && decide (6 ≤ wB w % 8) || (op == 0xB4 && decide (6 ≤ w.toNat % 8)) ||
  (op == 0x9F && wD w / 16 % 2 == 1 && decide (6 ≤ wD w / 32))

/-- Number of parts of a conversion (04 R131). -/
def cvtParts (src dst : Nat) : Nat := max (etCount src) (etCount dst) / min (etCount src) (etCount dst)

/-- Control-register numbers that CRD may read (12 R351). LEASE_CLR and FOPC are write-only, and a read of one raises ILLEGAL with cause 10 as a number
that is not listed does (DESIGN CHOICE: 12 R347 names only such numbers and writes of read-only ones; log 18). -/
def crdOk (n : Nat) : Bool :=
  decide (n ≤ 0x023) || (decide (0x030 ≤ n) && decide (n ≤ 0x035)) || n == 0x041 || n == 0x048 || n == 0x049 || n == 0x04B ||
  (decide (0x050 ≤ n) && decide (n ≤ 0x06F)) || (decide (0x080 ≤ n) && decide (n ≤ 0x084)) || (decide (0x090 ≤ n) && decide (n ≤ 0x095))
/-- Control-register numbers that CWR may write (12 R351). -/
def cwrOk (n : Nat) : Bool :=
  (decide (0x010 ≤ n) && decide (n ≤ 0x023)) || n == 0x040 || n == 0x048 || n == 0x049 || n == 0x04A || (decide (0x080 ≤ n) && decide (n ≤ 0x083))

/-- Check 12 for fields of the word that are no registers (each entry's cause 10), under the slice's ETYPE. -/
def check12 (w : Word) (et : Nat) (soloNoFrame : Bool) : Bool :=
  let op := wOp w
  (op ∈ [0x19, 0x6C] && decide (6 ≤ wD w / 16)) || (op == 0x1B && decide (3 ≤ wD w / 16)) || (op == 0x38 && decide (8 ≤ wD w / 16)) ||
  (op ∈ [0x1F, 0x20, 0x21] && decide (64 ≤ wB w)) || (op == 0x52 && decide (3 ≤ wB w)) || (op ∈ [0x53, 0x54] && decide (6 ≤ wB w % 8)) ||
  (op == 0x44 && (decide (14 ≤ wB w % 16) || decide (cvtParts et (wB w % 16) ≤ wB w / 16 % 4))) ||
  (op == 0x45 && (decide (14 ≤ wB w % 16) || decide (5 ≤ wB w / 32) || decide (cvtParts et (wB w % 16) ≤ wB w / 16 % 2))) ||
  (op == 0x9E && wD w % 4 == 3) || (op == 0xAB && decide (4 ≤ wB w % 8)) || (op == 0xB3 && decide (2 ≤ wB w / 8 % 4)) ||
  (op == 0xB4 && w.toNat / 8 % 4 == 0) || (op == 0xB5 && w.toNat % 16 == 0) ||
  (op ∈ [0xBB, 0xBD] && decide (0x9A < wA w)) || (op == 0xBC && decide (0x98 < wA w)) ||
  (op ∈ [0xC0, 0xC1] && (wB w == 0 || decide (64 < wB w))) || (op == 0xD2 && wB w == 0) || (op ∈ [0xD5, 0xD6] && soloNoFrame) ||
  (op == 0xF0 && !crdOk (w.toNat % 2 ^ 16)) || (op == 0xF1 && !cwrOk (w.toNat % 2 ^ 16)) ||
  (op == 0xF2 && wD w % 2 == 1 && wA w != 0xA0) || (op == 0xF3 && wB w % 4 == 3)

/-- Opcodes that raise ILLEGAL_SOLO in SOLO mode (01 R32). -/
def illegalSolo (op : Nat) : Bool :=
  (decide (0x50 ≤ op) && decide (op ≤ 0x56)) || (decide (0x84 ≤ op) && decide (op ≤ 0x89)) || (decide (0x9C ≤ op) && decide (op ≤ 0xA0)) ||
  (decide (0xA9 ≤ op) && decide (op ≤ 0xAB)) || (decide (0xB0 ≤ op) && decide (op ≤ 0xB3)) || (decide (0xB6 ≤ op) && decide (op ≤ 0xD6))

/-- The opcodes of the privileged scalar subset. -/
def isPrivileged (op : Nat) : Bool := decide (0xF0 ≤ op) && decide (op ≤ 0xFB)

/-- The lanes of some slices that are in their slices' run masks. -/
def runLanesOf (g : Group) (c : Ctx) (m : SliceMask) : LaneMask := laneSet fun l => m.getLsbD (l / 4) && runs g c l

/-- The slices that a decode check looks at: the gang's, or the SOLO lane's. -/
def ctxSlices (c : Ctx) : List Nat := match c.solo with | some t => [t / 4] | none => slicesOf c.gang

/-- The decode checks of 01 R35 in their order: the first that fails decides the trap. -/
def decodeCheck (g : Group) (c : Ctx) (w : Word) : Option TrapInfo :=
  let op := wOp w
  let all := runSet g c
  let whole (code cause : Nat) : Option TrapInfo := some { code := code, cause := cause, fmask := all, lane := lowestLane all, addr := 0, opw := 0 }
  let uw := uWide g
  let perSlice (cause : Nat) (bad : Slice → Bool) : Option TrapInfo :=
    let m := sliceSet fun i => (ctxSlices c).contains i && bad (g.slice i)
    if m = 0 then none
    else let f := runLanesOf g c m; some { code := 1, cause := cause, fmask := f, lane := lowestLane f, addr := 0, opw := 0 }
  let fixed := operands w 0 uw
  if !opcodeUsed op then whole 1 1
  else if isPrivileged op && c.solo.isNone then whole 1 2
  else if c.solo.isSome && illegalSolo op then whole 2 0
  else if (op = 0xD5 || op = 0xD6) && g.frame.isNone then whole 3 0
  else if check5 w then whole 1 3
  else if fixed.any opnd6 then whole 1 4
  else
    (perSlice 5 fun x => (operands w (mEtype x.mode) uw).any opnd7).orElse fun _ =>
    (perSlice 6 fun x => (operands w (mEtype x.mode) uw).any (opnd8 g.budget)).orElse fun _ =>
    if fixed.any (opnd9 (op == 0x72)) then whole 1 7
    else if fixed.any opnd10 || scopeBad w then whole 1 8
    else if op = 0x8C && !modeLegal (w.toNat % 2 ^ 16) then whole 1 9
    else if op = 0xAA && !(uniformEt g == 8 || uniformEt g == 11) then whole 1 9
    else
      (perSlice 9 fun x => !etypeOk op (mEtype x.mode)).orElse fun _ =>
      perSlice 10 fun x => (operands w (mEtype x.mode) uw).any opnd12 || check12 w (mEtype x.mode) false

/-! ## Constants and special registers -/

/-- The constant table (01 R22): the 32-bit and the 64-bit column. -/
def constants : List (Nat × Nat) :=
  [(0, 0), (1, 1), (2, 2), (4, 4), (8, 8), (16, 16), (32, 32), (64, 64), (128, 128), (256, 256)] ++
  [(0xFFFFFFFF, 0xFFFFFFFFFFFFFFFF), (0x7FFFFFFF, 0x7FFFFFFFFFFFFFFF), (0x80000000, 0x8000000000000000), (0x0000FFFF, 0xFFFF),
   (0x00FF00FF, 0x00FF00FF00FF00FF), (0x55555555, 0x5555555555555555)] ++
  [(0x3F800000, 0x3FF0000000000000), (0xBF800000, 0xBFF0000000000000), (0x3F000000, 0x3FE0000000000000), (0x40000000, 0x4000000000000000),
   (0x7F800000, 0x7FF0000000000000), (0xFF800000, 0xFFF0000000000000), (0x7FC00000, 0x7FF8000000000000), (0x7F7FFFFF, 0x7FEFFFFFFFFFFFFF),
   (0x00800000, 0x0010000000000000)] ++
  [(0x3F317218, 0x3FE62E42FEFA39EF), (0x3FB8AA3B, 0x3FF71547652B82FE), (0x40490FDB, 0x400921FB54442D18), (0x40C90FDB, 0x401921FB54442D18),
   (0x3FC90FDB, 0x3FF921FB54442D18), (0x3F3504F3, 0x3FE6A09E667F3BCD), (0x3F803F80, 0x3F803F803F803F80)]

/-- The cycle counter of a core (02 R58): the clocks passed since its die's release, each step some number of them. -/
def clocksUpTo (core : Nat) : Nat → Nat
  | 0 => 0
  | t + 1 => clocksUpTo core t + Config.clocks core t
def cycleCount (s : State) (core : Nat) : DWord :=
  BitVec.ofNat 64 (clocksUpTo core s.time - clocksUpTo core (s.die (dieOf core)).released)

/-- A per-gang special register (01 R23), 32 bits. A reserved code, which only the high half of a 64-bit operand can read, has a free value. -/
def specialReg (s : State) (g : Group) (c : Ctx) (code : Nat) : Word :=
  let t := s.team g.tid
  let f (off n : Nat) : Word := BitVec.ofNat 32 (s.bindField g.tid off n)
  match code with
  | 0xC2 => loHalf c.gang
  | 0xC3 => hiHalf c.gang
  | 0xC4 => BitVec.ofNat 32 g.num
  | 0xC5 => f 4 2
  | 0xC6 => f 0x18 4
  | 0xC7 => f 0x1C 4
  | 0xC8 => BitVec.ofNat 32 g.core
  | 0xC9 => BitVec.ofNat 32 (clusterOf g.core)
  | 0xCA => BitVec.ofNat 32 (dieOf g.core)
  | 0xCB => BitVec.ofNat 32 g.part
  | 0xCC => f 2 1
  | 0xCD => BitVec.ofNat 32 g.role
  | 0xCE => loHalf (cycleCount s g.core)
  | 0xCF => hiHalf (cycleCount s g.core)
  | 0xD1 => if g.priv then 1 else 0
  | 0xD2 => BitVec.ofNat 32 (s.asid g.tid)
  | 0xD4 => loHalf t.window
  | 0xD5 => hiHalf t.window
  | 0xD6 => BitVec.ofNat 32 t.scrSize
  | 0xD8 => f 0x10 4
  | 0xD9 => f 0x14 4
  | 0xDA => f 0x28 4
  | 0xDB => f 0x2C 4
  | _ => Config.reservedSpecial code s.time

/-- Read a U-field as 32 bits (01 R20). -/
def readU (s : State) (g : Group) (c : Ctx) (code : Nat) : Word :=
  if code < 160 then uget g code
  else if code < 192 then BitVec.ofNat 32 (constants.getD (code - 160) (0, 0)).1
  else specialReg s g c code

/-- Read a U-field as 64 bits (01 R21): a pair, or the 64-bit column of the constant table. -/
def readU64 (s : State) (g : Group) (c : Ctx) (code : Nat) : DWord :=
  if 160 ≤ code ∧ code < 192 then BitVec.ofNat 64 (constants.getD (code - 160) (0, 0)).2
  else pairOf (readU s g c code) (readU s g c (code + 1))

end Sys2Proof.Machine
end

