-- ==== Sys2Proof/Machine/Memory.lean ====
section
/-! DEFINITION. Memory below the instructions: the physical map and its homes (11 R302), frame records (R311), forwarding during moves
(R324), the applied store and its pushes (06 R172, R173), the L1 (05 R141 to R144), translation in two stages (11 R303 to R308), and
the team window (05 R137). -/
namespace Sys2Proof.Machine

/-! ## The physical map (11 R302, 14 R393, R406) -/

inductive Region where
  | device | upstream | stack (n : Nat) | mid | pool | none
deriving DecidableEq, Repr

def regionOf (pa : Nat) : Region :=
  if pa < 0x4000000000 then .device
  else if pa < 0x8000000000 then .upstream
  else if pa < 0x10000000000 then .stack ((pa - 0x8000000000) / 0x1000000000)
  else if pa < 0x1C000000000 then .mid
  else if 0x100000000000 ≤ pa ∧ pa < 0x200000000000 then .pool
  else .none

/-- The home of a physical address (06 R170); 6 for an address that no home serves. -/
def homeOf (pa : Nat) : Nat :=
  match regionOf pa with
  | .stack n => n / 2
  | .mid => 4
  | .pool => 5
  | _ => 6

/-- The tier of a physical address: 0 near, 1 mid, 2 far, 3 none. -/
def tierOf (pa : Nat) : Nat :=
  match regionOf pa with
  | .stack _ => 0 | .mid => 1 | .pool => 2 | _ => 3

/-- A memory range: its base and its frame-record area. -/
def recordArea (pa : Nat) : Option (Nat × Nat) :=
  match regionOf pa with
  | .stack n => let b := 0x8000000000 + n * 0x1000000000; some (b, b + 0x1000000000 - 0x8000000)
  | .mid => some (0x10000000000, 0x1C000000000 - 0x60000000)
  | .pool => some (0x100000000000, 0x200000000000 - 0x800000000)
  | _ => none

/-- The address lies in a frame-record area. -/
def inRecordArea (pa : Nat) : Bool :=
  match recordArea pa with
  | some (_, a) => decide (a ≤ pa)
  | none => false

/-! ## Frame records (11 R311) -/

/-- The record of a frame, named by its number (physical address over 4096). Pool frames start unowned (R311: reset 0x3F). -/
def State.frameRec (s : State) (f : Nat) : FrameRec :=
  sget (if tierOf (f * 4096) = 2 then { FrameRec.reset with owner := 0x3F } else .reset) s.hub.frames f
def State.setFrameRec (s : State) (f : Nat) (r : FrameRec) : State := s.modHub fun h => { h with frames := sput h.frames f r }

/-- The 64 bits of a frame record. -/
def FrameRec.bits (r : FrameRec) : Nat :=
  r.owner.toNat * 2 ^ 58 + r.share.toNat * 2 ^ 43 + r.pinc.toNat * 2 ^ 31 + r.acc.toNat * 2 ^ 23 + r.part.toNat * 2 ^ 19 +
  r.hint.toNat * 2 ^ 17 + r.claimant.toNat * 2 ^ 13 + r.claim.toNat * 2 ^ 12 + r.handoff.toNat * 2 ^ 11 + r.moving.toNat * 2 ^ 10 +
  r.fwd.toNat * 2 ^ 9 + r.local_.toNat * 2 ^ 8 + r.alloc.toNat * 2 ^ 7

/-- This package owns the frame: every frame outside the pool, and a pool frame whose OWNER names it. -/
def State.owned (s : State) (f : Nat) : Bool :=
  tierOf (f * 4096) != 2 || (s.frameRec f).owner == Config.package.setWidth 6

/-! ## Forwarding (11 R324, R326) -/

def Move.size (m : Move) : Nat := if m.big then 0x200000 else 0x1000
/-- The move's source holds the address. -/
def Move.holds (m : Move) (pa : Nat) : Bool := decide (m.o ≤ pa) && decide (pa < m.o + m.size)
/-- The line of the move's source that holds the address. -/
def Move.lineOf (m : Move) (pa : Nat) : Nat := (pa - m.o) / 128

/-- Where the homes serve an address: lines already copied are served at the new place. A new place may itself have moved. -/
def routeFrom (ms : List Move) : Nat → Nat → Nat
  | 0, pa => pa
  | n + 1, pa =>
    match ms.find? fun m => m.holds pa && decide (m.lineOf pa < m.w) with
    | some m => routeFrom ms n (m.n + (pa - m.o))
    | none => pa
def State.route (s : State) (pa : Nat) : Nat := routeFrom s.hub.moves s.hub.moves.length pa

/-- The running move whose line W holds the place where an address is served: a write there waits (R324). -/
def State.stallMove (s : State) (pa : Nat) : Option Move :=
  let a := s.route pa
  s.hub.moves.find? fun m => m.slot.isSome && m.holds a && m.lineOf a == m.w

/-- The frame whose record an operation on frame f changes (R313): the destination's while f moves or is forwarded. -/
def recordFrameFrom (ms : List Move) : Nat → Nat → Nat
  | 0, f => f
  | n + 1, f =>
    match ms.find? fun m => m.holds (f * 4096) with
    | some m => recordFrameFrom ms n ((m.n + (f * 4096 - m.o)) / 4096)
    | none => f
def State.recordFrame (s : State) (f : Nat) : Nat := recordFrameFrom s.hub.moves s.hub.moves.length f

/-! ## Bytes at the homes -/

/-- A byte of a frame-record area. -/
def State.recordByte (s : State) (pa : Nat) : Byte :=
  match recordArea pa with
  | some (base, area) => BitVec.ofNat 8 ((s.frameRec ((base / 4096) + (pa - area) / 8)).bits / 2 ^ (8 * (pa % 8)))
  | none => 0

/-- A byte as its home reads it. -/
def State.pbyte (s : State) (pa : Nat) : Byte :=
  let a := s.route pa
  if inRecordArea a then s.recordByte a
  else if regionOf a = .upstream then Config.hostByte (a - 0x4000000000) s.time
  else bget s.mem a
def State.pbytes (s : State) (pa n : Nat) : List Byte := (List.range n).map fun i => s.pbyte (pa + i)
/-- n bytes at the homes, little-endian. -/
def State.pread (s : State) (pa n : Nat) : Nat := leNat (s.pbytes pa n)

/-! ## The applied store (06 R172, R173) -/

/-- What a delivery to an ACQ slot invalidates (06 R179, 08 R237), for a team: the regions bound to the object now, or all lines of a team of another
address space (07 R206), and the ranges of a relay-written flag. -/
def State.acquireRegions (s : State) (w asid : Nat) : List (Nat × DWord × Nat) :=
  let all : List (Nat × DWord × Nat) := [(asid, 0, 2 ^ 64)]
  (match s.hub.sync.find? fun e => e.obj == w with
    | some e => if e.regions.all fun r => r.2 == 0 then [] else if e.asid = asid then e.regions.map fun r => (asid, r.1, r.2) else all
    | none => []) ++
  (if (s.home (homeOf w)).relayMarks.contains w then
    match s.hub.relayFlags.find? fun f => f.addr == w with
    | some f => if f.full then all else f.ranges
    | none => all
  else [])

/-- The push of a subscription (06 R173): the word as it stands. -/
def State.pushOf (s : State) (h i : Nat) (x : Sub) (seq : BitVec 16) (count : Nat) (re : Bool) : Push :=
  { home := h, idx := i, core := x.core, tid := x.tid, off := x.off, seq := seq, value := BitVec.ofNat 64 (leNat (bgets s.mem x.word 8)),
    count := min count 15, redelivery := re, begun := false, regions := if x.acq then s.acquireRegions x.word (s.asid x.tid) else [] }

/-- One store applied to a subscribed word: SEQ advances, live subscriptions are pushed to, the others count what they miss. -/
def pushWord (s : State) (w : Nat) : State :=
  let h := homeOf w
  let k := s.home h
  let subs := k.subs.filter fun e => e.2.word == w
  if subs.isEmpty then s
  else
    let seq := sget 0 k.seqs w + 1
    let live := subs.filter fun e => e.2.st == .live
    let ps := live.map fun e => s.pushOf h e.1 e.2 seq 0 false
    let k1 := { k with seqs := sput k.seqs w seq, pushes := k.pushes + ps.length,
                       subs := k.subs.map fun e => if e.2.word == w && e.2.st != .live then (e.1, { e.2 with skip := e.2.skip + 1 }) else e }
    (s.setHome h k1).modHub fun u => { u with pushNet := u.pushNet ++ ps }

/-- The distinct 8-byte words that some bytes touch, in order. -/
def wordsOf : List Nat → List Nat
  | [] => []
  | a :: r => let w := a / 8 * 8; w :: (wordsOf r).filter (· ≠ w)

/-- A store to a word enters its coherence order: the home counts it, a relay-written mark falls and its entry is freed unless the store keeps it (08 R238), and
subscribers are pushed to. -/
def applyWord (keep : Bool) (s : State) (w : Nat) : State :=
  let s1 := s.modHome (homeOf w) fun k => { k with applied := k.applied + 1, relayMarks := if keep then k.relayMarks else k.relayMarks.filter (· ≠ w) }
  pushWord (if keep then s1 else s1.modHub fun h => { h with relayFlags := h.relayFlags.filter fun f => f.addr ≠ w }) w

/-- The bytes of a write go into its request, the last one for the address. -/
def giveData (a : DWord) (bs : List Byte) (l : List Upstream) : List Upstream :=
  match l.reverse.findIdx? fun x => x.addr == a && x.data.isNone with
  | some i => lset l (l.length - 1 - i) { (l.getD (l.length - 1 - i) { requester := none, addr := a, data := none }) with data := some bs }
  | none => l ++ [{ requester := none, addr := a, data := some bs }]

/-- A write performed at the homes, at the places where they serve its bytes. -/
def performWrite (s : State) (x : HomeWrite) : State :=
  let cells := x.cells.map fun e => (s.route e.1, e.2)
  let up := cells.filter fun e => regionOf e.1 == .upstream
  let cells := cells.filter fun e => regionOf e.1 != .upstream && !inRecordArea e.1
  let s1 := { s with mem := cells.foldl (fun m e => bput m e.1 e.2) s.mem }
  let s2 := (wordsOf (cells.map (·.1))).foldl (applyWord x.keep) s1
  match up with
  | [] => s2
  | (a, _) :: _ => s2.modHub fun h => { h with upstream := giveData (BitVec.ofNat 64 (a - 0x4000000000)) (up.map (·.2)) h.upstream }

/-- A write to a line waits at its home or its requester. -/
def State.linePending (s : State) (pa : Nat) : Bool :=
  let hit (x : HomeWrite) : Bool := x.cells.any fun c => c.1 / 128 == pa / 128
  s.hub.retries.any hit || s.hub.moves.any fun m => m.stalled.any hit

/-- A request of a partition's agent for a line reaches the frame's home: ACC counts it (11 R312). -/
def countAccess (s : State) (part pa : Nat) : State :=
  let f := s.recordFrame (pa / 4096)
  let r := s.frameRec f
  if homeOf pa < 6 ∧ r.part.toNat = part then s.setFrameRec f { r with acc := if r.acc != 0xFF then r.acc + 1 else r.acc } else s

/-! ## The L2s and the directories (00 R1, R4; 07 R194, R217) -/

/-- How a request uses a line: a copy in the requester's cache, the line in its modified state, or a read or a store performed at the home. -/
inductive LineUse where
  | share | own | homeRead | homeStore
deriving DecidableEq, Repr

/-- The directory's state of a line. -/
def State.lineState (s : State) (line : Nat) : Option LineState := sfind (s.home (homeOf (line * 128))).lines line
def State.setLine (s : State) (line : Nat) (x : LineState) : State := s.modHome (homeOf (line * 128)) fun k => { k with lines := sput k.lines line x }
/-- The agents whose caches hold a line. -/
def LineState.agents : Option LineState → List Nat
  | none => []
  | some (.shared l) => l
  | some (.modified a) => [a]
/-- A die's L2 holds a line. -/
def Die.holds (d : Die) (line : Nat) : Bool := d.l2.any fun x => x.line == line

/-- An agent gives its copy of a line up; what it held modified is then in its home's memory. -/
def leaveLine (s : State) (line agent : Nat) : State :=
  let without (m : Sparse LineState) : Sparse LineState :=
    match sfind m line with
    | some (.modified a) => if a = agent then sdel m line else m
    | some (.shared l) => if l.filter (· ≠ agent) = [] then sdel m line else sput m line (.shared (l.filter (· ≠ agent)))
    | none => m
  let s1 := s.modHome (homeOf (line * 128)) fun k => { k with lines := without k.lines }
  if agent < 4 then s1.modDie agent fun d => { d with l2 := d.l2.filter fun x => x.line ≠ line } else s1

/-- Every agent but one gives its copy up. -/
def recallLine (s : State) (line agent : Nat) : State := ((LineState.agents (s.lineState line)).filter (· ≠ agent)).foldl (fun t a => leaveLine t line a) s

/-- The agent that holds a line modified writes it back and keeps it shared. -/
def cleanLine (s : State) (line : Nat) : State :=
  match s.lineState line with
  | some (.modified a) =>
    let s1 := s.setLine line (.shared [a])
    if a < 4 then s1.modDie a fun d => { d with l2 := d.l2.map fun x => if x.line = line then { x with stale := [] } else x } else s1
  | _ => s

/-- Put a line into the L2 of a die, 16-way with 49,152 sets: into a free way of its set, or into that of a line that makes room. -/
def l2Put (s : State) (die line : Nat) : State :=
  if (s.die die).holds line then s
  else
    let set := (s.die die).l2.filter fun x => x.line % 49152 == line % 49152
    let s1 := if set.length < 16 then s else match set[Config.l2Victim s.time % set.length]? with
      | some v => leaveLine s v.line die
      | none => s
    s1.modDie die fun d => { d with l2 := d.l2 ++ [{ line := line, stale := [] }] }

/-- A lease begins with the first shared or modified grant of a line of its region to an agent; a home grants none to its own die (07 R217), and
no modified ownership of a standing line (06 R172). -/
def grantLease (s : State) (agent pa : Nat) (write : Bool) : State :=
  let pa := s.route pa
  let h := homeOf pa
  let r := pa / 0x200000
  let standing := (s.home h).subs.any fun e => e.2.word / 128 == pa / 128
  if (h = agent ∧ h < 4) ∨ 6 ≤ h ∨ (write ∧ standing) then s
  else s.modHome h fun k =>
    if k.leases.any fun l => l.agent == agent && l.region == r && l.write == write then k
    else { k with leases := k.leases ++ [{ agent := agent, region := r, write := write, since := s.time }] }

/-- The directory takes a request that reached the home. -/
def grantLine (s : State) (agent line : Nat) (u : LineUse) : State :=
  match u with
  | .share =>
    let s1 := if LineState.agents (s.lineState line) = [agent] then s else cleanLine s line
    let s2 := if (LineState.agents (s1.lineState line)).contains agent then s1 else s1.setLine line (.shared (LineState.agents (s1.lineState line) ++ [agent]))
    grantLease (if agent < 4 then l2Put s2 agent line else s2) agent (line * 128) false
  | .own =>
    let s1 := (recallLine s line agent).setLine line (.modified agent)
    grantLease (if agent < 4 then l2Put s1 agent line else s1) agent (line * 128) true
  | .homeRead => cleanLine s line
  | .homeStore => (LineState.agents (s.lineState line)).foldl (fun t a => leaveLine t line a) s

/-- A memory request of a partition goes upstream, with the lowest virtual function of the partition as its requester (14 R393). -/
def upstreamRequest (s : State) (part pa : Nat) : State :=
  let vf := (List.range 128).find? fun i => (s.partRec part).vfs.getLsbD i
  s.modHub fun h => { h with upstream := h.upstream ++ [{ requester := vf, addr := BitVec.ofNat 64 (pa - 0x4000000000), data := none }] }

/-- A request of an agent, for a partition, to use the line of an address (07 R194, R217; 11 R312): its own L2 serves it where it can, else it reaches
the home, where it counts. At a standing line the home grants no ownership and performs the store (06 R172). An address of the upstream window has no home: the
request goes to the host. -/
def lineRequest (s : State) (part agent pa : Nat) (u : LineUse) : State :=
  let a := s.route pa
  let line := a / 128
  if regionOf a = .upstream then upstreamRequest s part a
  else if 6 ≤ homeOf a then s
  else
    let u := if u = .own ∧ (s.home (homeOf a)).subs.any (fun e => e.2.word / 128 == line) then .homeStore else u
    let mine := agent < 4 && (s.die agent).holds line && (u == .share || (u == .own && s.lineState line == some (.modified agent)))
    if mine then s.modDie agent fun d => { d with l2Hits := d.l2Hits + 1 }
    else
      let s1 := countAccess s part pa
      let s2 := if agent < 4 ∧ (u = .share ∨ u = .own) then s1.modDie agent fun d => { d with l2Misses := d.l2Misses + 1 } else s1
      grantLine s2 agent line u

/-- The lines that some bytes lie in, where they are served. -/
def State.linesOf (s : State) (cells : List (Nat × Byte)) : List Nat := (cells.map fun e => s.route e.1 / 128).eraseDups

/-- A write reaches its homes. Every cache gives up its copy of the lines, but for the L2 that stores into a line of its own (own). At the line that a move is about to copy it waits in the move's window of 16 writes, or, with the window
full, at its requester (11 R324, R325). -/
def storeAt (own : Bool) (s : State) (x : HomeWrite) : State :=
  match x.cells.findSome? fun e => s.stallMove e.1 with
  | some m =>
    if m.stalled.length < 16 then
      s.modHub fun h => { h with moves := h.moves.map fun y => if y.o = m.o ∧ y.slot = m.slot then { y with stalled := y.stalled ++ [x] } else y }
    else s.modHub fun h => { h with retries := h.retries ++ [x] }
  | none => performWrite (if own then s else (s.linesOf x.cells).foldl (fun t l => grantLine t 0 l .homeStore) s) x

/-- A write performed at the homes. -/
def homeStore (s : State) (x : HomeWrite) : State := storeAt false s x

/-- Bytes as cells. -/
def cellsOf (pa : Nat) (bs : List Byte) : List (Nat × Byte) := bs.mapIdx fun i b => (pa + i, b)
/-- Store bytes at a physical address. -/
def State.pwrite (s : State) (pa : Nat) (bs : List Byte) : State := homeStore s { cells := cellsOf pa bs, keep := false }
/-- Store a little-endian value of n bytes. -/
def State.pstore (s : State) (pa n x : Nat) : State := s.pwrite pa (leBytes n x)

/-- A store of a die at its own L2 (05 R158; 09 R268, 10 R280): the die takes the line modified, and what the home's memory holds under the bytes stored is kept,
for a lease that expires before the L2 writes the line back (07 R219). -/
def l2Store (s : State) (part die pa : Nat) (bs : List Byte) : State :=
  let s1 := lineRequest s part die pa .own
  let a := s1.route pa
  let line := a / 128
  if s1.lineState line = some (.modified die) ∧ homeOf a ≠ die ∧ (s1.stallMove pa).isNone then
    let old := cellsOf a (s1.pbytes pa bs.length)
    (s1.modDie die fun d => { d with l2 := d.l2.map fun x =>
      if x.line = line then { x with stale := x.stale ++ old.filter fun e => x.stale.all fun f => f.1 != e.1 } else x })
      |> fun t => storeAt true t { cells := cellsOf pa bs, keep := false }
  else s1.pwrite pa bs

/-- What an L2 held modified in a region reverts to what the homes' memory holds, but for the lines that it had written back (07 R219). -/
def revertLines (s : State) (die : Nat) (p : Nat → Bool) : State :=
  (s.die die).l2.foldl (fun t x => if p x.line && !Config.l2Cleaned s.time x.line then { t with mem := x.stale.foldl (fun m e => bput m e.1 e.2) t.mem } else t) s

/-! ## The L1 (05 R141 to R144) -/

/-- The core's cache-mode banks: each is one way (R141). -/
def Core.cacheBanks (k : Core) : List Nat := (List.range 24).filter fun b => k.banks.getD b .cache == .cache

/-- The line of an address space at a virtual line number. -/
def Core.l1Find (k : Core) (asid vmid vline : Nat) : Option L1Line :=
  k.l1.find? fun x => x.asid == asid && x.vmid == vmid && x.vline == vline

/-- Two lines with one tag. -/
def L1Line.same (x y : L1Line) : Bool := x.asid == y.asid && x.vmid == y.vmid && x.vline == y.vline

/-- The dirty bytes of a line with their physical addresses. -/
def L1Line.dirtyCells (x : L1Line) : List (Nat × Byte) :=
  ((List.range 128).filter fun i => x.dirty.getLsbD i).map fun i => (x.pline * 128 + i, (x.data >>> (8 * i)).setWidth 8)

/-- The LEASE_LOST flag of an agent for the region of an address (07 R219): the kinds of lease that expired. -/
def State.leaseFlag (s : State) (agent pa : Nat) : Option (BitVec 2) :=
  let pa := s.route pa
  if agent < 4 then ((s.die agent).leaseLost.find? fun e => e.1 == homeOf pa && e.2.1 == pa / 0x200000).map (·.2.2)
  else (s.hub.leaseLost.find? fun e => e.1 == agent && e.2.1 == homeOf pa && e.2.2.1 == pa / 0x200000).map (·.2.2.2)

/-- Write a line's dirty bytes back through its recorded address. The home discards them while LEASE_LOST stands (07 R219). -/
def writeBackCells (s : State) (core : Nat) (x : L1Line) : State :=
  if x.dirty = 0 ∨ (s.leaseFlag (dieOf core) (x.pline * 128)).isSome then s
  else
    let s1 := lineRequest s x.part (dieOf core) (x.pline * 128) .own
    let line := s1.route (x.pline * 128) / 128
    let there := x.dirtyCells.map fun e => s1.route e.1
    if s1.lineState line = some (.modified (dieOf core)) then
      storeAt true (s1.modDie (dieOf core) fun d => { d with l2 := d.l2.map fun y => if y.line = line then { y with stale := y.stale.filter fun e => !there.contains e.1 } else y })
        { cells := x.dirtyCells, keep := false }
    else homeStore s1 { cells := x.dirtyCells, keep := false }

/-- Clean the lines of a core's L1 that satisfy p: write back their dirty bytes; with inv, drop them as well. -/
def cleanLines (s : State) (core : Nat) (p : L1Line → Bool) (inv : Bool) : State :=
  let s1 := ((s.core core).l1.filter p).foldl (fun t x => writeBackCells t core x) s
  s1.modCore core fun k => { k with l1 := if inv then k.l1.filter fun x => !p x else k.l1.map fun x => if p x then { x with dirty := 0 } else x }

/-- A line of an address space meets one of some virtual ranges. -/
def L1Line.inRanges (x : L1Line) (asid vmid : Nat) (rs : List (DWord × Nat)) : Bool :=
  x.asid == asid && x.vmid == vmid && rs.any fun r => decide (x.vline * 128 < r.1.toNat + r.2) && decide (r.1.toNat < x.vline * 128 + 128)

/-- Put a line into the L1: in place, into a way that is free in its set, or into that of a line that makes room. -/
def l1Put (s : State) (core : Nat) (x : L1Line) : State :=
  let k := s.core core
  if (k.l1.any fun y => y.same x) then s.setCore core { k with l1 := k.l1.map fun y => if y.same x then { x with bank := y.bank } else y }
  else
    let set := k.l1.filter fun y => y.vline % 1024 == x.vline % 1024
    let free := k.cacheBanks.filter fun b => set.all fun y => y.bank != b
    let (s1, b) : State × Nat :=
      match free[Config.l1Victim s.time % free.length]? with
      | some b => (s, b)
      | none => match set[Config.l1Victim s.time % set.length]? with
        | some v => (cleanLines s core (fun y => y.same v) true, v.bank)
        | none => (s, 0)
    s1.modCore core fun k => { k with l1 := k.l1 ++ [{ x with bank := b }] }

/-- The line for an access, present or new. -/
def l1LineFor (s : State) (core asid vmid part va pa : Nat) : L1Line :=
  ((s.core core).l1Find asid vmid (va / 128)).getD
    { asid := asid, vmid := vmid, vline := va / 128, pline := pa / 128, bank := 0, valid := 0, dirty := 0, data := 0, canR := false, canW := false, dSet := false, size := 4096,
      part := part }

/-- The mask of n bytes from offset off of a line. -/
def byteMask (off n : Nat) : BitVec 128 := BitVec.ofNat 128 ((2 ^ n - 1) * 2 ^ off)

/-- Fetch a line from its home: bytes already valid stay (05 R142). -/
def l1Fill (s : State) (x : L1Line) : L1Line :=
  let fresh := s.pread (x.pline * 128) 128
  { x with valid := BitVec.allOnes 128, data := BitVec.ofNat 1024 ((List.range 128).foldl (fun v i =>
      v + (if x.valid.getLsbD i then x.data.toNat else fresh) / 2 ^ (8 * i) % 256 * 2 ^ (8 * i)) 0) }

/-- A load of n bytes within one line, through the L1. -/
def l1Load (s : State) (core asid vmid part : Nat) (va n : Nat) (h : Hit) : State × Nat :=
  let x := l1LineFor s core asid vmid part va h.pa
  let off := va % 128
  let rd (y : L1Line) : Nat := y.data.toNat / 2 ^ (8 * off) % 2 ^ (8 * n)
  let rec_ (y : L1Line) : L1Line := { y with canR := h.canR, canW := h.canW, dSet := h.dSet, size := h.size }
  if byteMask off n &&& ~~~x.valid = 0 then
    (l1Put (s.modCore core fun k => { k with l1Hits := k.l1Hits + 1 }) core (rec_ x), rd x)
  else
    let y := rec_ (l1Fill s x)
    (l1Put ((lineRequest s part (dieOf core) h.pa .share).modCore core fun k => { k with l1Misses := k.l1Misses + 1 }) core y, rd y)

/-- A store of bytes within one line, into the L1: the line is allocated without a fetch (05 R142). -/
def l1Store (s : State) (core asid vmid part : Nat) (va n x : Nat) (h : Hit) : State :=
  let y := l1LineFor s core asid vmid part va h.pa
  let off := va % 128
  let m := byteMask off n
  let hit := y.valid != 0
  let keep := y.data.toNat - y.data.toNat / 2 ^ (8 * off) % 2 ^ (8 * n) * 2 ^ (8 * off)
  l1Put (s.modCore core fun k => if hit then { k with l1Hits := k.l1Hits + 1 } else { k with l1Misses := k.l1Misses + 1 }) core
    { y with valid := y.valid ||| m, dirty := y.dirty ||| m, data := BitVec.ofNat 1024 (keep + x % 2 ^ (8 * n) * 2 ^ (8 * off)),
             canR := h.canR, canW := h.canW, dSet := h.dSet, size := h.size }

/-! ## Translation (11 R303 to R308) -/

/-- On whose behalf an address is translated. noAD: PTST, which never sets A or D. own: the device itself at supervisor
level, no handler. -/
structure Xctx where
  die : Nat
  part : Nat
  asid : Nat
  vmid : Nat
  root : Nat
  groot : Option Nat
  sup : Bool
  noAD : Bool
  own : Bool
deriving DecidableEq, Repr

/-- The first-stage root of a satp value and the G-stage root of an hgatp value; no G-stage for 0 (13 R368). -/
def rootOf (satp : Nat) : Nat := satp % 2 ^ 44 * 4096
def grootOf (hgatp : Nat) : Option Nat := if hgatp = 0 then none else some (hgatp % 2 ^ 44 * 4096)

/-- The context of a team. -/
def State.xctx (s : State) (tid : Nat) (core : Nat) (sup : Bool) : Xctx :=
  { die := dieOf core, part := s.partOf tid, asid := s.asid tid, vmid := s.vmid tid, root := rootOf (s.bindField tid 0x30 8),
    groot := grootOf (s.bindField tid 0x38 8), sup := sup, noAD := false, own := false }

/-- Outcome of a stage of translation, or of both. -/
inductive Walk where
  | ok (e : TlbEntry)
  | fault (second : Bool) (reason level : Nat) (fta : Bool)
  | mig (frame : Nat)
  | wait
deriving DecidableEq, Repr

inductive PteKind where
  | invalid | bad | next | leaf
deriving DecidableEq, Repr

/-- What a PTE is at a level (R303, R304; the reserved encodings of a pointer and of W without R are RISC-V's, log 12). A leaf at level 4 is none of the sizes that R303
accepts: it is taken as a reserved encoding, REASON 3 (DEDUCED, log 12). -/
def pteKind (pte level : Nat) : PteKind :=
  let b (i : Nat) : Bool := pte.testBit i
  if !b 0 then .invalid
  else if pte / 2 ^ 59 % 4 ≠ 0 ∨ (b 2 && !b 1) then .bad
  else if !b 1 && !b 3 then
    if level = 0 ∨ pte / 2 ^ 54 ≠ 0 ∨ (b 4 || b 6 || b 7) then .bad else .next
  else
    let ppn := pte / 2 ^ 10 % 2 ^ 44
    if level = 4 ∨ pte / 2 ^ 61 % 4 = 3 ∨ (b 63 && (level != 0 || ppn % 16 != 8)) ∨ ppn % 2 ^ (9 * level) ≠ 0 then .bad else .leaf

/-- The leaf that a PTE gives for an address. -/
def leafOf (x : Xctx) (g : Bool) (pte level va pteAddr : Nat) : TlbEntry :=
  let size := if pte.testBit 63 then 0x10000 else 4096 * 512 ^ level
  { gstage := g, asid := if g then 0 else x.asid, vmid := x.vmid, vbase := va / size * size, size := size,
    pbase := pte / 2 ^ 10 % 2 ^ 44 * 4096 / size * size, canR := pte.testBit 1, canW := pte.testBit 2, canX := pte.testBit 3,
    user := pte.testBit 4, aSet := pte.testBit 6, dSet := pte.testBit 7, pbmt := pte / 2 ^ 61 % 4, level := level, pteAddr := pteAddr }

def accWrites (acc : Nat) : Bool := acc == 1 || acc == 4

/-- The access is permitted by the leaf (R305): user level needs U; a handler may load from and store to a page with U only with SUM, and never
fetches from it; the device's own accesses at supervisor level, the hub's store of DONE (13 R377) and those of the spill engine (12 R361), are no
handler's, so SUM does not limit them (log 50); the G-stage treats every access as a user access (log 12). -/
def permitted (s : State) (x : Xctx) (g : Bool) (e : TlbEntry) (acc : Nat) : Bool :=
  (if acc = 2 then e.canX else e.canR && (!accWrites acc || e.canW)) &&
  (if g then e.user else if x.sup then !e.user || (((s.partRec x.part).sum || x.own) && acc != 2) else e.user)

/-- The set of the TLB, of 4,096, that a leaf lies in: by its page number. -/
def TlbEntry.set (e : TlbEntry) : Nat := e.vbase / e.size % 4096

/-- Enter a leaf in the TLB of a die, 16-way: into a free way of its set, or into that of a leaf that makes room. -/
def tlbPut (s : State) (die : Nat) (e : TlbEntry) : State :=
  s.modDie die fun d =>
    let rest := d.tlb.filter fun y => !(y.gstage == e.gstage && y.asid == e.asid && y.vmid == e.vmid && y.vbase == e.vbase && y.size == e.size)
    let set := rest.filter fun y => y.set == e.set
    { d with tlb := (match if set.length < 16 then none else set[Config.tlbVictim s.time % set.length]? with
        | some v => rest.filter fun y => y != v
        | none => rest) ++ [e] }

/-- A write to the line of an address would not be performed now: it waits at a move, or behind an earlier one (R324). An update of a PTE, one atomic at its
home, waits with it (R305). -/
def State.lineHeld (s : State) (pa : Nat) : Bool := (s.stallMove pa).isSome || s.linePending pa

/-- A home answers a request for an address with an error reply (REASON 5 or 6 of R308; 14 R393, R398, R406), or serves it. A pool frame that the package does not
own is refused where the address itself lies in it and where a move has forwarded the address to it (R329). -/
def homeError (s : State) (part pa : Nat) (write : Bool) : Option Nat :=
  let a := s.route pa
  let own := s.owned (pa / 4096) && s.owned (a / 4096)
  if homeOf a < 4 ∧ (s.die (homeOf a)).down then some 5
  else match regionOf pa with
  | .none => some 5
  | .device => some 5
  | .upstream => if (s.partRec part).vfs = 0 then some 5 else none
  | .stack n => if (s.die (n / 2)).down || (write && inRecordArea pa) then some 5 else if own then none else some 6
  | .mid => if write && inRecordArea pa then some 5 else if own then none else some 6
  | .pool => if inRecordArea pa then (if write then some 5 else none) else if own then none else some 6

/-- Change a PTE for a partition: one atomic at its home, which a home that answers with an error does not make. -/
def pteUpdate (s : State) (part pa : Nat) (f : Nat → Nat) : State :=
  if (homeError s part pa true).isSome then s
  else
    let s1 := lineRequest s part 4 pa .homeStore
    s1.pstore pa 8 (f (s1.pread pa 8))

/-- The leaf is found: permissions, then A and D (R305). at_ gives the physical address of its PTE. -/
def useLeaf (s : State) (x : Xctx) (g : Bool) (e : TlbEntry) (acc : Nat) (at_ : State → Nat → State × Walk) : State × Walk :=
  if !permitted s x g e acc then (s, .fault g 2 e.level false)
  else if e.aSet && (e.dSet || !accWrites acc) then (tlbPut s x.die e, .ok e)
  else if !(s.partRec x.part).adup then (s, .fault g 4 e.level false)
  else if x.noAD then (tlbPut s x.die e, .ok e)
  else
    match at_ s e.pteAddr with
    | (s1, .ok p) =>
      if s1.lineHeld p.pbase then (s1, .wait)
      else match homeError s1 x.part p.pbase true with
      | some r => (s1, .fault true r 0 false)
      | none =>
        let e1 := { e with aSet := true, dSet := e.dSet || accWrites acc }
        (tlbPut (pteUpdate s1 x.part p.pbase fun old => old ||| (0x40 + (if accWrites acc then 0x80 else 0))) x.die e1, .ok e1)
    | w => w

/-- The walk-cache entry for an address at a level. -/
def walkHit (s : State) (x : Xctx) (g : Bool) (level va : Nat) : Option WalkEntry :=
  (s.die x.die).walkCache.find? fun w => w.gstage == g && w.asid == (if g then 0 else x.asid) && w.vmid == x.vmid && w.level == level &&
    w.prefix_ == va / 2 ^ (12 + 9 * level)

/-- The PTE of an address at a level with the address that the tables give it: from the walk cache, or read at its home, by a die through its L2; the hub, which has
none, keeps no line and so holds no lease (07 R217). rd gives the physical address of a PTE. -/
def readPte (x : Xctx) (g : Bool) (va : Nat) (rd : State → Nat → State × Walk) (level : Nat) (s : State) (base : Nat) : State × (Walk ⊕ (Nat × Nat)) :=
  match walkHit s x g level va with
  | some w => (s, .inr (w.pte.toNat, 0))
  | none =>
    let slot := base + 8 * (va / 2 ^ (12 + 9 * level) % (if g && level == 4 then 2048 else 512))
    match rd s slot with
    | (s1, .ok e) =>
      match homeError s1 x.part e.pbase false with
      | some r => (s1, .inl (.fault true r 0 false))
      | none => let s2 := lineRequest s1 x.part x.die e.pbase (if x.die < 4 then .share else .homeRead); (s2, .inr (s2.pread e.pbase 8, slot))
    | (s1, w) => (s1, .inl w)

/-- Enter a non-leaf PTE in the walk cache of a die, where it is not there. -/
def walkPut (s : State) (x : Xctx) (g : Bool) (level va pte : Nat) : State :=
  if (walkHit s x g level va).isSome then s
  else s.modDie x.die fun d =>
    { d with walkCache := (if d.walkCache.length < 4096 then d.walkCache else ldrop d.walkCache (Config.tlbVictim s.time % d.walkCache.length)) ++
        [{ gstage := g, asid := if g then 0 else x.asid, vmid := x.vmid, level := level, prefix_ := va / 2 ^ (12 + 9 * level), pte := BitVec.ofNat 64 pte }] }

/-- The frame that an access through a leaf with MIG reaches (R329). -/
def migFrame (x : Xctx) (g : Bool) (pte level va : Nat) (s : State) (rd : State → Nat → State × Walk) : State × Walk :=
  let e := leafOf x g pte level va 0
  match rd s (e.pbase + (va - e.vbase)) with
  | (s1, .ok p) => (s1, .mig (p.pbase / 4096))
  | (s1, .mig f) => (s1, .mig f)
  | (s1, .wait) => (s1, .wait)
  | (s1, .fault _ _ _ _) => (s1, .mig (2 ^ 52))

/-- Walk one stage from a level down. -/
def walkFrom (x : Xctx) (g : Bool) (va acc : Nat) (rd : State → Nat → State × Walk) : Nat → State → Nat → State × Walk
  | level, s, base =>
    match readPte x g va rd level s base with
    | (s1, .inl w) => (s1, w)
    | (s1, .inr (pte, addr)) =>
      match pteKind pte level with
      | .invalid => (s1, .fault g 1 level (level == 0 && pte.testBit 57))
      | .bad => (s1, .fault g 3 level false)
      | .leaf => if pte.testBit 58 then migFrame x g pte level va s1 rd else useLeaf s1 x g (leafOf x g pte level va addr) acc rd
      | .next =>
        match level with
        | 0 => (walkPut s1 x g level va pte, .fault g 3 0 false)
        | l + 1 => walkFrom x g va acc rd l (walkPut s1 x g level va pte) (pte / 2 ^ 10 % 2 ^ 44 * 4096)

/-- A leaf that the TLB holds for an address. -/
def tlbFind (s : State) (x : Xctx) (g : Bool) (va : Nat) : Option TlbEntry :=
  (s.die x.die).tlb.find? fun e => e.gstage == g && e.vmid == x.vmid && (g || e.asid == x.asid) && decide (e.vbase ≤ va) && decide (va < e.vbase + e.size)

/-- A physical address as a leaf that maps it to itself. -/
def plainLeaf (x : Xctx) (pa : Nat) : TlbEntry :=
  { gstage := true, asid := 0, vmid := x.vmid, vbase := pa, size := 1, pbase := pa, canR := true, canW := true, canX := true, user := true,
    aSet := true, dSet := true, pbmt := 0, level := 0, pteAddr := 0 }

/-- What a leaf says of one byte. -/
def byteLeaf (gpa : Nat) : State × Walk → State × Walk
  | (s, .ok e) => (s, .ok { e with pbase := e.pbase + (gpa - e.vbase), vbase := gpa, size := 1 })
  | (s, .fault g r l f) => (s, .fault g r l f)
  | (s, .mig f) => (s, .mig f)
  | (s, .wait) => (s, .wait)

/-- A walk that the TLB did not save counts as a miss (14 R404). -/
def tlbMiss (s : State) (x : Xctx) : State := s.modDie x.die fun d => { d with tlbMisses := d.tlbMisses + 1 }

/-- The physical address of a PTE of the G-stage: the address itself. -/
def plainAt (x : Xctx) (s : State) (a : Nat) : State × Walk := (s, .ok (plainLeaf x a))

/-- The second stage: a guest-physical address to a physical one, as the byte leaf of that address. Without a G-stage it is the address
itself. A guest-physical address has 59 bits. -/
def secondStage (s : State) (x : Xctx) (gpa acc : Nat) : State × Walk :=
  match x.groot with
  | none => (s, .ok (plainLeaf x gpa))
  | some r =>
    if 2 ^ 59 ≤ gpa then (s, .fault true 1 4 false)
    else match tlbFind s x true gpa with
      | some e => byteLeaf gpa (useLeaf s x true e acc (plainAt x))
      | none => byteLeaf gpa (walkFrom x true gpa acc (plainAt x) 4 (tlbMiss s x) r)

/-- The first stage. A first-stage address is canonical: bits [63:57] copy bit 56 (RISC-V's rule, log 12). -/
def firstStage (s : State) (x : Xctx) (va acc : Nat) : State × Walk :=
  if va / 2 ^ 56 ≠ 0 ∧ va / 2 ^ 56 ≠ 0xFF then (s, .fault false 1 4 false)
  else match tlbFind s x false va with
    | some e => useLeaf s x false e acc fun t a => secondStage t x a 0
    | none => walkFrom x false va acc (fun t a => secondStage t x a 0) 4 (tlbMiss s x) x.root

/-- What an access reaches. -/
inductive Reach where
  | ok (h : Hit)
  | trap (code cause : Nat)
  | wait
deriving DecidableEq, Repr

/-- The cause field of PAGE_S1 and PAGE_S2 (R308). -/
def pageCause (reason acc level : Nat) (fta : Bool) : Nat := reason * 2 ^ 12 + fta.toNat * 2 ^ 11 + acc * 2 ^ 8 + level * 2 ^ 4

/-- What a failed stage gives: PAGE_S1, PAGE_S2 or MIGRATE_BLOCKED, or a wait for a pending claim (R330). -/
def walkTrap (acc : Nat) : State × Walk → State × Reach
  | (t, .fault g r l f) => (t, .trap (if g then 0x0B else 0x0A) (pageCause r acc l f))
  | (t, .mig f) => (t,
    match t.hub.claims.findSome? fun c => match c with | some c => if c.frame = f then some c else none | none => none with
    | some c => match c.failed with
      | none => .wait
      | some r => .trap 0x0C (r * 2 ^ 12 + c.owner * 2 ^ 8)
    | none => .trap 0x0C (2 * 2 ^ 12))
  | (t, .ok _) => (t, .wait)
  | (t, .wait) => (t, .wait)

/-- A translation that met MIG, for a unit that takes no trap: it waits while the frame's claim is pending, else it has failed (R329). -/
def endMig (acc : Nat) (r : State × Walk) : State × Walk :=
  match r with
  | (_, .mig _) => (r.1, match (walkTrap acc r).2 with | .wait => .wait | _ => .fault true 0 0 false)
  | _ => r

/-- What the leaves of both stages give an access. -/
def bothLeaves (e ge : TlbEntry) (acc : Nat) : Reach :=
  let attr := if e.pbmt = 0 then ge.pbmt else e.pbmt
  if regionOf ge.pbase = .upstream ∧ attr ≠ 2 then .trap 0x0A (pageCause 3 acc e.level false)
  else .ok { pa := ge.pbase, attr := attr, canR := e.canR && ge.canR, canW := e.canW && ge.canW, dSet := e.dSet && ge.dSet,
             pteAddr := e.pteAddr, level := e.level, size := max e.size 4096 }

/-- Translate an address through both stages. acc: 0 load, 1 store or atomic, 2 fetch, 3 engine read, 4 engine write. -/
def translate (s : State) (x : Xctx) (va acc : Nat) : State × Reach :=
  match firstStage s x va acc with
  | (s1, .ok e) =>
    match secondStage s1 x (e.pbase + (va - e.vbase)) acc with
    | (s2, .ok ge) => (s2, bothLeaves e ge acc)
    | w => walkTrap acc w
  | w => walkTrap acc w

/-- Translate, and pass the checks of the home: its error replies (R308) and the lease flag of the die (07 R220); the hub is no agent that leases are granted to. -/
def reach (s : State) (x : Xctx) (va acc : Nat) : State × Reach :=
  match translate s x va acc with
  | (s1, .ok h) =>
    match homeError s1 x.part h.pa (accWrites acc) with
    | some r => (s1, .trap 0x0B (pageCause r acc 0 false))
    | none =>
      match if x.die < 4 then s1.leaseFlag x.die h.pa else none with
      | some k => (s1, .trap 0x0E (homeOf (s1.route h.pa) * 2 ^ 8 + k.toNat))
      | none => (s1, .ok h)
  | w => w

/-! ## The team window (05 R137) -/

/-- The window offset of an address in the team's window. -/
def Team.offset (t : Team) (va : DWord) : Option Nat :=
  if t.window.toNat ≤ va.toNat ∧ va.toNat < t.window.toNat + 0x10000000 then some (va.toNat - t.window.toNat) else none

/-- What lies at a window offset for an access of n bytes: several, more than one register of a FIFO. -/
inductive Place where
  | scratch | push (f : Nat) | pop (f : Nat) | count (f : Nat) | several (f : Nat) | none
deriving DecidableEq, Repr

def Team.place (t : Team) (off n : Nat) : Place :=
  if off + n ≤ t.scrSize then .scratch
  else if 0x4000000 ≤ off ∧ off < 0x4040000 then
    let f := (off - 0x4000000) / 0x10000
    let o := off % 0x10000
    if (t.fifos.getD f none).isNone then .none
    else if o + n ≤ 0x10 then .push f
    else if 0x10 ≤ o ∧ o + n ≤ 0x20 then .pop f
    else if 0x20 ≤ o ∧ o + n ≤ 0x24 then .count f
    else if o + n ≤ 0x24 then .several f
    else .none
  else .none

/-- Kind of an access to the window: a plain load or store, an operation that FIFO registers refuse, or an ordered add, which the scratchpad refuses too: the table
of R137 does not name FAADD and FAOPEN (DEDUCED, log 9). -/
inductive WinOp where
  | load | store | other | hub
deriving DecidableEq, Repr

/-- The trap of an access to a window offset (R137, R147): (code, cause), none when the access is allowed. LDU and STU are refused on the
FIFO registers, since the table names LDQ, STQ and LDW alone. A plain access to a push or pop register that is wrong both in width and in kind reports the
width, cause 2 (DESIGN CHOICE: R147 gives the two causes no order; log 64). -/
def windowError (t : Team) (off n : Nat) (op : WinOp) (uniform : Bool) : Option (Nat × Nat) :=
  match t.place off n with
  | .scratch => if op = .hub then some (8, 3) else none
  | .none => some (9, 0)
  | .several _ => some (8, 3)
  | .push _ => if op = .other ∨ op = .hub ∨ uniform then some (8, 3) else if n ≠ 16 then some (8, 2) else if op = .store then none else some (8, 3)
  | .pop _ => if op = .other ∨ op = .hub ∨ uniform then some (8, 3) else if n ≠ 16 then some (8, 2) else if op = .load then none else some (8, 3)
  | .count _ => if op = .other ∨ op = .hub ∨ op = .store ∨ uniform then some (8, 3) else if n ≠ 4 then some (8, 2) else none

/-- n bytes of a team's scratchpad. -/
def Team.sread (t : Team) (off n : Nat) : Nat := leNat (bgets t.scratch off n)
/-- Write n bytes of a team's scratchpad. -/
def Team.swrite (t : Team) (off n x : Nat) : Team := { t with scratch := bputs t.scratch off (leBytes n x) }

/-! ## Range locks (07 R221 to R223) -/

/-- The lock that a thread access overlaps: a write lock for a read, either kind for a write. -/
def State.lockHit (s : State) (die asid va n : Nat) (write : Bool) : Option Lock :=
  (s.die die).locks.find? fun k => k.asid == asid && (write || k.write) && decide (k.base < va + n) && decide (va < k.base + k.len)

end Sys2Proof.Machine
end

