-- ==== Sys2Proof/Machine/Issue.lean ====
section
/-! DEFINITION. When a word is ready (02 R49, R427; 03 R76), and its issue: the registers that it waits for, the room that it needs, the decode checks, and
the shapes of issue that the instructions share. -/
namespace Sys2Proof.Machine

/-! ## Registers that an instruction waits for (02 R49, 03 R76) -/

/-- The registers that a logged operation will write: vector registers and pairs, vector predicates, uniform registers and predicates. -/
def destsOf : MemKind → List Opnd
  | .load w d => [.v d (if w = 16 then 4 else if w = 8 then 2 else 1) true]
  | .sxld d => [.v d 1 true]
  | .atomic op d => [.v d (if 8 ≤ op then 2 else 1) true]
  | .lds d _ _ => [.vp d.toNat true]
  | .unsub d sent => if sent then [] else [.vp d.toNat true]
  | .ldu w d => [.u d (w / 4) true false]
  | .faadd d => [.vp d.toNat true]
  | .faopen d _ _ => [.up d.toNat true]
  | .bind d _ _ _ => [.up d.toNat true]
  | .unbind d => [.up d.toNat true]
  | .acq d _ => [.v d 2 true]
  | .slabld d p => [.u d 1 true false, .up p.toNat true]
  | .kvapp p _ _ => [.up p.toNat true]
  | .pin d => [.up d.toNat true]
  | .unpin d => [.up d.toNat true]
  | .pcnt d _ => [.v d 1 true]
  | .migr d => [.u d 1 true false]
  | .snap d _ => [.u d 1 true false]
  | .store _ => [] | .sxst => [] | .stu _ => [] | .rel _ _ => [] | .slabst _ _ => [] | .phint _ _ => []

/-- Two operands share a register (a V-field of 128 or more reads uniform registers; p7 and q3 are constants, and writes to them are discarded, 01 R25). -/
def opndMeets (x y : Opnd) : Bool :=
  let cross (a k b m : Nat) : Bool := decide (a < b + m) && decide (b < a + k)
  match x, y with
  | .v a k _, .v b m _ => cross a k b m
  | .u a k _ _, .u b m _ _ => cross a k b m
  | .u a k _ _, .v b m _ => decide (128 ≤ b) && cross a k (b - 128) m
  | .v a k _, .u b m _ _ => decide (128 ≤ a) && cross (a - 128) k b m
  | .vp a _, .vp b _ => a % 8 == b % 8 && a % 8 != 7
  | .up a _, .up b _ => a % 8 == b % 8 && a % 8 != 3
  | _, _ => false

/-- The logged operation that an open frame holds until it closes (12 R339). -/
def Group.frameOp (g : Group) : List LogOp :=
  match g.frame with
  | some f => f.log.toList
  | none => []

/-- The logged operations of a group that are not done: those in its core's log, those that a fault moved into its trap queue or into its open frame
(12 R338, R340), and those that wait for an entry of the log (R339). -/
def pendingOps (s : State) (gid : Nat) (g : Group) : List LogOp :=
  ((s.core g.core).log.filter fun o => o.gid == gid) ++ g.queue.filterMap (·.log) ++ g.frameOp ++ g.withdrawn

/-- Destinations that operations of the group still owe: to the vector registers of slices of the gang, or to uniform state. -/
def owed (s : State) (gid : Nat) (g : Group) (gang : SliceMask) : List Opnd :=
  (pendingOps s gid g).flatMap (fun o =>
    (destsOf o.kind).filter fun d => match d with | .u _ _ _ _ => true | .up _ _ => true | _ => o.gang &&& gang != 0) ++
  (s.hub.launchReqs.filter (·.gid == gid)).map (fun r => .u r.d 2 true false) ++
  (s.hub.launchReplies.filter (·.gid == gid)).map (fun r => .u r.d 2 true false) ++
  ((s.core g.core).postBuf.filterMap fun p => match p.2.post with | .launch i d _ => if i = gid then some (.u d 2 true false) else none | _ => none)

/-- The instructions that the guard masks or, for SEL, steers (01 R29, 03 R88, and the entries): they read the guard predicate. -/
def readsGuard (op : Nat) : Bool :=
  decide (op ≤ 0x23) || (decide (0x30 ≤ op) && decide (op ≤ 0x56)) || op ∈ [0x72, 0x80, 0x87, 0x8A, 0xB2, 0xB3, 0xC3, 0xD3] ||
  (decide (0x90 ≤ op) && decide (op ≤ 0xA9) && op != 0x9A && op != 0x9B)

/-- Every register that the word reads or writes, and its guard where it reads one, has received the results owed to it. -/
def registersReady (s : State) (g : Group) (c : Ctx) (w : Word) : Bool :=
  let o := owed s c.gid g c.gang
  o.isEmpty || (ctxSlices c).all fun i =>
    ((if readsGuard (wOp w) then [Opnd.vp ((g.slice i).mode.toNat % 16) false] else []) ++ operands w (mEtype (g.slice i).mode) (uWide g)).all fun x => o.all fun y => !opndMeets x y

/-! ## The other conditions of 02 R49 -/

/-- The counter that a word counts in (02 R42): 0 loads, 1 stores, 2 atomics. -/
def wordCounter (op : Nat) : Option Nat :=
  if (decide (0x90 ≤ op) && decide (op ≤ 0x94)) || op ∈ [0x9A, 0x9C, 0x9F, 0xB2, 0xC7, 0xD3] then some 0
  else if (decide (0x95 ≤ op) && decide (op ≤ 0x99)) || op ∈ [0x9B, 0x9D, 0xA0, 0xB3, 0xC4, 0xC8, 0xD2] then some 1
  else if (decide (0xA1 ≤ op) && decide (op ≤ 0xAA)) || op ∈ [0xD0, 0xD1, 0xF2, 0xF6, 0xF7, 0xF8] then some 2
  else none

/-- The words that take an entry of the operand log (12 R338). -/
def takesLog (op : Nat) : Bool :=
  ((wordCounter op).isSome && !isPrivileged op && op != 0xD2) || op == 0xB0 || op == 0xB1

/-- The engine posts (02 R53). -/
def isPost (op : Nat) : Bool := op ∈ [0xBB, 0xBC, 0xBD, 0xC2, 0xC5, 0xC6, 0xD4]

/-- The slices of an operation: the gang's, or the SOLO lane's. -/
def opGang (c : Ctx) : SliceMask := match c.solo with | some t => 1#64 <<< (t / 4) | none => c.gang

/-- The lanes that an operation acts for: the active lanes, or, where the guard does not mask it, the gang's run lanes. -/
def wordLanes (g : Group) (c : Ctx) (op : Nat) : LaneMask := if readsGuard op then activeSet g c else runSet g c

/-- What a word adds to slice i's counter: one, or one per lane for PCNT (11 R320) and FAADD (05 R161). -/
def wordWeight (op : Nat) (lanes : LaneMask) (i : Nat) : Nat :=
  let n := lanesIn lanes i
  if op = 0xD3 ∨ op = 0xA9 then n else min n 1

/-- The word would raise no counter above 255 (02 R42); an engine post counts once in every slice of the gang. -/
def counterRoom (g : Group) (c : Ctx) (w : Word) : Bool :=
  (match wordCounter (wOp w) with
    | some n => (slicesOf (opGang c)).all fun i => decide ((g.slice i).count n + wordWeight (wOp w) (wordLanes g c (wOp w)) i ≤ 255)
    | none => true) &&
  (!isPost (wOp w) || (slicesOf c.gang).all fun i => decide ((g.slice i).posts < 255))

/-! ### The table of L1 misses (05 R145) -/

/-- The pair named by a V-field, plus an immediate number of units (05 R146). -/
def vea (g : Group) (a : BitVec 8) (imm : BitVec 8) (scale : Nat) (l : Nat) : DWord :=
  readV64 g a.toNat l + imm.signExtend 64 * BitVec.ofNat 64 scale
/-- The address of LDU and STU (05 R151): imm8 counts 4-byte units. -/
def uea (s : State) (g : Group) (c : Ctx) (a imm : BitVec 8) (scale : Nat) : DWord :=
  readU64 s g c a.toNat + imm.signExtend 64 * BitVec.ofNat 64 scale

/-- The bytes that a word loads through the L1, as ranges of addresses. -/
def loadRanges (s : State) (g : Group) (c : Ctx) (w : Word) : List (Nat × Nat) :=
  let op := wOp w; let a := BitVec.ofNat 8 (wA w); let imm := BitVec.ofNat 8 (wB w)
  if 0x90 ≤ op ∧ op ≤ 0x94 then (lanesOf (activeSet g c)).map fun l => ((vea g a imm (2 ^ (op - 0x90)) l).toNat, 2 ^ (op - 0x90))
  else if op = 0x9C then (lanesOf (activeSet g c)).map fun l => ((vea g a imm 2 l).toNat, sxBytes (sxW (mSxw (g.slice (l / 4)).mode)))
  else if op = 0x9A then [((uea s g c a imm 4).toNat, if uWide g then 8 else 4)]
  else if op = 0xC7 then [((readU64 s g c a.toNat).toNat, 64)]
  else []

/-- The bytes that a logged operation still has to load through the L1. -/
def LogOp.loadRanges (o : LogOp) : List (Nat × Nat) :=
  let at_ (n : Nat → Nat) : List (Nat × Nat) := (lanesOf o.left).map fun l => ((o.addr.getD l 0).toNat, n l)
  match o.kind with
  | .load w _ => at_ fun _ => w
  | .sxld _ => at_ fun l => sxBytes (sxW (mSxw (o.modes.getD (l / 4) 0)))
  | .ldu w _ => [((o.addr.getD 0 0).toNat, w)]
  | .slabld _ _ => [((o.addr.getD 0 0).toNat, 64)]
  | _ => []

/-- The lines that some loads of a team miss in their core's L1, each with the team's address space: a line of the window is no L1 line. -/
def missLines (s : State) (core tid : Nat) (rs : List (Nat × Nat)) : List (Nat × Nat × Nat) :=
  let k := s.core core
  (rs.flatMap fun r =>
    (List.range ((r.1 % 128 + r.2 + 127) / 128)).filterMap fun i =>
      let line := r.1 / 128 + i
      let lo := max r.1 (line * 128)
      let need := byteMask (lo % 128) (min (r.1 + r.2) (line * 128 + 128) - lo)
      if ((s.team tid).offset (BitVec.ofNat 64 lo)).isSome then none
      else match k.l1Find (s.asid tid) (s.vmid tid) line with
        | some x => if need &&& ~~~x.valid = 0 then none else some (s.asid tid, s.vmid tid, line)
        | none => some (s.asid tid, s.vmid tid, line)).eraseDups

/-- The lines that the logged loads of a core wait for: the entries of its miss table that are taken. -/
def missTable (s : State) (core : Nat) : List (Nat × Nat × Nat) :=
  ((s.core core).log.flatMap fun o => missLines s core (s.group o.gid).tid o.loadRanges).eraseDups

/-- The 512 entries of the core's miss table have room for what a word would miss (05 R145). -/
def missRoom (s : State) (g : Group) (c : Ctx) (w : Word) : Bool :=
  let new := missLines s g.core g.tid (loadRanges s g c w)
  new.isEmpty || decide ((missTable s g.core ++ new).eraseDups.length ≤ 512)

/-- The units that a word needs have room: its counters, for an engine post the partition's buffer, the operand log, the table of misses. -/
def roomFor (s : State) (g : Group) (c : Ctx) (w : Word) : Bool :=
  counterRoom g c w && (!isPost (wOp w) || (sfind (s.core g.core).postBuf g.part).isNone) && (!takesLog (wOp w) || logRoom s g) && missRoom s g c w

/-! ## Issue -/

/-- The outcome of a meaning. -/
abbrev Result := Host.Outcome State Fault Refusal

/-- Run a meaning for the gang that issues; with no live slice there is no issuer. -/
def withGang (s : State) (k : Ctx → Group → Result) : Result :=
  match s.cur with
  | none => .fault .noIssuer
  | some cur =>
    let g := s.group cur.gid
    let c : Ctx := { gid := cur.gid, gang := cur.gang, solo := g.soloLane }
    if (slicesOf c.gang).any fun i => !(g.slice i).isDead then k c g else .fault .noIssuer

/-- The issue number advances for every instruction that a gang issues (12 R336). -/
def countIssue (s : State) (c : Ctx) : State :=
  let g := s.group c.gid
  (s.setGroup c.gid { g.mapSlices c.gang (fun _ x => { x with issues := x.issues + 1 }) with issueNo := g.issueNo + 1 }).modCore g.core
    fun k => { k with issued := lset k.issued g.part (k.issued.getD g.part 0 + 1) }

/-- A trap that the issuing gang takes instead of the instruction's effect. -/
def trapAt (s : State) (c : Ctx) (w : Word) (t : TrapInfo) : Result := .next (raiseTrap s c w t)

/-- Opcodes that wait until a restored team's slots, slab entries and scratchpad pages are back (12 R362): LDS, UNSUB, BANKCFG, the slot, task and slab
instructions, and the engine posts. -/
def waitsFill (op : Nat) : Bool :=
  op == 0x9F || op == 0xA0 || op == 0xAB || op == 0xBB || op == 0xBC || op == 0xBD || (decide (0xC0 ≤ op) && decide (op ≤ 0xC8)) || op == 0xD4

/-- A word meets the conditions of 02 R49 that do not lie with its gang: its registers, the room it needs, and what a restore has still to bring back. -/
def wordReady (s : State) (g : Group) (c : Ctx) (w : Word) : Bool :=
  registersReady s g c w && roomFor s g c w && !((s.team g.tid).filling && waitsFill (wOp w))

/-- Issue a word: it is ready (else nothing happens yet), the decode checks pass (else their trap, on the same conditions: 02 R427), and the body
gives the effect, on the state in which the issue number has advanced. -/
def issue (w : Word) (s : State) (body : Ctx → Group → State → Result) : Result :=
  withGang s fun c g =>
    if !wordReady s g c w then .next s
    else match decodeCheck g c w with
    | some t => trapAt (countIssue s c) c w t
    | none =>
      let s1 := countIssue s c
      body c (s1.group c.gid) s1

/-- Split the issuing gang by next PC (02 R44); where its live slices agree there is nothing to split. -/
def settle (c : Ctx) (g : Group) : Group :=
  let pcs := (slicesOf c.gang).filterMap fun i => let x := g.slice i
    if x.isDead then none else some x.pc
  if pcs.all (· == pcs.headD 0) then g else g.regroup

/-- Replace the issuing group, advance its gang and split it (02 R44). -/
def retire (s : State) (c : Ctx) (g : Group) : State := s.setGroup c.gid (settle c (advance c g))

/-- An instruction whose whole effect is on the issuing group's registers. -/
def issueRegs (w : Word) (s : State) (f : Ctx → Group → State → Group) : Result :=
  issue w s fun c g s1 => .next (retire s1 c (f c g s1))

/-- A trap with no per-lane condition: FMASK is every running lane of the gang (12 R340). -/
def gangTrap (g : Group) (c : Ctx) (code cause : Nat) (addr : DWord) : TrapInfo :=
  let all := runSet g c
  { code := code, cause := cause, fmask := all, lane := lowestLane all, addr := addr, opw := 0 }

/-- Check 1 of 03 R81: a uniform write needs every live slice of the group in the gang, except in SOLO mode (R78, R79). -/
def uniformSplit (g : Group) (c : Ctx) : Bool := c.solo.isNone && g.liveSlices &&& ~~~c.gang != 0

/-- An instruction that writes uniform state: UNIFORM_SPLIT first, its cause the destination field's code (03 R78). -/
def issueUniform (w : Word) (destCode : Nat) (s : State) (body : Ctx → Group → State → Result) : Result :=
  issue w s fun c g s1 =>
    if uniformSplit g c then trapAt s1 c w (gangTrap g c 4 destCode 0) else body c g s1

/-- The voted operand (03 R80): the lowest voting lane that differs from the lowest voting lane, with the offset of the first register
that differs there; none when all agree. -/
def voteFails (lanes : List Nat) (k : Nat) (read : Nat → Nat → Word) : Option (Nat × Nat) :=
  match lanes with
  | [] => none
  | l0 :: r =>
    (r.find? fun l => (List.range k).any fun i => read i l != read i l0).map fun l =>
      (l, ((List.range k).find? fun i => read i l != read i l0).getD 0)

/-- VOTE_MISMATCH (03 R80): FMASK holds the lanes that differ from the lowest voting lane. -/
def voteTrap (lanes : List Nat) (k field : Nat) (read : Nat → Nat → Word) (hit : Nat × Nat) : TrapInfo :=
  let l0 := lanes.headD 0
  { code := 5, cause := hit.2 * 16 + field, fmask := laneSet fun l => lanes.contains l && (List.range k).any fun i => read i l != read i l0,
    lane := hit.1, addr := 0, opw := 0 }

end Sys2Proof.Machine
end

