-- ==== Sys2Proof/Machine/Fetch.lean ====
section
/-! DEFINITION. Instruction fetch (01 R15, R36), and which gangs are ready to issue (02 R49). -/
namespace Sys2Proof.Machine

/-- What a fetch gives. -/
inductive Fetched where
  | word (w : Word)
  | trap (code cause : Nat) (addr : DWord)
  | wait
deriving DecidableEq, Repr

/-- The cell of an instruction cache for an address. -/
def Core.icell (k : Core) (part asid vmid va : Nat) : Option Word :=
  (k.icache.find? fun e => e.part == part && e.asid == asid && e.vmid == vmid && e.va == va).map (·.word)

/-- Put a word into the instruction cache of its partition, which holds 64 KiB (00 R8): into a free place, or into that of a word that makes room. -/
def Core.icachePut (k : Core) (time : Nat) (e : ICell) : Core :=
  let mine := k.icache.filter fun x => x.part == e.part
  let rest := match if mine.length < 16384 then none else mine[Config.icacheVictim time % mine.length]? with
    | some v => k.icache.filter fun x => x != v
    | none => k.icache
  { k with icache := rest ++ [e] }

/-- Fetch the word at an address for a group: through the page tables, from its instruction cache, or from the L2. Where the cache holds an older word, fetch may still
return it (01 R36); a word that the cache gives reaches no home, and so meets no error of one and no lease flag (07 R220). A fetch from the team window meets no translation and no storage that may be executed (log 13). -/
def fetch (s : State) (gid : Nat) (pc : DWord) : State × Fetched :=
  let g := s.group gid
  match (s.team g.tid).offset pc with
  | some off => (s, .trap 9 0 (BitVec.ofNat 64 off))
  | none =>
    let a := s.asid g.tid; let v := s.vmid g.tid
    let x := s.xctx g.tid g.core g.priv
    let word (s1 : State) (h : Hit) : Word := BitVec.ofNat 32 (s1.pread h.pa 4)
    let request (s1 : State) (h : Hit) : State := lineRequest s1 (s.partOf g.tid) (dieOf g.core) h.pa .share
    match (s.core g.core).icell g.part a v pc.toNat with
    | some old =>
      (match translate s x pc.toNat 2 with
        | (s1, .trap code cause) => (s1, .trap code cause pc)
        | (s1, .wait) => (s1, .wait)
        | (s1, .ok h) =>
          if (homeError s1 x.part h.pa false).isSome ∨ (s1.leaseFlag x.die h.pa).isSome ∨ old = word s1 h ∨ Config.fetchOld s.time then (s1, .word old)
          else
            ((request s1 h).modCore g.core fun k => { k with icache := k.icache.map fun e =>
              if e.part = g.part ∧ e.asid = a ∧ e.vmid = v ∧ e.va = pc.toNat then { e with word := word s1 h } else e }, .word (word s1 h)))
    | none =>
      match reach s x pc.toNat 2 with
      | (s1, .trap code cause) => (s1, .trap code cause pc)
      | (s1, .wait) => (s1, .wait)
      | (s1, .ok h) =>
        ((request s1 h).modCore g.core fun k => k.icachePut s.time { part := g.part, asid := a, vmid := v, va := pc.toNat, word := word s1 h }, .word (word s1 h))

/-- A gang may issue as far as its group and its slices go: not parked, no trap being delivered, not stopped, not waiting (02 R49), no
bank change of its own under way (05 R164). -/
def eligible (s : State) (gid : Nat) (gang : SliceMask) : Bool :=
  let g := s.group gid
  !g.retired && !g.parked && !s.swapped g.tid && gang != 0 && !((s.core (g.tid / 32)).bankChange.any fun e => e.1 == gid) &&
  (slicesOf gang).all fun i => let x := g.slice i
    !x.isDead && x.run != 0 && !g.stopped i && x.wait.free && (g.frame.isNone || x.handler.isSome)

/-- The gangs of a group, by number. -/
def Group.gangNumbers (g : Group) : List Nat :=
  ((List.range 64).filterMap fun i => let x := g.slice i; if x.isDead then none else some x.gang).eraseDups

/-- The gangs of the package that may issue. -/
def readyGangs (s : State) : List Cur :=
  s.groups.flatMap fun e => e.2.gangNumbers.filterMap fun n =>
    let m := e.2.gangSlices n
    if eligible s e.1 m then some { gid := e.1, gang := m } else none

/-- A gang is ready on some pipe (02 R49): it may issue, and the word at its PC is ready. -/
def gangReady (s : State) (gid : Nat) (gang : SliceMask) : Bool :=
  eligible s gid gang &&
  match fetch s gid ((s.group gid).slice (lowestSlice gang)).pc with
  | (s1, .word w) =>
    let g := s1.group gid
    let c : Ctx := { gid := gid, gang := gang, solo := g.soloLane }
    wordReady s1 g c w
  | (_, .trap _ _ _) => true
  | (_, .wait) => false

end Sys2Proof.Machine
end

