-- ==== Sys2Proof/Machine/Real.lean ====
section
/-! DEFINITION. Number formats (04 R105 to R109), exact values, rounding to a format, and the exact functions of R126 as bounds at a
rising precision. -/
namespace Sys2Proof.Machine

/-! ## Formats (R105, R106) -/

/-- A floating-point element format: width, fraction bits, bias; E4M3 has no infinity and one fraction for NaN. -/
structure Fmt where
  w : Nat
  fb : Nat
  bias : Nat
  e4m3 : Bool
deriving DecidableEq, Repr

/-- The format of an element type: 8 FP32, 9 FP16, 10 BF16, 11 FP64, 12 E4M3, 13 E5M2. -/
def fmtOf (et : Nat) : Fmt :=
  match et with
  | 9 => ⟨16, 10, 15, false⟩
  | 10 => ⟨16, 7, 127, false⟩
  | 11 => ⟨64, 52, 1023, false⟩
  | 12 => ⟨8, 3, 7, true⟩
  | 13 => ⟨8, 2, 15, false⟩
  | _ => ⟨32, 23, 127, false⟩

/-- Largest biased exponent field. -/
def Fmt.emax (f : Fmt) : Nat := 2 ^ (f.w - 1 - f.fb) - 1
/-- Encoding of the magnitude of infinity; for E4M3 there is none. -/
def Fmt.infBits (f : Fmt) : Nat := f.emax * 2 ^ f.fb
/-- Encoding of the largest finite magnitude. -/
def Fmt.maxBits (f : Fmt) : Nat := if f.e4m3 then 0x7E else f.infBits - 1
/-- The canonical NaN (R106). -/
def Fmt.nan (f : Fmt) : Nat := if f.e4m3 then 0x7F else f.infBits + 2 ^ (f.fb - 1)
/-- A magnitude's encoding with a sign. -/
def Fmt.sign (f : Fmt) (neg : Bool) (x : Nat) : Nat := if neg then 2 ^ (f.w - 1) + x else x

/-- A value: NaN (signalling or not), an infinity, or the finite number (-1)^neg * m * 2^e. -/
inductive FV where
  | nan (sig : Bool)
  | inf (neg : Bool)
  | fin (neg : Bool) (m : Nat) (e : Int)
deriving DecidableEq, Repr

/-- The value of an encoding (R105). -/
def Fmt.value (f : Fmt) (x : Nat) : FV :=
  let neg := x.testBit (f.w - 1)
  let e := x / 2 ^ f.fb % (f.emax + 1)
  let m := x % 2 ^ f.fb
  if f.e4m3 then
    if e = f.emax ∧ m = 7 then .nan false
    else if e = 0 then .fin neg m (1 - f.bias - f.fb) else .fin neg (m + 2 ^ f.fb) (e - f.bias - f.fb)
  else if e = f.emax then (if m = 0 then .inf neg else .nan (!m.testBit (f.fb - 1)))
  else if e = 0 then .fin neg m (1 - f.bias - f.fb)
  else .fin neg (m + 2 ^ f.fb) (e - f.bias - f.fb)

/-- The encoding is subnormal. -/
def Fmt.subnormal (f : Fmt) (x : Nat) : Bool := x / 2 ^ f.fb % (f.emax + 1) == 0 && x % 2 ^ f.fb != 0

/-- fp_val of R121: a subnormal becomes zero with its own sign under FTZ (R110). -/
def fpVal (f : Fmt) (ftz : Bool) (x : Nat) : FV :=
  if ftz && f.subnormal x then .fin (x.testBit (f.w - 1)) 0 0 else f.value x

/-! ## Rounding (R108, R109) -/

/-- Whether a magnitude with integer part n is rounded up: more, equal or less than half a unit is left over. -/
def roundsUp (neg : Bool) (n : Nat) (rnd : Nat) (gt tie : Bool) : Bool :=
  match rnd with
  | 0 => gt || (tie && n % 2 == 1)
  | 1 => false
  | 2 => neg
  | 3 => !neg
  | _ => gt || tie

/-- The magnitude m * 2^e (a little more, when st says so, but less than (m + 1) * 2^e) rounded to a multiple of 2^q: the multiple. -/
def roundMag (neg : Bool) (m : Nat) (st : Bool) (e q : Int) (rnd : Nat) : Nat :=
  if q ≤ e then m * 2 ^ (e - q).toNat
  else
    let sh := (q - e).toNat
    if m = 0 ∧ st = false then 0
    else if m.log2 + 2 < sh then (if roundsUp neg 0 rnd false false then 1 else 0)
    else
      let n := m / 2 ^ sh
      let r := m % 2 ^ sh
      let half := 2 ^ (sh - 1)
      if r = 0 ∧ st = false then n
      else n + (roundsUp neg n rnd (decide (half < r) || (decide (r = half) && st)) (decide (r = half) && !st)).toNat

/-- The result of an overflow (R109), and the kind of invalid operation it is (9 or none). -/
def overflow (f : Fmt) (neg : Bool) (rnd : Nat) (sat : Bool) : Nat × Nat :=
  let toInf := match rnd with | 0 => true | 4 => true | 2 => neg | 3 => !neg | _ => false
  if !toInf || sat then (f.sign neg f.maxBits, 0)
  else if f.e4m3 then (f.nan, 9)
  else (f.sign neg f.infBits, 0)

/-- fp_round of R108 on a nonzero magnitude: the encoding and the kind. -/
def fpRoundMag (f : Fmt) (neg : Bool) (m : Nat) (st : Bool) (e : Int) (rnd : Nat) (sat ftz : Bool) : Nat × Nat :=
  let top : Int := e + m.log2
  let emin : Int := 1 - f.bias
  let n := roundMag neg m st e (top - f.fb) rnd
  let carry := n == 2 ^ (f.fb + 1)
  let top1 : Int := if carry then top + 1 else top
  let n1 := if carry then 2 ^ f.fb else n
  if top1 < emin then
    if ftz then (f.sign neg 0, 0) else (f.sign neg (roundMag neg m st e (emin - f.fb) rnd), 0)
  else
    let enc := (top1 + f.bias).toNat * 2 ^ f.fb + (n1 - 2 ^ f.fb)
    if f.maxBits < enc then overflow f neg rnd sat else (f.sign neg enc, 0)

/-- fp_round of an exact value; infinities and NaNs are encoded as they stand. -/
def fpRound (f : Fmt) (v : FV) (rnd : Nat) (sat ftz : Bool) : Nat × Nat :=
  match v with
  | .nan _ => (f.nan, 0)
  | .inf neg => if f.e4m3 then (if sat then (f.sign neg f.maxBits, 0) else (f.nan, 9)) else (f.sign neg f.infBits, 0)
  | .fin neg m e => if m = 0 then (f.sign neg 0, 0) else fpRoundMag f neg m false e rnd sat ftz

/-! ## Exact arithmetic -/

def FV.isNan : FV → Bool | .nan _ => true | _ => false
def FV.isSig : FV → Bool | .nan s => s | _ => false
def FV.neg : FV → FV
  | .nan s => .nan s
  | .inf n => .inf (!n)
  | .fin n m e => .fin (!n) m e
/-- The sign of a value that is not NaN. -/
def FV.isNeg : FV → Bool | .nan _ => false | .inf n => n | .fin n _ _ => n
def FV.isZero : FV → Bool | .fin _ m _ => m == 0 | _ => false

/-- The exact product, with the kind it raises of itself (3). -/
def mulFV (x y : FV) : FV × Nat :=
  match x, y with
  | .nan _, _ => (.nan false, 0)
  | _, .nan _ => (.nan false, 0)
  | .inf a, .inf b => (.inf (a ^^ b), 0)
  | .inf a, .fin b m _ => if m = 0 then (.nan false, 3) else (.inf (a ^^ b), 0)
  | .fin a m _, .inf b => if m = 0 then (.nan false, 3) else (.inf (a ^^ b), 0)
  | .fin a m e, .fin b n k => (.fin (a ^^ b) (m * n) (e + k), 0)

/-- A finite value as an integer multiple of 2^k, for k at or below its exponent. -/
def FV.scaled (v : FV) (k : Int) : Int :=
  match v with
  | .fin neg m e => let x : Int := m * 2 ^ (e - k).toNat; if neg then -x else x
  | _ => 0
/-- The exponent of a finite value; that of zero does not bind. -/
def FV.exp? : FV → Option Int
  | .fin _ 0 _ => none
  | .fin _ _ e => some e
  | _ => none

/-- The exact sum of values (R107 for the sign of zero), with the kind it raises of itself (2). Infinities of both signs raise it beside a NaN too, which only
the three terms of FDOT2 can show (DESIGN CHOICE: R127 refers to FFMA; log 63). -/
def sumFV (vs : List FV) (rnd : Nat) : FV × Nat :=
  let pos := vs.any fun v => v == .inf false
  let neg := vs.any fun v => v == .inf true
  if pos && neg then (.nan false, 2)
  else if vs.any FV.isNan then (.nan false, 0)
  else if pos then (.inf false, 0)
  else if neg then (.inf true, 0)
  else
    let k := (vs.filterMap FV.exp?).foldl min ((vs.filterMap FV.exp?).headD 0)
    let t := (vs.filter fun v => !v.isZero).foldl (fun (a : Int) v => a + v.scaled k) 0
    if t = 0 then
      (.fin (if vs.all FV.isNeg then true else if vs.all fun v => !v.isNeg then false else rnd == 2) 0 0, 0)
    else (.fin (decide (t < 0)) t.natAbs k, 0)

/-- The lowest of the kinds that arise; 0 for none. -/
def lowKind (ks : List Nat) : Nat := (ks.filter (· ≠ 0)).foldl min ((ks.filter (· ≠ 0)).headD 0)

/-- Kind 1: some operand is a signalling NaN. -/
def sigKind (vs : List FV) : Nat := if vs.any FV.isSig then 1 else 0

/-- Order of two values that are not NaN: x < y, with -0 equal to +0. -/
def ltFV (x y : FV) : Bool :=
  match x, y with
  | .inf a, .inf b => a && !b
  | .inf a, _ => a
  | _, .inf b => !b
  | x, y =>
    let k := ([x, y].filterMap FV.exp?).foldl min (([x, y].filterMap FV.exp?).headD 0)
    let v (z : FV) : Int := if z.isZero then 0 else z.scaled k
    decide (v x < v y)
def eqFV (x y : FV) : Bool := !x.isNan && !y.isNan && !ltFV x y && !ltFV y x

/-! ## Roots and quotients -/

/-- Integer square root by bits, below 2^k. -/
def isqrtBits (n k : Nat) : Nat :=
  (List.range k).foldl (fun r i => let t := r + 2 ^ (k - 1 - i); if t * t ≤ n then t else r) 0
/-- Integer square root. -/
def isqrt (n : Nat) : Nat := isqrtBits n (n.log2 / 2 + 1)

/-- A positive real as m * 2^e, a little more when st. -/
structure Mag where
  m : Nat
  st : Bool
  e : Int
deriving DecidableEq, Repr

/-- 1 / (m * 2^e), to k bits. -/
def recipMag (m : Nat) (e : Int) (k : Nat) : Mag :=
  let n := k + m.log2 + 1
  { m := 2 ^ n / m, st := 2 ^ n % m != 0, e := -e - n }
/-- The square root of m * 2^e, to k bits. -/
def sqrtMag (m : Nat) (e : Int) (k : Nat) : Mag :=
  let odd := e % 2 != 0
  let m1 := (if odd then 2 * m else m) * 4 ^ k
  let e1 := (if odd then e - 1 else e) - 2 * k
  let r := isqrt m1
  { m := r, st := r * r != m1, e := e1 / 2 }
/-- 1 over the square root of m * 2^e, to k bits. -/
def rsqrtMag (m : Nat) (e : Int) (k : Nat) : Mag :=
  let odd := e % 2 != 0
  let m1 := if odd then 2 * m else m
  let e1 := if odd then e - 1 else e
  let n := k + m1.log2 + 1
  let r := isqrt (4 ^ n / m1)
  { m := r, st := r * r * m1 != 4 ^ n, e := -(e1 / 2) - n }

/-! ## Functions in fixed point: values times 2^p, each a sum whose terms are cut (R126) -/

/-- The sum of x^(2k+1) / (2k+1) from a term t, with the step x^2 = num / den, alternating when alt; n terms. -/
def atanSeries (num den : Nat) (alt : Bool) : Nat → Nat → Nat → Int
  | 0, _, _ => 0
  | n + 1, t, k => (if alt && k % 2 == 1 then -((t / (2 * k + 1) : Nat) : Int) else ((t / (2 * k + 1) : Nat) : Int)) + atanSeries num den alt n (t * num / den) (k + 1)

/-- atanh (1/n) and atan (1/n). -/
def atanhInv (n p : Nat) : Int := atanSeries 1 (n * n) false (p / (2 * n.log2) + 2) (2 ^ p / n) 0
def atanInv (n p : Nat) : Int := atanSeries 1 (n * n) true (p / (2 * n.log2) + 2) (2 ^ p / n) 0

/-- ln 2 times 2^p, within 2 units. -/
def ln2Fix (p : Nat) : Nat :=
  ((18 * atanhInv 26 (p + 32) - 2 * atanhInv 4801 (p + 32) + 8 * atanhInv 8749 (p + 32)) / 2 ^ 32).toNat
/-- pi times 2^p, within 2 units. -/
def piFix (p : Nat) : Nat := ((16 * atanInv 5 (p + 32) - 4 * atanInv 239 (p + 32)) / 2 ^ 32).toNat

/-- The sum of t, t*x/(k+1), ... in fixed point: n terms of the exponential series. -/
def expSeries (x p : Nat) : Nat → Nat → Nat → Nat
  | 0, _, _ => 0
  | n + 1, t, k => t + expSeries x p n (t * x / 2 ^ p / (k + 1)) (k + 1)
/-- e^x for x times 2^p below 2^p. -/
def expFix (x p : Nat) : Nat := expSeries x p (p / 4 + 8) (2 ^ p) 0

/-- Alternating series of sine (k = 1) and cosine (k = 0) from a term t. -/
def trigSeries (x2 p : Nat) : Nat → Nat → Nat → Bool → Int
  | 0, _, _, _ => 0
  | n + 1, t, k, neg => (if neg then -(t : Int) else (t : Int)) + trigSeries x2 p n (t * x2 / 2 ^ p / ((k + 1) * (k + 2))) (k + 2) (!neg)
def sinFix (x p : Nat) : Int := trigSeries (x * x / 2 ^ p) p (p / 4 + 8) x 1 false
def cosFix (x p : Nat) : Int := trigSeries (x * x / 2 ^ p) p (p / 4 + 8) (2 ^ p) 0 false

/-- The dyadic m * 2^e times 2^p, cut. -/
def fixOf (m : Nat) (e : Int) (p : Nat) : Nat :=
  let k := e + p
  if 0 ≤ k then m * 2 ^ k.toNat else m / 2 ^ (-k).toNat

/-- A result known up to err units: between lo and hi, times 2^e. -/
structure Bounds where
  lo : Int
  hi : Int
  e : Int
deriving DecidableEq, Repr

/-- How many units the series above may be off, taken together: fewer than one per operation, for at most p / 4 + 8 terms at p ≤ 1280. -/
def slack : Int := 4096

/-- 2^x for a value that is no integer. -/
def exp2Bounds (neg : Bool) (m : Nat) (e : Int) (p : Nat) : Bounds :=
  -- x = n + f with 0 < f < 1; e < 0 since x is no integer
  let k := (-e).toNat
  let q := m / 2 ^ k
  let r := m % 2 ^ k
  let n : Int := if neg then -(q : Int) - 1 else q
  let f := if neg then 2 ^ k - r else r
  let y := expFix (f * ln2Fix p / 2 ^ k) p
  { lo := max (y - slack) (2 ^ p), hi := y + slack, e := n - p }

/-- log2 x for a positive value that is no power of two. -/
def log2Bounds (m : Nat) (e : Int) (p : Nat) : Bounds :=
  let b := m.log2
  -- m = 2^b * (1 + u); z = u / (2 + u)
  let num := (m - 2 ^ b) * 2 ^ p
  let z := num / (m + 2 ^ b)
  let s := atanSeries (z * z) (4 ^ p) false (p / 3 + 8) z 0
  let l := (2 * s * 2 ^ p) / (ln2Fix p : Int) + (e + b) * 2 ^ p
  { lo := l - slack, hi := l + slack, e := -p }

/-- Quadrant and remainder of a positive value by pi/2, at p bits. -/
def reduceTrig (m : Nat) (e : Int) (p : Nat) : Nat × Nat :=
  let q := p + 192
  let y := fixOf m e q
  let h := piFix (q + 1) / 4
  (y / h, y % h / 2 ^ 192)

/-- sin (k = 0) or cos (k = 1) of a positive value. -/
def trigBounds (k m : Nat) (e : Int) (p : Nat) : Bounds :=
  let r := reduceTrig m e p
  let v := match (r.1 + k) % 4 with
    | 0 => sinFix r.2 p
    | 1 => cosFix r.2 p
    | 2 => -sinFix r.2 p
    | _ => -cosFix r.2 p
  { lo := max (v - slack) (-(2 ^ p)), hi := min (v + slack) (2 ^ p), e := -p }

/-- tanh of a positive value. -/
def tanhBounds (m : Nat) (e : Int) (p : Nat) : Bounds :=
  if (p : Int) < e + m.log2 ∨ 2 * p < fixOf m e 0 then { lo := 2 ^ p - 1, hi := 2 ^ p, e := -p }
  else
    let t := fixOf m (e + 1) (p + 16)
    let h := ln2Fix (p + 16)
    let n := t / h
    let u := 4 ^ p / expFix (t % h / 2 ^ 16) p / 2 ^ n
    let v : Int := ((2 ^ p - u) * 2 ^ p / (2 ^ p + u) : Nat)
    { lo := max (v - slack) 0, hi := min (v + slack) (2 ^ p), e := -p }

/-- Round a result from bounds that no exact result meets: both ends agree, or a higher precision decides. -/
def roundBounds (f : Fmt) (b : Bounds) (rnd : Nat) (ftz : Bool) : Option Nat :=
  if 0 ≤ b.lo ∧ 1 ≤ b.hi then
    let x := (fpRoundMag f false b.lo.toNat true b.e rnd false ftz).1
    if b.lo.toNat ≠ 0 ∧ x = (fpRoundMag f false (b.hi.toNat - 1) true b.e rnd false ftz).1 then some x else none
  else if b.hi ≤ 0 ∧ b.lo ≤ -1 then
    let x := (fpRoundMag f true b.hi.natAbs true b.e rnd false ftz).1
    if b.hi.natAbs ≠ 0 ∧ x = (fpRoundMag f true (b.lo.natAbs - 1) true b.e rnd false ftz).1 then some x else none
  else none

/-- A function's correctly rounded result, at the first precision that decides it. Should the last leave it open, either end is taken
(a free choice, log 14; no argument is known to reach it). -/
def roundFunction (f : Fmt) (bounds : Nat → Bounds) (rnd : Nat) (ftz : Bool) (x : Nat) : Nat :=
  match [192, 640, 1280].findSome? fun p => roundBounds f (bounds p) rnd ftz with
  | some r => r
  | none =>
    let b := bounds 1280
    let v := if Config.unresolved x then b.lo else b.hi
    (fpRoundMag f (decide (v < 0)) v.natAbs true b.e rnd false ftz).1

end Sys2Proof.Machine
end

