-- ==== Sys2Proof/Machine/Sx.lean ====
section
/-! DEFINITION. SX blocks (04 R113 to R115): 16 elements that share an exponent, in four quartets with a sub-shift each. -/
namespace Sys2Proof.Machine

/-- Alignment of a block's address (05 R153), by magnitude width. -/
def sxAlign (w : Nat) : Nat := match w with | 2 => 8 | 4 => 4 | _ => 2

/-- sx_unpack (R114): the value of element j of a block. -/
def sxUnpack (blk w j : Nat) : FV :=
  let e := blk % 256
  if e = 0xFF then .nan false
  else
    let el := blk / 2 ^ (16 + (w + 1) * j) % 2 ^ (w + 1)
    let m := el % 2 ^ w
    if m = 0 then .fin false 0 0
    else .fin (el.testBit w) m ((e : Int) - 127 - (blk / 2 ^ (8 + 2 * (j / 4)) % 4 : Nat) - (w - 1))

/-- floor(log2) of a finite nonzero value. -/
def FV.top : FV → Option Int
  | .fin _ m e => if m = 0 then none else some (e + m.log2)
  | _ => none
def FV.isInf : FV → Bool | .inf _ => true | _ => false

/-- quot: the magnitude of the integer that stands for a value at exponent e and sub-shift sg; an infinity saturates. -/
def sxQuot (v : FV) (e sg w rnd : Nat) : Nat :=
  match v with
  | .fin neg m k => roundMag neg m false (k - ((e : Int) - 127 - sg - (w - 1))) 0 rnd
  | _ => 2 ^ w - 1

/-- The largest floor(log2) of some values; none when all are zero. -/
def topOf (xs : List FV) : Option Int :=
  xs.foldl (fun a v => match a, v.top with | some x, some y => some (max x y) | none, y => y | x, none => x) none

/-- clamp. -/
def clampInt (lo hi x : Int) : Nat := (min (max x lo) hi).toNat

/-- sub_shift of a quartet. -/
def sxShift (q : List FV) (e : Nat) : Nat :=
  if q.any FV.isInf then 0
  else match topOf q with
    | none => 3
    | some t => clampInt 0 3 ((e : Int) - 127 - t)

/-- The sub-shift lowered until the quartet fits. -/
def sxLower (q : List FV) (e w rnd : Nat) : Nat → Nat
  | 0 => 0
  | sg + 1 => if q.all fun v => sxQuot v e (sg + 1) w rnd ≤ 2 ^ w - 1 then sg + 1 else sxLower q e w rnd sg

/-- One pass of packing at exponent e: the block, and whether some element does not fit. -/
def sxPass (xs : List FV) (e w rnd : Nat) : Nat × Bool :=
  let quart (g : Nat) : List FV := (List.range 4).map fun j => xs.getD (4 * g + j) (.fin false 0 0)
  let sg (g : Nat) : Nat := sxLower (quart g) e w rnd (sxShift (quart g) e)
  let n (j : Nat) : Nat := sxQuot (xs.getD j (.fin false 0 0)) e (sg (j / 4)) w rnd
  let ovf := e != 254 && (List.range 16).any fun j => decide (2 ^ w - 1 < n j)
  let el (j : Nat) : Nat :=
    let m := min (n j) (2 ^ w - 1)
    if m = 0 then 0 else m + (if (xs.getD j (.fin false 0 0)).isNeg then 2 ^ w else 0)
  (e + (List.range 4).foldl (fun a g => a + sg g * 2 ^ (8 + 2 * g)) 0 + (List.range 16).foldl (fun a j => a + el j * 2 ^ (16 + (w + 1) * j)) 0, ovf)

/-- sx_pack (R115): a second pass, at the next exponent, always fits. -/
def sxPack (xs : List FV) (w rnd : Nat) : Nat :=
  if xs.any FV.isNan then 0xFF
  else
    let e := if xs.any FV.isInf then 254 else match topOf xs with | none => 0 | some t => clampInt 0 254 (t + 127)
    let p := sxPass xs e w rnd
    if p.2 then (sxPass xs (e + 1) w rnd).1 else p.1

end Sys2Proof.Machine
end

