-- ==== Sys2Proof/Machine/OpLog.lean ====
section
/-! DEFINITION. The operand log (12 R338): the accesses of a logged operation, the checks at issue (05 R146 to R148, 07 R223), the issue
itself, TRANSLATION_WALK (11 R303, R308; 12 R339), the orders that hold an operation back (05 R149, 06 R180, 07 R195, R201), and the
reading and writing of the bytes. -/
namespace Sys2Proof.Machine

/-! ## Slab pages (10 R274, R279): which bytes KVAPP writes -/

/-- Head dimension and row bytes of a slab's FMT byte (R274, R278). -/
def kvD (fmt : Nat) : Nat := match fmt / 4 % 4 with | 0 => 64 | 1 => 128 | _ => 256
def kvRow (fmt : Nat) : Nat := match fmt % 4 with | 0 => 2 * kvD fmt | 1 => kvD fmt / 16 * 18 | _ => kvD fmt / 16 * 12
/-- ps: bytes of a page. -/
def kvPs (fmt : Nat) : Nat := 128 * kvRow fmt

/-- kv_page (R279): data and metadata address of page p, for an entry now and as a task captured it. -/
def kvPage (e c : Slab) (p : Nat) : Nat × Nat :=
  if e.gen ≠ c.gen then (c.dbase.toNat + kvPs c.fmt.toNat * p, c.mbase.toNat + 2048 * p)
  else if e.state = 1 ∧ e.wmark ≤ p ∧ p < e.moven then (e.obase.toNat + kvPs e.fmt.toNat * p, e.ombase.toNat + 2048 * p)
  else (e.dbase.toNat + kvPs e.fmt.toNat * p, e.mbase.toNat + 2048 * p)

/-- A slab entry that a team holds (R278). -/
def State.slabOf (s : State) (tid entry : Nat) : Option Slab :=
  match sfind (s.core (tid / 32)).slabs entry with
  | some e => if e.tid = tid ∧ entry < 256 then some e else none
  | none => none

/-! ## Accesses -/

/-- One access: its lane (for a uniform operation the whole gang's), its virtual address, its bytes. -/
structure Acc where
  lane : Nat
  va : Nat
  n : Nat
deriving DecidableEq, Repr

/-- What an operation captured in a lane (03 R76); a uniform operation captures at lane 0. -/
def LogOp.ea (o : LogOp) (l : Nat) : Nat := (o.addr.getD l 0).toNat
def LogOp.value (o : LogOp) (l : Nat) : Nat := (o.data.getD l 0).toNat
def LogOp.mode (o : LogOp) (l : Nat) : Word := o.modes.getD (l / 4) 0
/-- An operation is 64 bits wide in a lane by the captured element type. -/
def LogOp.wide (o : LogOp) (l : Nat) : Bool := etWide (mEtype (o.mode l))
/-- The SX width of a lane. -/
def LogOp.sx (o : LogOp) (l : Nat) : Nat := sxW (mSxw (o.mode l))

/-- One access for the gang, not one per lane. -/
def MemKind.isUniform : MemKind → Bool
  | .ldu _ _ => true | .stu _ => true | .faopen _ _ _ => true | .bind _ _ _ _ => true | .unbind _ => true | .slabld _ _ => true
  | .slabst _ _ => true | .kvapp _ _ _ => true | .pin _ => true | .unpin _ => true
  | .phint _ _ => true | .migr _ => true | .snap _ _ => true
  | .load _ _ => false | .store _ => false | .sxld _ => false | .sxst => false | .atomic _ _ => false | .lds _ _ _ => false
  | .unsub _ _ => false | .faadd _ => false | .acq _ _ => false | .rel _ _ => false | .pcnt _ _ => false

/-- The access needs W as well as R (11 R305). -/
def MemKind.writes : MemKind → Bool
  | .store _ => true | .sxst => true | .atomic _ _ => true | .stu _ => true | .faadd _ => true | .faopen _ _ _ => true | .rel _ _ => true
  | .slabst _ _ => true | .kvapp _ _ _ => true
  | .load _ _ => false | .sxld _ => false | .lds _ _ _ => false | .unsub _ _ => false | .ldu _ _ => false | .bind _ _ _ _ => false
  | .unbind _ => false | .acq _ _ => false | .slabld _ _ => false | .pin _ => false | .unpin _ => false | .pcnt _ _ => false
  | .phint _ _ => false | .migr _ => false | .snap _ _ => false

/-- The access goes through the L1 (05 R143); the others go to the home. -/
def MemKind.cached : MemKind → Bool
  | .load _ _ => true | .store _ => true | .sxld _ => true | .sxst => true | .ldu _ _ => true | .stu _ => true | .slabld _ _ => true
  | .slabst _ _ => true
  | .atomic _ _ => false | .faadd _ => false | .faopen _ _ _ => false | .rel _ _ => false | .kvapp _ _ _ => false | .lds _ _ _ => false
  | .unsub _ _ => false | .bind _ _ _ _ => false | .unbind _ => false | .acq _ _ => false | .pin _ => false | .unpin _ => false
  | .pcnt _ _ => false | .phint _ _ => false | .migr _ => false | .snap _ _ => false

/-- What KVAPP writes (10 R284): the two rows, the page's record, and the record of the slot that leaves the recent window. -/
def kvAccesses (s : State) (tid entry : Nat) : List Acc :=
  match s.slabOf tid entry with
  | none => []
  | some e =>
    if e.state = 2 ∨ e.len = 64 * 2 ^ e.log2p then []
    else
      let p := e.len / 64; let t := e.len % 64
      let (pd, pm) := kvPage e e p
      let rb := kvRow e.fmt.toNat
      let q := (e.len - e.rwin) / 64
      [⟨0, pd + rb * t, rb⟩, ⟨0, pd + 64 * rb + rb * t, rb⟩, ⟨0, pm, 0x5C0⟩] ++
      (if 0 < e.rwin ∧ e.rwin ≤ e.len ∧ q ≠ p then [⟨0, (kvPage e e q).2, 0x140⟩] else [])

/-- The accesses of an operation. -/
def State.accesses (s : State) (o : LogOp) : List Acc :=
  let each (n : Nat → Nat) : List Acc := (lanesOf o.active).map fun l => ⟨l, o.ea l, n l⟩
  let one (n : Nat) : List Acc := [⟨0, o.ea 0, n⟩]
  match o.kind with
  | .load w _ => each fun _ => w
  | .store w => each fun _ => w
  | .sxld _ => each fun l => sxBytes (o.sx l)
  | .sxst => (List.range 16).filterMap fun m =>
      match (List.range 16).find? fun j => o.active.getLsbD (16 * m + j) with
      | some j => some ⟨16 * m + j, o.ea (16 * m + j), sxBytes (o.sx (16 * m + j))⟩
      | none => none
  | .atomic _ _ => each fun l => if o.wide l then 8 else 4
  | .lds _ _ _ => each fun _ => 8
  | .unsub _ _ => []
  | .ldu w _ => one w
  | .stu w => one w
  | .faadd _ => each fun l => if o.wide l then 16 else 8
  | .faopen _ f64 _ => one (if f64 then 16 else 8)
  | .bind _ _ _ _ => one 8
  | .unbind _ => one 8
  | .acq _ _ => each fun _ => 8
  | .rel _ _ => each fun _ => 8
  | .slabld _ _ => one 64
  | .slabst _ _ => one 64
  | .kvapp _ entry _ => kvAccesses s (s.group o.gid).tid entry
  | .pin _ => one 1
  | .unpin _ => one 1
  | .pcnt _ _ => each fun _ => 1
  | .phint _ _ => []
  | .migr _ => []
  | .snap _ _ => []

/-- The lanes that stand behind an access: a set of SXST acts for its active lanes (R155), a uniform access for the gang's run lanes. -/
def LogOp.accLane (o : LogOp) (a : Acc) (l : Nat) : Bool :=
  o.active.getLsbD l && (o.kind.isUniform || (match o.kind with | .sxst => l / 16 == a.lane / 16 | _ => l == a.lane))

/-- The parts of an access by 128-byte line: address and bytes. -/
def pieces (va n : Nat) : List (Nat × Nat) :=
  (List.range ((va % 128 + n + 127) / 128)).map fun i =>
    let lo := max va (va / 128 * 128 + 128 * i)
    (lo, min (va + n) (va / 128 * 128 + 128 * (i + 1)) - lo)

/-! ## Checks at issue -/

/-- A trap for the accesses that fail a check: the lowest names lane and address, FMASK holds the lanes of all. -/
def accTrap (o : LogOp) (code cause : Nat) (addr : DWord) (bad : List Acc) (opw : Word) : TrapInfo :=
  let m := laneSet fun l => bad.any fun a => o.accLane a l
  { code := code, cause := cause, fmask := m, lane := lowestLane m, addr := addr, opw := opw }

/-- What the window says of an access: (code, cause, window offset). -/
def winCheck (t : Team) (a : Acc) (op : WinOp) (uniform : Bool) : Option (Nat × Nat × Nat) :=
  match t.offset (BitVec.ofNat 64 a.va) with
  | some off => (windowError t off a.n op uniform).map fun e => (e.1, e.2, off)
  | none =>
    match t.offset (BitVec.ofNat 64 (a.va + a.n - 1)) with
    | some off => (windowError t 0 (off + 1) op uniform).map fun e => (e.1, e.2, 0)
    | none => none

/-- ADDR of a trap at an access: the window offset for PAGE_FT, else the effective address (R137, R147). -/
def winAddr (code va off : Nat) : DWord := BitVec.ofNat 64 (if code = 9 then off else va)

/-- RANGE_CONFLICT's cause and operation word (07 R223, 12 R335). -/
def lockCause (k : Lock) : Nat := k.owner.engine * 2 ^ 12 + k.write.toNat * 2 ^ 11
def lockWord (k : Lock) (die : Nat) : Word := BitVec.ofNat 32 (k.owner.opid % 2 ^ 16 + die * 2 ^ 16)

/-- How the checks of an operation go: its alignment, whether the team window is forbidden (ALIGN cause 3), what it is for the window's
registers, whether range locks are looked at, and over which bytes. -/
structure CheckSpec where
  align : Acc → Nat
  noWindow : Bool
  win : WinOp
  locks : Bool
  lockLine : Bool

/-- The checks at issue, in their order (05 R147, R148, R137; 07 R223): the first that some access fails decides, whatever its lane; R148 gives a window fault and
a range conflict in different lanes no order (DESIGN CHOICE, log 64). -/
def memCheck (s : State) (g : Group) (o : LogOp) (k : CheckSpec) : Option TrapInfo :=
  let as := s.accesses o
  let t := s.team g.tid
  let va (a : Acc) : DWord := BitVec.ofNat 64 a.va
  let mis := as.filter fun a => a.va % k.align a != 0
  let inWin := as.filter fun a => k.noWindow && (t.offset (va a)).isSome
  let winBad := as.filter fun a => (winCheck t a k.win o.kind.isUniform).isSome
  let lock (a : Acc) : Option Lock :=
    if !k.locks then none
    else if k.lockLine then s.lockHit (dieOf g.core) (s.asid g.tid) (a.va / 128 * 128) 128 o.kind.writes
    else s.lockHit (dieOf g.core) (s.asid g.tid) a.va a.n o.kind.writes
  let locked := as.filter fun a => (lock a).isSome
  match mis, inWin, winBad, locked with
  | a :: _, _, _, _ => some (accTrap o 8 1 (va a) mis 0)
  | [], a :: _, _, _ => some (accTrap o 8 3 (va a) inWin 0)
  | [], [], a :: _, _ =>
    match winCheck t a k.win o.kind.isUniform with
    | some (code, cause, off) =>
      some (accTrap o code cause (winAddr code a.va off) (winBad.filter fun b =>
        (winCheck t b k.win o.kind.isUniform).map (fun e => (e.1, e.2.1)) == some (code, cause)) 0)
    | none => none
  | [], [], [], a :: _ =>
    match lock a with
    | some l => some (accTrap o 0x0D (lockCause l) (va a) locked (lockWord l (dieOf g.core)))
    | none => none
  | [], [], [], [] => none

/-! ## Issue -/

/-- What an instruction asks of the log. -/
structure LogPlan where
  kind : MemKind
  active : LaneMask
  addr : Nat → DWord
  data : Nat → BitVec 128

/-- The logged operation of a plan. In SOLO mode only the SOLO lane's slice takes part. -/
def mkOp (s : State) (c : Ctx) (g : Group) (w : Word) (p : LogPlan) : LogOp :=
  { id := (s.core g.core).nextId, gid := c.gid, key := g.issueNo, word := w, kind := p.kind, pc := (g.slice (lowestSlice c.gang)).pc,
    gang := opGang c,
    active := p.active, left := p.active, modes := (List.range 64).map fun i => (g.slice i).mode,
    addr := (List.range (if p.kind.isUniform then 1 else 256)).map p.addr, data := (List.range 256).map p.data,
    walked := false, hits := [], priv := g.priv }

/-- Issue a memory instruction: UNIFORM_SPLIT where it writes uniform state; its checks; what else its gang waits for; then its log entry, unless no lane is
active. -/
def issueMemWhen (w : Word) (uniform : Option Nat) (storeLike : Bool) (s : State) (plan : Ctx → Group → State → LogPlan)
    (pre : Ctx → Group → State → LogOp → Option TrapInfo) (hold : Ctx → Group → State → Bool) : Result :=
  issue w s fun c g s1 =>
    let o := mkOp s1 c g w (plan c g s1)
    let split := match uniform with
      | some code => if uniformSplit g c then some (gangTrap g c 4 code 0) else none
      | none => none
    match split.orElse fun _ => pre c g s1 o with
    | some t => trapAt s1 c w t
    | none =>
      if hold c g s1 then .next s
      else
        let g1 := if storeLike then storeClass c g else g
        if o.active = 0 then .next (retire s1 c g1)
        else .next ((retire s1 c (countOp g1 o.kind o.gang o.active)).modCore g.core fun k => { k with log := k.log ++ [o], nextId := k.nextId + 1 })

/-- A memory instruction that waits for nothing else. -/
def issueMem (w : Word) (uniform : Option Nat) (storeLike : Bool) (s : State) (plan : Ctx → Group → State → LogPlan)
    (pre : Ctx → Group → State → LogOp → Option TrapInfo) : Result := issueMemWhen w uniform storeLike s plan pre fun _ _ _ => false

/-- Issue a word that waits for the replies of homes or of the hub and makes no access of its own (11 R319, R322; 14 R405): it counts until they come. -/
def issueRequest (w : Word) (s : State) (c : Ctx) (g : Group) (p : LogPlan) : Result :=
  let o := { mkOp s c g w p with walked := true }
  .next ((retire s c (countOp g o.kind o.gang o.active)).modCore g.core fun k => { k with log := k.log ++ [o], nextId := k.nextId + 1 })

/-! ## TRANSLATION_WALK -/

/-- Translation and the home's error replies, without the lease flags, which the placement instructions do not meet (07 R220). pc: a pool frame that
is not owned is no error. -/
def reachPlaced (s : State) (x : Xctx) (va acc : Nat) (pc : Bool) : State × Reach :=
  match translate s x va acc with
  | (s1, .ok h) =>
    match homeError s1 x.part h.pa false with
    | some r => (s1, if pc ∧ r = 6 then .ok h else .trap 0x0B (pageCause r acc 0 false))
    | none => (s1, .ok h)
  | w => w

/-- What PIN and UNPIN reach: the frame, and the leaf PTE used at its physical address (11 R317). Under two stages PIN stands in the leaf of the first stage, the one whose
address the instruction names (DESIGN CHOICE, log 68). -/
def reachPinned (s : State) (x : Xctx) (va : Nat) : State × Reach :=
  match reachPlaced s x va 0 false with
  | (s1, .ok h) =>
    (match secondStage s1 x h.pteAddr 0 with
      | (s2, .ok e) => (s2, .ok { h with pteAddr := e.pbase })
      | w => walkTrap 0 w)
  | w => w

/-- An access of a kind to the home of an address, as far as errors go: PCNT reads 0 where the pool frame is not owned (11 R320). -/
def reachFor (s : State) (x : Xctx) (k : MemKind) (va : Nat) : State × Reach :=
  match k with
  | .pcnt _ _ => reachPlaced s x va 0 true
  | .pin _ => reachPinned s x va
  | .unpin _ => reachPinned s x va
  | _ => reach s x va (if k.writes then 1 else 0)

/-- Where one part of an access lies: the team window, a line of the L1 that serves it (11 R307), or what translation gives. -/
def walkPiece (s : State) (o : LogOp) (va n : Nat) : State × Reach :=
  let g := s.group o.gid
  let asid := s.asid g.tid; let vmid := s.vmid g.tid
  match (s.team g.tid).offset (BitVec.ofNat 64 va) with
  | some off => if (s.team g.tid).filling then (s, .wait) else (s, .ok { pa := off, attr := 3, canR := true, canW := true, dSet := true, pteAddr := 0, level := 0, size := 4096 })
  | none =>
    let x := s.xctx g.tid g.core o.priv
    match if o.kind.cached then (s.core g.core).l1Find asid vmid (va / 128) else none with
    | some y =>
      if (if o.kind.writes then y.canW && y.dSet && !inRecordArea (y.pline * 128) else y.canR && byteMask (va % 128) n &&& ~~~y.valid == 0) then
        (s, .ok { pa := y.pline * 128 + va % 128, attr := 0, canR := y.canR, canW := y.canW, dSet := y.dSet, pteAddr := 0, level := 0, size := y.size })
      else reachFor s x o.kind va
    | none => reachFor s x o.kind va

/-- The parts of one access, each with what it reaches. -/
def walkAcc (s : State) (o : LogOp) (a : Acc) : State × List (Nat × Reach) :=
  (pieces a.va a.n).foldl (fun r p => let t := walkPiece r.1 o p.1 p.2; (t.1, r.2 ++ [(p.1, t.2)])) (s, [])

/-- Every access of an operation. -/
def walkAll (s : State) (o : LogOp) : State × List (Acc × List (Nat × Reach)) :=
  (s.accesses o).foldl (fun r a => let t := walkAcc r.1 o a; (t.1, r.2 ++ [(a, t.2)])) (s, [])

/-- How a walk ends. -/
inductive WalkOut where
  | done (hits : List (List Hit))
  | wait
  | trap (t : TrapInfo)
deriving DecidableEq, Repr

/-- The first part of an access that faults. -/
def firstTrap (ps : List (Nat × Reach)) : Option (Nat × Nat × Nat) :=
  ps.findSome? fun p => match p.2 with | .trap code cause => some (p.1, code, cause) | _ => none

/-- The outcome over all lanes (12 R340): the lowest faulting lane decides; FMASK holds the lanes that fault on its page with its cause;
ADDR is that lane's address. -/
def walkOut (o : LogOp) (rs : List (Acc × List (Nat × Reach))) : WalkOut :=
  match rs.findSome? fun a => (firstTrap a.2).map fun t => (a.1.va, t) with
  | some (ea, va, code, cause) =>
    let m := laneSet fun l => rs.any fun b => o.accLane b.1 l && (match firstTrap b.2 with
      | some (v, c, k) => v / 4096 == va / 4096 && c == code && k == cause
      | none => false)
    .trap { code := code, cause := cause, fmask := m, lane := lowestLane m, addr := BitVec.ofNat 64 ea, opw := 0 }
  | none =>
    if rs.any fun a => a.2.any fun p => p.2 == .wait then .wait
    else .done (rs.map fun a => a.2.filterMap fun p => match p.2 with | .ok h => some h | _ => none)

/-- Drop an operation from its core's log. -/
def dropOp (s : State) (o : LogOp) : State :=
  s.modCore (s.group o.gid).core fun k => { k with log := k.log.filter fun p => p.id ≠ o.id }
/-- Replace an operation in its core's log. -/
def putOp (s : State) (o : LogOp) : State :=
  s.modCore (s.group o.gid).core fun k => { k with log := k.log.map fun p => if p.id = o.id then o else p }
/-- An operation completes: its entry goes and its slices no longer count it. -/
def finishOp (s : State) (o : LogOp) : State :=
  (dropOp s o).modGroup o.gid fun g => uncountOp g o.kind o.gang o.active

/-- The queue can take a trap of the operation, or the trap is NESTED. -/
def trapRoom (s : State) (o : LogOp) : Bool :=
  let g := s.group o.gid
  (o.priv && g.frame.isSome) || g.queue.length < 8

/-- The next PC of a slice's gang outside the handler: for a handler slice, the one that the open frame keeps in TFPC (R341). -/
def Group.nextPc (g : Group) (i : Nat) : DWord :=
  match g.frame, (g.slice i).handler with
  | some f, some _ => f.tfpc
  | _, _ => (g.slice i).pc

/-- A fault of a logged operation (R338, R341): its entry moves into the queue entry and the gangs of the faulting lanes stop. Raised by the
handler it is NESTED: the group parks, and the operation is given up. -/
def raiseLogged (s : State) (o : LogOp) (t : TrapInfo) : State :=
  let g := s.group o.gid
  let r : Record := { cause := BitVec.ofNat 16 t.cause, nested := false, logged := true, async := false, code := BitVec.ofNat 8 t.code,
                      qleft := 0, lane := BitVec.ofNat 8 t.lane, addr := t.addr, pc := o.pc, opword := o.word.setWidth 64 }
  if o.priv ∧ g.frame.isSome then
    let s1 := finishOp s o
    let g1 := (s1.group o.gid).park
    (s1.setGroup o.gid g1).post g1 { r with nested := true, logged := false }
  else
    let bad (i : Nat) : Bool := !(g.slice i).isDead && t.fmask &&& (0xF#256 <<< (4 * i)) != 0
    let m := sliceSet fun i => !(g.slice i).isDead && (List.range 64).any fun j => bad j && (g.slice j).ownGang == (g.slice i).ownGang
    let e : TrapEntry := { record := r, fmask := t.fmask, gang := m, key := o.key, log := some { o with walked := false, hits := [] }, atIssue := false,
                           resume := g.nextPc (t.lane / 4), engine := .none }
    deliverIfQuiet ((dropOp s o).modGroup o.gid fun g => { g with queue := enqueue e g.queue }) o.gid

/-- The operation of a core's log with an identifier. -/
def State.findOp (s : State) (core id : Nat) : Option LogOp := (s.core core).log.find? fun o => o.id == id

/-- Walk an operation, as far as the walk ends. Where a lane faults, the A and D bits that the walk has set for the lanes or the stage that passed stay set: they are the
walker's (11 R305), while 00 R13 and 05 R148 speak of the instruction (DESIGN CHOICE, log 68). -/
def walkOp (s : State) (o : LogOp) : State :=
  let r := walkAll s o
  match walkOut o r.2 with
  | .done hits => putOp r.1 { o with walked := true, hits := hits }
  | .trap t => if trapRoom s o then raiseLogged r.1 o t else s
  | .wait => s

/-- The walk of an operation would end now. -/
def walkEnds (s : State) (o : LogOp) : Bool :=
  !o.walked && match walkOut o (walkAll s o).2 with
  | .done _ => true
  | .trap _ => trapRoom s o
  | .wait => false

/-- TRANSLATION_WALK: a logged operation passes translation and the home checks in all of its lanes, or faults. -/
def execTranslationWalk (core id : Nat) (s : State) : Result :=
  .next (match s.findOp core id with
    | some o => if o.walked then s else walkOp s o
    | none => s)

/-! ## Order -/

/-- Two operations share a slice. -/
def shareSlice (p o : LogOp) : Bool := p.gang &&& o.gang != 0

/-- The byte ranges by which an operation is ordered: its accesses, and the slots of LDS and UNSUB. -/
def State.touches (s : State) (o : LogOp) : List Acc :=
  s.accesses o ++ (match o.kind with
    | .lds _ _ _ => (lanesOf o.active).map fun l => ⟨l, o.value l, 16⟩
    | .unsub _ _ => (lanesOf o.active).map fun l => ⟨l, o.value l, 16⟩
    | _ => [])

/-- The slices that stand behind an access of an operation which is not uniform: a set of SXST acts for every slice that has an active lane in it (R155). -/
def LogOp.accSlices (o : LogOp) (a : Acc) : List Nat :=
  match o.kind with
  | .sxst => (List.range 4).filterMap fun i =>
      let slice := a.lane / 16 * 4 + i
      if (List.range 4).any fun j => o.active.getLsbD (4 * slice + j) then some slice else none
  | _ => [a.lane / 4]

/-- Some slice touches the same bytes in both (05 R149, 07 R195). -/
def overlap (s : State) (p o : LogOp) : Bool :=
  (s.touches p).any fun a => (s.touches o).any fun b =>
    (p.kind.isUniform || o.kind.isUniform || (p.accSlices a).any fun i => (o.accSlices b).contains i) && decide (a.va < b.va + b.n) && decide (b.va < a.va + a.n)

/-- A slot load (06 R180): some byte falls on bytes 0 to 9 of an active slot of the team. -/
def slotLoad (s : State) (o : LogOp) : Bool :=
  let tid := (s.group o.gid).tid
  (match o.kind with | .load _ _ => true | .sxld _ => true | .ldu _ _ => true | _ => false) &&
  (s.accesses o).any fun a =>
    match (s.team tid).offset (BitVec.ofNat 64 a.va) with
    | some off => (s.core (tid / 32)).directory.any fun d => d.tid == tid && decide (off < d.off + 10) && decide (d.off < off + a.n)
    | none => false

/-- An older operation p of the group holds operation o back. -/
def holdsBack (s : State) (p o : LogOp) : Bool :=
  decide (p.key < o.key) && p.id != o.id && shareSlice p o &&
  ((match p.kind with | .acq _ _ => true | _ => false) ||
   ((match o.kind with | .rel _ _ => true | _ => false) && p.kind.counter != 3) ||
   (slotLoad s p && (o.kind.counter == 0 || o.kind.counter == 2)) ||
   overlap s p o)

/-- Nothing holds the operation back. The operation that an open frame holds until it closes holds back what was issued before the frame opened, and not
the handler's own operations: it is performed only after they are (12 R339; log 17). -/
def unblocked (s : State) (o : LogOp) : Bool :=
  let g := s.group o.gid
  (pendingOps s o.gid g).all fun p => !holdsBack s p o || (o.priv && g.frameOp.any fun q => q.id == p.id)

/-! ## Bytes -/

/-- The FIFO register that a window offset is: 0 push, 1 pop, 2 count; with the FIFO. -/
def fifoReg (off : Nat) : Option (Nat × Nat) :=
  if off < 0x4000000 then none
  else some ((off - 0x4000000) / 0x10000, if off % 0x10000 < 0x10 then 0 else if off % 0x10000 < 0x20 then 1 else 2)

/-- An access that pushes to or pops from a FIFO. -/
def fifoAcc (hs : List Hit) : Option (Nat × Nat) :=
  match hs with
  | [h] => if h.attr = 3 then (match fifoReg h.pa with | some (f, r) => if r < 2 then some (f, r) else none | none => none) else none
  | _ => none

/-- An access to a page that the L1 does not cache (05 R143). -/
def Hit.uncached (h : Hit) : Bool := h.attr == 1 || h.attr == 2

/-- Read n bytes within a line for an operation's group. -/
def readPiece (s : State) (gid va n : Nat) (h : Hit) : State × Nat :=
  let g := s.group gid
  if h.attr = 3 then
    match fifoReg h.pa with
    | some (f, _) => (s, match (s.team g.tid).fifos.getD f none with | some q => q.length | none => 0)
    | none => (s, (s.team g.tid).sread h.pa n)
  else if h.uncached then (lineRequest s (s.partOf g.tid) (dieOf g.core) h.pa .homeRead, s.pread h.pa n)
  else l1Load s g.core (s.asid g.tid) (s.vmid g.tid) (s.partOf g.tid) va n h

/-- Write n bytes within a line for an operation's group. -/
def writePiece (s : State) (gid va n x : Nat) (h : Hit) : State :=
  let g := s.group gid
  if h.attr = 3 then s.modTeam g.tid fun t => t.swrite h.pa n x
  else if h.uncached then (lineRequest s (s.partOf g.tid) (dieOf g.core) h.pa .homeStore).pstore h.pa n x
  else l1Store s g.core (s.asid g.tid) (s.vmid g.tid) (s.partOf g.tid) va n x h

/-- Read an access, little-endian over its parts. -/
def readAcc (s : State) (gid : Nat) (a : Acc) (hs : List Hit) : State × Nat :=
  ((pieces a.va a.n).zip hs).foldl (fun r p =>
    let t := readPiece r.1 gid p.1.1 p.1.2 p.2
    (t.1, r.2 + t.2 * 2 ^ (8 * (p.1.1 - a.va)))) (s, 0)

/-- Write an access. -/
def writeAcc (s : State) (gid : Nat) (a : Acc) (hs : List Hit) (x : Nat) : State :=
  ((pieces a.va a.n).zip hs).foldl (fun r p => writePiece r gid p.1.1 p.1.2 (x / 2 ^ (8 * (p.1.1 - a.va))) p.2) s

/-- The accesses of a walked operation with where they lie. -/
def State.placed (s : State) (o : LogOp) : List (Acc × List Hit) := (s.accesses o).zip o.hits

/-- An operation that has been walked and not performed translates again, when p holds of one of its parts. -/
def unwalk (s : State) (p : Group → Acc → Hit → Bool) : State :=
  let redo (o : LogOp) : LogOp :=
    if o.walked && (s.placed o).any (fun e => e.2.any fun h => h.attr != 3 && p (s.group o.gid) e.1 h) then { o with walked := false, hits := [] } else o
  let keep : Nat × Core → Nat × Core := fun k => (k.1, { k.2 with log := k.2.log.map redo })
  { s with cores := s.cores.map keep }

/-- The operation changes the leaf PTE used, one atomic at its home (11 R317, R318). -/
def MemKind.pins : MemKind → Bool
  | .pin _ => true
  | .unpin _ => true
  | _ => false

/-- The operation waits for a move (11 R324): a write of it would meet the line about to be copied, or an earlier write to one of its lines still waits
there. -/
def stalled (s : State) (o : LogOp) : Bool :=
  o.hits.any fun hs => hs.any fun h => h.attr != 3 &&
    (s.linePending h.pa || (o.kind.writes && (h.uncached || !o.kind.cached) && (s.stallMove h.pa).isSome) || (o.kind.pins && s.lineHeld h.pteAddr))

/-- A lane that still waits at a FIFO. -/
def fifoLeft (s : State) (o : LogOp) : Option (Nat × Nat × Nat) :=
  match o.kind with
  | .pcnt _ _ => none
  | _ => (s.placed o).findSome? fun p =>
    if o.left.getLsbD p.1.lane then (match fifoAcc p.2 with | some (f, r) => some (p.1.lane, f, r) | none => none) else none

/-- The operation may be performed now. -/
def performable (s : State) (o : LogOp) : Bool := o.walked && unblocked s o && !stalled s o && (fifoLeft s o).isNone

end Sys2Proof.Machine
end

