-- ==== Sys2Proof/Machine/LoadStore.lean ====
section
/-! DEFINITION. The loads and stores (05 R150, R151), SX block loads and stores (R153 to R155) and PREF (R156); what each does when it is
performed; FIFO_PUSH_COMPLETE and FIFO_POP_COMPLETE (R138, 12 R360). -/
namespace Sys2Proof.Machine

/-- The bits of some consecutive registers in lane l, the first lowest. -/
def readRegs (g : Group) (d n l : Nat) : Nat :=
  (List.range n).foldl (fun v i => v + (readV g (d + i) l).toNat * 2 ^ (32 * i)) 0

/-- Write some consecutive registers in the lanes for which f gives a value. -/
def writeRegs (g : Group) (d : Nat) (f : Nat → Option Nat) : Nat → Group
  | 0 => g
  | n + 1 => vput (writeRegs g d f n) (d + n) fun l => (f l).map fun x => BitVec.ofNat 32 (x / 2 ^ (32 * n))

/-- Registers of an access of w bytes. -/
def regsOf (w : Nat) : Nat := max (w / 4) 1

/-! ## Issue -/

def plainSpec (w : Nat) (op : WinOp) : CheckSpec := { align := fun _ => w, noWindow := false, win := op, locks := true, lockLine := false }

/-- A plain load (R150). -/
def issueLoad (word : Word) (w : Nat) (d a imm : BitVec 8) (s : State) : Result :=
  issueMem word none false s
    (fun c g _ => { kind := .load w d.toNat, active := activeSet g c, addr := vea g a imm w, data := fun _ => 0 })
    fun _ g s1 o => memCheck s1 g o (plainSpec w .load)

/-- A plain store (R150): store-class for spinning (02 R55). -/
def issueStore (word : Word) (w : Nat) (d a imm : BitVec 8) (s : State) : Result :=
  issueMem word none true s
    (fun c g _ => { kind := .store w, active := activeSet g c, addr := vea g a imm w,
                    data := fun l => BitVec.ofNat 128 (readRegs g d.toNat (regsOf w) l % 2 ^ (8 * w)) })
    fun _ g s1 o => memCheck s1 g o (plainSpec w .store)

def execLdb (d a imm : BitVec 8) (s : State) : Result := issueLoad (encode (.ldb d a imm)) 1 d a imm s
def execLdh (d a imm : BitVec 8) (s : State) : Result := issueLoad (encode (.ldh d a imm)) 2 d a imm s
def execLdw (d a imm : BitVec 8) (s : State) : Result := issueLoad (encode (.ldw d a imm)) 4 d a imm s
def execLdd (d a imm : BitVec 8) (s : State) : Result := issueLoad (encode (.ldd d a imm)) 8 d a imm s
def execLdq (d a imm : BitVec 8) (s : State) : Result := issueLoad (encode (.ldq d a imm)) 16 d a imm s
def execStb (d a imm : BitVec 8) (s : State) : Result := issueStore (encode (.stb d a imm)) 1 d a imm s
def execSth (d a imm : BitVec 8) (s : State) : Result := issueStore (encode (.sth d a imm)) 2 d a imm s
def execStw (d a imm : BitVec 8) (s : State) : Result := issueStore (encode (.stw d a imm)) 4 d a imm s
def execStd (d a imm : BitVec 8) (s : State) : Result := issueStore (encode (.std d a imm)) 8 d a imm s
def execStq (d a imm : BitVec 8) (s : State) : Result := issueStore (encode (.stq d a imm)) 16 d a imm s

/-- Bytes of a uniform access: the width of the uniform class (R99). -/
def uBytes (g : Group) : Nat := if uWide g then 8 else 4

/-- LDU (R151): one access for the gang; it writes uniform state. -/
def execLdu (d a imm : BitVec 8) (s : State) : Result :=
  issueMem (encode (.ldu d a imm)) (some d.toNat) false s
    (fun c g s1 => { kind := .ldu (uBytes g) d.toNat, active := runSet g c, addr := fun _ => uea s1 g c a imm 4, data := fun _ => 0 })
    fun _ g s1 o => memCheck s1 g o (plainSpec (uBytes g) .load)

/-- STU (R151): a split gang may issue it. -/
def execStu (d a imm : BitVec 8) (s : State) : Result :=
  issueMem (encode (.stu d a imm)) none true s
    (fun c g s1 => { kind := .stu (uBytes g), active := runSet g c, addr := fun _ => uea s1 g c a imm 4,
                     data := fun _ => if uWide g then (readU64 s1 g c d.toNat).setWidth 128 else (readU s1 g c d.toNat).setWidth 128 })
    fun _ g s1 o => memCheck s1 g o (plainSpec (uBytes g) .store)

/-- Alignment of an SX access (R153), from its bytes. -/
def sxAlignOf (a : Acc) : Nat := if a.n = 8 then 8 else if a.n = 12 then 4 else 2

def sxSpec : CheckSpec := { align := sxAlignOf, noWindow := false, win := .other, locks := true, lockLine := false }

/-- SXLD (R154): imm8 counts 2-byte units. -/
def execSxld (d a imm : BitVec 8) (s : State) : Result :=
  issueMem (encode (.sxld d a imm)) none false s
    (fun c g _ => { kind := .sxld d.toNat, active := activeSet g c, addr := vea g a imm 2, data := fun _ => 0 })
    fun _ g s1 o => memCheck s1 g o sxSpec

/-- The addresses of the sets of SXST are voted operands (R155, 03 R80 with FIELD 2): FMASK holds the lanes that differ in any set. -/
def sxVote (g : Group) (o : LogOp) (a : BitVec 8) : Option TrapInfo :=
  let lanes (m : Nat) : List Nat := (List.range 16).filterMap fun j => if o.active.getLsbD (16 * m + j) then some (16 * m + j) else none
  let rd (i l : Nat) : Word := readV g (a.toNat + i) l
  match (List.range 16).findSome? fun m => (voteFails (lanes m) 2 rd).map fun h => voteTrap (lanes m) 2 2 rd h with
  | some t => some { t with fmask := laneSet fun l => (lanes (l / 16)).contains l && (List.range 2).any fun i => rd i l != rd i ((lanes (l / 16)).headD 0) }
  | none => none

/-- SXST (R155): every 16 lanes store one block. -/
def execSxst (d a imm : BitVec 8) (s : State) : Result :=
  issueMem (encode (.sxst d a imm)) none true s
    (fun c g _ => { kind := .sxst, active := activeSet g c, addr := vea g a imm 2, data := fun l => (readV g d.toNat l).setWidth 128 })
    fun _ g s1 o => (sxVote g o a).orElse fun _ => memCheck s1 g o sxSpec

/-- PREF of one lane (R156, 07 R223): dropped at a window address, under a lock, on any fault and at a full miss table; it fills the L1, or asks the homes
for the line on behalf of the die's L2. A window address is dropped, a FIFO register's too: R156 lets PREF never trap after decode, while R147 names PREF on a FIFO
register among its causes (DESIGN CHOICE, log 64). PREF.L2X translates as a load, as the other two do, and a prefetch into the L2 meets the core's miss table as one
into the L1 does (DESIGN CHOICE: R156 does not say; log 64). -/
def prefLane (s : State) (g : Group) (t : Nat) (va : Nat) : State :=
  let line := va / 128 * 128
  if ((s.team g.tid).offset (BitVec.ofNat 64 line)).isSome || (s.lockHit (dieOf g.core) (s.asid g.tid) line 128 (t == 2)).isSome then s
  else match reach s (s.xctx g.tid g.core g.priv) line 0 with
    | (s1, .ok h) =>
      if h.attr ≠ 0 then s1
      else if (t ≠ 0 ∨ (missLines s1 g.core g.tid [(line, 128)]).isEmpty = false) ∧ 512 ≤ (missTable s1 g.core).length then s1
      else if t = 0 then (l1Load s1 g.core (s.asid g.tid) (s.vmid g.tid) (s.partOf g.tid) line 128 h).1
      else lineRequest s1 (s.partOf g.tid) (dieOf g.core) h.pa (if t = 2 then .own else .share)
    | (_, .trap _ _) => s
    | (_, .wait) => s

def execPref (t : BitVec 2) (a imm : BitVec 8) (s : State) : Result :=
  issue (encode (.pref t a imm)) s fun c g s1 =>
    .next (retire ((lanesOf (activeSet g c)).foldl (fun u l => prefLane u g t.toNat (vea g a imm 128 l).toNat) s1) c g)

/-! ## Performing -/

/-- A loaded value of w bytes in the registers of its lane: LDB and LDH extend by the element type (R150). -/
def extendLoad (m : Word) (w x : Nat) : Nat :=
  if w < 4 ∧ etSigned (mEtype m) then (sext64 x (8 * w)).toNat % 2 ^ 32 else x

/-- Read every access of an operation, in ascending lane order. -/
def readAll (s : State) (o : LogOp) : State × List (Nat × Nat) :=
  (s.placed o).foldl (fun r p => let t := readAcc r.1 o.gid p.1 p.2; (t.1, r.2 ++ [(p.1.lane, t.2)])) (s, [])

/-- A lane's value in what was read. -/
def laneVal (vs : List (Nat × Nat)) (l : Nat) : Option Nat := (vs.find? fun e => e.1 == l).map (·.2)

/-- The FP32 value that SXLD writes for a block (R154). Under FTZ a tiny element gives +0 whatever its sign: R154's own pseudocode writes 0x00000000, where 04 R110
keeps the sign of a flushed result (DEDUCED: the instruction's own text decides; log 68). -/
def sxldValue (m : Word) (blk l : Nat) : Nat :=
  match sxUnpack blk (sxW (mSxw m)) (l % 16) with
  | .fin neg n e =>
    if n = 0 ∨ (mFtz m ∧ (e + n.log2 : Int) < -126) then 0 else (fpRound (fmtOf 8) (.fin neg n e) 0 false false).1
  | _ => 0x7FC00000

/-- The data of a load returns (03 R76): it writes its destination. -/
def doLoad (s : State) (o : LogOp) (w d : Nat) : State :=
  let r := readAll s o
  (finishOp r.1 o).modGroup o.gid fun g => writeRegs g d (fun l => if o.left.getLsbD l then (laneVal r.2 l).map (extendLoad (o.mode l) w) else none) (regsOf w)

def doSxld (s : State) (o : LogOp) (d : Nat) : State :=
  let r := readAll s o
  (finishOp r.1 o).modGroup o.gid fun g => writeRegs g d (fun l => (laneVal r.2 l).map fun b => sxldValue (o.mode l) b l) 1

def doLdu (s : State) (o : LogOp) (w d : Nat) : State :=
  let r := readAll s o
  (finishOp r.1 o).modGroup o.gid fun g =>
    let x := (laneVal r.2 0).getD 0
    if w = 8 then uput64 g d (BitVec.ofNat 64 x) else uput g d (BitVec.ofNat 32 x)

/-- Perform the writes of a store, in ascending lane order; of the lanes of a FIFO push nothing is left. -/
def doStore (s : State) (o : LogOp) (f : Acc → Nat) : State :=
  finishOp ((s.placed o).foldl (fun t p => if o.left.getLsbD p.1.lane || o.kind.isUniform then writeAcc t o.gid p.1 p.2 (f p.1) else t) s) o

/-- The block that a set of SXST stores (R155): a lane that is not active gives +0. -/
def sxstBlock (o : LogOp) (l0 : Nat) : Nat :=
  let xs := (List.range 16).map fun j =>
    let l := l0 / 16 * 16 + j
    if o.active.getLsbD l then fpVal (fmtOf 8) (mFtz (o.mode l)) (o.value l) else .fin false 0 0
  sxPack xs (o.sx l0) (mRnd (o.mode l0))

/-! ## FIFOs (R138) -/

/-- Serve one lane of a FIFO operation: a push appends its 16 bytes, a pop takes the oldest entry into its registers. -/
def serveFifo (s : State) (o : LogOp) (l f r : Nat) : State :=
  let tid := (s.group o.gid).tid
  match (s.team tid).fifos.getD f none with
  | none => s
  | some q =>
    let o1 := { o with left := o.left &&& ~~~(1#256 <<< l) }
    if r = 0 then putOp (s.modTeam tid fun t => { t with fifos := lset t.fifos f (some (q ++ [BitVec.ofNat 128 (o.value l)])) }) o1
    else match q, o.kind with
      | x :: rest, .load _ d =>
        putOp ((s.modTeam tid fun t => { t with fifos := lset t.fifos f (some rest) }).modGroup o.gid fun g =>
          writeRegs g d (fun i => if i = l then some x.toNat else none) 4) o1
      | _, _ => s

/-- The lowest lane that a FIFO operation owes can be served: lanes go in ascending order; a push needs a free place of 8,192, a pop an entry. -/
def fifoReady (s : State) (o : LogOp) (push : Bool) : Option (Nat × Nat × Nat) :=
  if !o.walked || !unblocked s o then none
  else match fifoLeft s o with
    | some (l, f, r) =>
      match (s.team (s.group o.gid).tid).fifos.getD f none with
      | some q => if (if r = 0 then push && decide (q.length < 8192) else !push && !q.isEmpty) then some (l, f, r) else none
      | none => none
    | none => none

def fifoStep (core id : Nat) (push : Bool) (s : State) : State :=
  match s.findOp core id with
  | some o => match fifoReady s o push with
    | some (l, f, r) => serveFifo s o l f r
    | none => s
  | none => s

/-- FIFO_PUSH_COMPLETE: a push of one lane enters its FIFO. -/
def execFifoPushComplete (core id : Nat) (s : State) : Result := .next (fifoStep core id true s)
/-- FIFO_POP_COMPLETE: a pop of one lane returns. -/
def execFifoPopComplete (core id : Nat) (s : State) : Result := .next (fifoStep core id false s)

end Sys2Proof.Machine
end

