-- ==== Sys2Proof/Machine/VecInt.lean ====
section
/-! DEFINITION. The vector integer instructions 0x01 to 0x23 (03 R82 to R91). -/
namespace Sys2Proof.Machine

/-! ## Shared operations -/

/-- A V-field operand in lane l as a number: a register, or a pair when wide. -/
def readN (g : Group) (code : Nat) (wide : Bool) (l : Nat) : Nat :=
  if wide then (readV64 g code l).toNat else (readV g code l).toNat

/-- Write a V-field destination in the lanes of a set: the low register everywhere, the high one where the lane's slice has a wide type. -/
def vwrite (g : Group) (c : Ctx) (d : Nat) (lanes : Nat → Bool) (wide : Nat → Bool) (f : Nat → Nat) : Group :=
  let g1 := vput g d fun l => if lanes l then some (BitVec.ofNat 32 (f l)) else none
  if (ctxSlices c).any fun i => wide (4 * i) then
    vput g1 (d + 1) fun l => if lanes l && wide l then some (BitVec.ofNat 32 (f l / 2 ^ 32)) else none
  else g1

/-- The lane's slice has a 64-bit element type. -/
def laneWide (g : Group) (l : Nat) : Bool := etWide (mEtype (laneMode g l))

/-- An instruction that writes, in each active lane, a value of the lane's own type computed under the lane's mode word from the group
before it. -/
def vecOp (w : Word) (d : Nat) (f : Group → Word → Nat → Nat) (s : State) : Result :=
  issueRegs w s fun c g _ => vwrite g c d (isActive g c) (laneWide g) fun l => f g (laneMode g l) l

/-- Elementwise work under a mode word: f on the elements of three operands. -/
def mapElems (m : Word) (x y z : Nat) (f : Nat → Nat → Nat → Nat) : Nat :=
  let w := etWidth (mEtype m)
  packElems w ((List.range (etCount (mEtype m))).map fun i => f (elem x w i) (elem y w i) (elem z w i))

/-- Exact integer work on elements, fitted once (R83): SAT acts where sat says so. -/
def intElems (m : Word) (sat : Bool) (x y z : Nat) (f : Int → Int → Int → Int) : Nat :=
  let w := etWidth (mEtype m); let sg := etSigned (mEtype m)
  mapElems m x y z fun a b e => fit (f (val a w sg) (val b w sg) (val e w sg)) w sg (sat && mSat m)

/-- Two-source arithmetic; d is read too (R83, R84). -/
def vecArith (w : Word) (d a b : Nat) (sat : Bool) (f : Int → Int → Int → Int) (s : State) : Result :=
  vecOp w d (fun g m l => let k := etWide (mEtype m)
    intElems m sat (readN g a k l) (readN g b k l) (readN g d k l) f) s

/-- One-source elementwise work. -/
def vecUnary (w : Word) (d a : Nat) (f : Nat → Nat → Nat) (s : State) : Result :=
  vecOp w d (fun g m l => mapElems m (readN g a (etWide (mEtype m)) l) 0 0 fun x _ _ => f (etWidth (mEtype m)) x) s

/-- Work on the whole word, without elements (class BITS, R85): width and the two operands. -/
def vecBits (w : Word) (d a b : Nat) (f : Nat → Nat → Nat → Nat) (s : State) : Result :=
  vecOp w d (fun g m l => let k := etWide (mEtype m)
    f (if k then 64 else 32) (readN g a k l) (readN g b k l)) s

/-- Every bit of a width. -/
def ones (w : Nat) : Nat := 2 ^ w - 1

/-- The shifts of R86 on one element: width, value, amount. -/
def shl (w x k : Nat) : Nat := if k < w then x * 2 ^ k % 2 ^ w else 0
def shr (w x k : Nat) : Nat := if k < w then x / 2 ^ k else 0
def sar (w x k : Nat) : Nat := ((val x w true / 2 ^ (min k (w - 1))) % (2 ^ w : Int)).toNat
def rol (w x k : Nat) : Nat := let r := k % w; (x * 2 ^ r + x / 2 ^ (w - r)) % 2 ^ w

/-- A register shift: packed types shift each element by its own amount, scalar types by a 32-bit operand. -/
def vecShift (w : Word) (d a b : Nat) (f : Nat → Nat → Nat → Nat) (s : State) : Result :=
  vecOp w d (fun g m l =>
    let et := mEtype m
    mapElems m (readN g a (etWide et) l) (readV g b l).toNat 0 fun x y _ => f (etWidth et) x (if etCount et = 1 then (readV g b l).toNat else y)) s

/-- An immediate shift: one amount for every element. -/
def vecShiftImm (w : Word) (d a k : Nat) (f : Nat → Nat → Nat → Nat) (s : State) : Result :=
  vecUnary w d a (fun n x => f n x k) s

/-- Bits of one element in reverse order. -/
def revBits (w x : Nat) : Nat := (List.range w).foldl (fun r i => r * 2 + (x.testBit i).toNat) 0
/-- Number of set bits. -/
def popBits (w x : Nat) : Nat := ((List.range w).filter fun i => x.testBit i).length
/-- Number of leading zero bits. -/
def leadBits (w x : Nat) : Nat := if x = 0 then w else w - 1 - Nat.log2 x

/-! ## Arithmetic (R83) -/

def execAdd (d a b : BitVec 8) (s : State) : Result := vecArith (encode (.add d a b)) d.toNat a.toNat b.toNat true (fun x y _ => x + y) s
def execSub (d a b : BitVec 8) (s : State) : Result := vecArith (encode (.sub d a b)) d.toNat a.toNat b.toNat true (fun x y _ => x - y) s
def execMul (d a b : BitVec 8) (s : State) : Result := vecArith (encode (.mul d a b)) d.toNat a.toNat b.toNat true (fun x y _ => x * y) s
/-- The high half of the exact product. -/
def execMulh (d a b : BitVec 8) (s : State) : Result :=
  vecOp (encode (.mulh d a b)) d.toNat (fun g m l =>
    let k := etWide (mEtype m); let w := etWidth (mEtype m)
    intElems m false (readN g a.toNat k l) (readN g b.toNat k l) 0 fun x y _ => x * y / 2 ^ w) s
def execMad (d a b : BitVec 8) (s : State) : Result := vecArith (encode (.mad d a b)) d.toNat a.toNat b.toNat true (fun x y z => x * y + z) s
def execMin (d a b : BitVec 8) (s : State) : Result := vecArith (encode (.min d a b)) d.toNat a.toNat b.toNat false (fun x y _ => min x y) s
def execMax (d a b : BitVec 8) (s : State) : Result := vecArith (encode (.max d a b)) d.toNat a.toNat b.toNat false (fun x y _ => max x y) s

/-! ## One source (R84) -/

def execAbs (d a : BitVec 8) (s : State) : Result := vecArith (encode (.abs d a)) d.toNat a.toNat a.toNat true (fun x _ _ => (x.natAbs : Int)) s
def execNeg (d a : BitVec 8) (s : State) : Result := vecArith (encode (.neg d a)) d.toNat a.toNat a.toNat true (fun x _ _ => -x) s
def execNot (d a : BitVec 8) (s : State) : Result := vecBits (encode (.not d a)) d.toNat a.toNat a.toNat (fun w x _ => ones w - x) s
def execPopc (d a : BitVec 8) (s : State) : Result := vecUnary (encode (.popc d a)) d.toNat a.toNat popBits s
def execClz (d a : BitVec 8) (s : State) : Result := vecUnary (encode (.clz d a)) d.toNat a.toNat leadBits s
def execBrev (d a : BitVec 8) (s : State) : Result := vecUnary (encode (.brev d a)) d.toNat a.toNat revBits s
def execMov (d a : BitVec 8) (s : State) : Result := vecBits (encode (.mov d a)) d.toNat a.toNat a.toNat (fun _ x _ => x) s

/-! ## Bitwise (R85) -/

def execAnd (d a b : BitVec 8) (s : State) : Result := vecBits (encode (.and d a b)) d.toNat a.toNat b.toNat (fun _ x y => x &&& y) s
def execOr (d a b : BitVec 8) (s : State) : Result := vecBits (encode (.or d a b)) d.toNat a.toNat b.toNat (fun _ x y => x ||| y) s
def execXor (d a b : BitVec 8) (s : State) : Result := vecBits (encode (.xor d a b)) d.toNat a.toNat b.toNat (fun _ x y => x ^^^ y) s
def execAndn (d a b : BitVec 8) (s : State) : Result := vecBits (encode (.andn d a b)) d.toNat a.toNat b.toNat (fun w x y => x &&& (ones w - y)) s

/-! ## Shifts (R86) -/

def execShl (d a b : BitVec 8) (s : State) : Result := vecShift (encode (.shl d a b)) d.toNat a.toNat b.toNat Sys2Proof.Machine.shl s
def execShr (d a b : BitVec 8) (s : State) : Result := vecShift (encode (.shr d a b)) d.toNat a.toNat b.toNat Sys2Proof.Machine.shr s
def execSar (d a b : BitVec 8) (s : State) : Result := vecShift (encode (.sar d a b)) d.toNat a.toNat b.toNat Sys2Proof.Machine.sar s
def execRol (d a b : BitVec 8) (s : State) : Result := vecShift (encode (.rol d a b)) d.toNat a.toNat b.toNat Sys2Proof.Machine.rol s

/-! ## Bit fields and selection (R87, R88) -/

/-- Position and width of a field that BFE and BFI name, clipped to the operand. -/
def fieldOf (b : Word) (w : Nat) : Nat × Nat :=
  let pos := b.toNat % 256
  let wd := if w ≤ pos then 0 else b.toNat / 256 % 256
  (pos, min wd (w - pos))

def execBfe (d a b : BitVec 8) (s : State) : Result :=
  vecOp (encode (.bfe d a b)) d.toNat (fun g m l =>
    let w := etWidth (mEtype m)
    let p := fieldOf (readV g b.toNat l) w
    let f := readN g a.toNat (etWide (mEtype m)) l / 2 ^ p.1 % 2 ^ p.2
    if p.2 = 0 then 0 else (val f p.2 (etSigned (mEtype m)) % (2 ^ w : Int)).toNat) s

def execBfi (d a b : BitVec 8) (s : State) : Result :=
  vecOp (encode (.bfi d a b)) d.toNat (fun g m l =>
    let k := etWide (mEtype m)
    let p := fieldOf (readV g b.toNat l) (etWidth (mEtype m))
    let old := readN g d.toNat k l
    if p.2 = 0 then old
    else old - old / 2 ^ p.1 % 2 ^ p.2 * 2 ^ p.1 + readN g a.toNat k l % 2 ^ p.2 * 2 ^ p.1) s

/-- SEL: the guard chooses the source in every running lane (R88). -/
def execSel (d a b : BitVec 8) (s : State) : Result :=
  issueRegs (encode (.sel d a b)) s fun c g _ =>
    vwrite g c d.toNat (runs g c) (laneWide g) fun l => readN g (if guardTrue g l then a.toNat else b.toNat) (laneWide g l) l

/-! ## Predicates (R89, R90) -/

def execCmp (cond pd : BitVec 4) (a b : BitVec 8) (s : State) : Result :=
  issueRegs (encode (.cmp cond pd a b)) s fun c g _ =>
    pput g pd.toNat fun l =>
      let et := mEtype (laneMode g l)
      if isActive g c l then
        some (intCond cond.toNat (val (readN g a.toNat (etWide et) l) (etWidth et) (etSigned et)) (val (readN g b.toNat (etWide et) l) (etWidth et) (etSigned et)))
      else none

def execPlog (op pd pa pb : BitVec 4) (s : State) : Result :=
  issueRegs (encode (.plog op pd pa pb)) s fun c g _ =>
    pput g pd.toNat fun l => if isActive g c l then some (boolOp op.toNat (readP g pa.toNat l) (readP g pb.toNat l)) else none

/-! ## Immediate forms (R91) -/

def execAddi (d a imm : BitVec 8) (s : State) : Result :=
  vecOp (encode (.addi d a imm)) d.toNat (fun g m l =>
    intElems m true (readN g a.toNat (etWide (mEtype m)) l) 0 0 fun x _ _ => x + imm.toInt) s
def execMovi (d : BitVec 8) (imm : BitVec 16) (s : State) : Result :=
  issueRegs (encode (.movi d imm)) s fun c g _ => vput g d.toNat fun l => if isActive g c l then some (imm.signExtend 32) else none
def execMovhi (d : BitVec 8) (imm : BitVec 16) (s : State) : Result :=
  issueRegs (encode (.movhi d imm)) s fun c g _ =>
    vput g d.toNat fun l => if isActive g c l then some (imm ++ (readV g d.toNat l).setWidth 16) else none
def execShli (d a imm : BitVec 8) (s : State) : Result := vecShiftImm (encode (.shli d a imm)) d.toNat a.toNat imm.toNat Sys2Proof.Machine.shl s
def execShri (d a imm : BitVec 8) (s : State) : Result := vecShiftImm (encode (.shri d a imm)) d.toNat a.toNat imm.toNat Sys2Proof.Machine.shr s
def execSari (d a imm : BitVec 8) (s : State) : Result := vecShiftImm (encode (.sari d a imm)) d.toNat a.toNat imm.toNat Sys2Proof.Machine.sar s
def execAndi (d a imm : BitVec 8) (s : State) : Result := vecBits (encode (.andi d a imm)) d.toNat a.toNat a.toNat (fun _ x _ => x &&& imm.toNat) s
def execOri (d a imm : BitVec 8) (s : State) : Result := vecBits (encode (.ori d a imm)) d.toNat a.toNat a.toNat (fun _ x _ => x ||| imm.toNat) s

end Sys2Proof.Machine
end

