-- ==== Sys2Proof/Machine/Atomic.lean ====
section
/-! DEFINITION. The integer atomics (05 R157, R158), the ordered-add unit with FAOPEN and FAADD (R159 to R163), ORDERED_ADD_APPLY. -/
namespace Sys2Proof.Machine

/-! ## Issue -/

/-- Registers of the b operand of an atomic under 32-bit types: two for ACAS, else one. -/
def atomicRegs (op : Nat) (wide : Bool) : Nat := (if op = 7 then 2 else 1) * (if wide then 2 else 1)

/-- An integer atomic (R157): op counts from AADD 0 to ACAS 7; 8 is added to it where some active lane is 64 bits wide. -/
def issueAtomic (w : Word) (op : Nat) (d a b : BitVec 8) (s : State) : Result :=
  issueMem w none true s
    (fun c g _ =>
      let wide := (lanesOf (activeSet g c)).any (laneWide g)
      { kind := .atomic (if wide then op + 8 else op) d.toNat, active := activeSet g c, addr := fun l => readV64 g a.toNat l,
        data := fun l => BitVec.ofNat 128 (readRegs g b.toNat (atomicRegs op (laneWide g l)) l) })
    fun _ g s1 o => memCheck s1 g o { align := fun x => x.n, noWindow := false, win := .other, locks := true, lockLine := false }

def execAadd (d a b : BitVec 8) (s : State) : Result := issueAtomic (encode (.aadd d a b)) 0 d a b s
def execAmin (d a b : BitVec 8) (s : State) : Result := issueAtomic (encode (.amin d a b)) 1 d a b s
def execAmax (d a b : BitVec 8) (s : State) : Result := issueAtomic (encode (.amax d a b)) 2 d a b s
def execAand (d a b : BitVec 8) (s : State) : Result := issueAtomic (encode (.aand d a b)) 3 d a b s
def execAor (d a b : BitVec 8) (s : State) : Result := issueAtomic (encode (.aor d a b)) 4 d a b s
def execAxor (d a b : BitVec 8) (s : State) : Result := issueAtomic (encode (.axor d a b)) 5 d a b s
def execAxch (d a b : BitVec 8) (s : State) : Result := issueAtomic (encode (.axch d a b)) 6 d a b s
def execAcas (d a b : BitVec 8) (s : State) : Result := issueAtomic (encode (.acas d a b)) 7 d a b s

/-- FAADD and FAOPEN: the queue lies at its natural alignment, in no team window (ALIGN cause 3, or PAGE_FT without storage: R137), and no range lock is looked at. -/
def orderedSpec : CheckSpec := { align := fun x => x.n, noWindow := false, win := .hub, locks := false, lockLine := false }

/-- FAADD (R161): 8-byte aligned for FP32, 16 for FP64. -/
def execFaadd (d a b : BitVec 8) (s : State) : Result :=
  issueMem (encode (.faadd d a b)) none true s
    (fun c g _ => { kind := .faadd (d.setWidth 4), active := activeSet g c, addr := fun l => readV64 g a.toNat l,
                    data := fun l => BitVec.ofNat 128 (readRegs g b.toNat (if laneWide g l then 2 else 1) l) })
    fun _ g s1 o => memCheck s1 g o orderedSpec

/-- FAOPEN (R160). -/
def execFaopen (d a b : BitVec 8) (s : State) : Result :=
  issueMem (encode (.faopen d a b)) (some (d.toNat % 16)) true s
    (fun c g s1 => { kind := .faopen (d.setWidth 4) (uniformEt g == 11) (readU s1 g c b.toNat), active := runSet g c,
                     addr := fun _ => readU64 s1 g c a.toNat, data := fun _ => 0 })
    fun _ g s1 o => memCheck s1 g o orderedSpec

/-! ## Performing -/

/-- New memory value of an atomic at a width (R157): old is the memory before, y the operand, cmp what ACAS compares with. -/
def atomicNew (op w : Nat) (sg : Bool) (old y cmp : Nat) : Nat :=
  match op % 8 with
  | 0 => (old + y) % 2 ^ w
  | 1 => if val old w sg ≤ val y w sg then old else y
  | 2 => if val y w sg ≤ val old w sg then old else y
  | 3 => old &&& y
  | 4 => old ||| y
  | 5 => old ^^^ y
  | 6 => y
  | _ => if old = cmp then y else old

/-- Write back the dirty bytes of a line from a core's L1 and invalidate it there (R158). -/
def flushLine (s : State) (core asid vmid va : Nat) : State :=
  cleanLines s core (fun x => x.asid == asid && x.vmid == vmid && x.vline == va / 128) true

/-- Flush the line of an access for its group's core. -/
def flushFor (s : State) (gid va : Nat) : State :=
  let g := s.group gid
  flushLine s g.core (s.asid g.tid) (s.vmid g.tid) va

/-- One read-modify-write of n bytes: one entry of the coherence order (R158). Near memory is changed at the slice of the die that homes it, an uncached page at
its home, other memory at the issuing die's slice, which takes the line modified. -/
def homeRmw (s : State) (gid n : Nat) (h : Hit) (f : Nat → Nat) : State × Nat :=
  let g := s.group gid
  let old := s.pread h.pa n
  (if h.uncached || tierOf (s.route h.pa) == 0 then (lineRequest s (s.partOf g.tid) (dieOf g.core) h.pa .homeStore).pstore h.pa n (f old)
   else l2Store s (s.partOf g.tid) (dieOf g.core) h.pa (leBytes n (f old)), old)

/-- One lane's atomic. -/
def atomicLane (s : State) (o : LogOp) (op : Nat) (a : Acc) (h : Hit) : State × Nat :=
  let w := 8 * a.n
  let x := o.value a.lane
  let sg := etSigned (mEtype (o.mode a.lane))
  let y := if op % 8 = 7 then x / 2 ^ w % 2 ^ w else x % 2 ^ w
  let f (old : Nat) : Nat := atomicNew op w sg old y (x % 2 ^ w)
  if h.attr = 3 then
    let old := (s.team (s.group o.gid).tid).sread h.pa a.n
    (s.modTeam (s.group o.gid).tid fun t => t.swrite h.pa a.n (f old), old)
  else homeRmw (if h.attr = 0 then flushFor s o.gid a.va else s) o.gid a.n h f

/-- An atomic's reply returns the old values (R157, R158); lanes go in ascending order. -/
def doAtomic (s : State) (o : LogOp) (op d : Nat) : State :=
  let r := (s.placed o).foldl (fun r p =>
    match p.2 with
    | h :: _ => let t := atomicLane r.1 o op p.1 h; (t.1, r.2 ++ [(p.1.lane, t.2)])
    | [] => r) (s, ([] : List (Nat × Nat)))
  (finishOp r.1 o).modGroup o.gid fun g =>
    let g1 := vput g d fun l => (laneVal r.2 l).map fun x => BitVec.ofNat 32 x
    if 8 ≤ op then vput g1 (d + 1) fun l => if o.wide l then (laneVal r.2 l).map fun x => BitVec.ofNat 32 (x / 2 ^ 32) else none else g1

/-! ## The ordered-add unit (R159 to R163) -/

/-- Address and bytes of a queue's completion flag. -/
def AddQueue.flag (q : AddQueue) : Nat × Nat := if q.f64 then (q.addr + 8, 8) else (q.addr + 4, 4)

/-- The partition for which the unit acts: that of the grid which opened the queue; none of them where it has ended. -/
def addPart (s : State) (q : AddQueue) : Nat := match s.findGrid q.grid with | some x => x.part | none => 16
/-- The hub stores to a flag of a queue: a request of its grid's partition at the home. -/
def storeFlag (s : State) (q : AddQueue) (x : Nat) : State := (lineRequest s (addPart s q) 6 q.flag.1 .homeStore).pstore q.flag.1 q.flag.2 x

/-- FAOPEN's reply (R160). -/
def doFaopen (s : State) (o : LogOp) (d : BitVec 4) (f64 : Bool) (count : Word) : State :=
  let s1 := finishOp s o
  match o.hits with
  | (h :: _) :: _ =>
    let q : AddQueue := { addr := h.pa, f64 := f64, count := count.toNat, grid := s.gridOf (s.group o.gid).tid, items := [] }
    let adds := s.hub.adds
    let ok := adds.all (fun x => x.addr != h.pa) && decide (adds.length < 256) &&
      decide (adds.foldl (fun n x => n + x.count) 0 + count.toNat ≤ 262144) && decide (1 ≤ count.toNat) && decide (count.toNat ≤ 65536)
    let s2 := if ok then storeFlag (s1.modHub fun k => { k with adds := k.adds ++ [q] }) q 0 else s1
    s2.modGroup o.gid fun g => qput g d.toNat ok
  | _ => s1

/-- The key of a contribution (R161): exact, below 2^46. -/
def addKey (s : State) (gid lane : Nat) : Nat := s.bindField (s.group gid).tid 0x18 4 * 16384 + (s.group gid).num * 256 + lane

/-- One lane's contribution: accepted or rejected. -/
def faaddLane (s : State) (o : LogOp) (a : Acc) (h : Hit) : State × Bool :=
  let tid := (s.group o.gid).tid
  let key := addKey s o.gid a.lane
  match s.hub.adds.find? fun q => q.addr == h.pa with
  | none => (s, false)
  | some q =>
    if q.f64 != o.wide a.lane || q.grid != s.gridOf tid || q.items.any (fun e => e.1 == key) || decide (q.count ≤ q.items.length) then (s, false)
    else (s.modHub fun k => { k with adds := k.adds.map fun x => if x.addr = h.pa then { x with items := x.items ++ [(key, BitVec.ofNat 64 (o.value a.lane))] } else x }, true)

/-- FAADD's outcomes return (R161). -/
def doFaadd (s : State) (o : LogOp) (d : BitVec 4) : State :=
  let r := (s.placed o).foldl (fun r p =>
    match p.2 with
    | h :: _ => let t := faaddLane r.1 o p.1 h; (t.1, r.2 ++ [(p.1.lane, t.2)])
    | [] => r) (s, ([] : List (Nat × Bool)))
  (finishOp r.1 o).modGroup o.gid fun g => pput g d.toNat fun l => (r.2.find? fun e => e.1 == l).map (·.2)

/-- A contribution put in its place by key. -/
def insertKey (e : Nat × DWord) : List (Nat × DWord) → List (Nat × DWord)
  | [] => [e]
  | x :: r => if e.1 < x.1 then e :: x :: r else x :: insertKey e r

/-- The values of a queue added to the word one at a time in ascending key order, each sum rounded RNE without FTZ (R162). -/
def AddQueue.total (q : AddQueue) (start : Nat) : Nat :=
  let fm := fmtOf (if q.f64 then 11 else 8)
  (q.items.foldl (fun l e => insertKey e l) []).foldl (fun acc e =>
    let x := fm.value acc; let y := fm.value (e.2.toNat % 2 ^ fm.w)
    if x.isNan || y.isNan then fm.nan else (fpRound fm (sumFV [x, y] 0).1 0 false false).1) start

/-- The queue holds its full count, and neither the word nor the flag lies at a line that a move is about to copy. -/
def addReady (s : State) (n : Nat) : Bool :=
  match s.hub.adds[n]? with
  | some q => decide (q.items.length = q.count) && (s.stallMove q.addr).isNone
  | none => false

/-- ORDERED_ADD_APPLY: the result is one entry of the word's coherence order; then the flag is stored with release meaning, and the queue
is free. -/
def execOrderedAddApply (n : Nat) (s : State) : Result :=
  .next (if addReady s n then
    match s.hub.adds[n]? with
    | some q =>
      let w := if q.f64 then 8 else 4
      let s1 := (lineRequest s (addPart s q) 6 q.addr .homeStore).pstore q.addr w (q.total (s.pread q.addr w))
      (storeFlag s1 q 1).modHub fun k => { k with adds := ldrop k.adds n }
    | none => s
  else s)

/-- The queues that a grid opened are freed when it ends first: their flags become 2 (R163). -/
def abandonAdds (s : State) (grid : DWord) : State :=
  let mine := s.hub.adds.filter fun q => q.grid == grid
  let s1 := mine.foldl (fun t q => storeFlag t q 2) s
  s1.modHub fun k => { k with adds := k.adds.filter fun q => q.grid != grid }

end Sys2Proof.Machine
end

