-- ==== Sys2Proof/Machine/Float.lean ====
section
/-! DEFINITION. The float instructions 0x30 to 0x43 (04 R121 to R128) and RNDINT (R132). -/
namespace Sys2Proof.Machine

/-- A destination element: its index, its bits, and the lowest kind of invalid operation that arises in it (R112; 0 for none). -/
structure Elem where
  idx : Nat
  bits : Nat
  kind : Nat
deriving DecidableEq, Repr

/-- The first destination element of a lane, by index, in which an invalid operation arises. -/
def firstInvalid (es : List Elem) : Option Elem :=
  ((List.range 4).findSome? fun i => es.find? fun e => e.idx == i && e.kind != 0)

/-- A float instruction (R112): where an invalid operation arises in an active lane whose slice has FPX set the whole instruction traps;
else every active lane writes its elements. -/
def floatIssue (w : Word) (res : Group → Nat → List Elem) (write : Ctx → Group → Group) (s : State) : Result :=
  issue w s fun c g s1 =>
    let hit (l : Nat) : Bool := isActive g c l && mFpx (laneMode g l) && (firstInvalid (res g l)).isSome
    let m := laneSet hit
    if m = 0 then .next (retire s1 c (write c g))
    else
      let l := lowestLane m
      let cause := match firstInvalid (res g l) with | some e => e.idx * 16 + e.kind | none => 0
      trapAt s1 c w { code := 7, cause := cause, fmask := m, lane := l, addr := 0, opw := 0 }

/-- Elements of width w as one operand. -/
def packBits (w : Nat) (es : List Elem) : Nat := es.foldl (fun t e => t + e.bits * 2 ^ (w * e.idx)) 0

/-- A float instruction that writes every element of its own type. -/
def floatOp (w : Word) (d : Nat) (res : Group → Nat → List Elem) (s : State) : Result :=
  floatIssue w res (fun c g => vwrite g c d (isActive g c) (laneWide g) fun l => packBits (etWidth (mEtype (laneMode g l))) (res g l)) s

/-- Elementwise float work on operands d, a and b under a lane's mode word: f gives the value, the kinds it raises, and whether it is
rounded. -/
def floatElems (g : Group) (d a b l : Nat) (f : Word → Fmt → FV → FV → FV → Nat × Nat) : List Elem :=
  let m := laneMode g l
  let et := mEtype m
  let fm := fmtOf et
  let rd (code i : Nat) : FV := fpVal fm (mFtz m) (elem (readN g code (etWide et) l) fm.w i)
  (List.range (etCount et)).map fun i =>
    let r := f m fm (rd a i) (rd b i) (rd d i)
    { idx := i, bits := r.1, kind := r.2 }

/-- Round a value under the mode word, with the kinds of its making. -/
def roundIn (m : Word) (fm : Fmt) (v : FV) (ks : List Nat) : Nat × Nat :=
  let r := fpRound fm v (mRnd m) false (mFtz m)
  (r.1, lowKind (r.2 :: ks))

/-! ## Two sources (R122) -/

/-- The exact sum of terms that may themselves be invalid products. -/
def sumIn (m : Word) (fm : Fmt) (ops : List FV) (terms : List (FV × Nat)) : Nat × Nat :=
  let t := sumFV (terms.map (·.1)) (mRnd m)
  roundIn m fm (if terms.any (·.1.isNan) then .nan false else t.1) (sigKind ops :: t.2 :: terms.map (·.2))

def execFadd (d a b : BitVec 8) (s : State) : Result :=
  floatOp (encode (.fadd d a b)) d.toNat (fun g l => floatElems g d.toNat a.toNat b.toNat l fun m fm x y _ => sumIn m fm [x, y] [(x, 0), (y, 0)]) s
def execFsub (d a b : BitVec 8) (s : State) : Result :=
  floatOp (encode (.fsub d a b)) d.toNat (fun g l => floatElems g d.toNat a.toNat b.toNat l fun m fm x y _ => sumIn m fm [x, y] [(x, 0), (y.neg, 0)]) s
def execFmul (d a b : BitVec 8) (s : State) : Result :=
  floatOp (encode (.fmul d a b)) d.toNat (fun g l => floatElems g d.toNat a.toNat b.toNat l fun m fm x y _ =>
    let p := mulFV x y
    roundIn m fm p.1 [sigKind [x, y], p.2]) s
def execFfma (d a b : BitVec 8) (s : State) : Result :=
  floatOp (encode (.ffma d a b)) d.toNat (fun g l => floatElems g d.toNat a.toNat b.toNat l fun m fm x y z => sumIn m fm [x, y, z] [mulFV x y, (z, 0)]) s

/-- The smaller of two values, -0 below +0; a NaN gives way to a number (R122). -/
def minFV (x y : FV) : FV :=
  if x.isNan then (if y.isNan then .nan false else y)
  else if y.isNan then x
  else if ltFV x y then x else if ltFV y x then y else if x.isNeg then x else y
/-- The larger of two values. -/
def maxFV (x y : FV) : FV :=
  if x.isNan then (if y.isNan then .nan false else y)
  else if y.isNan then x
  else if ltFV x y then y else if ltFV y x then x else if x.isNeg then y else x

def execFmin (d a b : BitVec 8) (s : State) : Result :=
  floatOp (encode (.fmin d a b)) d.toNat (fun g l => floatElems g d.toNat a.toNat b.toNat l fun _ fm x y _ =>
    ((fpRound fm (minFV x y) 0 false false).1, sigKind [x, y])) s
def execFmax (d a b : BitVec 8) (s : State) : Result :=
  floatOp (encode (.fmax d a b)) d.toNat (fun g l => floatElems g d.toNat a.toNat b.toNat l fun _ fm x y _ =>
    ((fpRound fm (maxFV x y) 0 false false).1, sigKind [x, y])) s

/-! ## Signs, classes, comparisons (R123 to R125) -/

/-- Work on the encoding of each element. -/
def bitElems (g : Group) (a l : Nat) (f : Fmt → Nat → Nat) : List Elem :=
  let et := mEtype (laneMode g l)
  let fm := fmtOf et
  (List.range (etCount et)).map fun i => { idx := i, bits := f fm (elem (readN g a (etWide et) l) fm.w i), kind := 0 }

def execFabs (d a : BitVec 8) (s : State) : Result :=
  floatOp (encode (.fabs d a)) d.toNat (fun g l => bitElems g a.toNat l fun fm x => x % 2 ^ (fm.w - 1)) s
def execFneg (d a : BitVec 8) (s : State) : Result :=
  floatOp (encode (.fneg d a)) d.toNat (fun g l => bitElems g a.toNat l fun fm x => (x + 2 ^ (fm.w - 1)) % 2 ^ fm.w) s

/-- The class bit of an encoding (R125). -/
def classBit (fm : Fmt) (x : Nat) : Nat :=
  match fm.value x with
  | .nan sig => if sig then 8 else 9
  | .inf neg => if neg then 0 else 7
  | .fin neg m _ =>
    if m = 0 then (if neg then 3 else 4)
    else if fm.subnormal x then (if neg then 2 else 5)
    else if neg then 1 else 6

def execFclass (d a : BitVec 8) (s : State) : Result :=
  issueRegs (encode (.fclass d a)) s fun c g _ =>
    vput g d.toNat fun l => if isActive g c l then some (BitVec.ofNat 32 (packBits 16 (bitElems g a.toNat l fun fm x => 2 ^ classBit fm x))) else none

/-- The outcome of FCMP, and its kind (R124). -/
def fcmpOut (cond : Nat) (x y : FV) : Bool × Nat :=
  let un := x.isNan || y.isNan
  let r := match cond with
    | 0 => eqFV x y
    | 1 => un || !eqFV x y
    | 2 => !un && ltFV x y
    | 3 => !un && !ltFV y x
    | 4 => !un && ltFV y x
    | 5 => !un && !ltFV x y
    | 6 => un
    | _ => !un
  (r, lowKind [sigKind [x, y], if 2 ≤ cond ∧ cond ≤ 5 ∧ un = true then 7 else 0])

def execFcmp (cond p : BitVec 4) (a b : BitVec 8) (s : State) : Result :=
  let out (g : Group) (l : Nat) : Bool × Nat :=
    let m := laneMode g l; let et := mEtype m; let fm := fmtOf et
    fcmpOut cond.toNat (fpVal fm (mFtz m) (readN g a.toNat (etWide et) l)) (fpVal fm (mFtz m) (readN g b.toNat (etWide et) l))
  floatIssue (encode (.fcmp cond p a b)) (fun g l => [{ idx := 0, bits := 0, kind := (out g l).2 }])
    (fun c g => pput g p.toNat fun l => if isActive g c l then some (out g l).1 else none) s

/-! ## Functions (R126) -/

/-- Work on one float source. -/
def floatUnary (w : Word) (d a : Nat) (f : Word → Fmt → FV → Nat × Nat) (s : State) : Result :=
  floatOp w d (fun g l => floatElems g a a a l fun m fm x _ _ => f m fm x) s

/-- A NaN operand gives the canonical NaN, of kind 1 when it signals; else the function's own result. -/
def unlessNan (fm : Fmt) (x : FV) (r : Nat × Nat) : Nat × Nat := if x.isNan then (fm.nan, sigKind [x]) else r

/-- Round a positive magnitude with a sign. -/
def roundM (m : Word) (fm : Fmt) (neg : Bool) (x : Mag) : Nat × Nat := fpRoundMag fm neg x.m x.st x.e (mRnd m) false (mFtz m)

def frcp (m : Word) (fm : Fmt) (x : FV) : Nat × Nat :=
  unlessNan fm x <| match x with
    | .inf neg => (fm.sign neg 0, 0)
    | .fin neg n e => if n = 0 then (fm.sign neg fm.infBits, 0) else roundM m fm neg (recipMag n e (fm.fb + 4))
    | .nan _ => (fm.nan, 0)
def frsq (m : Word) (fm : Fmt) (x : FV) : Nat × Nat :=
  unlessNan fm x <| match x with
    | .inf neg => if neg then (fm.nan, 4) else (0, 0)
    | .fin neg n e => if n = 0 then (fm.sign neg fm.infBits, 0) else if neg then (fm.nan, 4) else roundM m fm false (rsqrtMag n e (fm.fb + 4))
    | .nan _ => (fm.nan, 0)
def fsqrt (m : Word) (fm : Fmt) (x : FV) : Nat × Nat :=
  unlessNan fm x <| match x with
    | .inf neg => if neg then (fm.nan, 4) else (fm.infBits, 0)
    | .fin neg n e => if n = 0 then (fm.sign neg 0, 0) else if neg then (fm.nan, 4) else roundM m fm false (sqrtMag n e (fm.fb + 4))
    | .nan _ => (fm.nan, 0)

/-- The exponent of a value that is a power of two, and the integer that a value is, where it is one. -/
def powerOf (n : Nat) (e : Int) : Option Int := if n = 2 ^ n.log2 then some (e + n.log2) else none
def integerOf (neg : Bool) (n : Nat) (e : Int) : Option Int :=
  if 0 ≤ e then some (if neg then -((n * 2 ^ e.toNat : Nat) : Int) else ((n * 2 ^ e.toNat : Nat) : Int))
  else if n % 2 ^ (-e).toNat = 0 then some (if neg then -((n / 2 ^ (-e).toNat : Nat) : Int) else ((n / 2 ^ (-e).toNat : Nat) : Int)) else none

/-- A key for the free choice of roundFunction: the operand. -/
def keyOf (x : FV) : Nat := match x with | .fin neg n _ => 2 * n + neg.toNat | _ => 0

def fexp2 (m : Word) (fm : Fmt) (x : FV) : Nat × Nat :=
  unlessNan fm x <| match x with
    | .inf neg => (if neg then 0 else fm.infBits, 0)
    | .fin neg n e => match integerOf neg n e with
      | some k => fpRoundMag fm false 1 false k (mRnd m) false (mFtz m)
      | none => (roundFunction fm (exp2Bounds neg n e) (mRnd m) (mFtz m) (keyOf x), 0)
    | .nan _ => (fm.nan, 0)

def flog2 (m : Word) (fm : Fmt) (x : FV) : Nat × Nat :=
  unlessNan fm x <| match x with
    | .inf neg => if neg then (fm.nan, 5) else (fm.infBits, 0)
    | .fin neg n e =>
      if n = 0 then (fm.sign true fm.infBits, 0)
      else if neg then (fm.nan, 5)
      else match powerOf n e with
        | some k => fpRound fm (.fin (decide (k < 0)) k.natAbs 0) (mRnd m) false (mFtz m)
        | none => (roundFunction fm (log2Bounds n e) (mRnd m) (mFtz m) (keyOf x), 0)
    | .nan _ => (fm.nan, 0)

/-- An odd or even function of the magnitude, by the sign of the operand. -/
def negBounds (neg : Bool) (b : Bounds) : Bounds := if neg then { b with lo := -b.hi, hi := -b.lo } else b

def fsin (m : Word) (fm : Fmt) (x : FV) : Nat × Nat :=
  unlessNan fm x <| match x with
    | .inf _ => (fm.nan, 6)
    | .fin neg n e => if n = 0 then (fm.sign neg 0, 0) else (roundFunction fm (fun p => negBounds neg (trigBounds 0 n e p)) (mRnd m) (mFtz m) (keyOf x), 0)
    | .nan _ => (fm.nan, 0)
def fcos (m : Word) (fm : Fmt) (x : FV) : Nat × Nat :=
  unlessNan fm x <| match x with
    | .inf _ => (fm.nan, 6)
    | .fin _ n e => if n = 0 then fpRound fm (.fin false 1 0) (mRnd m) false (mFtz m) else (roundFunction fm (trigBounds 1 n e) (mRnd m) (mFtz m) (keyOf x), 0)
    | .nan _ => (fm.nan, 0)
def ftanh (m : Word) (fm : Fmt) (x : FV) : Nat × Nat :=
  unlessNan fm x <| match x with
    | .inf neg => fpRound fm (.fin neg 1 0) (mRnd m) false (mFtz m)
    | .fin neg n e => if n = 0 then (fm.sign neg 0, 0) else (roundFunction fm (fun p => negBounds neg (tanhBounds n e p)) (mRnd m) (mFtz m) (keyOf x), 0)
    | .nan _ => (fm.nan, 0)

def execFrcp (d a : BitVec 8) (s : State) : Result := floatUnary (encode (.frcp d a)) d.toNat a.toNat frcp s
def execFrsq (d a : BitVec 8) (s : State) : Result := floatUnary (encode (.frsq d a)) d.toNat a.toNat frsq s
def execFsqrt (d a : BitVec 8) (s : State) : Result := floatUnary (encode (.fsqrt d a)) d.toNat a.toNat fsqrt s
def execFexp2 (d a : BitVec 8) (s : State) : Result := floatUnary (encode (.fexp2 d a)) d.toNat a.toNat fexp2 s
def execFlog2 (d a : BitVec 8) (s : State) : Result := floatUnary (encode (.flog2 d a)) d.toNat a.toNat flog2 s
def execFsin (d a : BitVec 8) (s : State) : Result := floatUnary (encode (.fsin d a)) d.toNat a.toNat fsin s
def execFcos (d a : BitVec 8) (s : State) : Result := floatUnary (encode (.fcos d a)) d.toNat a.toNat fcos s
def execFtanh (d a : BitVec 8) (s : State) : Result := floatUnary (encode (.ftanh d a)) d.toNat a.toNat ftanh s

/-! ## FDOT2, FSCALE, RNDINT (R127, R128, R132) -/

def execFdot2 (d a b : BitVec 8) (s : State) : Result :=
  floatOp (encode (.fdot2 d a b)) d.toNat (fun g l =>
    let m := laneMode g l
    let fm := fmtOf (mEtype m)
    let rd (code i : Nat) : FV := fpVal fm (mFtz m) (elem (readV g code l).toNat 16 i)
    let z := fpVal (fmtOf 8) (mFtz m) (readV g d.toNat l).toNat
    let r := sumIn m (fmtOf 8) [rd a.toNat 0, rd b.toNat 0, rd a.toNat 1, rd b.toNat 1, z]
      [mulFV (rd a.toNat 0) (rd b.toNat 0), mulFV (rd a.toNat 1) (rd b.toNat 1), (z, 0)]
    [{ idx := 0, bits := r.1, kind := r.2 }]) s

def execFscale (d a b : BitVec 8) (s : State) : Result :=
  floatOp (encode (.fscale d a b)) d.toNat (fun g l => floatElems g a.toNat a.toNat a.toNat l fun m fm x _ _ =>
    unlessNan fm x (match x with
      | .fin neg n e => fpRound fm (.fin neg n (e + (readV g b.toNat l).toInt)) (mRnd m) false (mFtz m)
      | v => fpRound fm v (mRnd m) false (mFtz m))) s

/-- A value rounded to an integral value, keeping its sign. -/
def rndInt (m : Word) (fm : Fmt) (x : FV) : Nat × Nat :=
  unlessNan fm x <| match x with
    | .fin neg n e => if n = 0 ∨ 0 ≤ e then fpRound fm x 0 false false
        else fpRound fm (.fin neg (roundMag neg n false e 0 (mRnd m)) 0) 0 false false
    | v => fpRound fm v 0 false false

def execRndint (d a : BitVec 8) (s : State) : Result := floatUnary (encode (.rndint d a)) d.toNat a.toNat rndInt s

end Sys2Proof.Machine
end

