-- ==== Sys2Proof/Machine/Sync.lean ====
section
/-! DEFINITION. Sync objects (07 R197 to R216): joins and retroactive cleans, BIND, UNBIND, ACQ, REL, FENCE and WAITC with WAITC_PASS; and the
relay-written flags that an acquire reads (08 R237). -/
namespace Sys2Proof.Machine

/-! ## Agents and joins -/

/-- An agent that joins an object: a compute core, a CPU-die hart, another package of the pool (R203). -/
inductive Agent where
  | core (n : Nat) | hart | pkg (p : Nat)
deriving DecidableEq, Repr

/-- The agent has joined. -/
def SyncEntry.has (e : SyncEntry) : Agent → Bool
  | .core n => e.cores.getLsbD n
  | .hart => e.hosts
  | .pkg p => e.pkgs.getLsbD p

def SyncEntry.add (e : SyncEntry) : Agent → SyncEntry
  | .core n => { e with cores := e.cores ||| (1#160 <<< n) }
  | .hart => { e with hosts := true }
  | .pkg p => { e with pkgs := e.pkgs ||| (1#16 <<< p) }

/-- REACH (R202): the smallest scope code that contains every participant; 7 when there is none. -/
def SyncEntry.reach (e : SyncEntry) : Nat :=
  let cs := (List.range 160).filter e.cores.getLsbD
  if e.pkgs ≠ 0 then 5 else if e.hosts then 4
  else match cs with
    | [] => 7
    | c :: r => if r.isEmpty then 2 else if r.all fun x => dieOf x == dieOf c then 3 else 4
/-- NDIRTY (R202). -/
def SyncEntry.ndirty (e : SyncEntry) : Nat := e.dirty.length

/-- A ceiling of a dirty place at core c covers an agent (R205, R198). -/
def covers (c ceiling : Nat) : Agent → Bool
  | .core n =>
    match ceiling with
    | 0 => n == c
    | 1 => clusterOf n == clusterOf c
    | 2 => n == c
    | 3 => dieOf n == dieOf c
    | _ => true
  | .hart => decide (4 ≤ ceiling)
  | .pkg _ => decide (5 ≤ ceiling)

/-- Clean the bound regions in a core's L1 (R204, R205). -/
def cleanRegions (s : State) (core : Nat) (e : SyncEntry) : State :=
  cleanLines s core (fun x => x.asid == e.asid && x.inRanges e.asid x.vmid e.regions) false

def State.syncFind (s : State) (obj : Nat) : Option SyncEntry := s.hub.sync.find? fun e => e.obj == obj
def State.syncPut (s : State) (e : SyncEntry) : State :=
  s.modHub fun h => { h with sync := h.sync.map fun x => if x.obj = e.obj then e else x }

/-- sync_join (R203, R205): before a new agent joins, the dirty places whose ceiling covers it are cleaned. -/
def syncJoin (s : State) (obj : Nat) (a : Agent) : State :=
  match s.syncFind obj with
  | none => s
  | some e =>
    if e.has a then s
    else
      let owed := e.dirty.filter fun d => covers d.core d.ceiling a
      let s1 := owed.foldl (fun t d => cleanRegions t d.core e) s
      s1.syncPut (SyncEntry.add { e with dirty := e.dirty.filter fun d => !covers d.core d.ceiling a } a)

/-- Only this core has joined. -/
def SyncEntry.only (e : SyncEntry) (core : Nat) : Bool := e.cores == 1#160 <<< core && e.pkgs == 0 && !e.hosts

/-- Width of a ceiling (R204): GROUP and CORE rank together, below TEAM. -/
def ceilingRank : Nat → Nat
  | 0 => 0 | 2 => 0 | 1 => 1 | 3 => 2 | 4 => 3 | _ => 4
/-- The ceiling that a place keeps: the wider; of GROUP and CORE, CORE. -/
def wider (a b : Nat) : Nat :=
  let w := if ceilingRank b < ceilingRank a then a else b
  if w = 0 then 2 else w

/-- The wider mark on a core's place, or a free place taken (R204); none when a clean is needed. -/
def SyncEntry.skip (e : SyncEntry) (core ceiling : Nat) : Option SyncEntry :=
  if !e.only core then none
  else if e.dirty.any fun d => d.core == core then
    some { e with dirty := e.dirty.map fun d => if d.core = core then { d with ceiling := wider d.ceiling ceiling } else d }
  else if e.dirty.length < 8 then some { e with dirty := e.dirty ++ [{ core := core, ceiling := wider ceiling ceiling }] }
  else none

/-- No write of this package waits at a home, and no dirty line that satisfies p lies at a line that a move is about to copy: a clean of those
lines is then acknowledged at once (R207). -/
def cleanReady (s : State) (core : Nat) (p : L1Line → Bool) : Bool :=
  s.hub.retries.isEmpty && s.hub.moves.all (fun m => m.stalled.isEmpty) &&
  (s.core core).l1.all fun x => !(p x) || x.dirty == 0 || (s.stallMove (x.pline * 128)).isNone

/-- Every line of an address space. -/
def ofAsid (asid vmid : Nat) (x : L1Line) : Bool := x.asid == asid && x.vmid == vmid

/-! ## What an acquire invalidates -/

/-- The invalidation for a relay-written flag (08 R237). -/
def relayInval (s : State) (core asid vmid flag : Nat) : State :=
  let flag := s.route flag
  if (s.home (homeOf flag)).relayMarks.contains flag then
    match s.hub.relayFlags.find? fun f => f.addr == flag with
    | some f =>
      if f.full then cleanLines s core (ofAsid asid vmid) true
      else cleanLines s core (fun x => f.ranges.any fun r => x.inRanges r.1 vmid [(r.2.1, r.2.2)]) true
    | none => cleanLines s core (ofAsid asid vmid) true
  else s

/-- The invalidation of an ACQ on an object, after its own join (R206). -/
def acqInval (s : State) (core asid vmid obj : Nat) : State :=
  match s.syncFind obj with
  | none => s
  | some e =>
    if e.only core then s
    else if e.asid = asid then cleanLines s core (fun x => x.inRanges asid vmid e.regions) true
    else cleanLines s core (ofAsid asid vmid) true

/-! ## BIND and UNBIND -/

def syncSpec : CheckSpec := { align := fun _ => 8, noWindow := true, win := .other, locks := true, lockLine := false }
def bindSpec : CheckSpec := { syncSpec with locks := false }

/-- BIND (R210). -/
def execBind (r : BitVec 2) (p : BitVec 4) (a b : BitVec 8) (s : State) : Result :=
  issueMem (encode (.bind r p a b)) (some p.toNat) false s
    (fun c g s1 => { kind := .bind p r.toNat (readU64 s1 g c b.toNat) (readU64 s1 g c (b.toNat + 2)), active := runSet g c,
                     addr := fun _ => readU64 s1 g c a.toNat, data := fun _ => 0 })
    fun c g s1 o => (memCheck s1 g o bindSpec).orElse fun _ =>
      let base := readU64 s1 g c b.toNat; let len := readU64 s1 g c (b.toNat + 2)
      if base.toNat % 128 ≠ 0 ∨ len.toNat % 128 ≠ 0 ∨ 2 ^ 57 < base.toNat + len.toNat then some (gangTrap g c 8 1 base) else none

/-- UNBIND (R211). -/
def execUnbind (p : BitVec 4) (a : BitVec 8) (s : State) : Result :=
  issueMem (encode (.unbind p a)) (some p.toNat) false s
    (fun c g s1 => { kind := .unbind p, active := runSet g c, addr := fun _ => readU64 s1 g c a.toNat, data := fun _ => 0 })
    fun _ g s1 o => memCheck s1 g o bindSpec

/-- Physical address of a uniform operation's access, where its home serves it: an object moves with its line (log 65). -/
def State.opPa (s : State) (o : LogOp) : Nat := s.route (match o.hits with | (h :: _) :: _ => h.pa | _ => 0)

def doBind (s : State) (o : LogOp) (d : BitVec 4) (region : Nat) (base len : DWord) : State :=
  let asid := s.asid (s.group o.gid).tid
  let write (q : Bool) (t : State) : State := (finishOp t o).modGroup o.gid fun g => qput g d.toNat q
  let bound (e : SyncEntry) : SyncEntry := { e with regions := lset e.regions region (base, len.toNat) }
  match s.syncFind (s.opPa o) with
  | some e => if e.asid = asid then write true (s.syncPut (bound e)) else write false s
  | none =>
    if 16384 ≤ s.hub.sync.length then write false s
    else
      let e : SyncEntry := { obj := s.opPa o, asid := asid, regions := List.replicate 4 (0, 0), cores := 0, pkgs := 0, hosts := false, dirty := [] }
      write true (s.modHub fun h => { h with sync := h.sync ++ [bound e] })

def doUnbind (s : State) (o : LogOp) (d : BitVec 4) : State :=
  let asid := s.asid (s.group o.gid).tid
  let ok := match s.syncFind (s.opPa o) with | some e => e.asid == asid | none => false
  let s1 := if ok then s.modHub fun h => { h with sync := h.sync.filter fun e => e.obj ≠ s.opPa o } else s
  (finishOp s1 o).modGroup o.gid fun g => qput g d.toNat ok

/-! ## ACQ and REL -/

/-- ACQ (R212). -/
def execAcq (d a : BitVec 8) (sc : BitVec 3) (s : State) : Result :=
  issueMem (encode (.acq d a sc)) none false s
    (fun c g _ => { kind := .acq d.toNat sc.toNat, active := activeSet g c, addr := fun l => readV64 g a.toNat l, data := fun _ => 0 })
    fun _ g s1 o => memCheck s1 g o syncSpec

/-- REL (R213): store-class. -/
def issueRel (w : Word) (add : Bool) (d a : BitVec 8) (sc : BitVec 3) (s : State) : Result :=
  issueMem w none true s
    (fun c g _ => { kind := .rel add sc.toNat, active := activeSet g c, addr := fun l => readV64 g a.toNat l,
                    data := fun l => (readV64 g d.toNat l).setWidth 128 })
    fun _ g s1 o => memCheck s1 g o syncSpec

def execRelSt (d a : BitVec 8) (sc : BitVec 3) (s : State) : Result := issueRel (encode (.relSt d a sc)) false d a sc s
def execRelAdd (d a : BitVec 8) (sc : BitVec 3) (s : State) : Result := issueRel (encode (.relAdd d a sc)) true d a sc s

/-- The distinct objects of an operation, in ascending order of the lowest lane that names them, with a virtual address of each. -/
def objectsOf (s : State) (o : LogOp) : List (Nat × Nat) :=
  (s.placed o).foldl (fun r p => match p.2 with
    | h :: _ => if r.any fun e => e.1 == s.route h.pa then r else r ++ [(s.route h.pa, p.1.va)]
    | [] => r) []

/-- ACQ performed: joins, then the reads at the homes, then the invalidations (R212). The issuing core's own line of the object is written back and
dropped first (R201). -/
def doAcq (s : State) (o : LogOp) (d : Nat) : State :=
  let g := s.group o.gid
  let asid := s.asid g.tid; let vmid := s.vmid g.tid
  let objs := objectsOf s o
  let s1 := objs.foldl (fun t e => flushFor (syncJoin t e.1 (.core g.core)) o.gid e.2) s
  let r := (s1.placed o).foldl (fun r p => match p.2 with
    | h :: _ => (lineRequest r.1 (s.partOf g.tid) (dieOf g.core) h.pa .homeRead, r.2 ++ [(p.1.lane, r.1.pread h.pa 8)])
    | [] => r) (s1, ([] : List (Nat × Nat)))
  let s2 := objs.foldl (fun t e => relayInval (acqInval t g.core asid vmid e.1) g.core asid vmid e.1) r.1
  (finishOp s2 o).modGroup o.gid fun g => writeRegs g d (fun l => laneVal r.2 l) 2

/-- The clean of a REL (R204): the bound regions, or every line of the address space. -/
def relClean (s : State) (core asid vmid obj ceiling : Nat) : State :=
  match s.syncFind obj with
  | none => s
  | some e =>
    if e.asid ≠ asid then cleanLines s core (ofAsid asid vmid) false
    else match e.skip core ceiling with
      | some e1 => s.syncPut e1
      | none => cleanLines s core (fun x => x.inRanges asid vmid e.regions) false

/-- REL performed (R213): every lane's store is one applied store at the home, and it leaves a relay-written mark in place (08 R238). -/
def doRel (s : State) (o : LogOp) (add : Bool) (scope : Nat) : State :=
  let g := s.group o.gid
  let s1 := (objectsOf s o).foldl (fun t e =>
    flushFor (relClean (syncJoin t e.1 (.core g.core)) g.core (s.asid g.tid) (s.vmid g.tid) e.1 scope) o.gid e.2) s
  finishOp ((s1.placed o).foldl (fun t p => match p.2 with
    | h :: _ =>
      let v := if add then (t.pread h.pa 8 + o.value p.1.lane) % 2 ^ 64 else o.value p.1.lane
      homeStore (lineRequest t (s.partOf g.tid) (dieOf g.core) h.pa .homeStore) { cells := cellsOf h.pa (leBytes 8 v), keep := true }
    | [] => t) s1) o

/-- The cleans that an ACQ or a REL may need are acknowledged at once. -/
def syncReady (s : State) (o : LogOp) : Bool :=
  match o.kind with
  | .acq _ _ => s.cores.all fun k => cleanReady s k.1 fun _ => true
  | .rel _ _ => s.cores.all fun k => cleanReady s k.1 fun _ => true
  | .lds _ acq _ => !acq || s.cores.all fun k => cleanReady s k.1 fun _ => true
  | _ => true

/-! ## FENCE and WAITC -/

/-- No slice of the gang has a load, store or atomic outstanding. In SOLO mode the SOLO lane's slice alone is looked at, here as by WAITC (DESIGN CHOICE: R214 and R215
say every slice of the gang, 12 R348 that the instruction executes for one lane; log 68). -/
def quiet (g : Group) (c : Ctx) (loads : Bool) : Bool :=
  (ctxSlices c).all fun i => let x := g.slice i; (!loads || x.loads == 0) && x.stores == 0 && x.atomics == 0

/-- FENCE works at this scope on the L1 (R214): above CORE, or TEAM for a team on several cores. -/
def fenceWorks (s : State) (tid scope : Nat) : Bool := decide (3 ≤ scope) || (scope == 1 && decide (1 < (s.teamCores tid).length))

/-- The cache work of FENCE: CLEAN and INV on every line of the team's address space. -/
def fenceWork (s : State) (g : Group) (scope : Nat) (clean inv : Bool) : State :=
  if !fenceWorks s g.tid scope then s
  else
    let p := ofAsid (s.asid g.tid) (s.vmid g.tid)
    if inv then cleanLines s g.core p true else if clean then cleanLines s g.core p false else s

def execFence (n cl : BitVec 1) (sc : BitVec 3) (s : State) : Result :=
  issue (encode (.fence n cl sc)) s fun c g s1 =>
    if !quiet g c true || (fenceWorks s g.tid sc.toNat && !cleanReady s g.core (ofAsid (s.asid g.tid) (s.vmid g.tid))) then .next s
    else .next (retire (fenceWork s1 g sc.toNat (cl == 1) (n == 1)) c g)

/-- The counters that a WAITC mask selects are at or below its threshold in a slice (R215). -/
def waitcDone (mask : BitVec 4) (t : Nat) (x : Slice) : Bool :=
  (!mask.getLsbD 0 || decide (x.loads ≤ t)) && (!mask.getLsbD 1 || decide (x.stores ≤ t)) &&
  (!mask.getLsbD 2 || decide (x.atomics ≤ t)) && (!mask.getLsbD 3 || decide (x.posts ≤ t))

/-- WAITC: passes at once, or its gang waits with the PC at the WAITC (19 R422). -/
def execWaitc (t : BitVec 8) (m : BitVec 4) (s : State) : Result :=
  issue (encode (.waitc t m)) s fun c g s1 =>
    if (ctxSlices c).all fun i => waitcDone m t.toNat (g.slice i) then .next (retire s1 c g)
    else .next (s1.setGroup c.gid (g.mapSlices c.gang fun _ x => { x with wait := .waitc m t.toNat }))

/-- A gang's wait ends: its slices go on to the next word. -/
def passWait (s : State) (gid : Nat) (m : SliceMask) : State :=
  s.modGroup gid fun g => g.mapSlices m fun _ x => ({ x with wait := .none, pc := x.pc + 4, promoted := false } : Slice).spinCheck

/-- What a gang waits for, when it is one that may go on: its group is not parked and no frame that it does not belong to is open. -/
def gangWait (s : State) (gid gang : Nat) : Wait :=
  let g := s.group gid
  let m := g.gangSlices gang
  if m = 0 ∨ g.parked ∨ g.retired ∨ s.swapped g.tid then .none else (g.slice (lowestSlice m)).wait

def waitcReady (s : State) (gid gang : Nat) : Bool :=
  match gangWait s gid gang with
  | .waitc mask t =>
    let g := s.group gid
    (match g.soloLane with | some l => [l / 4] | none => slicesOf (g.gangSlices gang)).all fun i => waitcDone mask t (g.slice i)
  | _ => false

/-- WAITC_PASS. -/
def execWaitcPass (gid gang : Nat) (s : State) : Result :=
  .next (if waitcReady s gid gang then passWait s gid ((s.group gid).gangSlices gang) else s)

end Sys2Proof.Machine
end

