-- ==== Sys2Proof/Machine/Standing.lean ====
section
/-! DEFINITION. Standing slots (06): LDS and UNSUB, the pushes and the inbox, redeliveries, removal, loss, parking and re-pointing; leases (07
R217 to R219); the accesses of agents outside the compute dies (HOME_STORE_APPLY, LINE_REQUEST). -/
namespace Sys2Proof.Machine

/-! ## Slots and the directory -/

/-- The 128 bits of a slot (R167). -/
def slotBits (value : DWord) (seq : BitVec 16) (count : Nat) (acq live lost lease : Bool) : Nat :=
  value.toNat + seq.toNat * 2 ^ 64 + min count 15 * 2 ^ 80 + lost.toNat * 2 ^ 84 + lease.toNat * 2 ^ 85 + acq.toNat * 2 ^ 86 + live.toNat * 2 ^ 87

/-- The device writes a whole slot (R169). -/
def writeSlot (s : State) (tid off x : Nat) : State := s.modTeam tid fun t => t.swrite off 16 x

/-- The directory entry of a slot; none for FREE (R168). -/
def State.dirSlot (s : State) (tid off : Nat) : Option DirSlot :=
  (s.core (tid / 32)).directory.find? fun d => d.tid == tid && d.off == off
def State.modSlot (s : State) (tid off : Nat) (f : DirSlot → DirSlot) : State :=
  s.modCore (tid / 32) fun k => { k with directory := k.directory.map fun d => if d.tid = tid ∧ d.off = off then f d else d }
def State.freeSlot (s : State) (tid off : Nat) : State :=
  s.modCore (tid / 32) fun k => { k with directory := k.directory.filter fun d => !(d.tid == tid && d.off == off) }

/-- The least index that a table does not list, counting from i. -/
def freeIdx {α : Type} (i : Nat) : Sparse α → Nat
  | [] => i
  | (k, _) :: r => if k = i then freeIdx (i + 1) r else i

/-- Change a subscription at its home. -/
def State.modSub (s : State) (home idx : Nat) (f : Sub → Sub) : State :=
  s.modHome home fun k => { k with subs := k.subs.map fun e => if e.1 = idx then (e.1, f e.2) else e }

/-- A home drops a subscription; with the last one of a word its sequence number goes (R171). -/
def dropSub (s : State) (home idx : Nat) : State :=
  s.modHome home fun k =>
    match sfind k.subs idx with
    | none => k
    | some x =>
      let rest := sdel k.subs idx
      { k with subs := rest, seqs := if rest.any fun e => e.2.word == x.word then k.seqs else sdel k.seqs x.word }

/-! ## LDS -/

/-- Window offset of a slot address; none outside the window. -/
def slotOff (s : State) (tid sa : Nat) : Option Nat := (s.team tid).offset (BitVec.ofNat 64 sa)

/-- Checks 3 to 5 of R182 on the slot addresses that an operation captured. The FIFO registers of check 4 are push and pop: 05 R147 tells them from the count
register, where 16 bytes do not lie on storage (check 5; DESIGN CHOICE, log 68). -/
def slotCheck (s : State) (g : Group) (o : LogOp) : Option TrapInfo :=
  let t := s.team g.tid
  let slots : List Acc := (lanesOf o.active).map fun l => ⟨l, o.value l % 2 ^ 64, 16⟩
  let mis := slots.filter fun a => a.va % 16 != 0
  let place (a : Acc) : Option Place := (t.offset (BitVec.ofNat 64 a.va)).map fun off => t.place off 16
  let fifo := slots.filter fun a => match place a with | some (.push _) => true | some (.pop _) => true | _ => false
  let none_ := slots.filter fun a => match place a with | some .scratch => false | some (.push _) => false | some (.pop _) => false | _ => true
  match mis, fifo, none_ with
  | a :: _, _, _ => some (accTrap o 8 1 (BitVec.ofNat 64 a.va) mis 0)
  | [], a :: _, _ => some (accTrap o 8 3 (BitVec.ofNat 64 a.va) fifo 0)
  | [], [], a :: _ => some (accTrap o 9 0 (BitVec.ofNat 64 (match t.offset (BitVec.ofNat 64 a.va) with | some off => off | none => a.va)) none_ 0)
  | [], [], [] => none

/-- LDS (R181, R182): the word address and its window check, then the slot address, then the range lock on the word's line. -/
def execLds (sc : BitVec 3) (q : BitVec 1) (p : BitVec 4) (a imm : BitVec 8) (s : State) : Result :=
  issueMem (encode (.lds sc q p a imm)) none false s
    (fun c g _ => { kind := .lds p (q == 1) sc.toNat, active := activeSet g c, addr := vea g a imm 8,
                    data := fun l => (readV64 g (a.toNat + 2) l).setWidth 128 })
    fun _ g s1 o =>
      (memCheck s1 g o { syncSpec with locks := false }).orElse fun _ => (slotCheck s1 g o).orElse fun _ =>
        memCheck s1 g o { syncSpec with lockLine := true }

/-- One lane of LDS (R183). -/
def ldsLane (s : State) (o : LogOp) (acq : Bool) (scope : Nat) (a : Acc) (h : Hit) : State × Bool :=
  let g := s.group o.gid
  let core := g.tid / 32
  match slotOff s g.tid (o.value a.lane % 2 ^ 64) with
  | none => (s, false)
  | some off =>
    if (s.dirSlot g.tid off).isSome then (s, false)
    else
      let s1 := if h.attr = 0 then flushFor s o.gid a.va else s
      let w := s1.route h.pa
      let ok := decide ((s1.core core).directory.length < 4096) && decide ((s1.home (homeOf w)).subs.length < 65536) && h.attr != 2 && decide (homeOf w < 6)
      let s2 := if ok && acq then syncJoin s1 w (.core g.core) else s1
      let k := s2.home (homeOf w)
      let seq := sget 0 k.seqs w
      let idx := freeIdx 0 k.subs
      let v := BitVec.ofNat 64 (s2.pread w 8)
      let s3 := if !ok then s2
        else
          let t := s2.modHome (homeOf w) fun k =>
            { k with subs := sput k.subs idx { word := w, core := core, tid := g.tid, off := off, acq := acq, scope := scope, lcore := g.core, st := .live,
                                                lastSeq := seq, skip := 0 }, seqs := sput k.seqs w seq }
          (grantLease t (dieOf core) w false).modCore core fun k => { k with directory := k.directory ++
            [{ tid := g.tid, off := off, st := .live, gid := o.gid, home := homeOf w, idx := idx, acq := acq, value := v, seq := seq, count := 0, refuses := false }] }
      (writeSlot (lineRequest s3 (s.partOf g.tid) (dieOf g.core) h.pa .homeRead) g.tid off (slotBits v seq 0 (ok && acq) ok false false), ok)

/-- LDS performed, in ascending lane order (R183). -/
def doLds (s : State) (o : LogOp) (d : BitVec 4) (acq : Bool) (scope : Nat) : State :=
  let r := (s.placed o).foldl (fun r p =>
    match p.2 with
    | h :: _ => let t := ldsLane r.1 o acq scope p.1 h; (t.1, r.2 ++ [(p.1.lane, t.2)])
    | [] => r) (s, ([] : List (Nat × Bool)))
  (finishOp r.1 o).modGroup o.gid fun g => pput g d.toNat fun l => (r.2.find? fun e => e.1 == l).map (·.2)

/-! ## UNSUB -/

/-- UNSUB (R185). -/
def execUnsub (p : BitVec 4) (a imm : BitVec 8) (s : State) : Result :=
  issueMem (encode (.unsub p a imm)) none true s
    (fun c g _ => { kind := .unsub p false, active := activeSet g c, addr := fun _ => 0, data := fun l => (vea g a imm 16 l).setWidth 128 })
    fun _ g s1 o => slotCheck s1 g o

/-- UNSUB acts, in ascending lane order: slots close and their homes are asked to remove them; the operation then waits for those slots. -/
def doUnsub (s : State) (o : LogOp) (d : BitVec 4) : State :=
  let tid := (s.group o.gid).tid
  let r := (lanesOf o.active).foldl (fun r l =>
    match slotOff s tid (o.value l % 2 ^ 64) with
    | none => r
    | some off =>
      match r.1.dirSlot tid off with
      | some x => if x.st = .closing then r else
          ((r.1.modSlot tid off fun y => { y with st := .closing }).modHub fun h => { h with subMsgs := h.subMsgs ++ [.remove (tid / 32) tid off] }, r.2 ++ [l])
      | none => r) (s, ([] : List Nat))
  let s1 := r.1.modGroup o.gid fun g => pput g d.toNat fun l => if o.active.getLsbD l then some (r.2.contains l) else none
  if r.2.isEmpty then finishOp s1 o else putOp s1 { o with kind := .unsub d true, left := laneSet fun l => r.2.contains l }

/-! ## Deliveries -/

/-- What precedes the delivery of a push (R178, R179): for an ACQ slot the L1 of the core whose lane issued the LDS drops what the delivery names. -/
def prepareSlot (s : State) (p : Push) : State :=
  match s.dirSlot p.tid p.off with
  | none => s
  | some d =>
    if d.acq then cleanLines s (s.group d.gid).core (fun x => p.regions.any fun r => x.inRanges r.1 (s.vmid p.tid) [(r.2.1, r.2.2)]) true else s

/-- Write a push to its slot (R175), after what precedes it. -/
def deliverPush (s : State) (p : Push) : State :=
  match s.dirSlot p.tid p.off with
  | none => s
  | some d =>
    let s1 := if p.begun then s else prepareSlot s p
    (writeSlot s1 p.tid p.off (slotBits p.value p.seq p.count d.acq true false false)).modSlot p.tid p.off fun y =>
      { y with value := p.value, seq := p.seq, count := p.count }

/-- INBOX_DELIVERY: the oldest entry of a core's inbox is written to its slot; where lines must go first, the entry stays until they have (R176, R178). -/
def execInboxDelivery (core : Nat) (s : State) : Result :=
  .next (match (s.core core).inbox with
    | p :: r =>
      if !p.begun && !p.regions.isEmpty && (s.dirSlot p.tid p.off).isSome then
        (prepareSlot s p).modCore core fun k => { k with inbox := { p with begun := true } :: r }
      else deliverPush (s.modCore core fun k => { k with inbox := r }) p
    | [] => s)

/-- Two pushes of one home to one slot. -/
def Push.sameSlot (p q : Push) : Bool := p.home == q.home && p.core == q.core && p.tid == q.tid && p.off == q.off
/-- An inbox entry for the slot of a push, whose write has not begun (R176, rule 2). -/
def Push.entryFor (p q : Push) : Bool := q.sameSlot p && !q.begun

/-- A push under way that is the first of its home to its slot: they arrive in SEQ order (R176). -/
def State.firstPush (s : State) (n : Nat) : Option Push :=
  match s.hub.pushNet[n]? with
  | some p => if (s.hub.pushNet.take n).any fun q => q.sameSlot p then none else some p
  | none => none
def State.dropPush (s : State) (n : Nat) : State := s.modHub fun h => { h with pushNet := ldrop h.pushNet n }

/-- The slot refuses pushes from now on: it is REFUSED until a redelivery is accepted (R176, R177). A CLOSING slot stays CLOSING, being left by the completion of its
UNSUB alone (R168), and refuses them too (DEDUCED, log 66). -/
def closeSlot (d : DirSlot) : DirSlot := { d with st := if d.st = .live then .refused else d.st, refuses := true }

/-- The core refuses a push, and will signal the home. -/
def refusePush (s : State) (p : Push) : State :=
  ((s.modSlot p.tid p.off closeSlot).modCore p.core fun k =>
    { k with refusedHomes := if k.refusedHomes.contains p.home then k.refusedHomes else k.refusedHomes ++ [p.home] }).modHub fun h =>
    { h with refusals := h.refusals ++ [p] }

/-- Coalesce a push into the last inbox entry for its slot (R176, rule 2). -/
def coalesce (p : Push) (inbox : List Push) : List Push :=
  let last := ((List.range inbox.length).filter fun i => match inbox[i]? with | some q => p.entryFor q | none => false).getLast?
  match last with
  | some i => inbox.mapIdx fun j q => if j = i then { q with value := p.value, seq := p.seq, count := min 15 (q.count + p.count + 1), regions := q.regions ++ p.regions } else q
  | none => inbox

/-- A push enters the inbox: the home learns the sequence number that the subscriber accepted. -/
def acceptPush (s : State) (p : Push) (inbox : List Push) : State :=
  (s.modCore p.core fun k => { k with inbox := inbox }).modSub p.home p.idx fun x =>
    if x.tid = p.tid ∧ x.off = p.off then { x with lastSeq := p.seq } else x

/-- The rules of R176 on a push for slot x. -/
def arrivePush (s : State) (p : Push) : State :=
  match s.dirSlot p.tid p.off with
  | none => s
  | some d =>
    let inbox := (s.core p.core).inbox
    if d.refuses = true ∨ s.swapped p.tid = true then refusePush s p
    else if inbox.length < 64 then acceptPush s p (inbox ++ [p])
    else if inbox.any p.entryFor then acceptPush s p (coalesce p inbox)
    else refusePush s p

/-- PUSH_ARRIVAL: push n of those under way. -/
def execPushArrival (n : Nat) (s : State) : Result :=
  .next (match s.firstPush n with
    | some p => if p.redelivery then s else arrivePush (s.dropPush n) p
    | none => s)

/-- REFUSED_PUSH_RETURN: the home sets the subscription pending and counts what the slot misses (R175, R176). -/
def execRefusedPushReturn (n : Nat) (s : State) : Result :=
  .next (match s.hub.refusals[n]? with
    | some p => (s.modHub fun h => { h with refusals := ldrop h.refusals n }).modSub p.home p.idx fun x =>
        if x.tid = p.tid ∧ x.off = p.off then { x with st := if x.st = .live then .pending else x.st, skip := x.skip + p.count + 1 } else x
    | none => s)

/-- INBOX_SIGNAL: a core that has refused a push and holds 48 entries or fewer signals those homes. -/
def execInboxSignal (core : Nat) (s : State) : Result :=
  let k := s.core core
  .next (if !k.refusedHomes.isEmpty && decide (k.inbox.length ≤ 48) then
    (s.modCore core fun k => { k with refusedHomes := [] }).modHub fun h => { h with signals := h.signals ++ k.refusedHomes.map fun x => (x, core) }
  else s)

/-- A push to the slot of a subscription, or its refusal, is still under way. -/
def inFlight (s : State) (home : Nat) (x : Sub) : Bool :=
  let hit (p : Push) : Bool := p.home == home && p.tid == x.tid && p.off == x.off
  s.hub.pushNet.any hit || s.hub.refusals.any hit

/-- The redelivery of a subscription (R177): the word's current value and SEQ, with the skip since the last accepted SEQ. -/
def sendRedelivery (s : State) (home idx : Nat) (x : Sub) : State :=
  let p := s.pushOf home idx x (sget 0 (s.home home).seqs x.word) (x.skip - 1) true
  (s.modSub home idx fun y => { y with skip := 0 }).modHub fun h => { h with pushNet := h.pushNet ++ [p] }

/-- The pending subscriptions of a core at a home, in table-index order. -/
def pendingSubs (s : State) (home core : Nat) : List (Nat × Sub) := (s.home home).subs.filter fun e => e.2.core == core && e.2.st == .pending

/-- A signalled home redelivers once every push that the core had refused has come back to it, so that each of its subscriptions is pending (R176, R177). -/
def redeliveryReady (s : State) (home core : Nat) : Bool :=
  s.hub.signals.contains (home, core) && !(s.hub.refusals.any fun p => p.home == home && p.core == core) &&
  (pendingSubs s home core).all fun e => !inFlight s home e.2

/-- REDELIVERY: a signalled home sends one redelivery for each pending subscription of the core. -/
def execRedelivery (home core : Nat) (s : State) : Result :=
  .next (if redeliveryReady s home core then
    (pendingSubs s home core).foldl (fun t e => sendRedelivery t home e.1 e.2)
      (s.modHub fun h => { h with signals := h.signals.filter fun x => x ≠ (home, core) })
  else s)

/-- A redelivery reaches the core (R177): accepted, the slot and the subscription are live again, and what was applied meanwhile is sent in turn;
refused, the subscription stays pending. -/
def takeRedelivery (s : State) (p : Push) : State :=
  match s.dirSlot p.tid p.off with
  | none => s
  | some _ =>
    let inbox := (s.core p.core).inbox
    if inbox.length < 64 ∧ s.swapped p.tid = false then
      let s1 := (acceptPush s p (inbox ++ [p])).modSlot p.tid p.off fun y =>
        { y with st := if y.st = .refused then .live else y.st, refuses := false }
      match sfind (s1.home p.home).subs p.idx with
      | some x =>
        if x.tid ≠ p.tid ∨ x.off ≠ p.off ∨ x.st ≠ .pending then s1
        else if x.skip = 0 then s1.modSub p.home p.idx fun y => { y with st := .live }
        else sendRedelivery s1 p.home p.idx x
      | none => s1
    else
      let s1 := (s.modSlot p.tid p.off closeSlot).modCore p.core fun k =>
        { k with refusedHomes := if k.refusedHomes.contains p.home then k.refusedHomes else k.refusedHomes ++ [p.home] }
      s1.modSub p.home p.idx fun x =>
        if x.tid = p.tid ∧ x.off = p.off then { x with st := if x.st = .live then .pending else x.st, skip := x.skip + p.count + 1 } else x

/-- REDELIVERY_ACCEPT: redelivery n of the pushes under way. -/
def execRedeliveryAccept (n : Nat) (s : State) : Result :=
  .next (match s.firstPush n with
    | some p => if p.redelivery then takeRedelivery (s.dropPush n) p else s
    | none => s)

/-! ## Removal and loss -/

def State.dropMsg (s : State) (n : Nat) : State := s.modHub fun h => { h with subMsgs := ldrop h.subMsgs n }

/-- The subscription of a slot: its home and index. -/
def State.subOf (s : State) (tid off : Nat) : Option (Nat × Nat) :=
  (List.range 6).findSome? fun h => ((s.home h).subs.find? fun e => e.2.tid == tid && e.2.off == off && e.2.st != .parked).map fun e => (h, e.1)

/-- A directory entry names a subscription that its home still has: it is not CLOSING, or its re-point, which comes before its removal, is still under way
(06 R186, R191). -/
def State.names (s : State) (d : DirSlot) : Bool :=
  d.st != .closing || s.hub.subMsgs.any fun m => match m with | .repoint h i _ t => h == d.home && i == d.idx && t == d.tid | _ => false

/-- A removal follows the re-point of its slot that was sent before it (R186, R191). -/
def removeReady (s : State) (n : Nat) : Bool :=
  match s.hub.subMsgs[n]? with
  | some (.remove _ tid off) =>
    (match s.dirSlot tid off with
      | some d => !(s.hub.subMsgs.take n).any fun m => m == .repoint d.home d.idx (tid / 32) tid
      | none => true)
  | _ => false

/-- SUB_REMOVE: the home removes the entry and replies behind every push it sent (R186). -/
def execSubRemove (n : Nat) (s : State) : Result :=
  .next (if !removeReady s n then s else match s.hub.subMsgs[n]? with
    | some (.remove core tid off) =>
      let s1 := match s.subOf tid off with | some (h, i) => dropSub s h i | none => s
      (s1.dropMsg n).modHub fun h => { h with subMsgs := h.subMsgs ++ [.removed core tid off] }
    | _ => s)

/-- Write the inbox entries of a slot that are still waiting. -/
def drainSlot (s : State) (core tid off : Nat) : State :=
  let mine := (s.core core).inbox.filter fun p => p.tid == tid && p.off == off
  mine.foldl deliverPush (s.modCore core fun k => { k with inbox := k.inbox.filter fun p => !(p.tid == tid && p.off == off) })

/-- The lanes of the UNSUB that waits for a slot have it no longer to wait for; with none left the operation completes. -/
def unsubDone (s : State) (tid off : Nat) : State :=
  match s.cores.findSome? fun k => k.2.log.find? fun o => (s.group o.gid).tid == tid && (match o.kind with
      | .unsub _ true => (lanesOf o.left).any fun l => slotOff s tid (o.value l % 2 ^ 64) == some off
      | _ => false) with
  | some o =>
    let left := laneSet fun l => o.left.getLsbD l && slotOff s tid (o.value l % 2 ^ 64) != some off
    if left = 0 then finishOp s o else putOp s { o with left := left }
  | none => s

def unsubReady (s : State) (n : Nat) : Bool :=
  match s.hub.subMsgs[n]? with
  | some (.removed _ tid off) => !(s.hub.pushNet ++ s.hub.refusals).any fun p => p.tid == tid && p.off == off
  | _ => false

/-- UNSUB_COMPLETE: waiting entries are written, then the final write with LIVE clear; the slot is FREE and the counter falls (R186). -/
def execUnsubComplete (n : Nat) (s : State) : Result :=
  .next (if unsubReady s n then
    match s.hub.subMsgs[n]? with
    | some (.removed core tid off) =>
      let s1 := drainSlot (s.dropMsg n) core tid off
      let s2 := match s1.dirSlot tid off with
        | some d => writeSlot s1 tid off (slotBits d.value d.seq d.count d.acq false false false)
        | none => s1
      unsubDone (s2.freeSlot tid off) tid off
    | _ => s
  else s)

/-- The slot of a lost subscription (R187, R189): the entries that the inbox holds for it, the final write, and SUB_LOST to the group that issued the LDS. -/
def loseSlot (s : State) (home tid off cause : Nat) : State :=
  match s.dirSlot tid off with
  | none => s
  | some d =>
    if d.st = .closing then s
    else
      let s1 := drainSlot s (tid / 32) tid off
      let d := (s1.dirSlot tid off).getD d
      let s2 := (writeSlot s1 tid off (slotBits d.value d.seq (Config.lossCount s.time).toNat d.acq false true (cause == 4))).freeSlot tid off
      raiseAsync s2 d.gid (asyncRecord 0x13 (home * 2 ^ 8 + cause) (BitVec.ofNat 64 off) d.seq.toNat) .none

/-- A message that names a place in a home's table. -/
def SubMsg.names (home idx : Nat) : SubMsg → Bool
  | .park a b => a == home && b == idx
  | .repoint a b _ _ => a == home && b == idx
  | _ => false

/-- A subscription is lost: the home's entry goes, and what is under way with it. Where the team's context lies in a save area, its slot is written when it
comes back (12 R362); else, parked or not, the slot is written now. -/
def loseSub (s : State) (home idx cause : Nat) : State :=
  match sfind (s.home home).subs idx with
  | none => s
  | some x =>
    if x.st = .parked then
      let at_ (d : DirSlot) : Bool := d.home == home && d.idx == idx && d.st != .closing
      let s1 := (dropSub s home idx).modHub fun h => { h with subMsgs := h.subMsgs.filter fun m => !m.names home idx }
      if s.hub.saved.any fun v => v.subs.any at_ then
        let gone : Nat × Core → Nat × Core := fun k => (k.1, { k.2 with directory := k.2.directory.filter fun d => !at_ d })
        ({ s1 with cores := s1.cores.map gone } : State).modHub fun h => { h with saved := h.saved.map fun v => match v.subs.find? at_ with
          | some e => { v with subs := v.subs.filter (· ≠ e), lost := v.lost ++ [(e, cause)] }
          | none => v }
      else match s.cores.findSome? fun k => k.2.directory.find? at_ with
        | some d => loseSlot s1 home d.tid d.off cause
        | none => s1
    else
      let other (p : Push) : Bool := !(p.tid == x.tid && p.off == x.off)
      let gone (h : Hub) : Hub :=
        { h with pushNet := h.pushNet.filter other, refusals := h.refusals.filter other, subMsgs := h.subMsgs.filter fun m => !m.names home idx }
      loseSlot ((dropSub s home idx).modHub gone) home x.tid x.off cause

/-- SUB_LOSS: a subscription is lost for a cause of R187; from outside comes cause 3, a home that stops answering. A parked one holds no lease, so that cause 4
cannot befall it (R188). -/
def execSubLoss (home idx cause : Nat) (s : State) : Result :=
  let parked := match sfind (s.home home).subs idx with | some x => x.st == .parked | none => false
  .next (if 1 ≤ cause ∧ cause ≤ 4 ∧ ¬ (cause = 4 ∧ parked = true) then loseSub s home idx cause else s)

/-! ## Parking and re-pointing -/

/-- SUB_PARK: a home marks a subscription parked (R190). -/
def execSubPark (n : Nat) (s : State) : Result :=
  .next (match s.hub.subMsgs[n]? with
    | some (.park home idx) => (s.dropMsg n).modSub home idx fun x => { x with st := .parked }
    | _ => s)

/-- SUB_REPOINT: the home makes the entry live for the new core, whose die takes a read lease (R188), and sends a redelivery when the word's SEQ has moved on
(R191). -/
def execSubRepoint (n : Nat) (s : State) : Result :=
  .next (match s.hub.subMsgs[n]? with
    | some (.repoint home idx core tid) =>
      let s1 := (s.dropMsg n).modSub home idx fun x => if x.st = .parked then { x with st := .live, core := core, tid := tid } else x
      match sfind (s1.home home).subs idx with
      | some x =>
        let s2 := grantLease s1 (dieOf core) x.word false
        if x.tid ≠ tid then s1 else if sget 0 (s1.home home).seqs x.word ≠ x.lastSeq then sendRedelivery s2 home idx x else s2
      | none => s1
    | _ => s)

/-! ## Leases (07 R217 to R219) -/

/-- LEASE_RENEW: an agent renews the leases it holds at a home. -/
def execLeaseRenew (home agent : Nat) (s : State) : Result :=
  .next (s.modHome home fun k => { k with leases := k.leases.map fun l => if l.agent = agent then { l with since := s.time } else l })

/-- A physical address lies in a lease region of a home. -/
def inRegion (home region pa : Nat) : Bool := homeOf pa == home && pa / 0x200000 == region

/-- An agent keeps a line or a live subscription in a region. -/
def holdsRegion (s : State) (home die region : Nat) : Bool :=
  ((s.home home).lines.any fun e => inRegion home region (e.1 * 128) && (LineState.agents (some e.2)).contains die) ||
  (s.cores.any fun k => dieOf k.1 == die && k.2.l1.any fun x => inRegion home region (s.route (x.pline * 128))) ||
  (s.home home).subs.any fun e => dieOf e.2.core == die && e.2.st != .parked && e.2.word / 0x200000 == region

/-- An agent loses its lines of a region: what it held modified reverts, and what it shared is revoked (R219). -/
def dropRegion (s : State) (home agent region : Nat) : State :=
  let s1 := if agent < 4 then revertLines s agent fun l => inRegion home region (l * 128) else s
  ((s.home home).lines.filter fun e => inRegion home region (e.1 * 128)).foldl (fun t e => leaveLine t e.1 agent) s1

/-- LEASE_RELEASE: a holder that keeps nothing in the region gives its leases back. An agent outside the compute dies gives its lines up with them. -/
def execLeaseRelease (home agent region : Nat) (s : State) : Result :=
  .next (if agent < 4 ∧ holdsRegion s home agent region then s
  else (if agent < 4 then s else dropRegion s home agent region).modHome home fun k =>
    { k with leases := k.leases.filter fun l => !(l.agent == agent && l.region == region) })

/-- A die's cores drop their L1 lines of a region with their dirty bytes. -/
def dropL1 (s : State) (home die region : Nat) : State :=
  let keep : Nat × Core → Nat × Core := fun k => if dieOf k.1 = die then
    (k.1, { k.2 with l1 := k.2.l1.filter fun x => !inRegion home region (s.route (x.pline * 128)) }) else k
  { s with cores := s.cores.map keep }

/-- The flag of an agent for a region (R219): the kinds of lease that have expired. -/
def setLeaseLost (s : State) (home agent region : Nat) (kinds : BitVec 2) : State :=
  if agent < 4 then s.modDie agent fun d =>
    let old := ((d.leaseLost.find? fun e => e.1 == home && e.2.1 == region).map (·.2.2)).getD 0
    { d with leaseLost := (d.leaseLost.filter fun e => !(e.1 == home && e.2.1 == region)) ++ [(home, region, old ||| kinds)] }
  else s.modHub fun h =>
    let old := ((h.leaseLost.find? fun e => e.1 == agent && e.2.1 == home && e.2.2.1 == region).map (·.2.2.2)).getD 0
    { h with leaseLost := (h.leaseLost.filter fun e => !(e.1 == agent && e.2.1 == home && e.2.2.1 == region)) ++ [(agent, home, region, old ||| kinds)] }

/-- The leases of an agent in a region that have gone unrenewed as long as the one that has gone longest: they expire together. -/
def expired (s : State) (home agent region : Nat) : List Lease :=
  let mine := (s.home home).leases.filter fun l => l.agent == agent && l.region == region
  mine.filter fun l => mine.all fun m => decide (l.since ≤ m.since)

/-- LEASE_EXPIRY (R219): the lease ends; the agent's lines of the region go, its modified data reverting; the flag is set, which the accesses not yet made meet in their
turn (R220); and, where the read lease expired, the
live subscriptions of the agent to words of the region are lost with cause 4. -/
def execLeaseExpiry (home agent region : Nat) (s : State) : Result :=
  .next (match expired s home agent region with
    | [] => s
    | ls =>
      let s1 := s.modHome home fun k => { k with leases := k.leases.filter fun l => !ls.contains l }
      let kinds : BitVec 2 := BitVec.ofNat 2 ((ls.any fun l => !l.write).toNat + 2 * (ls.any fun l => l.write).toNat)
      let s2 := setLeaseLost (dropRegion s1 home agent region) home agent region kinds
      let s3 := if agent < 4 then dropL1 s2 home agent region else s2
      let s3 := if agent < 4 then unwalk s3 fun g _ h => dieOf g.core == agent && inRegion home region (s.route h.pa) else s3
      if ls.any fun l => !l.write then
        ((s3.home home).subs.filter fun e => dieOf e.2.core == agent && e.2.st != .parked && e.2.word / 0x200000 == region).foldl (fun t e => loseSub t home e.1 4) s3
      else s3)

/-! ## Agents outside the compute dies -/

/-- The agent of a number (07 R217): the CPU die, or package p of the pool. -/
def outsideAgent (n : Nat) : Agent := if n = 4 then .hart else .pkg (n - 5)

/-- The bound objects whose words a request touches. -/
def touched (s : State) (q : OutsideReq) : List SyncEntry :=
  let a := s.route q.pa
  s.hub.sync.filter fun e => match q.store with
    | none => e.obj / 128 == a / 128
    | some b => decide (e.obj < a + b.length) && decide (a < e.obj + 8)

/-- The joins that a request causes are clean at once (R205). -/
def outsideReady (s : State) (q : OutsideReq) : Bool :=
  (touched s q).all fun e => e.has (outsideAgent q.agent) || s.cores.all fun k => cleanReady s k.1 fun _ => true

/-- The agent of a request may use a frame: one outside the pool, or one that its package owns (11 R329). -/
def OutsideReq.may (q : OutsideReq) (s : State) (f : Nat) : Bool :=
  tierOf (f * 4096) != 2 || (s.frameRec f).owner == (if q.agent = 4 then Config.package else BitVec.ofNat 4 (q.agent - 5)).setWidth 6

/-- A home serves a request of an agent outside the compute dies: the objects that it touches join (R203), then a line is granted, or a store performed at its home
(06 R172). It serves none while its die is down (14 R398), and discards what comes from an agent whose flag is set (R219, R220), or from one whose package does not own the
pool frame (11 R329). The partition of its request, by which ACC counts (11 R312), is open. -/
def serveOutside (s : State) (q : OutsideReq) : State :=
  let a := s.route q.pa
  if 6 ≤ homeOf a ∨ (homeOf a < 4 ∧ (s.die (homeOf a)).down) ∨ (s.leaseFlag q.agent q.pa).isSome ∨ !(q.may s (q.pa / 4096) && q.may s (a / 4096)) then s
  else
    let s1 := (touched s q).foldl (fun t e => syncJoin t e.obj (outsideAgent q.agent)) s
    let part := (Config.outsidePart s.time).toNat
    match q.store with
    | none => lineRequest s1 part q.agent q.pa (if q.own then .own else .share)
    | some b => (lineRequest s1 part q.agent q.pa .homeStore).pwrite q.pa b

/-- A request comes: it is served, or waits for the cleans of its joins, behind those that came before it. -/
def takeOutside (s : State) (q : OutsideReq) : State :=
  if s.hub.outside.isEmpty && outsideReady s q then serveOutside s q else s.modHub fun h => { h with outside := h.outside ++ [q] }

/-- The oldest request that waits can be served. -/
def outsideDue (s : State) : Bool := match s.hub.outside with | q :: _ => outsideReady s q | [] => false
def execOutside (s : State) : Result :=
  .next (match s.hub.outside with
    | q :: r => if outsideReady s q then serveOutside (s.modHub fun h => { h with outside := r }) q else s
    | [] => s)

/-- LINE_REQUEST: a home takes a line request of the CPU die (agent 4) or of pool package p (5 + p). -/
def execLineRequest (agent pa : Nat) (write : Bool) (s : State) : Result :=
  .next (if agent < 4 then s else takeOutside s { agent := agent, pa := pa, own := write, store := none })

/-- HOME_STORE_APPLY: a store of an agent outside the compute dies comes to be performed at its home: of agent 4, or of the one that the operand holds above the
57 bits of the address (log 57). -/
def execHomeStoreApply (pa : Nat) (bytes : List Byte) (s : State) : Result :=
  .next (takeOutside s { agent := 4 + pa / 2 ^ 57, pa := pa % 2 ^ 57, own := false, store := some bytes })

end Sys2Proof.Machine
end

