-- ==== Sys2Proof/Machine/Engine.lean ====
section
/-! DEFINITION. What the engines share: their accesses (11 R308, 08 R235), operand memory (09 R249), range locks (07 R221, R222), batches
(08 R239), barrier registers (R241, R242), engine posts (02 R53) and the task record (09 R257 to R259; 10 R287). -/
namespace Sys2Proof.Machine

/-! ## Engine accesses -/

/-- What an engine's access to one line reaches. -/
inductive EngReach where
  | ok (h : Hit)
  | fault (k : EngineFault)
  | wait
deriving DecidableEq, Repr

/-- Translate an access within one line that is not a thread's, for a team on a core and at a level: the team window without translation (05 R137), else both
stages. It waits while a write of the line waits at a move (R324). -/
def engReachAt (sup : Bool) (s : State) (tid core va n : Nat) (write : Bool) : State × EngReach :=
  match (s.team tid).offset (BitVec.ofNat 64 va) with
  | some off =>
    if (s.team tid).filling then (s, .wait) else
    match (s.team tid).place off n with
    | .scratch => (s, .ok { pa := off, attr := 3, canR := true, canW := true, dSet := true, pteAddr := 0, level := 0, size := 4096 })
    | _ => (s, .fault .window)
  | none =>
    match reach s (s.xctx tid core sup) va (if write then 4 else 3) with
    | (s1, .ok h) => if s1.linePending h.pa || (write && (s1.stallMove h.pa).isSome) then (s1, .wait) else (s1, .ok h)
    | (s1, .trap code _) => (s1, .fault (if code = 0x0A then .stage1 else if code = 0x0E then .lease else .stage2))
    | (s1, .wait) => (s1, .wait)

/-- An engine's access: at user level (11 R305). -/
def engReach (s : State) (tid core va n : Nat) (write : Bool) : State × EngReach := engReachAt false s tid core va n write

/-- Where the parts of an engine's access lie, line by line; the first that fails decides. -/
inductive EngPlace where
  | ok (ps : List (Nat × Nat × Hit))
  | fault (k : EngineFault) (va : Nat)
  | wait
deriving DecidableEq, Repr

def engPlaceFrom (tid core : Nat) (write : Bool) : List (Nat × Nat) → State → State × EngPlace
  | [], s => (s, .ok [])
  | (va, n) :: r, s =>
    match engReach s tid core va n write with
    | (s1, .fault k) => (s1, .fault k va)
    | (s1, .wait) => (s1, .wait)
    | (s1, .ok h) =>
      match engPlaceFrom tid core write r s1 with
      | (s2, .ok ps) => (s2, .ok ((va, n, h) :: ps))
      | w => w

/-- Place an access of n bytes at an address taken modulo 2^64. -/
def engPlace (s : State) (tid core va n : Nat) (write : Bool) : State × EngPlace :=
  if n = 0 then (s, .ok []) else engPlaceFrom tid core write (pieces (va % 2 ^ 64) n) s

/-- Place several accesses. -/
def engPlaces (s : State) (tid core : Nat) : List (Nat × Nat × Bool) → State × EngPlace
  | [] => (s, .ok [])
  | (va, n, w) :: r =>
    match engPlace s tid core va n w with
    | (s1, .ok ps) =>
      match engPlaces s1 tid core r with
      | (s2, .ok qs) => (s2, .ok (ps ++ qs))
      | x => x
    | x => x

/-- Read placed parts: at the banks, or through the L2 at the homes. -/
def engRead (s : State) (tid core : Nat) (ps : List (Nat × Nat × Hit)) : State × List Byte :=
  ps.foldl (fun r p =>
    if p.2.2.attr = 3 then (r.1, r.2 ++ bgets (s.team tid).scratch p.2.2.pa p.2.1)
    else (lineRequest r.1 (s.partOf tid) (dieOf core) p.2.2.pa .share, r.2 ++ r.1.pbytes p.2.2.pa p.2.1)) (s, [])

/-- Write placed parts at the banks, at the homes or through the L2; every part takes its bytes from the front of the list. -/
def engWriteAt (home : Bool) (s : State) (tid : Nat) (ps : List (Nat × Nat × Hit)) (bs : List Byte) : State :=
  (ps.foldl (fun r p =>
    let b := r.2.take p.2.1
    (if p.2.2.attr = 3 then r.1.modTeam tid fun t => { t with scratch := bputs t.scratch p.2.2.pa b }
     else if home then (lineRequest r.1 (s.partOf tid) (dieOf (tid / 32)) p.2.2.pa .homeStore).pwrite p.2.2.pa b
     else l2Store r.1 (s.partOf tid) (dieOf (tid / 32)) p.2.2.pa b, r.2.drop p.2.1)) (s, bs)).1

/-- An engine of the team's die writes through its L2 (09 R268, 10 R280). -/
def engWrite (s : State) (tid : Nat) (ps : List (Nat × Nat × Hit)) (bs : List Byte) : State := engWriteAt false s tid ps bs

/-- A read by an engine: its bytes, a fault, or nothing yet. -/
inductive EngData where
  | ok (bs : List Byte)
  | fault (k : EngineFault) (va : Nat)
  | wait
deriving DecidableEq, Repr

def engLoad (s : State) (tid core va n : Nat) : State × EngData :=
  match engPlace s tid core va n false with
  | (s1, .ok ps) => let r := engRead s1 tid core ps; (r.1, .ok r.2)
  | (s1, .fault k v) => (s1, .fault k v)
  | (s1, .wait) => (s1, .wait)

/-- KIND of a fault in COPY_FAULT and KV_ERR (08 R235, 10 R300). -/
def copyFaultKind : EngineFault → Nat | .stage1 => 1 | .stage2 => 2 | .window => 3 | .lease => 4
/-- KIND of a fault in TASK_FAULT (09 R267). -/
def taskFaultKind : EngineFault → Nat | .stage1 => 2 | .stage2 => 3 | .lease => 4 | .window => 5

/-- The page of an address. -/
def pageOf (va : Nat) : DWord := BitVec.ofNat 64 (va / 4096 * 4096)

/-! ## Operand memory (09 R249) -/

/-- Bytes of a slot. -/
def slotSize : Nat := 36864
def State.opRead (s : State) (core p n : Nat) : List Byte := bgets (s.core core).opmem p n
def State.opWrite (s : State) (core p : Nat) (bs : List Byte) : State := s.modCore core fun k => { k with opmem := bputs k.opmem p bs }

/-- Slots that a SREL of the team is about to release no longer count as held (R254). -/
def State.leaving (s : State) (tid k : Nat) : Bool :=
  (s.core (tid / 32)).releasing.any fun r => (s.group r.gid).tid == tid && decide (r.first ≤ k) && decide (k < r.first + r.n)

/-- The team holds the slot, for a check made now. -/
def State.holdsSlot (s : State) (tid k : Nat) : Bool :=
  (s.core (tid / 32)).slots.getD k .free == .held tid && !s.leaving tid k

/-! ## Range locks -/

/-- Two ranges of different operations that may not be locked together (R222). -/
def Lock.conflicts (a b : Lock) : Bool :=
  a.owner != b.owner && a.asid == b.asid && (a.write || b.write) && decide (a.base < b.base + b.len) && decide (b.base < a.base + a.len)

/-- The owner is this operation. -/
def LockOwner.is (o : LockOwner) (engine core id : Nat) : Bool := o.engine == engine && o.core == core && o.id == id

/-- The locks can be taken: nothing held conflicts, and there is room among the 256 entries. -/
def Die.canLock (d : Die) (ls : List Lock) : Bool :=
  ls.all (fun l => d.locks.all fun k => !l.conflicts k) && decide (d.locks.length + ls.length ≤ 256)

/-- A newly arriving operation also waits behind an earlier waiter that it would conflict with, or that waits for entries (R222). -/
def Die.mustQueue (d : Die) (ls : List Lock) : Bool :=
  d.lockWait.any fun w => w.2.any (fun m => ls.any fun l => l.conflicts m) || decide (256 < d.locks.length + w.2.length)

/-- Ask for locks: taken at once, or the operation joins those that wait. -/
def askLocks (s : State) (die : Nat) (o : LockOwner) (ls : List Lock) : State × Bool :=
  let d := s.die die
  if ls.isEmpty then (s, true)
  else if d.canLock ls && !d.mustQueue ls then (s.setDie die { d with locks := d.locks ++ ls }, true)
  else (s.setDie die { d with lockWait := d.lockWait ++ [(o, ls)] }, false)

/-- Give up an operation's locks, and its place among those that wait. -/
def dropLocks (s : State) (die engine core id : Nat) : State :=
  s.modDie die fun d => { d with locks := d.locks.filter fun l => !l.owner.is engine core id, lockWait := d.lockWait.filter fun w => !w.1.is engine core id }

def State.hasLocks (s : State) (die engine core id : Nat) : Bool := (s.die die).locks.any fun l => l.owner.is engine core id

/-! ## Batches (08 R239, R240) -/

/-- The number after a batch's: 0xFFFF is followed by 1. -/
def nextBatch (n : BitVec 16) : BitVec 16 := if n = 0xFFFF then 1 else n + 1

/-- The copies that a core remembers: the last 16, and of the older ones those not yet observed. -/
def prunePosts (g : Group) : Group := { g with posts := g.posts.filter fun p => decide (g.postNo < p.no + 16) || !p.seen }

/-- A copy joins the open batch as it is posted. -/
def joinBatch (g : Group) (ranges : List (DWord × Nat)) : Group :=
  prunePosts { g with openLeft := g.openLeft + 1, postNo := g.postNo + 1,
                      posts := g.posts ++ [{ no := g.postNo + 1, batch := g.openBatch, ranges := ranges, seen := false }] }

/-- A copy of a batch completes. -/
def leaveBatch (s : State) (gid : Nat) (b : BitVec 16) : State :=
  s.modGroup gid fun g =>
    if g.openBatch = b then { g with openLeft := g.openLeft - 1 }
    else { g with closed := (g.closed.map fun e => if e.1 = b then (e.1, e.2 - 1) else e).filter fun e => e.2 ≠ 0 }

/-- Batch m is at or before n. -/
def atOrBefore (m n : BitVec 16) : Bool := decide ((n - m).toNat < 2 ^ 15)

/-! ## Barrier registers (08 R241, R242) -/

/-- Append ranges to a list of at most 8. -/
def Ranges.append (r : Ranges) (rs : List (DWord × Nat)) : Ranges :=
  { items := (r.items ++ rs).take 8, full := r.full || decide (8 < r.items.length + rs.length) }

/-- One arrival. -/
def Barrier.arrive (b : Barrier) (rs : List (DWord × Nat)) : Barrier :=
  if b.expected = 0 then b
  else
    let c := { b with cur := b.cur.append rs, pending := b.pending - 1 }
    if c.pending = 0 then { c with lap := c.lap + 1, pending := c.expected, last := c.cur, cur := .empty } else c

/-- k arrivals of threads, one after another. -/
def Barrier.arriveMany (b : Barrier) : Nat → Barrier
  | 0 => b
  | k + 1 => (b.arriveMany k).arrive []

def Team.bar (t : Team) (i : Nat) : Barrier := t.bars.getD i .reset
def Team.setBar (t : Team) (i : Nat) (b : Barrier) : Team := { t with bars := lset t.bars i b }

/-- Send an engine's arrival to a barrier register, when its d field asks for one (08 R230). -/
def sendArrival (s : State) (tid : Nat) (d : BitVec 8) (ranges : List (DWord × Nat)) : State :=
  if d.getLsbD 4 then s.modHub fun h => { h with arrivals := h.arrivals ++ [{ tid := tid, bar := d.toNat % 16, ranges := ranges }] } else s

/-! ## Engine posts (02 R53) -/

/-- An engine post, where the partition's post buffer is free: its checks; then the post waits in the buffer. Store-class (R55). -/
def postWork (w : Word) (check : Ctx → Group → State → Option TrapInfo) (post : Ctx → Group → State → State × Post) (c : Ctx) (g : Group) (s1 : State) : Result :=
  match check c g s1 with
  | some t => trapAt s1 c w t
  | none =>
    let r := post c g s1
    let g1 := (storeClass c (r.1.group c.gid)).mapSlices c.gang fun _ x => { x with posts := x.posts + 1 }
    .next ((retire r.1 c g1).modCore g.core fun k => { k with postBuf := sput k.postBuf g.part { gang := c.gang, post := r.2, priv := g.priv } })

/-- Issue an engine post. -/
def issuePost (w : Word) (s : State) (check : Ctx → Group → State → Option TrapInfo) (post : Ctx → Group → State → State × Post) : Result :=
  issue w s (postWork w check post)

/-- Issue an engine post that may have to wait. -/
def issuePostWhen (w : Word) (s : State) (wait : Ctx → Group → State → Bool) (check : Ctx → Group → State → Option TrapInfo) (post : Ctx → Group → State → State × Post) : Result :=
  issue w s fun c g s1 => if wait c g s1 then .next s else postWork w check post c g s1

/-- A fresh identifier on a core. -/
def newId (s : State) (core : Nat) : State × Nat := (s.modCore core fun k => { k with nextId := k.nextId + 1 }, (s.core core).nextId)

/-! ## Task records (09 R257 to R259) -/

def Task.f (t : Task) (off n : Nat) : Nat := recField t.body off n
/-- The identifier of the task, and its named predecessors, with the offset of the post (R263). -/
def Task.ident (t : Task) : Nat := (t.f 0 2 + t.off.toNat) % 65536
def Task.pred0 (t : Task) : Nat := (t.f 2 2 + t.off.toNat) % 65536
def Task.pred1 (t : Task) : Nat := (t.f 4 2 + t.off.toNat) % 65536
def Task.typ (t : Task) : Nat := t.f 6 1 % 16
def Task.ctl (t : Task) (i : Nat) : Bool := (t.f 6 1).testBit i
def Task.ftz (t : Task) : Bool := (t.f 7 1).testBit 4

/-- Kind and first slot of a location word (R259). -/
def locKind (w : Nat) : Nat := w / 2 ^ 62
def locSlot (w : Nat) : Nat := w % 64
/-- Address of a memory location. -/
def Task.locAddr (t : Task) (w : Nat) : Nat := (t.base.toNat + w % 2 ^ 57) % 2 ^ 64

/-- K extent per slot of a format (R250), and the bytes of a row of k elements. -/
def fmtExtent (f : Nat) : Nat := [128, 128, 256, 256, 256, 384, 512, 256, 32].getD f 1
def fmtRow (f k : Nat) : Nat :=
  match f with
  | 0 => 2 * k | 1 => 2 * k | 2 => k | 3 => k | 4 => 18 * ceilDiv k 16 | 5 => 12 * ceilDiv k 16 | 6 => 8 * ceilDiv k 16 | 7 => k | _ => 8 * k
/-- Row bytes of a slot tile (R250). -/
def fmtSlotRow (f : Nat) : Nat := if f = 4 ∨ f = 5 then 288 else 256

/-- M, N and K of a tile task. -/
def Task.m (t : Task) : Nat := t.f 0x14 2
def Task.n (t : Task) : Nat := t.f 0x16 2
def Task.k (t : Task) : Nat := t.f 0x18 4
/-- The accumulator lies in MV layout: MV, and ACCST with VEC (R258). -/
def Task.vec (t : Task) : Bool := t.typ == 1 || (t.typ == 2 && (t.f 0x12 1).testBit 1)
/-- Bytes from row to row of the accumulator (R251). -/
def Task.accPitch (t : Task) : Nat := if t.vec then 64 else 1024
def Task.zero (t : Task) : Bool := (t.f 0x12 1).testBit 0

/-- Bytes of an output element (R258): FP32, BF16, FP16, INT32, FP64. -/
def outBytes (o : Nat) : Nat := [4, 2, 2, 4, 8].getD o 4

/-- Slots that a row of an ACCST's D takes in a slot run. The layout is the model's (log 38): rows of 256 bytes as in a slot tile, 128 rows to a slot; for every 128 rows a
run whose slots each hold the next 256 bytes of them. -/
def Task.outSpan (t : Task) : Nat := ceilDiv (t.n * outBytes (t.f 0x11 1)) 256

/-- A run of slots. -/
def slotRun (w n : Nat) : List Nat := (List.range n).map fun i => locSlot w + i
/-- The slots of the accumulator (R251). -/
def Task.accRun (t : Task) : List Nat := slotRun (t.f 0x30 8) (ceilDiv (t.accPitch * (t.m - 1) + 8 * t.n) slotSize)
/-- The slots of a tile operand; none in memory. -/
def Task.tileRun (t : Task) (w fmt : Nat) : List Nat := if locKind w = 0 then slotRun w (ceilDiv t.k (fmtExtent fmt)) else []

/-- The slots that a task reads. -/
def Task.reads (t : Task) : List Nat :=
  match t.typ with
  | 0 => t.tileRun (t.f 0x20 8) (t.f 0x10 1) ++ t.tileRun (t.f 0x28 8) (t.f 0x11 1) ++ if t.zero then [] else t.accRun
  | 1 => t.tileRun (t.f 0x28 8) (t.f 0x11 1) ++ if t.zero then [] else t.accRun
  | 2 => t.accRun
  | 3 => slotRun (t.f 0x20 8) 1
  | _ => slotRun (t.f 0x20 8) 1 ++ if (t.f 0x12 1).testBit 1 then slotRun (t.f 0x28 8) 1 else []

/-- The slots that a task writes. -/
def Task.writes (t : Task) : List Nat :=
  match t.typ with
  | 0 => t.accRun
  | 1 => t.accRun
  | 2 => if locKind (t.f 0x20 8) = 0 then slotRun (t.f 0x20 8) (ceilDiv t.m 128 * t.outSpan) else []
  | 3 => slotRun (t.f 0x28 8) 1 ++ slotRun (t.f 0x30 8) 1
  | _ => slotRun (t.f 0x38 8) 2

/-- A task that names a slot. -/
def Task.uses (t : Task) (k : Nat) : Bool := t.reads.contains k || t.writes.contains k

/-- The number that a restore has given a slot or an entry. -/
def renumber (m : List (Nat × Nat)) (k : Nat) : Nat := ((m.find? fun e => e.1 == k).map (·.2)).getD k
/-- Replace a field of a record. -/
def setField (b : List Byte) (off n x : Nat) : List Byte := b.take off ++ leBytes n x ++ b.drop (off + n)
/-- A location word whose slot is renumbered. -/
def relocLoc (m : List (Nat × Nat)) (b : List Byte) (off : Nat) : List Byte :=
  let w := recField b off 8
  if locKind w = 0 then setField b off 8 (w / 64 * 64 + renumber m (w % 64)) else b
/-- The locations of a record that may name slots, by type; SELLOC only when SEL says that it is used. -/
def slotFields (b : List Byte) : List Nat :=
  match recField b 6 1 % 16 with
  | 0 => [0x20, 0x28, 0x30]
  | 1 => [0x20, 0x28, 0x30]
  | 2 => [0x20, 0x30]
  | 3 => [0x20, 0x28, 0x30]
  | 4 => if (recField b 0x12 1).testBit 1 then [0x20, 0x28, 0x38] else [0x20, 0x38]
  | _ => []
/-- A task record whose slots and slab entry are renumbered (09 R256, 10 R281). -/
def relocRecord (m : List (Nat × Nat) × List (Nat × Nat)) (b : List Byte) : List Byte :=
  let b1 := (slotFields b).foldl (relocLoc m.1) b
  if 3 ≤ recField b 6 1 % 16 ∧ recField b 6 1 % 16 ≤ 4 then setField b1 0x11 1 (renumber m.2 (recField b 0x11 1)) else b1

/-- A fetched task that is neither complete nor failed, of a team. -/
def State.teamTasks (s : State) (tid : Nat) : List Task := (s.core (tid / 32)).tasks.filter fun t => (s.group t.gid).tid == tid

def State.modTask (s : State) (core id : Nat) (f : Task → Task) : State :=
  s.modCore core fun k => { k with tasks := k.tasks.map fun t => if t.id = id then f t else t }
def State.findTask (s : State) (core id : Nat) : Option Task := (s.core core).tasks.find? fun t => t.id == id
def State.modCopy (s : State) (core id : Nat) (f : Copy → Copy) : State :=
  s.modCore core fun k => { k with copies := k.copies.map fun c => if c.id = id then f c else c }
def State.findCopy (s : State) (core id : Nat) : Option Copy := (s.core core).copies.find? fun c => c.id == id

/-! ## Waiting SRELs (09 R254) -/

/-- Release slots: they queue for the zeroing engine in order. -/
def releaseSlots (s : State) (core f n : Nat) : State :=
  s.modCore core fun k => { k with slots := k.slots.mapIdx fun i x => if f ≤ i ∧ i < f + n then .zeroing else x,
                                   zeroQueue := k.zeroQueue ++ (List.range n).map (f + ·) }

/-- The gangs of a group that wait for a SREL which is done go on. -/
def srelPass (s : State) (gid : Nat) : State :=
  let g := s.group gid
  let done (x : Slice) : Bool := match x.wait with
    | .srel f n => !x.isDead && !(s.core (g.tid / 32)).releasing.any fun r => r.gid == gid && r.first == f && r.n == n
    | _ => false
  passWait s gid (sliceSet fun i => done (g.slice i))

/-- After an operation of a team has ended: the slots of each SREL that waits for nothing more are released, and its gang goes on. -/
def srelCheck (s : State) (tid : Nat) : State :=
  let core := tid / 32
  let done := (s.core core).releasing.filter fun r =>
    r.tasks.all (fun i => (s.findTask core i).isNone) && r.copies.all fun e => (s.findCopy e.1 e.2).isNone
  done.foldl (fun t r =>
    srelPass ((releaseSlots t core r.first r.n).modCore core fun k => { k with releasing := k.releasing.filter (· ≠ r) }) r.gid) s

end Sys2Proof.Machine
end

