-- ==== Sys2Proof/Machine/Copy.lean ====
section
/-! DEFINITION. Copies (08 R227 to R238), batches (R239, R240), barrier registers (R241 to R246), and the events COPY_TRANSFER,
COPY_FAULT, COPY_COMPLETE, RELAY_ENQUEUE, BARRIER_ARRIVAL, WAITB_PASS and BARW_PASS. -/
namespace Sys2Proof.Machine

/-! ## Descriptors (R227, R228) -/

/-- What a descriptor says: rows of rowb bytes, from and to where; for CPYS dst is a position in operand memory (R232). -/
structure Shape where
  src : Nat
  dst : Nat
  dim : Bool
  w : Nat
  rows : Nat
  rowb : Nat
  sstr : Nat
  dstr : Nat
deriving DecidableEq, Repr

/-- Register i of a descriptor. -/
def regAt (rs : List Word) (i : Nat) : Nat := (rs.getD i 0).toNat
/-- The pair at registers i, i + 1. -/
def pairAt (rs : List Word) (i : Nat) : Nat := regAt rs i + regAt rs (i + 1) * 2 ^ 32

def shapeOf (kind : CopyKind) (rs : List Word) : Shape :=
  let sh := regAt rs 4; let st := regAt rs 5
  let dim := decide (2 ^ 31 ≤ sh)
  { src := pairAt rs 0, dst := if kind = .cpys then slotSize * (regAt rs 3 % 64) + regAt rs 2 else pairAt rs 2, dim := dim, w := sh / 2 ^ 28 % 8,
    rows := if dim then sh / 2 ^ 16 % 4096 else 1, rowb := if dim then sh % 65536 else sh % 2 ^ 25, sstr := if dim then st % 65536 else 0,
    dstr := if dim then st / 65536 else 0 }

/-- Bytes from the first to the last byte of a side (R229). -/
def Shape.span (x : Shape) (stride : Nat) : Nat := (x.rows - 1) * stride + x.rowb
def Shape.total (x : Shape) : Nat := x.rows * x.rowb
/-- The ranges that the copy reads and writes. -/
def Shape.srcRange (x : Shape) : DWord × Nat := (BitVec.ofNat 64 x.src, x.span x.sstr)
def Shape.dstRange (x : Shape) : DWord × Nat := (BitVec.ofNat 64 x.dst, x.span x.dstr)

/-- The checks of R229 in their order: cause and value of the field that failed. A reserved W gives no unit; the first field of a cause's list
that fails is the one named. -/
def copyAlign (t : Team) (kind : CopyKind) (rs : List Word) : Option (Nat × Nat) :=
  let x := shapeOf kind rs
  let off (v : Nat) : Bool := decide (x.w ≤ 4) && v % 2 ^ x.w != 0
  let s := kind == .cpys
  let dst := if s then regAt rs 2 else x.dst
  let flag := pairAt rs 6
  let shape := regAt rs 4
  let checks : List (Bool × Nat × Nat) :=
    [(off x.src, 0x10, x.src), (off dst, 0x11, dst), (x.dim && x.rows == 0, 0x12, x.rows),
     (x.rowb == 0 || (!x.dim && decide (0x1000000 < x.rowb)) || off x.rowb, 0x12, x.rowb), (x.dim && off x.sstr, 0x13, x.sstr),
     (x.dim && (off x.dstr || decide (x.dstr < x.rowb)), 0x14, x.dstr), (decide (4 < x.w) || (!x.dim && shape / 2 ^ 25 % 8 != 0), 0x15, shape),
     (!x.dim && regAt rs 5 != 0, 0x15, regAt rs 5), (s && regAt rs 3 / 64 != 0, 0x15, regAt rs 3)] ++
    [(!s && decide (x.src < x.dst + x.span x.dstr) && decide (x.dst < x.src + x.span x.sstr), 0x16, x.src),
     (decide (2 ^ 57 < x.src + x.span x.sstr), 0x17, x.src), (!s && decide (2 ^ 57 < x.dst + x.span x.dstr), 0x17, x.dst),
     (kind == .cpyx && (flag % 8 != 0 || (t.offset (BitVec.ofNat 64 flag)).isSome), 0x18, flag)]
  (checks.find? (·.1)).map (·.2)

/-- SLOT_ERR for slots f to f + n - 1 (09 R254, R255): the cause field. beyond is the slot that cause 2 names. -/
def slotErr (s : State) (tid f n beyond : Nat) : Option Nat :=
  if 64 < f + n then some (beyond * 2 ^ 8 + 2)
  else ((List.range n).find? fun i => !s.holdsSlot tid (f + i)).map fun i => (f + i) * 2 ^ 8 + 1

/-- First slot and number of slots that a CPYS writes. -/
def Shape.slots (x : Shape) : Nat × Nat := (x.dst / slotSize, (x.dst + x.span x.dstr - 1) / slotSize - x.dst / slotSize + 1)
/-- The CPYS writes the slot. -/
def Copy.writesSlot (c : Copy) (k : Nat) : Bool :=
  c.kind == .cpys && (let y := (shapeOf c.kind c.regs).slots; decide (y.1 ≤ k) && decide (k < y.1 + y.2))

/-! ## CPY, CPYX, CPYS (R230) -/

/-- Registers of a descriptor. -/
def CopyKind.regs : CopyKind → Nat | .cpyx => 8 | _ => 6

def postCopy (w : Word) (kind : CopyKind) (r : BitVec 1) (b : BitVec 4) (a imm : BitVec 8) (s : State) : Result :=
  let rd (g : Group) : List Word := (List.range kind.regs).map fun i => uget g (a.toNat + i)
  issuePost w s
    (fun c g s1 =>
      match copyAlign (s1.team g.tid) kind (rd g) with
      | some (cause, v) => some (gangTrap g c 8 cause (BitVec.ofNat 64 v))
      | none =>
        let x := shapeOf kind (rd g)
        if kind = .cpys then (slotErr s1 g.tid x.slots.1 x.slots.2 (regAt (rd g) 3 % 64)).map fun e => gangTrap g c 0x11 e 0 else none)
    fun c g s1 =>
      let x := shapeOf kind (rd g)
      let i := newId s1 g.core
      (i.1.setGroup c.gid (joinBatch g (if kind = .cpys then [] else [x.dstRange])),
       .copy { id := i.2, kind := kind, gid := c.gid, regs := rd g, dfield := BitVec.ofNat 8 (r.toNat * 16 + b.toNat),
               scout := imm.toNat, batch := g.openBatch, entry := 0, phase := .posted, progress := 0, stopAt := none, passed := 0, met := none, fault := none })

def execCpy (r : BitVec 1) (b : BitVec 4) (a imm : BitVec 8) (s : State) : Result := postCopy (encode (.cpy r b a imm)) .cpy r b a imm s
def execCpyx (r : BitVec 1) (b : BitVec 4) (a imm : BitVec 8) (s : State) : Result := postCopy (encode (.cpyx r b a imm)) .cpyx r b a imm s
def execCpys (r : BitVec 1) (b : BitVec 4) (a imm : BitVec 8) (s : State) : Result := postCopy (encode (.cpys r b a imm)) .cpys r b a imm s

/-! ## Queues and channels (R233, R236) -/

/-- The copy lies in its die's relay queue. -/
def State.relayed (s : State) (core id : Nat) : Bool := (s.die (dieOf core)).relayQ.contains (core, id)

/-- The copy holds a channel or a relay engine. -/
def Copy.onChannel (c : Copy) : Bool := c.phase == .waiting || c.phase == .running

/-- ENGINE of a copy's locks (R231, 10 R286). -/
def CopyKind.engine : CopyKind → Nat | .cpy => 1 | .cpyx => 2 | .cpys => 1 | .grow => 6

/-- The ranges of a growth: the old run read, the new run written (10 R286). -/
def growRanges (e : Slab) : List (DWord × Nat × Bool) :=
  let ps := kvPs e.fmt.toNat
  [(e.obase, ps * 2 ^ (e.log2p - 1), false), (e.ombase, 2048 * 2 ^ (e.log2p - 1), false), (e.dbase, ps * 2 ^ e.log2p, true), (e.mbase, 2048 * 2 ^ e.log2p, true)]

/-- The locks of a copy (R231). -/
def State.copyLocks (s : State) (core : Nat) (c : Copy) : List Lock :=
  let tid := (s.group c.gid).tid
  let o : LockOwner := { engine := c.kind.engine, core := core, id := c.id, opid := c.entry }
  let mk (r : DWord × Nat × Bool) : Lock := { asid := s.asid tid, base := r.1.toNat, len := r.2.1, write := r.2.2, owner := o }
  let x := shapeOf c.kind c.regs
  match c.kind with
  | .grow => match s.slabOf tid (regAt c.regs 0) with | some e => (growRanges e).map mk | none => []
  | .cpys => [mk (x.srcRange.1, x.srcRange.2, false)]
  | _ => [mk (x.srcRange.1, x.srcRange.2, false), mk (x.dstRange.1, x.dstRange.2, true)]

/-- It is a queued copy's turn to take a channel of its core, or a relay engine of its die: both go in queue order. -/
def copyTurn (s : State) (core : Nat) (c : Copy) : Bool :=
  let tid := (s.group c.gid).tid
  let held (x : Copy) : Bool := x.phase == .queued && (x.kind == .grow || !s.swapped (s.group x.gid).tid)
  if held c = false ∨ (c.kind = .cpys ∧ (s.team tid).filling = true) then false
  else if s.relayed core c.id then
    let q := (s.die (dieOf core)).relayQ.filterMap fun e => (s.findCopy e.1 e.2).map fun x => (e, x)
    decide ((q.filter fun e => e.2.onChannel).length < 4) && (q.find? fun e => held e.2).map (·.1) == some (core, c.id)
  else if c.kind = .cpyx then false
  else
    let q := (s.core core).copies.filter fun x => !s.relayed core x.id && x.kind != .cpyx
    decide ((q.filter fun x => x.onChannel).length < 2) && (q.find? held).map (·.id) == some c.id

/-- A copy takes its channel: it goes on with the locks it holds, takes them, or waits for them. -/
def copyStart (s : State) (core : Nat) (c : Copy) : State :=
  if s.hasLocks (dieOf core) c.kind.engine core c.id then s.modCopy core c.id fun x => { x with phase := .running }
  else
    let r := askLocks s (dieOf core) { engine := c.kind.engine, core := core, id := c.id, opid := c.entry } (s.copyLocks core c)
    r.1.modCopy core c.id fun x => { x with phase := if r.2 then .running else .waiting }

/-- The next piece of a copy: destination and bytes, within one page of the destination, and within one row unless the rows are packed there: an aligned
8-byte piece is written whole (R233). -/
def copyPiece (x : Shape) (done : Nat) : Nat × Nat :=
  let b := done % x.rowb
  let d := x.dst + done / x.rowb * x.dstr + b
  (d, min (if x.dstr = x.rowb then x.total - done else x.rowb - b) (4096 - d % 4096))

/-- Where the n bytes from a byte of a copy come from: address and bytes, row by row and page by page. -/
def copySources (x : Shape) : Nat → Nat → Nat → List (Nat × Nat)
  | 0, _, _ => []
  | k + 1, done, n =>
    if n = 0 then []
    else
      let a := x.src + done / x.rowb * x.sstr + done % x.rowb
      let m := min n (min (x.rowb - done % x.rowb) (4096 - a % 4096))
      (a, m) :: copySources x k (done + m) (n - m)
def Shape.sources (x : Shape) (done n : Nat) : List (Nat × Nat) := copySources x n done n

/-- A CPYS has written to the slot. -/
def slotBegun (x : Shape) (done k : Nat) : Bool :=
  (List.range (done / x.rowb + 1)).any fun r =>
    let lo := x.dst + r * x.dstr
    let n := min x.rowb (done - r * x.rowb)
    decide (0 < n) && decide (lo / slotSize ≤ k) && decide (k ≤ (lo + n - 1) / slotSize)

/-- A task that reads or writes the slot runs (R232). -/
def slotRunning (s : State) (tid k : Nat) : Bool := (s.teamTasks tid).any fun t => t.phase == .running && t.uses k

/-- Where a copy's piece goes: operand memory for CPYS, once no task that uses the slot runs (R232); else memory. -/
def copyPut (s : State) (tid core : Nat) (c : Copy) (x : Shape) (d n : Nat) (bs : List Byte) : State × EngData :=
  if c.kind = .cpys then
    let k := d / slotSize
    if !slotBegun x c.progress k && slotRunning s tid k then (s, .wait) else (s.opWrite (tid / 32) d bs, .ok [])
  else match engPlace s tid core d n true with
    | (s1, .ok ps) => (engWriteAt true s1 tid ps bs, .ok [])
    | (s1, .fault k va) => (s1, .fault k va)
    | (s1, .wait) => (s1, .wait)

/-- What a piece reads before a page that faults: the bytes and how many; with the fault of the page behind them. -/
structure PieceRead where
  bytes : List Byte
  fault : Option (EngineFault × Nat)

/-- Read the sources of a piece, in order, up to the first page that faults; none while one must wait. -/
def readSources (tid core : Nat) : List (Nat × Nat) → State → List Byte → Option (State × PieceRead)
  | [], s, bs => some (s, { bytes := bs, fault := none })
  | (a, n) :: r, s, bs =>
    match engLoad s tid core a n with
    | (_, .wait) => none
    | (s1, .fault k va) => some (s1, { bytes := bs, fault := some (k, va) })
    | (s1, .ok b) => readSources tid core r s1 (bs ++ b)

/-! ### The scout (R235) -/

/-- Translate the sources of a piece from its byte at, in order: the byte at which one faults; none while one must wait. -/
def scoutSources (tid core : Nat) : List (Nat × Nat) → State → Nat → Option (State × Option (Nat × EngineFault × Nat × DWord))
  | [], s, _ => some (s, none)
  | (a, n) :: r, s, at_ =>
    match engPlace s tid core a n false with
    | (_, .wait) => none
    | (s1, .fault k va) => some (s1, some (at_, k, 0, pageOf va))
    | (s1, .ok _) => scoutSources tid core r s1 (at_ + n)

/-- The pages that the piece at a byte of the copy reaches, in the order in which the copy reaches them: the first source, the destination, the other sources. -/
def scoutPiece (s : State) (tid core : Nat) (c : Copy) (x : Shape) (done : Nat) : Option (State × Option (Nat × EngineFault × Nat × DWord)) :=
  let p := copyPiece x done
  let src := x.sources done p.2
  match scoutSources tid core (src.take 1) s done with
  | some (s1, none) =>
    (match if c.kind = .cpys then (s1, .ok []) else engPlace s1 tid core p.1 p.2 true with
      | (_, .wait) => none
      | (s2, .fault k va) => some (s2, some (done, k, 1, pageOf va))
      | (s2, .ok _) => scoutSources tid core (src.drop 1) s2 (done + (src.take 1).foldl (fun n e => n + e.2) 0))
  | r => r

/-- A copy's scout distance in pages: imm8, and 16 for 0 (R230). -/
def Copy.distance (c : Copy) : Nat := if c.scout = 0 then 16 else c.scout

/-- The 4 KiB pages that n bytes from an address lie in. -/
def pagesOf (a n : Nat) : List Nat := (List.range (if n = 0 then 0 else (a % 4096 + n + 4095) / 4096)).map (a / 4096 + ·)

/-- The pages of both sides that bytes lo to hi of a copy lie in, each once, those of the destination marked; operand memory has none. -/
def Copy.pages (c : Copy) (x : Shape) (lo hi : Nat) : List (Bool × Nat) :=
  let of (b : Bool) (y : Shape) : List (Bool × Nat) := (y.sources lo (hi - lo)).flatMap fun e => (pagesOf e.1 e.2).map fun p => (b, p)
  (of false x ++ if c.kind = .cpys then [] else of true { x with src := x.dst, sstr := x.dstr }).eraseDups

/-- The scout goes on: no fault met, and with its next piece no more pages of either side are translated ahead of the data than its distance, or none is yet. The
page that the data is in counts until the data has left it (DESIGN CHOICE, log 37). -/
def scoutAhead (c : Copy) (x : Shape) : Bool :=
  c.met.isNone && decide (c.passed < x.total) &&
  (decide (c.passed ≤ c.progress) || decide ((c.pages x c.progress (c.passed + (copyPiece x c.passed).2)).length ≤ c.distance))

/-- The scout's next piece: what it has passed, or the fault that it keeps. -/
def scoutMove (s : State) (core : Nat) (c : Copy) : Option State :=
  let x := shapeOf c.kind c.regs
  if !scoutAhead c x then none
  else (scoutPiece s (s.group c.gid).tid core c x c.passed).map fun r =>
    r.1.modCopy core c.id fun y => match r.2 with
      | some e => { y with met := some e, passed := e.1 }
      | none => { y with passed := y.passed + (copyPiece x y.passed).2 }

/-- Move the next piece of a running copy (R233, R235), as far as the scout has passed: none while it must wait. At a page that faults the data stops, and the
copy keeps the fault. -/
def copyMove (s : State) (core : Nat) (c : Copy) : Option State :=
  let tid := (s.group c.gid).tid
  let x := shapeOf c.kind c.regs
  let fail (t : State) (k : EngineFault) (side : Nat) (page : DWord) (n : Nat) : State :=
    t.modCopy core c.id fun y => { y with progress := y.progress + n, fault := some (k, side, page) }
  if x.total ≤ c.progress then some (s.modCopy core c.id fun y => { y with phase := .moved })
  else if c.passed ≤ c.progress then c.met.map fun e => fail s e.2.1 e.2.2.1 e.2.2.2 0
  else
    let p := copyPiece x c.progress
    let n0 := min p.2 (c.passed - c.progress)
    let n := match c.stopAt with | some b => min n0 (b - c.progress) | none => n0
    let after (y : Copy) : Phase := if x.total ≤ y.progress + n then .moved else if y.stopAt = some (y.progress + n) then .queued else y.phase
    let relay (t : State) : State := if c.kind = .cpyx then t.modDie (dieOf core) fun d => { d with relayBytes := d.relayBytes + n } else t
    match readSources tid core (x.sources c.progress n) s [] with
    | none => none
    | some (s1, g) =>
      match if g.bytes.isEmpty then (s1, .ok []) else copyPut s1 tid core c x p.1 g.bytes.length g.bytes with
      | (_, .wait) => none
      | (s2, .fault k va) => some (fail s2 k 1 (pageOf va) 0)
      | (s2, .ok _) => match g.fault with
        | some (k, va) => some (fail s2 k 0 (pageOf va) g.bytes.length)
        | none => some ((relay s2).modCopy core c.id fun y => { y with progress := y.progress + n, phase := after y })

/-- A running copy's next step: its scout's while that goes on, else its data's. -/
def copyNext (s : State) (core : Nat) (c : Copy) : Option State := (scoutMove s core c).orElse fun _ => copyMove s core c

/-- COPY_TRANSFER has something to do. -/
def transferReady (s : State) (core : Nat) (c : Copy) : Bool :=
  copyTurn s core c || (c.kind != .grow && c.phase == .running && c.fault.isNone && (copyNext s core c).isSome)

/-- COPY_TRANSFER: a queued copy takes a channel, or a running one has its scout translate or its data move. -/
def execCopyTransfer (core id : Nat) (s : State) : Result :=
  .next (match s.findCopy core id with
    | some c =>
      if copyTurn s core c then copyStart s core c
      else if transferReady s core c then (copyNext s core c).getD s else s
    | none => s)

/-- Cancel a copy (R235): nothing further is written, and it makes no arrival. -/
def cancelCopy (s : State) (core id : Nat) : State :=
  match s.findCopy core id with
  | none => s
  | some c =>
    let s1 := dropLocks s (dieOf core) c.kind.engine core id
    let s2 := (s1.modCore core fun k => { k with copies := k.copies.filter fun x => x.id ≠ id }).modDie (dieOf core) fun d =>
      { d with relayQ := d.relayQ.filter (· ≠ (core, id)) }
    srelCheck (leaveBatch s2 c.gid c.batch) (s.group c.gid).tid

/-- COPY_FAULT (R235): the copy leaves its channel and raises its trap; with no live group in its team it is cancelled (12 R428). -/
def execCopyFault (core id : Nat) (s : State) : Result :=
  .next (match s.findCopy core id with
    | none => s
    | some c =>
      match c.fault with
      | none => s
      | some (k, side, page) =>
        if c.phase ≠ .running then s
        else
          let r := asyncRecord 0x0F (copyFaultKind k * 2 ^ 12 + side * 2 ^ 10 + c.entry) page
            (c.entry + (s.relayed core id).toNat * 64 + c.batch.toNat * 2 ^ 16)
          let s1 := raiseAsync (s.modCopy core id fun x => { x with phase := .stopped }) c.gid r (.copy core id)
          if (s.asyncTarget c.gid).isNone then cancelCopy s1 core id else s1)

/-- RELAY_ENQUEUE is due: a queued CPYX, first of its kind in its core's queue, and room among the 32 places. -/
def relayReady (s : State) (core : Nat) (c : Copy) : Bool :=
  c.kind == .cpyx && c.phase == .queued && !s.relayed core c.id && !s.swapped (s.group c.gid).tid && decide ((s.die (dieOf core)).relayQ.length < 32) &&
  ((s.core core).copies.find? fun x => x.kind == .cpyx && x.phase == .queued && !s.relayed core x.id && !s.swapped (s.group x.gid).tid).map (·.id) == some c.id

/-- A free place of n, among those that some entries do not use; which one is open. -/
def freeEntry (s : State) (n : Nat) (used : List Nat) : Nat :=
  let free := (List.range n).filter fun i => !used.contains i
  (free[Config.order s.time % free.length]?).getD 0

/-- RELAY_ENQUEUE: the CPYX takes a relay-queue entry and gives its descriptor-queue entry back. -/
def execRelayEnqueue (core id : Nat) (s : State) : Result :=
  .next (match s.findCopy core id with
    | some c =>
      if relayReady s core c then
        let used := (s.die (dieOf core)).relayQ.filterMap fun e => (s.findCopy e.1 e.2).map (·.entry)
        (s.modCopy core id fun x => { x with entry := freeEntry s 32 used }).modDie (dieOf core) fun d => { d with relayQ := d.relayQ ++ [(core, id)] }
      else s
    | none => s)

/-! ## Completion (R231, R233, R237) -/

/-- Enter a CPYX addition to a flag in the relay-flag table: the last 4 ranges, the overflow bit, least recently written first (R237). A flag that is marked but
has no entry has lost it: what it held is still owed, so the new entry stands as overflowed (R238). -/
def relayMark (h : Hub) (flag asid : Nat) (r : DWord × Nat) (marked : Bool) : Hub :=
  match h.relayFlags.find? fun f => f.addr == flag with
  | some f =>
    { h with relayFlags := (h.relayFlags.filter fun x => x.addr ≠ flag) ++
        [{ f with ranges := (f.ranges ++ [(asid, r.1, r.2)]).drop (f.ranges.length + 1 - 4), full := f.full || decide (4 ≤ f.ranges.length) }] }
  | none =>
    { h with relayFlags := (if h.relayFlags.length < 1024 then h.relayFlags else h.relayFlags.drop 1) ++ [{ addr := flag, ranges := [(asid, r.1, r.2)], full := marked }] }

/-- FLAG := FLAG + 1 as one applied store at the flag's home, with its mark (R237): a request of the team's partition by the engine of its die. -/
def addFlag (s : State) (asid part die : Nat) (pa : Nat) (r : DWord × Nat) : State :=
  let s := lineRequest s part die pa .homeStore
  let w := s.route pa
  let s1 := (s.modHub fun h => relayMark h w asid r ((s.home (homeOf w)).relayMarks.contains w)).modHome (homeOf w) fun k =>
    { k with relayMarks := if k.relayMarks.contains w then k.relayMarks else k.relayMarks ++ [w] }
  homeStore s1 { cells := cellsOf pa (leBytes 8 ((s1.pread pa 8 + 1) % 2 ^ 64)), keep := true }

/-- Arrival, batch, locks, queue entry: what ends every copy (R231, R233). -/
def endCopy (s : State) (core : Nat) (c : Copy) (ranges : List (DWord × Nat)) : State :=
  let tid := (s.group c.gid).tid
  let s1 := leaveBatch (sendArrival s tid c.dfield ranges) c.gid c.batch
  let s2 := dropLocks s1 (dieOf core) c.kind.engine core c.id
  let s3 := (s2.modCore core fun k => { k with copies := k.copies.filter fun x => x.id ≠ c.id }).modDie (dieOf core) fun d =>
    { d with relayQ := d.relayQ.filter (· ≠ (core, c.id)) }
  srelCheck s3 tid

/-- The destination ranges that a copy's arrival carries. -/
def Copy.dests (c : Copy) : List (DWord × Nat) :=
  match c.kind with
  | .cpys => []
  | .grow => [(BitVec.ofNat 64 (pairAt c.regs 1), regAt c.regs 5), (BitVec.ofNat 64 (pairAt c.regs 3), regAt c.regs 6)]
  | _ => [(shapeOf c.kind c.regs).dstRange]

/-- The flag of a CPYX can be written now, or faults (R235, SIDE 2). -/
def flagPlace (s : State) (core : Nat) (c : Copy) : State × EngReach := engReach s (s.group c.gid).tid core (pairAt c.regs 6) 8 true

def copyDone (s : State) (core : Nat) (c : Copy) : Bool :=
  c.phase == .moved && (c.kind != .cpyx || match (flagPlace s core c).2 with | .wait => false | _ => true)

/-- COPY_COMPLETE (R233): the flag, then the barrier arrival, then the batch; then the locks. A fault of the flag's page stops the copy. -/
def execCopyComplete (core id : Nat) (s : State) : Result :=
  .next (match s.findCopy core id with
    | none => s
    | some c =>
      if !copyDone s core c then s
      else if c.kind ≠ .cpyx then endCopy s core c c.dests
      else match flagPlace s core c with
        | (s1, .ok h) => endCopy (addFlag s1 (s.asid (s.group c.gid).tid) (s.partOf (s.group c.gid).tid) (dieOf core) h.pa (shapeOf c.kind c.regs).dstRange) core c c.dests
        | (s1, .fault k) => s1.modCopy core id fun x => { x with phase := .running, fault := some (k, 2, pageOf (pairAt c.regs 6)) }
        | (_, .wait) => s)

/-- BARRIER_ARRIVAL (R242): arrival n of those on their way reaches its register. -/
def execBarrierArrival (n : Nat) (s : State) : Result :=
  .next (match s.hub.arrivals[n]? with
    | some a => (s.modHub fun h => { h with arrivals := ldrop h.arrivals n }).modTeam a.tid fun t => t.setBar a.bar ((t.bar a.bar).arrive a.ranges)
    | none => s)

/-! ## BATCH and WAITB (R240) -/

def execBatch (d : BitVec 8) (s : State) : Result :=
  issueUniform (encode (.batch d)) d.toNat s fun c g s1 =>
    if 8 ≤ g.closed.length then .next s
    else .next (retire s1 c { uput g d.toNat (g.openBatch.setWidth 32) with
      openBatch := nextBatch g.openBatch, openLeft := 0, closed := if g.openLeft = 0 then g.closed else g.closed ++ [(g.openBatch, g.openLeft)] })

/-- The closed batches at or before n are complete. -/
def batchesDone (g : Group) (n : BitVec 16) : Bool := g.closed.all fun e => !atOrBefore e.1 n

/-- The copies that a WAITB n observes for the first time. -/
def freshPosts (g : Group) (n : BitVec 16) : List PostRange := g.posts.filter fun p => !p.seen && p.batch != g.openBatch && atOrBefore p.batch n

/-- The invalidation of a WAITB that passes: the ranges, or the address space when a copy has fallen out of the list. -/
def waitbInval (s : State) (gid : Nat) (n : BitVec 16) : State :=
  let g := s.group gid
  let ps := freshPosts g n
  let asid := s.asid g.tid; let vmid := s.vmid g.tid
  let s1 := if ps.any fun p => decide (p.no + 16 ≤ g.postNo) then cleanLines s g.core (ofAsid asid vmid) true
    else cleanLines s g.core (fun x => x.inRanges asid vmid (ps.flatMap (·.ranges))) true
  s1.modGroup gid fun g => prunePosts { g with posts := g.posts.map fun p => if ps.contains p then { p with seen := true } else p }

/-- The L1 work of a wait that passes is acknowledged at once. -/
def passReady (s : State) (gid : Nat) : Bool :=
  let g := s.group gid
  cleanReady s g.core (ofAsid (s.asid g.tid) (s.vmid g.tid))

def execWaitb (a : BitVec 8) (s : State) : Result :=
  issue (encode (.waitb a)) s fun c g s1 =>
    let n : BitVec 16 := (readU s1 g c a.toNat).setWidth 16
    if batchesDone g n && passReady s1 c.gid then
      let s2 := waitbInval s1 c.gid n
      .next (retire s2 c (s2.group c.gid))
    else .next (s1.setGroup c.gid (g.mapSlices c.gang fun _ x => { x with wait := .waitb n }))

def waitbReady (s : State) (gid gang : Nat) : Bool :=
  match gangWait s gid gang with
  | .waitb n => batchesDone (s.group gid) n && passReady s gid
  | _ => false

/-- WAITB_PASS. -/
def execWaitbPass (gid gang : Nat) (s : State) : Result :=
  .next (if waitbReady s gid gang then
    match gangWait s gid gang with
    | .waitb n => let m := (s.group gid).gangSlices gang; passWait (waitbInval s gid n) gid m
    | _ => s
  else s)

/-! ## BARINIT, BARA, BARW (R243 to R246) -/

def execBarinit (a : BitVec 8) (b : BitVec 4) (s : State) : Result :=
  issue (encode (.barinit a b)) s fun c g s1 =>
    let n : BitVec 16 := (readU s1 g c a.toNat).setWidth 16
    .next ((retire s1 c (storeClass c g)).modTeam g.tid fun t => t.setBar b.toNat { t.bar b.toNat with expected := n, pending := n, cur := .empty })

/-- BARA: the lap in which the last arrival counts goes to the run lanes; with none, the current lap, or all ones when unarmed. -/
def execBara (d a : BitVec 8) (r : BitVec 1) (b : BitVec 4) (s : State) : Result :=
  issue (encode (.bara d a r b)) s fun c g s1 =>
    if !quiet g c false || (r == 1 && fenceWorks s1 g.tid 1 && !passReady s1 c.gid) then .next s
    else
      let k := (readU s1 g c a.toNat).toNat
      let s2 := if r == 1 then fenceWork s1 g 1 true false else s1
      let x := (s2.team g.tid).bar b.toNat
      let lap : Word := if x.expected = 0 then 0xFFFFFFFF else (x.arriveMany (k - 1)).lap
      let g1 := vput (storeClass c (s2.group c.gid)) d.toNat fun l => if runs g c l then some lap else none
      .next ((retire s2 c g1).modTeam g.tid fun t => t.setBar b.toNat (x.arriveMany k))

/-- BARW for lap L may pass. -/
def barwOpen (b : Barrier) (l : Word) : Bool := b.expected == 0 || (decide (1 ≤ (b.lap - l).toNat) && decide ((b.lap - l).toNat ≤ 2 ^ 31))

/-- What a BARW does as it passes. -/
def barwInval (s : State) (gid bar : Nat) (l : Word) (acq : Bool) : State :=
  let g := s.group gid
  let b := (s.team g.tid).bar bar
  let asid := s.asid g.tid; let vmid := s.vmid g.tid
  let s1 := if b.lap = l + 1 ∧ b.last.full = false then cleanLines s g.core (fun x => x.inRanges asid vmid b.last.items) true
    else cleanLines s g.core (ofAsid asid vmid) true
  if acq then fenceWork s1 g 1 false true else s1

/-- BARW: its lap is a voted operand (03 R80, FIELD 2). -/
def execBarw (a : BitVec 8) (q : BitVec 1) (b : BitVec 4) (s : State) : Result :=
  let w := encode (.barw a q b)
  issue w s fun c g s1 =>
    let lanes := lanesOf (runSet g c)
    let rd (_ l : Nat) : Word := readV g a.toNat l
    match voteFails lanes 1 rd with
    | some hit => trapAt s1 c w (voteTrap lanes 1 2 rd hit)
    | none =>
      let l := readV g a.toNat (lanes.headD 0)
      if barwOpen ((s1.team g.tid).bar b.toNat) l && passReady s1 c.gid then
        let s2 := barwInval s1 c.gid b.toNat l (q == 1)
        .next (retire s2 c (s2.group c.gid))
      else .next (s1.setGroup c.gid (g.mapSlices c.gang fun _ x => { x with wait := .barw b.toNat l (q == 1) }))

def barwReady (s : State) (gid gang : Nat) : Bool :=
  match gangWait s gid gang with
  | .barw b l _ => barwOpen ((s.team (s.group gid).tid).bar b) l && passReady s gid
  | _ => false

/-- BARW_PASS. -/
def execBarwPass (gid gang : Nat) (s : State) : Result :=
  .next (if barwReady s gid gang then
    match gangWait s gid gang with
    | .barw b l acq => let m := (s.group gid).gangSlices gang; passWait (barwInval s gid b l acq) gid m
    | _ => s
  else s)

end Sys2Proof.Machine
end

