-- ==== Sys2Proof/Machine/Slab.lean ====
section
/-! DEFINITION. Key-value slabs (10): pages and their records (R274 to R277), SLABLD, SLABST and KVAPP (R282 to R284), KVGROW with GROW_PAGE_MOVE
(R285, R286), KVEVICT with EVICT_RUN, EVICT_SWITCH, EVICT_COMPLETE and EVICT_FAULT (R295 to R299). -/
namespace Sys2Proof.Machine

/-! ## Descriptors (R278) -/

/-- A slab entry from the 64 bytes of a descriptor. -/
def slabOfBytes (tid : Nat) (b : List Byte) : Slab :=
  let q (off : Nat) : DWord := BitVec.ofNat 64 (recField b off 8)
  { tid := tid, dbase := q 0, mbase := q 8, obase := q 0x10, ombase := q 0x18, len := recField b 0x20 4, wmark := recField b 0x24 2,
    moven := recField b 0x26 2, log2p := recField b 0x28 1, fmt := BitVec.ofNat 8 (recField b 0x29 1), rwin := recField b 0x2A 1,
    state := recField b 0x2B 1, gen := BitVec.ofNat 16 (recField b 0x2C 2), sid := BitVec.ofNat 32 (recField b 0x30 4) }

/-- The 64 bytes of an entry. -/
def Slab.bytes (e : Slab) : List Byte :=
  leBytes 8 e.dbase.toNat ++ leBytes 8 e.mbase.toNat ++ leBytes 8 e.obase.toNat ++ leBytes 8 e.ombase.toNat ++ leBytes 4 e.len ++ leBytes 2 e.wmark ++
  leBytes 2 e.moven ++ leBytes 1 e.log2p ++ [e.fmt] ++ leBytes 1 e.rwin ++ leBytes 1 e.state ++ leBytes 2 e.gen.toNat ++ leBytes 2 0 ++
  leBytes 4 e.sid.toNat ++ leBytes 12 0

/-- The entry as it stands when idle: what SLABST stores. -/
def Slab.idle (e : Slab) : Slab := { e with obase := 0, ombase := 0, wmark := 0, moven := 0, state := 0 }

/-- A descriptor that SLABLD accepts (R278, R283). -/
def slabValid (b : List Byte) : Bool :=
  let e := slabOfBytes 0 b
  e.dbase.toNat % 128 == 0 && e.mbase.toNat % 2048 == 0 && e.obase == 0 && e.ombase == 0 && e.wmark == 0 && e.moven == 0 && decide (e.log2p ≤ 14) &&
  e.fmt.toNat % 4 != 3 && e.fmt.toNat / 4 % 4 != 3 && decide (e.fmt.toNat < 16) && e.state == 0 && recField b 0x2E 2 == 0 && recField b 0x34 12 == 0 &&
  decide (e.len ≤ 64 * 2 ^ e.log2p)

def State.modSlab (s : State) (tid entry : Nat) (f : Slab → Slab) : State :=
  match s.slabOf tid entry with
  | some e => s.modCore (tid / 32) fun k => { k with slabs := sput k.slabs entry (f e) }
  | none => s

/-- Pages that hold some tokens. -/
def Slab.pages (e : Slab) : Nat := ceilDiv e.len 64

/-! ## SLABLD and SLABST -/

def slabSpec : CheckSpec := { align := fun _ => 64, noWindow := false, win := .other, locks := true, lockLine := false }

/-- SLABLD (R282, R283): its load goes through the operand log. -/
def execSlabld (d a : BitVec 8) (p : BitVec 4) (s : State) : Result :=
  issueMem (encode (.slabld d a p)) (some d.toNat) false s
    (fun c g s1 => { kind := .slabld d.toNat p, active := runSet g c, addr := fun _ => readU64 s1 g c a.toNat, data := fun _ => 0 })
    fun _ g s1 o => memCheck s1 g o slabSpec

/-- SLABLD's data has returned: an invalid descriptor traps; else the lowest free entry of the home core is filled. -/
def doSlabld (s : State) (o : LogOp) (d : Nat) (p : BitVec 4) : State :=
  let g := s.group o.gid
  let core := g.tid / 32
  let r := readAll s o
  let b := leBytes 64 ((laneVal r.2 0).getD 0)
  if !slabValid b then
    raiseLogged r.1 o { code := 0x16, cause := 5, fmask := o.active, lane := lowestLane o.active, addr := BitVec.ofNat 64 (o.ea 0), opw := 0 }
  else
    let s1 := finishOp r.1 o
    match (List.range 256).find? fun i => (sfind (s1.core core).slabs i).isNone with
    | some i =>
      (s1.modCore core fun k => { k with slabs := sput k.slabs i (slabOfBytes g.tid b) }).modGroup o.gid fun g => qput (uput g d (BitVec.ofNat 32 i)) p.toNat true
    | none => s1.modGroup o.gid fun g => qput (uput g d 0xFFFFFFFF) p.toNat false

/-- A queued task of the team names the entry, or may name it since it is not fetched (R283). -/
def namesSlab (s : State) (tid entry : Nat) : Bool :=
  (s.teamTasks tid).any fun t => !t.fetched || (decide (3 ≤ t.typ) && t.f 0x11 1 == entry)

/-- The entry may not be stored yet: it is not idle, or, for a SLABST that frees it, a queued task names it (R283). -/
def slabBusy (s : State) (tid entry : Nat) (keep : Bool) : Bool :=
  (match s.slabOf tid entry with | some x => x.state != 0 | none => false) || (!keep && namesSlab s tid entry)

/-- A SLABST that reached the entry before is still to be served there: a KVGROW or KVEVICT of the entry waits for it (R279). -/
def slabStoring (s : State) (tid entry : Nat) : Bool :=
  s.cores.any fun k => k.2.log.any fun o => (s.group o.gid).tid == tid && (match o.kind with | .slabst e _ => e == entry | _ => false)

/-- SLABST (R282, R283). -/
def execSlabst (d a : BitVec 8) (k : BitVec 1) (s : State) : Result :=
  issueMemWhen (encode (.slabst d a k)) none true s
    (fun c g s1 => { kind := .slabst (readU s1 g c d.toNat).toNat (k == 1), active := runSet g c, addr := fun _ => readU64 s1 g c a.toNat, data := fun _ => 0 })
    (fun c g s1 o => (memCheck s1 g o slabSpec).orElse fun _ =>
      if (s1.slabOf g.tid (readU s1 g c d.toNat).toNat).isNone then some (gangTrap g c 0x16 1 0) else none)
    fun c g s1 => slabBusy s1 g.tid (readU s1 g c d.toNat).toNat (k == 1)

/-- A logged SLABST is served when its entry is idle, as the operations before it leave it (R279). -/
def slabstReady (s : State) (o : LogOp) : Bool :=
  match o.kind with
  | .slabst entry keep => !slabBusy s (s.group o.gid).tid entry keep
  | _ => true

/-- SLABST performed: the entry is stored and, without KEEP, freed. Where an earlier SLABST freed it after both were issued there is none to store, and it completes
without storing (DESIGN CHOICE: R283 says nothing of it; log 68). -/
def doSlabst (s : State) (o : LogOp) (entry : Nat) (keep : Bool) : State :=
  let tid := (s.group o.gid).tid
  match s.slabOf tid entry with
  | none => finishOp s o
  | some e =>
    let s1 := (s.placed o).foldl (fun t p => writeAcc t o.gid p.1 p.2 (leNat e.idle.bytes)) s
    let s2 := if keep then s1 else s1.modCore (tid / 32) fun k => { k with slabs := sdel k.slabs entry }
    finishOp s2 o

/-! ## Rows and bounds (R274, R277) -/

/-- The D elements of a row from exact values, rounded RNE (R108, R115). -/
def packRow (fmt : Nat) (xs : List FV) : List Byte :=
  match fmt % 4 with
  | 0 => xs.flatMap fun x => leBytes 2 (fpRound (fmtOf 10) x 0 false false).1
  | f =>
    let w := if f = 1 then 7 else 4
    (List.range (xs.length / 16)).flatMap fun j => leBytes (sxBytes w) (sxPack ((xs.drop (16 * j)).take 16) w 0)

/-- The values that a stored row holds. -/
def rowValues (fmt : Nat) (b : List Byte) : List FV :=
  (List.range (kvD fmt)).map fun d =>
    match fmt % 4 with
    | 0 => (fmtOf 10).value (recField b (2 * d) 2)
    | f => let w := if f = 1 then 7 else 4; sxUnpack (recField b (sxBytes w * (d / 16)) (sxBytes w)) w (d % 16)

/-- kmin (RDN) or kmax (RUP) of one key in BF16. -/
def boundRow (rnd : Nat) (xs : List FV) : List Nat := xs.map fun x => (fpRound (fmtOf 10) x rnd false false).1

/-- Combine bounds: the new one where it goes beyond the old. -/
def joinBounds (up : Bool) (old new : List Nat) : List Nat :=
  (old.zip new).map fun e =>
    let a := (fmtOf 10).value e.1; let b := (fmtOf 10).value e.2
    if (if up then ltFV a b else ltFV b a) then e.2 else e.1

/-- Flags of a page's live tokens: SINK and RECENT (R275, R276). -/
def pageFlags (remap : List Nat) : Nat :=
  let has (i : Nat) : Bool := remap.any fun x => x.testBit 24 && x.testBit i
  (has 25).toNat + 2 * (has 26).toNat
def pageLive (remap : List Nat) : Nat := (remap.filter fun x => x.testBit 24).length

/-- A page header (R275). -/
def pageHeader (remap : List Nat) (e : Slab) (page : Nat) : List Byte :=
  leBytes 2 (pageLive remap) ++ [e.fmt] ++ leBytes 1 (pageFlags remap) ++ leBytes 2 e.gen.toNat ++ leBytes 2 0 ++ leBytes 4 e.sid.toNat ++
  leBytes 4 page ++ leBytes 48 0

/-- The remap words of a record. -/
def remapWords (b : List Byte) : List Nat := (List.range 64).map fun i => recField b (4 * i) 4

/-! ## KVAPP (R284) -/

/-- Page p of an entry is being moved by a growth (R286). -/
def pageMoving (s : State) (tid entry p : Nat) : Bool :=
  match s.slabOf tid entry with
  | some e => e.state == 1 && e.wmark == p && s.cores.any fun k => k.2.copies.any fun c =>
      c.kind == .grow && (s.group c.gid).tid == tid && regAt c.regs 0 == entry && (decide (0 < c.progress) || c.fault.isSome)
  | none => false

/-- An element that KVAPP refuses: a NaN, an infinity, or one whose BF16 rounding overflows. -/
def kvBad (x : Word) : Bool :=
  let v := (fmtOf 8).value x.toNat
  v.isNan || v.isInf || ((fmtOf 10).value (fpRound (fmtOf 10) v 0 false false).1).isInf

/-- KVAPP: key and value of its lanes are captured; a lane that does not run supplies +0. -/
def execKvapp (p : BitVec 4) (a b : BitVec 8) (s : State) : Result :=
  issueMem (encode (.kvapp p a b)) (some p.toNat) true s
    (fun c g s1 => { kind := .kvapp p ((readU s1 g c b.toNat).toNat % 256) (readU s1 g c (b.toNat + 1)), active := runSet g c, addr := fun _ => 0,
                     data := fun l => if runs g c l then BitVec.ofNat 128 (readRegs g a.toNat 2 l) else 0 })
    fun c g s1 o =>
      let i := (readU s1 g c b.toNat).toNat
      if i / 256 ≠ 0 ∨ (readU s1 g c (b.toNat + 1)).toNat / 2 ^ 25 ≠ 0 then some (gangTrap g c 0x16 4 0)
      else match s1.slabOf g.tid i with
        | none => some (gangTrap g c 0x16 1 0)
        | some e =>
          let bad (l : Nat) : Bool := decide (l < kvD e.fmt.toNat) && (kvBad (BitVec.ofNat 32 (o.value l)) || kvBad (BitVec.ofNat 32 (o.value l / 2 ^ 32)))
          if (List.range 256).any bad then
            let m := laneSet bad
            some { code := 0x16, cause := 6, fmask := m, lane := lowestLane m, addr := 0, opw := 0 }
          else none

/-- The parts of a slab access of KVAPP that its translation gives. -/
def kvPlace (s : State) (o : LogOp) (va n : Nat) : List (Nat × Nat × Hit) :=
  (pieces va n).filterMap fun p => match (walkPiece s o p.1 p.2).2 with | .ok h => some (p.1, p.2, h) | _ => none

/-- Read at the banks or the homes. -/
def kvGet (s : State) (o : LogOp) (va n : Nat) : List Byte :=
  (engRead s (s.group o.gid).tid (s.group o.gid).core (kvPlace s o va n)).2

/-- Write at the banks or the homes; the issuing core's own lines go first (R284). -/
def kvPut (s : State) (o : LogOp) (va : Nat) (bs : List Byte) : State :=
  let ps := kvPlace s o va bs.length
  engWrite (ps.foldl (fun t p => flushFor t o.gid p.1) s) (s.group o.gid).tid ps bs

/-- KVAPP may be served: the page it writes, and that of the slot that leaves the recent window, is not being moved. -/
def kvReady (s : State) (o : LogOp) : Bool :=
  match o.kind with
  | .kvapp _ entry _ =>
    match s.slabOf (s.group o.gid).tid entry with
    | some e => !pageMoving s (s.group o.gid).tid entry (e.len / 64) && !(decide (0 < e.rwin) && decide (e.rwin ≤ e.len) &&
        pageMoving s (s.group o.gid).tid entry ((e.len - e.rwin) / 64))
    | none => true
  | _ => true

/-- Recompute LIVE and FLAGS of a page's header from its remap entries. -/
def kvHeader (s : State) (o : LogOp) (pm : Nat) : State :=
  let r := remapWords (kvGet s o (pm + 0x40) 256)
  kvPut (kvPut s o pm (leBytes 2 (pageLive r))) o (pm + 3) (leBytes 1 (pageFlags r))

/-- The writes of KVAPP for a token, at an entry with room. -/
def kvAppend (s : State) (o : LogOp) (e : Slab) (pos : Word) : State :=
  let f := e.fmt.toNat
  let p := e.len / 64; let t := e.len % 64
  let (pd, pm) := kvPage e e p
  let vals (sh : Nat) : List FV := (List.range (kvD f)).map fun l => (fmtOf 8).value (o.value l / 2 ^ sh % 2 ^ 32)
  let key := packRow f (vals 0)
  let kv := rowValues f key
  let s0 := if t = 0 then kvPut s o pm (pageHeader [] e p ++ leBytes 384 0) else s
  let s1 := kvPut (kvPut s0 o (pd + kvRow f * t) key) o (pd + 64 * kvRow f + kvRow f * t) (packRow f (vals 32))
  let bound (off rnd : Nat) (up : Bool) (s : State) : State :=
    let new := boundRow rnd kv
    let old := (List.range (kvD f)).map fun d => recField (kvGet s o (pm + off) (2 * kvD f)) (2 * d) 2
    kvPut s o (pm + off) ((if t = 0 then new else joinBounds up old new).flatMap (leBytes 2))
  let s2 := bound 0x3C0 3 true (bound 0x1C0 2 false s1)
  let entry := pos.toNat % 2 ^ 24 + 2 ^ 24 + (pos.getLsbD 24).toNat * 2 ^ 25 + (decide (0 < e.rwin)).toNat * 2 ^ 26
  let s3 := kvPut (kvPut s2 o (pm + 0x40 + 4 * t) (leBytes 4 entry)) o (pm + 0x140 + 2 * t) (leBytes 2 0)
  let s4 := if 0 < e.rwin ∧ e.rwin ≤ e.len then
      let q := e.len - e.rwin
      let qm := (kvPage e e (q / 64)).2
      let at_ := qm + 0x40 + 4 * (q % 64)
      let x := leNat (kvGet s3 o at_ 4)
      kvHeader (kvPut s3 o at_ (leBytes 4 (if x.testBit 26 then x - 2 ^ 26 else x))) o qm
    else s3
  kvHeader s4 o pm

/-- KVAPP served at its entry (R279, R284). Where a SLABST has freed the entry since it was issued, it gives false and changes nothing (DESIGN CHOICE: R284 says nothing of
it; log 68). -/
def doKvapp (s : State) (o : LogOp) (p : BitVec 4) (entry : Nat) (pos : Word) : State :=
  let tid := (s.group o.gid).tid
  let out (t : State) (q : Bool) : State := (finishOp t o).modGroup o.gid fun g => qput g p.toNat q
  match s.slabOf tid entry with
  | none => out s false
  | some e =>
    if e.state = 2 ∨ e.len = 64 * 2 ^ e.log2p then out s false
    else
      let r := walkAll s o
      match walkOut o r.2 with
      | .done _ => out ((kvAppend r.1 o e pos).modSlab tid entry fun x => { x with len := x.len + 1 }) true
      | _ => putOp s { o with walked := false, hits := [] }

/-! ## Checks of new runs (R286, R296) -/

/-- Two ranges of bytes overlap. -/
def rangesMeet (a n b m : Nat) : Bool := decide (a < b + m) && decide (b < a + n)

/-- Checks 4 and 5 of R286 for a new run of 2^log2p pages of a size. -/
def newRunCheck (g : Group) (c : Ctx) (e : Slab) (nd nm ps log2p : Nat) : Option TrapInfo :=
  if nd % 128 ≠ 0 then some (gangTrap g c 8 1 (BitVec.ofNat 64 nd))
  else if nm % 2048 ≠ 0 then some (gangTrap g c 8 1 (BitVec.ofNat 64 nm))
  else
    let nds := ps * 2 ^ log2p; let nms := 2048 * 2 ^ log2p
    let ods := kvPs e.fmt.toNat * 2 ^ e.log2p; let oms := 2048 * 2 ^ e.log2p
    let hit (a n : Nat) : Bool := rangesMeet a n e.dbase.toNat ods || rangesMeet a n e.mbase.toNat oms || decide (2 ^ 57 < a + n)
    if hit nd nds || hit nm nms then some (gangTrap g c 0x16 7 0) else none

/-- The two base addresses in four registers. -/
def newBases (s : State) (g : Group) (c : Ctx) (a : BitVec 8) : Nat × Nat := ((readU64 s g c a.toNat).toNat, (readU64 s g c (a.toNat + 2)).toNat)

/-- A d field: ARR and the barrier. -/
def barField (r : BitVec 1) (b : BitVec 4) : BitVec 8 := BitVec.ofNat 8 (r.toNat * 16 + b.toNat)

/-! ## KVGROW -/

/-- KVGROW (R285, R286): the entry changes in one step at issue, and the growth is posted to the copy unit. -/
def execKvgrow (r : BitVec 1) (b4 : BitVec 4) (a b : BitVec 8) (s : State) : Result :=
  issuePostWhen (encode (.kvgrow r b4 a b)) s (fun c g s1 => slabStoring s1 g.tid (readU s1 g c b.toNat).toNat)
    (fun c g s1 =>
      match s1.slabOf g.tid (readU s1 g c b.toNat).toNat with
      | none => some (gangTrap g c 0x16 1 0)
      | some e =>
        if e.state ≠ 0 then some (gangTrap g c 0x16 2 0)
        else if e.log2p = 14 then some (gangTrap g c 0x16 3 0)
        else newRunCheck g c e (newBases s1 g c a).1 (newBases s1 g c a).2 (kvPs e.fmt.toNat) (e.log2p + 1))
    fun c g s1 =>
      let entry := (readU s1 g c b.toNat).toNat
      let (nd, nm) := newBases s1 g c a
      let e := (s1.slabOf g.tid entry).getD (slabOfBytes 0 [])
      let n := kvPs e.fmt.toNat * 2 ^ (e.log2p + 1); let m := 2048 * 2 ^ (e.log2p + 1)
      let d := BitVec.ofNat 64 nd; let t := BitVec.ofNat 64 nm
      let s2 := s1.modSlab g.tid entry fun e => { e with obase := e.dbase, ombase := e.mbase, dbase := d, mbase := t, moven := e.pages, wmark := 0,
                                                         log2p := e.log2p + 1, state := 1 }
      let i := newId s2 g.core
      (i.1.setGroup c.gid (joinBatch g [(d, n), (t, m)]),
       .copy { id := i.2, kind := .grow, gid := c.gid, regs := [BitVec.ofNat 32 entry, loHalf d, hiHalf d, loHalf t, hiHalf t, BitVec.ofNat 32 n, BitVec.ofNat 32 m],
               dfield := barField r b4, scout := 0, batch := g.openBatch, entry := 0, phase := .posted, progress := 0, stopAt := none, passed := 0, met := none, fault := none })

/-- Move the rest of the page at WMARK from a byte of it on: its data, then its record; none while it must wait. -/
def growMove (tid core : Nat) (e : Slab) : Nat → State → Nat → Option (State × Nat × Option (EngineFault × Nat × DWord))
  | 0, s, done => some (s, done, none)
  | fuel + 1, s, done =>
    let ps := kvPs e.fmt.toNat
    if ps + 2048 ≤ done then some (s, done, none)
    else
      let part (d m : DWord) : Nat := if done < ps then d.toNat + ps * e.wmark + done else m.toNat + 2048 * e.wmark + (done - ps)
      let src := part e.obase e.ombase; let dst := part e.dbase e.mbase
      let n := min (if done < ps then ps - done else ps + 2048 - done) (min (4096 - src % 4096) (4096 - dst % 4096))
      match engLoad s tid core src n with
      | (_, .wait) => none
      | (s1, .fault k va) => some (s1, done, some (k, 0, pageOf va))
      | (s1, .ok b) =>
        match engPlace s1 tid core dst n true with
        | (_, .wait) => none
        | (s2, .fault k va) => some (s2, done, some (k, 1, pageOf va))
        | (s2, .ok q) => growMove tid core e fuel (engWrite s2 tid q b) (done + n)

/-- What GROW_PAGE_MOVE does for a running growth: none while it must wait. -/
def growStep (s : State) (core : Nat) (c : Copy) : Option State :=
  let tid := (s.group c.gid).tid
  let entry := regAt c.regs 0
  match s.slabOf tid entry with
  | none => none
  | some e =>
    let done (t : State) : State := (t.modSlab tid entry Slab.idle).modCopy core c.id fun x => { x with phase := .moved, progress := 0 }
    if e.moven ≤ e.wmark then some (done s)
    else match growMove tid core e (kvPs e.fmt.toNat + 2048) s c.progress with
      | none => none
      | some (s1, n, some f) => some (s1.modCopy core c.id fun x => { x with progress := n, fault := some f })
      | some (s1, _, none) =>
        let s2 := (s1.modSlab tid entry fun e => { e with wmark := e.wmark + 1 }).modCopy core c.id fun x => { x with progress := 0 }
        some (if e.moven ≤ e.wmark + 1 then done s2 else s2)

/-- A growth that waits for its turn or for its locks takes them now, when it can (R221). -/
def growStart (s : State) (core : Nat) (c : Copy) : State :=
  if c.phase = .queued ∨ c.phase = .waiting then
    copyStart (if s.hasLocks (dieOf core) c.kind.engine core c.id then s else dropLocks s (dieOf core) c.kind.engine core c.id) core c
  else s

/-- Complete a growth of a team that is torn down (R281), holding its locks: the pages left move, as far as nothing faults or waits (DESIGN CHOICE, log 40). -/
def finishGrow (core id : Nat) : Nat → State → State
  | 0, s => s
  | n + 1, s => match s.findCopy core id with
    | some c => if c.fault.isSome || c.phase != .running then s else match growStep s core c with | some t => finishGrow core id n t | none => s
    | none => s

def growReady (s : State) (core : Nat) (c : Copy) : Bool := c.kind == .grow && c.phase == .running && c.fault.isNone && (growStep s core c).isSome

/-- GROW_PAGE_MOVE. -/
def execGrowPageMove (core id : Nat) (s : State) : Result :=
  .next (match s.findCopy core id with
    | some c => if growReady s core c then (growStep s core c).getD s else s
    | none => s)

/-! ## KVEVICT -/

/-- NFMT of a parameter word (R296). -/
def evictFmt (param : Word) : Nat := param.toNat / 2 ^ 22 % 4
/-- The FMT byte of the new run. -/
def newFmt (fmt : BitVec 8) (param : Word) : Nat := if evictFmt param = 0 then fmt.toNat else fmt.toNat / 4 * 4 + evictFmt param

/-- KVEVICT (R285, R296): b is one 64-bit operand, the index below the parameter word. -/
def execKvevict (r : BitVec 1) (b4 : BitVec 4) (a b : BitVec 8) (s : State) : Result :=
  issuePostWhen (encode (.kvevict r b4 a b)) s (fun c g s1 => slabStoring s1 g.tid (loHalf (readU64 s1 g c b.toNat)).toNat)
    (fun c g s1 =>
      let i := (loHalf (readU64 s1 g c b.toNat)).toNat
      let param := hiHalf (readU64 s1 g c b.toNat)
      if i / 256 ≠ 0 then some (gangTrap g c 0x16 4 0)
      else match s1.slabOf g.tid i with
      | none => some (gangTrap g c 0x16 1 0)
      | some e =>
        if e.state ≠ 0 then some (gangTrap g c 0x16 2 0)
        else if param.toNat / 2 ^ 24 ≠ 0 ∨ evictFmt param = 3 ∨ (evictFmt param ≠ 0 ∧ evictFmt param ≤ e.fmt.toNat % 4) then some (gangTrap g c 0x16 4 0)
        else newRunCheck g c e (newBases s1 g c a).1 (newBases s1 g c a).2 (kvPs (newFmt e.fmt param)) e.log2p)
    fun c g s1 =>
      let entry := (loHalf (readU64 s1 g c b.toNat)).toNat
      let param := hiHalf (readU64 s1 g c b.toNat)
      let (nd, nm) := newBases s1 g c a
      let e := (s1.slabOf g.tid entry).getD (slabOfBytes 0 [])
      let d := BitVec.ofNat 64 nd; let t := BitVec.ofNat 64 nm
      let i := newId (s1.modSlab g.tid entry fun e => { e with state := 2 }) g.core
      (i.1.setGroup c.gid (joinBatch g [(d, kvPs (newFmt e.fmt param) * 2 ^ e.log2p), (t, 2048 * 2 ^ e.log2p)]),
       .evict { id := i.2 * 160 + g.core, gid := c.gid, core := g.core, place := 0, entry := entry, ndata := d, nmeta := t, param := param, dfield := barField r b4, batch := g.openBatch,
                phase := .posted, slot := 0, kept := 0, snap := none, old := e, fault := none })

def State.modEvict (s : State) (die : Nat) (x : Evict) (f : Evict → Evict) : State :=
  s.modDie die fun d => { d with evicts := d.evicts.map fun y => if y.id = x.id then f y else y }

/-- The ranges of an eviction's new run. -/
def Evict.dests (x : Evict) : List (DWord × Nat) := [(x.ndata, kvPs (newFmt x.old.fmt x.param) * 2 ^ x.old.log2p), (x.nmeta, 2048 * 2 ^ x.old.log2p)]

/-- The locks of an eviction (R297). -/
def evictLocks (s : State) (x : Evict) : List Lock :=
  let o : LockOwner := { engine := 5, core := x.core, id := x.id, opid := x.place }
  let mk (w : Bool) (r : DWord × Nat) : Lock := { asid := s.asid (s.group x.gid).tid, base := r.1.toNat, len := r.2, write := w, owner := o }
  [(x.old.dbase, kvPs x.old.fmt.toNat * 2 ^ x.old.log2p), (x.old.mbase, 2048 * 2 ^ x.old.log2p)].map (mk false) ++ x.dests.map (mk true)

/-- The operation that a die's engine runs (R295): the first of its queue. One that has stopped by a fault, or waits for the readers of its old pages, holds the
engine. -/
def State.evicting (s : State) (die : Nat) : Option Evict :=
  match (s.die die).evicts with
  | x :: _ => if x.phase = .stopped ∨ x.phase = .moved then none else some x
  | [] => none

/-- A token of the old run as it goes on. -/
structure Token where
  remap : Nat
  mass : Nat
  key : List Byte
  value : List Byte
deriving DecidableEq, Repr

/-- What an eviction gathers for one new page. -/
inductive Gathered where
  | ok (slot : Nat) (snap : Option (Nat × List Nat)) (ts : List Token)
  | fault (k : EngineFault) (va : Nat)
  | wait
deriving DecidableEq, Repr

/-- Read one old token's remap word, and its rows when it survives. -/
def evictToken (s : State) (tid core : Nat) (x : Evict) (e : Slab) (i mass : Nat) : State × EngData × Option Token :=
  let (pd, pm) := kvPage e e (i / 64)
  match engLoad s tid core (pm + 0x40 + 4 * (i % 64)) 4 with
  | (s1, .ok b) =>
    let m := leNat b
    let p := x.param.toNat
    if p % 65536 ≤ mass ∨ (p.testBit 20 && m.testBit 25) ∨ (p.testBit 21 && m.testBit 26) then
      let rb := kvRow e.fmt.toNat
      match engLoad s1 tid core (pd + rb * (i % 64)) rb with
      | (s2, .ok k) =>
        match engLoad s2 tid core (pd + 64 * rb + rb * (i % 64)) rb with
        | (s3, .ok v) =>
          let re (b : List Byte) : List Byte := if evictFmt x.param = 0 then b else packRow (newFmt e.fmt x.param) (rowValues e.fmt.toNat b)
          (s3, .ok [], some { remap := m, mass := mass / 2 ^ (p / 2 ^ 16 % 16), key := re k, value := re v })
        | (s3, w) => (s3, w, none)
      | (s2, w) => (s2, w, none)
    else (s1, .ok [], none)
  | (s1, w) => (s1, w, none)

/-- Gather survivors from an old slot on, until a new page is full or the slab ends (R297). The masses of an old page are read when it is reached. -/
def gather (tid core : Nat) (x : Evict) (e : Slab) : Nat → State → Nat → Option (Nat × List Nat) → List Token → State × Gathered
  | 0, s, i, snap, ts => (s, .ok i snap ts)
  | fuel + 1, s, i, snap, ts =>
    if e.len ≤ i ∨ ts.length = 64 then (s, .ok i snap ts)
    else
      let page := i / 64
      let masses : State × EngData × List Nat :=
        match snap with
        | some (p, ms) => if p = page then (s, .ok [], ms) else
            match engLoad s tid core ((kvPage e e page).2 + 0x140) 128 with
            | (s1, .ok b) => (s1, .ok [], (List.range 64).map fun j => recField b (2 * j) 2)
            | (s1, w) => (s1, w, [])
        | none =>
            match engLoad s tid core ((kvPage e e page).2 + 0x140) 128 with
            | (s1, .ok b) => (s1, .ok [], (List.range 64).map fun j => recField b (2 * j) 2)
            | (s1, w) => (s1, w, [])
      match masses with
      | (s1, .fault k va, _) => (s1, .fault k va)
      | (s1, .wait, _) => (s1, .wait)
      | (s1, .ok _, ms) =>
        match evictToken s1 tid core x e i (ms.getD (i % 64) 0) with
        | (s2, .fault k va, _) => (s2, .fault k va)
        | (s2, .wait, _) => (s2, .wait)
        | (s2, .ok _, t) => gather tid core x e fuel s2 (i + 1) (some (page, ms)) (ts ++ t.toList)

/-- The bytes of a new page with their addresses: rows, then the record without its padding. -/
def newPage (x : Evict) (e : Slab) (page : Nat) (ts : List Token) : List (Nat × List Byte) :=
  let f := newFmt e.fmt x.param
  let rb := kvRow f
  let pd := x.ndata.toNat + kvPs f * page; let pm := x.nmeta.toNat + 2048 * page
  let remap := ts.map (·.remap)
  let keys := ts.map fun t => rowValues f t.key
  let bound (rnd : Nat) (up : Bool) : List Byte :=
    match keys with
    | [] => []
    | k :: r => (r.foldl (fun a v => joinBounds up a (boundRow rnd v)) (boundRow rnd k)).flatMap (leBytes 2)
  [(pd, ts.flatMap (·.key)), (pd + 64 * rb, ts.flatMap (·.value)),
   (pm, pageHeader remap { e with fmt := BitVec.ofNat 8 f, gen := e.gen + 1 } page ++ remap.flatMap (leBytes 4) ++ leBytes (4 * (64 - ts.length)) 0 ++
      ts.flatMap (fun t => leBytes 2 t.mass) ++ leBytes (2 * (64 - ts.length)) 0),
   (pm + 0x1C0, bound 2 false), (pm + 0x3C0, bound 3 true)]

/-- One new page of a running eviction (R297): none while it must wait. A fault stops it with nothing of the page written. -/
def evictPage (s : State) (die : Nat) (x : Evict) (e : Slab) : Option State :=
  let tid := (s.group x.gid).tid
  let core := tid / 32
  let fail (t : State) (k : EngineFault) (va : Nat) : State := t.modEvict die x fun y => { y with fault := some (k, x.kept / 64, BitVec.ofNat 64 va) }
  match gather tid core x e (e.len - x.slot) s x.slot x.snap [] with
  | (_, .wait) => none
  | (s1, .fault k va) => some (fail s1 k va)
  | (s1, .ok i snap ts) =>
    let done (t : State) : State := t.modEvict die x fun y => { y with slot := i, snap := snap, kept := x.kept + ts.length }
    if ts.isEmpty then some (done s1)
    else
      let ws := newPage x e (x.kept / 64) ts
      match engPlaces s1 tid core (ws.map fun w => (w.1, w.2.length, true)) with
      | (_, .wait) => none
      | (s2, .fault k va) => some (fail s2 k va)
      | (s2, .ok ps) => some (done (engWrite s2 tid ps (ws.flatMap (·.2))))

/-- What EVICT_RUN does: the engine's operation takes its locks, waits for them, or writes its next new page. -/
def evictStep (s : State) (die : Nat) : Option State :=
  match s.evicting die with
  | none => none
  | some x =>
    match s.slabOf (s.group x.gid).tid x.entry with
    | none => none
    | some e =>
      if x.phase = .queued then
        if s.hasLocks die 5 x.core x.id then some (s.modEvict die x fun y => { y with phase := .running })
        else
          let y := { x with old := e }
          let r := askLocks s die { engine := 5, core := x.core, id := x.id, opid := x.place } (evictLocks s y)
          some (r.1.modEvict die x fun z => { z with old := e, phase := if r.2 then .running else .waiting })
      else if x.phase = .running ∧ x.fault.isNone ∧ x.slot < e.len then evictPage s die x e
      else none

/-- EVICT_RUN. -/
def execEvictRun (die : Nat) (s : State) : Result := .next ((evictStep s die).getD s)

/-- Where RETIRED lies for page p of an old run. -/
def retireAt (old : Slab) (p : Nat) : Nat := (kvPage old old p).2 + 3

/-- Every old header can be written now, or cannot be written at all: none only waits (R298). -/
def headersReady (s : State) (tid : Nat) (old : Slab) : Bool :=
  (List.range old.pages).all fun p => (engPlace s tid (tid / 32) (retireAt old p) 1 true).2 != .wait

/-- The eviction has read its whole slab. -/
def switchReady (s : State) (die : Nat) : Option Evict :=
  match s.evicting die with
  | some x => match s.slabOf (s.group x.gid).tid x.entry with
    | some e => if x.phase = .running ∧ x.fault.isNone ∧ e.len ≤ x.slot ∧ headersReady s (s.group x.gid).tid e then some x else none
    | none => none
  | none => none

/-- Set RETIRED in an old header, where it can be written (R298). -/
def retirePage (tid core : Nat) (old : Slab) (s : State) (p : Nat) : State :=
  let at_ := retireAt old p
  match engPlace s tid core at_ 1 true with
  | (s1, .ok ps) => engWrite s1 tid ps (leBytes 1 (leNat (engRead s1 tid core ps).2 ||| 4))
  | _ => s

/-- EVICT_SWITCH (R298): the entry turns to the new run in one request; then the old headers are retired. -/
def execEvictSwitch (die : Nat) (s : State) : Result :=
  .next (match switchReady s die with
    | none => s
    | some x =>
      let tid := (s.group x.gid).tid
      match s.slabOf tid x.entry with
      | none => s
      | some e =>
        let s1 := s.modSlab tid x.entry fun e => { e with dbase := x.ndata, mbase := x.nmeta, len := x.kept, fmt := BitVec.ofNat 8 (newFmt e.fmt x.param),
                                                          gen := e.gen + 1, state := 0 }
        let s2 := s1.modEvict die x fun y => { y with phase := .moved, old := e }
        (List.range e.pages).foldl (retirePage tid (tid / 32) e) s2)

/-- No reader is left on the old pages (R299): no task of the team holds one, and the headers that can be read say READERS 0. -/
def readersGone (s : State) (x : Evict) : Bool :=
  let tid := (s.group x.gid).tid
  ((s.teamTasks tid).all fun t => t.held.isEmpty || t.f 0x11 1 != x.entry || (match t.cap with | some c => c.gen != x.old.gen | none => true)) &&
  (List.range x.old.pages).all fun p =>
    match (engLoad s tid (tid / 32) ((kvPage x.old x.old p).2 + 6) 2).2 with
    | .ok b => leNat b == 0
    | _ => true

/-- The eviction of an identifier at a die. -/
def State.findEvict (s : State) (die id : Nat) : Option Evict := (s.die die).evicts.find? fun x => x.id == id

def evictDone (s : State) (x : Evict) : Bool := x.phase == .moved && readersGone s x

/-- EVICT_COMPLETE (R299): arrival, batch, locks. -/
def execEvictComplete (die id : Nat) (s : State) : Result :=
  .next (match s.findEvict die id with
    | some x =>
      if evictDone s x then
        let s1 := leaveBatch (sendArrival s (s.group x.gid).tid x.dfield x.dests) x.gid x.batch
        (dropLocks s1 die 5 x.core x.id).modDie die fun d => { d with evicts := d.evicts.filter fun y => y.id ≠ x.id }
      else s
    | none => s)

/-- Cancel an eviction before its switch: the slab is left unchanged (R299). -/
def cancelEvict (s : State) (die : Nat) (x : Evict) : State :=
  let s1 := (dropLocks s die 5 x.core x.id).modDie die fun d => { d with evicts := d.evicts.filter fun y => y.id ≠ x.id }
  leaveBatch (s1.modSlab (s.group x.gid).tid x.entry fun e => if e.state = 2 then { e with state := 0 } else e) x.gid x.batch

/-- EVICT_FAULT (R299, R300): KV_ERR cause 8. -/
def execEvictFault (die : Nat) (s : State) : Result :=
  .next (match s.evicting die with
    | some x =>
      match x.fault with
      | some (k, page, va) =>
        let r := asyncRecord 0x16 (copyFaultKind k * 2 ^ 12 + 8) va (x.entry + page * 2 ^ 16)
        let s1 := raiseAsync (s.modEvict die x fun y => { y with phase := .stopped }) x.gid r (.evict die x.id)
        if (s.asyncTarget x.gid).isNone then cancelEvict s1 die x else s1
      | none => s
    | none => s)

end Sys2Proof.Machine
end

