-- ==== Sys2Proof/Machine/Tile.lean ====
section
/-! DEFINITION. Tile arithmetic: the inputs of a step (09 R250, 04 R113 to R115), ACC64 (R116 to R118), the INT8 and FP64 accumulators and the
conversions of accumulators (R119, R120). -/
namespace Sys2Proof.Machine

/-! ## Inputs -/

/-- The SX magnitude width of a tile format; none for an element format. -/
def fmtSx (f : Nat) : Option Nat := match f with | 4 => some 7 | 5 => some 4 | 6 => some 2 | _ => none
/-- The floating-point format of a tile format code (09 R250). -/
def fmtTile (f : Nat) : Fmt := match f with | 0 => fmtOf 10 | 1 => fmtOf 9 | 2 => fmtOf 12 | 3 => fmtOf 13 | _ => fmtOf 11

/-- A byte list as a little-endian number. -/
def bytesNat : List Byte → Nat
  | [] => 0
  | b :: r => b.toNat + 256 * bytesNat r

/-- Value k of a row that starts at the first byte: an element, or one of an SX block. -/
def tileValue (f : Nat) (ftz : Bool) (bs : List Byte) (k : Nat) : FV :=
  match fmtSx f with
  | some w => sxUnpack (bytesNat ((bs.drop (sxBytes w * (k / 16))).take (sxBytes w))) w (k % 16)
  | none =>
    let n := (fmtTile f).w / 8
    fpVal (fmtTile f) ftz (bytesNat ((bs.drop (n * k)).take n))

/-- What feeds one row or column in one K-step: its values, and whether it poisons its outputs (R118). -/
structure Feed where
  vals : List FV
  bad : Bool
deriving DecidableEq, Repr

/-- n values of a row from k on. -/
def feedOf (f : Nat) (ftz : Bool) (bs : List Byte) (k n : Nat) : Feed :=
  let vs := (List.range n).map fun i => tileValue f ftz bs (k + i)
  { vals := vs, bad := vs.any fun v => v.isNan || v.isInf }

/-! ## ACC64 (R116 to R118) -/

/-- S and E of an element. -/
def accS (a : DWord) : Int := (a.sshiftRight 8).toInt
def accE (a : DWord) : Nat := a.toNat % 256
def accOf (s : Int) (e : Nat) : DWord := BitVec.ofNat 64 ((s % 2 ^ 56).toNat * 256 + e)
/-- The NaN element. -/
def accNan : DWord := 0xFF

/-- floor(log2) of a finite nonzero product. -/
def prodTop (p : FV × FV) : Option Int := (mulFV p.1 p.2).1.top
/-- X over some products. -/
def topMax (a b : Option Int) : Option Int := match a, b with | some x, some y => some (max x y) | some x, none => some x | none, y => y
def prodsTop (ps : List (FV × FV)) : Option Int := ps.foldl (fun m p => topMax m (prodTop p)) none

/-- clamp47. -/
def clamp47 (q : Int) : Int := min (max q (-(2 ^ 47 - 1))) (2 ^ 47 - 1)

/-- A product shifted to the quantum 2^(y - 173), truncated toward zero. -/
def prodAt (p : FV × FV) (y : Int) : Int :=
  match (mulFV p.1 p.2).1 with
  | .fin neg m e =>
    let d := e - (y - 173)
    let q : Nat := if 0 ≤ d then m * 2 ^ d.toNat else m / 2 ^ (-d).toNat
    clamp47 (if neg then -(q : Int) else q)
  | _ => 0

/-- acc_step of R117 for one output, with the step's X. -/
def accStep (x : Option Int) (acc : DWord) (ps : List (FV × FV)) (bad : Bool) : DWord :=
  if accE acc = 0xFF then acc
  else if bad then accNan
  else match x with
  | none => acc
  | some x =>
    let y := clampInt 0 254 (x + 127)
    let sum := ps.foldl (fun (t : Int) p => t + prodAt p y) 0
    let e := accE acc
    let s := if e < y then (accS acc).tdiv (2 ^ (y - e)) else accS acc
    let sum := if y < e then sum.tdiv (2 ^ (e - y)) else sum
    let e := max e y
    let t := s + sum
    if 2 ^ 55 ≤ t ∨ t < -2 ^ 55 then
      (if e = 254 then accOf (if 0 < t then 2 ^ 55 - 1 else -(2 ^ 55 - 1)) e else accOf (t.tdiv 2) (e + 1))
    else accOf t e

/-- The exact value of an ACC64 element. -/
def accValue (a : DWord) : FV :=
  if accE a = 0xFF then .nan false else .fin (decide (accS a < 0)) (accS a).natAbs ((accE a : Int) - 173)

/-! ## One K-step of outputs (R117, R120) -/

/-- The accumulator kind of an input pair (09 R260): 0 ACC64, 1 INT64, 2 binary64. -/
def accKind (a b : Nat) : Option Nat :=
  if a ≤ 6 ∧ b ≤ 6 then some 0 else if a = 7 ∧ b = 7 then some 1 else if a = 8 ∧ b = 8 then some 2 else none

/-- An INT8 element of a row. -/
def int8At (bs : List Byte) (k : Nat) : Int := (bs.getD k 0).toInt
/-- A binary64 element of a row. -/
def f64At (bs : List Byte) (k : Nat) : Nat := bytesNat ((bs.drop (8 * k)).take 8)

/-- One fused multiply-add of binary64 under RNE (R120). -/
def fma64 (ftz : Bool) (acc x y : Nat) : Nat :=
  let fm := fmtOf 11
  let v := fpVal fm ftz
  let p := (mulFV (v x) (v y)).1
  if p.isNan || (v acc).isNan then fm.nan else (fpRound fm (sumFV [p, v acc] 0).1 0 false ftz).1

/-- Update a matrix of accumulators, row by row, with n products per output from place k of the rows of A and of B. -/
def tileStep (fa fb : Nat) (ftz : Bool) (as bs : List (List Byte)) (k n : Nat) (accs : List (List DWord)) : List (List DWord) :=
  match accKind fa fb with
  | some 1 => (accs.zip as).map fun r => (r.1.zip bs).map fun c =>
      c.1 + BitVec.ofInt 64 ((List.range n).foldl (fun (t : Int) i => t + int8At r.2 (k + i) * int8At c.2 (k + i)) 0)
  | some 2 => (accs.zip as).map fun r => (r.1.zip bs).map fun c =>
      BitVec.ofNat 64 ((List.range n).foldl (fun t i => fma64 ftz t (f64At r.2 (k + i)) (f64At c.2 (k + i))) c.1.toNat)
  | _ =>
    let fas := as.map fun r => feedOf fa ftz r k n
    let fbs := bs.map fun r => feedOf fb ftz r k n
    let x := fas.foldl (fun m a => fbs.foldl (fun m b => topMax m (prodsTop (a.vals.zip b.vals))) m) none
    (accs.zip fas).map fun r => (r.1.zip fbs).map fun c => accStep x c.1 (r.2.vals.zip c.2.vals) (r.2.bad || c.2.bad)

/-- All K-steps over rows that hold K values each. -/
def tileSteps (fa fb : Nat) (ftz : Bool) (as bs : List (List Byte)) (kk : Nat) (accs : List (List DWord)) : List (List DWord) :=
  (List.range (ceilDiv kk 16)).foldl (fun t i => tileStep fa fb ftz as bs (16 * i) (min 16 (kk - 16 * i)) t) accs

/-! ## Conversion (R119, R120) -/

/-- An accumulator element of a kind as an output element. -/
def accConvert (kind out : Nat) (ftz : Bool) (a : DWord) : Nat :=
  match kind with
  | 0 =>
    let fm := match out with | 1 => fmtOf 10 | 2 => fmtOf 9 | _ => fmtOf 8
    (fpRound fm (if accE a = 0xFF then .nan false else if accS a = 0 then .fin false 0 0 else accValue a) 0 false ftz).1
  | 1 =>
    if out = 3 then ((min (max a.toInt (-2 ^ 31)) (2 ^ 31 - 1)) % 2 ^ 32).toNat
    else (fpRound (fmtOf 8) (.fin (decide (a.toInt < 0)) a.toInt.natAbs 0) 0 false false).1
  | _ =>
    let fm := fmtOf 11
    if out = 0 then (fpRound (fmtOf 8) (fpVal fm ftz a.toNat) 0 false ftz).1
    else if (fm.value a.toNat).isNan then fm.nan
    else if ftz && fm.subnormal a.toNat then fm.sign (a.getLsbD 63) 0 else a.toNat

end Sys2Proof.Machine
end

