-- ==== Sys2Proof/Machine/Attn.lean ====
section
/-! DEFINITION. KVSEL and ATTN tasks (10 R287 to R294): the capture, the steps, the workspace. -/
namespace Sys2Proof.Machine

/-! ## Values in FP32 -/

/-- f32 of R291: rounding to FP32 under RNE with the task's FTZ. -/
def f32 (ftz : Bool) (v : FV) : Nat := (fpRound (fmtOf 8) v 0 false ftz).1
/-- The value of FP32 bits. -/
def v32 (x : Nat) : FV := (fmtOf 8).value x
def add32 (ftz : Bool) (x y : Nat) : Nat := f32 ftz (sumFV [v32 x, v32 y] 0).1
def mul32 (ftz : Bool) (x y : Nat) : Nat := f32 ftz (mulFV (v32 x) (v32 y)).1
def sub32 (ftz : Bool) (x y : Nat) : Nat := f32 ftz (sumFV [v32 x, (v32 y).neg] 0).1
/-- fexp2 of R126 under RNE with the task's FTZ. -/
def exp32 (ftz : Bool) (x : Nat) : Nat := (fexp2 (if ftz then 0x800 else 0) (fmtOf 8) (v32 x)).1
/-- The larger by the FMAX rule (R122). -/
def max32 (x y : Nat) : Nat := f32 false (maxFV (v32 x) (v32 y))

/-- A quotient rounded once to FP32 under RNE. -/
def div32 (ftz : Bool) (x y : Nat) : Nat :=
  let fm := fmtOf 8
  match v32 x, v32 y with
  | .nan _, _ => fm.nan
  | _, .nan _ => fm.nan
  | .inf _, .inf _ => fm.nan
  | .inf a, .fin b _ _ => fm.sign (a ^^ b) fm.infBits
  | .fin a _ _, .inf b => fm.sign (a ^^ b) 0
  | .fin a m e, .fin b n k =>
    if n = 0 then (if m = 0 then fm.nan else fm.sign (a ^^ b) fm.infBits)
    else if m = 0 then fm.sign (a ^^ b) 0
    else
      let q := m * 2 ^ (n.log2 + 64)
      (fpRoundMag fm (a ^^ b) (q / n) (q % n != 0) (e - k - (n.log2 + 64 : Nat)) 0 false ftz).1

/-! ## The task's fields (R287) -/

/-- The tile format code of Q, and of a slab's rows. -/
def Task.qfmt (t : Task) : Nat := t.f 0x10 1
def kvTile (fmt : Nat) : Nat := match fmt % 4 with | 0 => 0 | 1 => 4 | _ => 5
def Task.isSel (t : Task) : Bool := (t.f 0x12 1).testBit 1
def Task.isMass (t : Task) : Bool := (t.f 0x12 1).testBit 0
/-- The captured entry. -/
def Task.slab (t : Task) : Slab := t.cap.getD (slabOfBytes 0 [])
/-- D of the captured entry. -/
def Task.dim (t : Task) : Nat := kvD t.slab.fmt.toNat
/-- Position of the workspace in operand memory (R294). -/
def Task.workspace (t : Task) : Nat := slotSize * locSlot (if t.typ = 3 then t.f 0x30 8 else t.f 0x38 8)
def Task.selPos (t : Task) : Nat := slotSize * locSlot (t.f 0x28 8)

/-- Row r of Q (R287). -/
def qRow (s : State) (t : Task) (core r : Nat) : List Byte := s.opRead core (slotSize * locSlot (t.f 0x20 8) + 512 * r) 512

/-- Row r selects page p (R291): entries of SELLOC, or every page without SEL. -/
def selects (s : State) (t : Task) (core r p : Nat) : Bool :=
  !t.isSel || (List.range 32).any fun i => leNat (s.opRead core (t.selPos + 64 * r + 2 * i) 2) == p

/-- U: the pages of an ATTN under an entry, ascending. -/
def unionList (s : State) (t : Task) (core : Nat) (e : Slab) : List Nat :=
  (List.range e.pages).filter fun p => p != 0xFFFF && (List.range t.m).any fun r => selects s t core r p

/-- The pages that a task holds (R289). -/
def heldPages (s : State) (t : Task) (core : Nat) (e : Slab) : List Nat := if t.typ = 3 then List.range e.pages else unionList s t core e

/-- Steps of a captured task. -/
def kvSteps (s : State) (t : Task) (core : Nat) : Nat :=
  if t.typ = 3 then t.slab.pages + 1
  else (unionList s t core t.slab).length * (if t.isMass then 2 else 1) + 1

/-! ## Pages -/

/-- Data and record of page p for a capture of a slab entry (R279). -/
def capPage (s : State) (tid entry : Nat) (cap : Slab) (p : Nat) : Nat × Nat :=
  match s.slabOf tid entry with
  | some e => kvPage e cap p
  | none => kvPage cap cap p
def taskPage (s : State) (tid : Nat) (t : Task) (p : Nat) : Nat × Nat := capPage s tid (t.f 0x11 1) t.slab p

/-- How a step of a task ends: it has run, it was stopped before, or it must wait. -/
inductive StepOut where
  | ok (s : State)
  | fault (s : State) (k : EngineFault) (opnd va : Nat)
  | wait
deriving DecidableEq, Repr

/-- Go on with the places of an access. -/
def withPlaces (r : State × EngPlace) (opnd : Nat) (k : State → List (Nat × Nat × Hit) → StepOut) : StepOut :=
  match r with
  | (s, .ok ps) => k s ps
  | (s, .fault f va) => .fault s f opnd va
  | (_, .wait) => .wait

/-- Go on with the bytes of a read. -/
def withData (r : State × EngData) (opnd : Nat) (k : State → List Byte → StepOut) : StepOut :=
  match r with
  | (s, .ok b) => k s b
  | (s, .fault f va) => .fault s f opnd va
  | (_, .wait) => .wait

/-- Change READERS at a placed header field. -/
def readersAt (s : State) (tid core : Nat) (up : Bool) (ps : List (Nat × Nat × Hit)) : State :=
  let x := leNat (engRead s tid core ps).2
  engWrite s tid ps (leBytes 2 (if up then x + 1 else x - 1))

/-- The capture of R289: one request at the entry. It waits while a page is being moved or holds 0xFFFF readers. -/
def kvCapture (s : State) (tid core : Nat) (t : Task) : StepOut :=
  let entry := t.f 0x11 1
  match s.slabOf tid entry with
  | none => .wait
  | some e =>
    let pages := heldPages s t core e
    if pages.any fun p => pageMoving s tid entry p then .wait
    else
      let at_ (p : Nat) : Nat := (kvPage e e p).2 + 6
      withPlaces (engPlaces s tid core (pages.map fun p => (at_ p, 2, true))) 5 fun s1 ps =>
        if ps.any fun p => leNat (engRead s1 tid core [p]).2 == 0xFFFF then .wait
        else
          let s2 := ps.foldl (fun u p => readersAt u tid core true [p]) s1
          let cap := { e.idle with rwin := 0 }
          .ok ((s2.opWrite core t.workspace cap.bytes).modTask core t.id fun x => { x with cap := some e, held := pages })

/-- A task's last read of a page: READERS falls (R289). -/
def dropReader (s : State) (tid core : Nat) (t : Task) (p : Nat) (ps : List (Nat × Nat × Hit)) : State :=
  (readersAt s tid core false ps).modTask core t.id fun x => { x with held := x.held.filter (· ≠ p) }

/-- Make a lowering of READERS: none while it must wait, for a page that a growth is moving (R286) or at its home. Where the header cannot be written there is
nothing to lower. -/
def lowerReaders (s : State) (x : ReaderDrop) : Option State :=
  let core := x.tid / 32
  match x.pa with
  | some pa => if s.lineHeld pa then none else some ((lineRequest s x.part (dieOf core) pa .homeStore).pstore pa 2 (s.pread pa 2 - 1))
  | none =>
    if pageMoving s x.tid x.entry x.page then none
    else match engPlace s x.tid core ((capPage s x.tid x.entry x.cap x.page).2 + 6) 2 true with
      | (s1, .ok ps) => some (readersAt s1 x.tid core false ps)
      | (_, .fault _ _) => some s
      | (_, .wait) => none

/-- A cancelled task gives back the pages it holds; a lowering of READERS that must wait is made later. -/
def releasePages (s : State) (tid : Nat) (t : Task) : State :=
  t.held.foldl (fun u p =>
    let x : ReaderDrop := { tid := tid, part := s.partOf tid, entry := t.f 0x11 1, page := p, cap := t.slab, pa := none }
    match lowerReaders u x with
    | some v => v
    | none => u.modHub fun h => { h with drops := h.drops ++ [x] }) s

/-- The first lowering of READERS that waits and can be made now. -/
def dropDue (s : State) : Option ReaderDrop := s.hub.drops.find? fun x => (lowerReaders s x).isSome
/-- The lowering is made. -/
def execReaderDrop (s : State) : Result :=
  .next (match dropDue s with
    | some x => let s1 := s.modHub fun h => { h with drops := h.drops.erase x }; (lowerReaders s1 x).getD s1
    | none => s)

/-- A lowering of READERS of a team's tasks is still to be made through its slab table. -/
def dropsLeft (s : State) (tid : Nat) : Bool := s.hub.drops.any fun x => x.tid == tid && x.pa.isNone

/-- A team is torn down: the lowerings that its tasks owe take the addresses that their pages have now, whatever a move still holds up; one whose page cannot be reached
is given up. -/
def settleDrops (s : State) (tid : Nat) : State :=
  let settle (x : ReaderDrop) : Option ReaderDrop :=
    if x.tid ≠ tid ∨ x.pa.isSome then some x
    else
      let at_ := (capPage s tid x.entry x.cap x.page).2 + 6
      if ((s.team tid).offset (BitVec.ofNat 64 at_)).isSome then none
      else match reach s { s.xctx tid (tid / 32) false with noAD := true } at_ 4 with
        | (_, .ok h) => some { x with pa := some h.pa }
        | _ => none
  s.modHub fun h => { h with drops := h.drops.filterMap settle }

/-! ## KVSEL (R290) -/

/-- B of one row: the exact sum rounded once to FP32 under RUP; a NaN product makes a NaN bound. -/
def kvBound (q lo hi : List FV) : Nat :=
  let terms := (q.zip (lo.zip hi)).map fun e =>
    let a := (mulFV e.1 e.2.1).1; let b := (mulFV e.1 e.2.2).1
    if a.isNan || b.isNan then FV.nan false else if ltFV a b then b else a
  (fpRound (fmtOf 8) (sumFV terms 3).1 3 false false).1

/-- Bound a ranks above bound b: a NaN above every number. -/
def boundAbove (a b : Nat) : Bool :=
  let x := v32 a; let y := v32 b
  if x.isNan then !y.isNan else if y.isNan then false else ltFV y x

/-- Put a page in rank order, behind equal bounds. -/
def rankInsert (e : Nat × Nat) : List (Nat × Nat) → List (Nat × Nat)
  | [] => [e]
  | x :: r => if boundAbove e.2 x.2 then e :: x :: r else x :: rankInsert e r

/-! The running lists in the workspace (log 39): from byte 64 the forced pages, 32 of 2 bytes; from byte 192 on, 128 bytes for each row, its best unforced pages in rank order,
16 of a 2-byte page, 2 bytes 0 and a 4-byte bound. 0xFFFF is no page. -/

/-- The forced pages so far, at most 32. -/
def forcedList (s : State) (core : Nat) (t : Task) : List Nat :=
  if t.step = 0 then [] else ((List.range 32).map fun i => leNat (s.opRead core (t.workspace + 64 + 2 * i) 2)).filter (· ≠ 0xFFFF)

/-- The best unforced pages of row r so far, with their bounds. -/
def rowList (s : State) (core : Nat) (t : Task) (r : Nat) : List (Nat × Nat) :=
  if t.step = 0 then []
  else ((List.range 16).map fun i => let a := t.workspace + 192 + 128 * r + 8 * i; (leNat (s.opRead core a 2), leNat (s.opRead core (a + 4) 4))).filter (·.1 ≠ 0xFFFF)

/-- Enter page p with its bounds in the running lists. -/
def keepLists (s : State) (core : Nat) (t : Task) (p : Nat) (forced : Bool) (bs : List Nat) : State :=
  let fs := if forced then (forcedList s core t ++ [p]).take 32 else forcedList s core t
  let row (r : Nat) : List (Nat × Nat) := if forced then rowList s core t r else (rankInsert (p, bs.getD r 0) (rowList s core t r)).take (t.f 0x12 1)
  let entry (e : Nat × Nat) : List Byte := leBytes 2 e.1 ++ [0, 0] ++ leBytes 4 e.2
  let s1 := s.opWrite core (t.workspace + 64) ((List.range 32).flatMap fun i => leBytes 2 (fs.getD i 0xFFFF))
  (List.range t.m).foldl (fun u r => u.opWrite core (t.workspace + 192 + 128 * r) ((List.range 16).flatMap fun i => entry ((row r).getD i (0xFFFF, 0)))) s1

/-- Page p of a KVSEL: its header, kmin and kmax are read, its bounds enter the running lists. -/
def kvselPage (s : State) (tid core : Nat) (t : Task) (p : Nat) : StepOut :=
  let d := t.dim
  let pm := (taskPage s tid t p).2
  if pageMoving s tid (t.f 0x11 1) p then .wait
  else
    withPlaces (engPlace s tid core (pm + 6) 2 true) 5 fun s1 rd =>
      withData (engLoad s1 tid core pm 64) 5 fun s2 hd =>
        withData (engLoad s2 tid core (pm + 0x1C0) (2 * d)) 5 fun s3 lo =>
          withData (engLoad s3 tid core (pm + 0x3C0) (2 * d)) 5 fun s4 hi =>
            let bf (b : List Byte) : List FV := (List.range d).map fun i => (fmtOf 10).value (recField b (2 * i) 2)
            let row (r : Nat) : Nat := kvBound ((List.range d).map fun i => tileValue t.qfmt t.ftz (qRow s t core r) i) (bf lo) (bf hi)
            .ok (keepLists (dropReader s4 tid core t p rd) core t p (recField hd 3 1 % 4 != 0) ((List.range t.m).map row))

/-- The selection of row r (R290): the forced pages and the best of the others, in ascending order. -/
def selection (s : State) (core : Nat) (t : Task) (r : Nat) : List Nat :=
  let forced := forcedList s core t
  let best := ((rowList s core t r).take (min (t.f 0x12 1) (32 - forced.length))).map (·.1)
  (List.range t.slab.pages).filter fun p => (forced ++ best).contains p

/-- The final step of KVSEL: the lists of 64 rows. -/
def kvselFinal (s : State) (core : Nat) (t : Task) : State :=
  (List.range 64).foldl (fun u r =>
    let l := if r < t.m then selection s core t r else []
    u.opWrite core (t.selPos + 64 * r) ((List.range 32).flatMap fun i => leBytes 2 (l.getD i 0xFFFF))) s

/-! ## ATTN (R291 to R294) -/

/-- The state of one query row: m, l and o as FP32 bits. -/
structure Row where
  m : Nat
  l : Nat
  o : List Nat
deriving DecidableEq, Repr

def Row.init (d : Nat) : Row := { m := 0xFF800000, l := 0, o := List.replicate d 0 }
def Row.words (r : Row) : List Nat := r.m :: r.l :: r.o
def rowOfWords (w : List Nat) : Row := { m := w.getD 0 0, l := w.getD 1 0, o := w.drop 2 }

/-- The rows of a task: held in the pair, in its workspace after a stop, or at their start. -/
def taskRows (s : State) (core : Nat) (t : Task) : List Row :=
  let d := t.dim
  (List.range t.m).map fun r =>
    if t.cells.isEmpty then
      (if t.step = 0 then Row.init d
       else rowOfWords ((List.range (d + 2)).map fun i => leNat (s.opRead core (t.workspace + 64 + 1040 * r + 4 * i) 4)))
    else rowOfWords (((t.cells.drop ((d + 2) * r)).take (d + 2)).map (·.toNat))

/-- Keep the rows in the pair. -/
def keepRows (s : State) (core : Nat) (t : Task) (rs : List Row) : State :=
  s.modTask core t.id fun x => { x with cells := rs.flatMap fun r => r.words.map (BitVec.ofNat 64) }

/-- Write the rows to the workspace, as the task stops (R294). -/
def spillRows (s : State) (core : Nat) (t : Task) : State :=
  ((taskRows s core t).mapIdx fun i r => (i, r)).foldl (fun u e => u.opWrite core (t.workspace + 64 + 1040 * e.1) (e.2.words.flatMap (leBytes 4))) s

/-- A matrix of ACC64 sums of products over n places, taken 16 at a time; each K-step's X is over the pairs that take part (R291). -/
def dotMatrix (rows cols n : Nat) (a b : Nat → Nat → FV) (on : Nat → Nat → Nat → Bool) (bad : Nat → Nat → Nat → Bool) : List (List DWord) :=
  let pairs (r c i : Nat) : List (FV × FV) :=
    ((List.range (min 16 (n - 16 * i))).filter fun j => on r c (16 * i + j)).map fun j => (a r (16 * i + j), b c (16 * i + j))
  (List.range (ceilDiv n 16)).foldl (fun accs i =>
    let x := (List.range rows).foldl (fun m r => (List.range cols).foldl (fun m c => topMax m (prodsTop (pairs r c i))) m) none
    accs.mapIdx fun r l => l.mapIdx fun c v =>
      let ps := pairs r c i
      if ps.isEmpty then v else accStep x v ps ((List.range 16).any fun j => on r c (16 * i + j) && bad r c (16 * i + j)))
    (List.replicate rows (List.replicate cols 0))

/-- Not a finite number. -/
def FV.special (v : FV) : Bool := v.isNan || v.isInf

/-- s[r][t] for the unmasked pairs of a page with n tokens. -/
def attnScores (t : Task) (qs ks : List (List FV)) (n : Nat) (un : Nat → Nat → Bool) : List (List Nat) :=
  let q (r i : Nat) : FV := (qs.getD r []).getD i (.fin false 0 0)
  let k (c i : Nat) : FV := (ks.getD c []).getD i (.fin false 0 0)
  (dotMatrix t.m n t.dim q k (fun r c _ => un r c) (fun r c i => (q r i).special || (k c i).special)).map fun l =>
    l.map fun a => f32 t.ftz (mulFV (v32 (accConvert 0 0 t.ftz a)) (v32 (t.f 0x18 4))).1

/-- value_sum(w, p, r, d) for every row and dimension. -/
def valueSums (t : Task) (ws : List (List Nat)) (vs : List (List FV)) (n : Nat) (un : Nat → Nat → Bool) : List (List Nat) :=
  let w (r i : Nat) : FV := v32 ((ws.getD r []).getD i 0)
  let v (d i : Nat) : FV := (vs.getD i []).getD d (.fin false 0 0)
  (dotMatrix t.m t.dim n w v (fun r _ i => un r i) (fun r d i => (w r i).special || (v d i).special)).map fun l => l.map (accConvert 0 0 t.ftz)

/-- The values of n rows of a page. -/
def pageRows (t : Task) (b : List Byte) (n : Nat) : List (List FV) :=
  let rb := kvRow t.slab.fmt.toNat
  (List.range n).map fun i => (List.range t.dim).map fun d => tileValue (kvTile t.slab.fmt.toNat) t.ftz ((b.drop (rb * i)).take rb) d

/-- Update m and l of a row by the scores of a page (R292): the new row without its o, the factor f, and the weights e. -/
def rowMl (ftz : Bool) (r : Row) (ss : List (Option Nat)) : Row × Nat × List Nat :=
  let mn := (ss.filterMap id).foldl max32 r.m
  let f := exp32 ftz (sub32 ftz r.m mn)
  let e := ss.map fun x => match x with | some v => exp32 ftz (sub32 ftz v mn) | none => 0
  let l := ((ss.zip e).filter fun x => x.1.isSome).foldl (fun l x => add32 ftz l x.2) (mul32 ftz r.l f)
  ({ r with m := mn, l := l }, f, e)

/-- floor(c * 4096) of a finite value at or above zero. -/
def massAddend (v : FV) : Nat :=
  match v with
  | .fin false m e => if 0 ≤ e + 12 then m * 2 ^ (e + 12).toNat else m / 2 ^ (-(e + 12)).toNat
  | _ => 0

/-- One mass update: one atomic at its counter's home, or at the banks (R293). -/
def massUpdate (s : State) (tid core : Nat) (ps : List (Nat × Nat × Hit)) (c : FV) : State :=
  if c.isNan then s
  else
    let old := leNat (engRead s tid core ps).2
    engWriteAt true s tid ps (leBytes 2 (if c.isInf then 0xFFFF else min (old + massAddend c) 0xFFFF))

/-- A page step of ATTN. pass 0: without MASS; 1 and 2: the passes with MASS. -/
def attnPage (s : State) (tid core : Nat) (t : Task) (p pass : Nat) : StepOut :=
  let e := t.slab
  let rb := kvRow e.fmt.toNat
  let n := min 64 (e.len - 64 * p)
  let (pd, pm) := taskPage s tid t p
  if pass ≠ 1 ∧ pageMoving s tid (t.f 0x11 1) p = true then .wait
  else
    withData (engLoad s tid core pd (rb * n)) 5 fun s1 kb =>
      withData (if pass = 1 then (s1, .ok []) else engLoad s1 tid core (pd + 64 * rb) (rb * n)) 5 fun s2 vb =>
        withPlaces (if pass = 1 then (s2, .ok []) else engPlace s2 tid core (pm + 6) 2 true) 5 fun s3 rd =>
          withPlaces (if pass = 2 then engPlaces s3 tid core ((List.range n).map fun i => (pm + 0x140 + 2 * i, 2, true)) else (s3, .ok [])) 5 fun s4 ms =>
            let un (r i : Nat) : Bool := selects s t core r p && decide (i < n)
            let qs := (List.range t.m).map fun r => (List.range t.dim).map fun d => tileValue t.qfmt t.ftz (qRow s t core r) d
            let sc := attnScores t qs (pageRows t kb n) n un
            let some_ (r : Nat) : List (Option Nat) := (List.range n).map fun i => if un r i then some ((sc.getD r []).getD i 0) else none
            let on (r : Nat) : Bool := (some_ r).any Option.isSome
            let rows := taskRows s core t
            let ftz := t.ftz
            let vs := pageRows t vb n
            if pass = 2 then
              let ws := rows.mapIdx fun r x =>
                let rl := div32 ftz 0x3F800000 x.l
                (some_ r).map fun v => match v with | some v => mul32 ftz (exp32 ftz (sub32 ftz v x.m)) rl | none => 0
              let sums := valueSums t ws vs n un
              let rows1 := rows.mapIdx fun r x => if on r then { x with o := (x.o.zip (sums.getD r [])).map fun e => add32 ftz e.1 e.2 } else x
              let cs (i : Nat) : List FV := (List.range t.m).filterMap fun r => if un r i then some (v32 ((ws.getD r []).getD i 0)) else none
              let s5 := (ms.mapIdx fun i x => (i, x)).foldl (fun u e => if (cs e.1).isEmpty then u else massUpdate u tid core [e.2] (sumFV (cs e.1) 0).1) s4
              .ok ((dropReader (keepRows s5 core t rows1) tid core t p rd).modTask core t.id fun x =>
                { x with changed := x.changed ++ [(BitVec.ofNat 64 (pm + 0x140), 128)] })
            else
              let ml := rows.mapIdx fun r x => if on r then rowMl ftz x (some_ r) else (x, 0x3F800000, [])
              if pass = 1 then .ok (keepRows s4 core t (ml.map (·.1)))
              else
                let sums := valueSums t (ml.map (·.2.2)) vs n un
                let rows1 := ml.mapIdx fun r x =>
                  if on r then { x.1 with o := (x.1.o.zip (sums.getD r [])).map fun e => add32 ftz (mul32 ftz e.1 x.2.1) e.2 } else x.1
                .ok (dropReader (keepRows s4 core t rows1) tid core t p rd)

/-- The output row in OFMT (R292, R293, R294). -/
def outRow (t : Task) (seen : Bool) (x : Row) : List Byte :=
  let vals := x.o.map fun o => if !seen then 0 else if t.isMass then o else div32 t.ftz o x.l
  if t.f 0x13 1 = 1 then vals.flatMap fun v => leBytes 2 (fpRound (fmtOf 10) (v32 v) 0 false t.ftz).1 else vals.flatMap (leBytes 4)

/-- The final step of ATTN: every row goes to O. -/
def attnFinal (s : State) (tid core : Nat) (t : Task) : StepOut :=
  let us := unionList s t core t.slab
  let rows := (taskRows s core t).mapIdx fun r x => outRow t (us.any fun p => selects s t core r p) x
  let at_ (r : Nat) : Nat := t.locAddr (t.f 0x30 8) + t.f 0x1C 4 * r
  withPlaces (engPlaces s tid core (rows.mapIdx fun r b => (at_ r, b.length, true))) 3 fun s1 ps => .ok (engWrite s1 tid ps rows.flatten)

/-- The next step of a captured KVSEL or ATTN task. -/
def kvStep (s : State) (tid core : Nat) (t : Task) : StepOut :=
  if t.typ = 3 then (if t.step < t.slab.pages then kvselPage s tid core t t.step else .ok (kvselFinal s core t))
  else
    let us := unionList s t core t.slab
    let i := t.step
    if i < us.length then attnPage s tid core t (us.getD i 0) (if t.isMass then 1 else 0)
    else if t.isMass ∧ i < 2 * us.length then attnPage s tid core t (us.getD (i - us.length) 0) 2
    else attnFinal s tid core t

end Sys2Proof.Machine
end

