-- ==== Sys2Proof/Machine/Bank.lean ====
section
/-! DEFINITION. BANKCFG (05 R164, R165) and BANK_MODE_CHANGE (R139). A change waits in Core.bankChange as (group, operation, bank, P-field);
operation 0 GROW, 1 SHRINK, 2 + f FIFO, 6 + f UNFIFO. -/
namespace Sys2Proof.Machine

/-- What BANKCFG decides: BANK_MODE with its cause, a false result, or a change of a bank. -/
inductive BankPlan where
  | trap (bank cause : Nat)
  | no
  | go (bank : Nat)
deriving DecidableEq, Repr

/-- A cache bank that may leave cache mode: at least 4 stay (R135). Which one is open. -/
def spareBank (s : State) (core : Nat) : Option Nat :=
  let bs := (s.core core).cacheBanks
  if bs.length < 5 then none else bs[Config.order s.time % bs.length]?

/-- The bank of a team's FIFO. -/
def fifoBank (k : Core) (tid f : Nat) : Nat := ((List.range 24).find? fun b => k.banks.getD b .cache == .fifo tid f).getD 0xFF

/-- The checks of R164 on the banks as the earlier changes left them. -/
def bankPlan (s : State) (tid op : Nat) : BankPlan :=
  let core := tid / 32
  let t := s.team tid
  let pick : BankPlan := match spareBank s core with | some b => .go b | none => .no
  if op = 0 then (if 0x200000 < t.scrSize + 0x20000 then .no else pick)
  else if op = 1 then
    match t.grow.getLast? with
    | none => .trap 0xFF 3
    | some b =>
      if (s.core core).directory.any fun d => d.tid == tid && decide (t.scrSize < d.off + 0x20000 + 16) && decide (d.off < t.scrSize) then .trap b 1
      else .go b
  else if op < 6 then
    match t.fifos.getD (op - 2) none with
    | some _ => .trap (fifoBank (s.core core) tid (op - 2)) 3
    | none => pick
  else
    match t.fifos.getD (op - 6) none with
    | none => .trap 0xFF 3
    | some q => if q.isEmpty then .go (fifoBank (s.core core) tid (op - 6)) else .trap (fifoBank (s.core core) tid (op - 6)) 2

/-- The logged operations of a team that are not done, wherever a fault or a swap has put them. -/
def State.teamPending (s : State) (tid : Nat) : List LogOp :=
  (s.teamGids tid).flatMap fun gid => pendingOps s gid (s.group gid)

/-- Some logged operation of the team still owes an access to window offsets from lo up to hi. -/
def windowBusy (s : State) (tid lo hi : Nat) : Bool :=
  (s.teamPending tid).any fun o =>
    (s.touches o).any fun a => match (s.team tid).offset (BitVec.ofNat 64 a.va) with
      | some off => decide (off < hi) && decide (lo < off + a.n)
      | none => false

/-- Offsets of the registers of FIFO f. -/
def fifoBase (f : Nat) : Nat := 0x4000000 + 0x10000 * f

/-- The window offsets that an operation takes away. -/
def goneOffsets (s : State) (tid op : Nat) : Nat × Nat :=
  if op = 1 then ((s.team tid).scrSize - 0x20000, (s.team tid).scrSize)
  else if 6 ≤ op then (fifoBase (op - 6), fifoBase (op - 6) + 0x24)
  else (0, 0)

/-- BANKCFG: not ready while a change on the home core is under way (R139: one at a time, in the order requested) or, for SHRINK and UNFIFO, while an access
already issued to the offsets that go is not complete (R139, R165), so that its checks see what those accesses leave. The gang then waits for the change. -/
def bankcfg (w : Word) (op : Nat) (p : BitVec 4) (s : State) : Result :=
  issueUniform w p.toNat s fun c g s1 =>
    let home := g.tid / 32
    if !(s.core home).bankChange.isEmpty || windowBusy s g.tid (goneOffsets s g.tid op).1 (goneOffsets s g.tid op).2 then .next s
    else match bankPlan s g.tid op with
      | .trap bank cause => trapAt s1 c w (gangTrap g c 0x12 (bank * 2 ^ 8 + cause) 0)
      | .no => .next (retire s1 c (qput g p.toNat false))
      | .go bank =>
        let s2 := (retire s1 c g).modCore home fun k => { k with bankChange := k.bankChange ++ [(c.gid, op, bank, p)] }
        .next (s2.modTeam g.tid fun t =>
          if op = 1 then { t with scrSize := t.scrSize - 0x20000 }
          else if 6 ≤ op then { t with fifos := lset t.fifos (op - 6) none } else t)

def execBankcfgGrow (p : BitVec 4) (s : State) : Result := bankcfg (encode (.bankcfgGrow p)) 0 p s
def execBankcfgShrink (p : BitVec 4) (s : State) : Result := bankcfg (encode (.bankcfgShrink p)) 1 p s
def execBankcfgFifo (p : BitVec 4) (f : BitVec 2) (s : State) : Result := bankcfg (encode (.bankcfgFifo p f)) (2 + f.toNat) p s
def execBankcfgUnfifo (p : BitVec 4) (f : BitVec 2) (s : State) : Result := bankcfg (encode (.bankcfgUnfifo p f)) (6 + f.toNat) p s

/-- A bank leaves cache mode: its way's dirty bytes are written back and its lines dropped (R139). -/
def leaveCache (s : State) (core bank : Nat) (m : Bank) : State :=
  (cleanLines s core (fun x => x.bank == bank) true).modCore core fun k => { k with banks := lset k.banks bank m }
/-- A bank joins the L1 as an empty way. -/
def joinCache (s : State) (core bank : Nat) : State := s.modCore core fun k => { k with banks := lset k.banks bank .cache }

/-- The change itself, for a team. -/
def changeBank (s : State) (tid op bank : Nat) : State :=
  let core := tid / 32
  if op = 0 then (leaveCache s core bank (.scratch (List.replicate 16 (some tid)))).modTeam tid fun t =>
    { t with scrSize := t.scrSize + 0x20000, grow := t.grow ++ [bank], pages := t.pages ++ (List.range 16).map fun i => (bank, i) }
  else if op = 1 then (joinCache s core bank).modTeam tid fun t =>
    { t with grow := t.grow.dropLast, pages := t.pages.filter (fun e => e.1 ≠ bank), scratch := t.scratch.filter fun e => e.1 < t.scrSize }
  else if op < 6 then (leaveCache s core bank (.fifo tid (op - 2))).modTeam tid fun t => { t with fifos := lset t.fifos (op - 2) (some []) }
  else joinCache s core bank

/-- The first change of a core can be made: the accesses already issued to the bank are complete. -/
def bankReady (s : State) (core : Nat) : Bool :=
  match (s.core core).bankChange with
  | (gid, op, _, _) :: _ =>
    let tid := (s.group gid).tid
    op != 1 || !windowBusy s tid (s.team tid).scrSize ((s.team tid).scrSize + 0x20000)
  | [] => false

/-- The first change of a core is made when it can be: the bank changes mode, and the gang that asked goes on with a true result. -/
def bankModeChange (s : State) (core : Nat) : State :=
  if bankReady s core then
    match (s.core core).bankChange with
    | (gid, op, bank, p) :: r =>
      let s1 := changeBank s (s.group gid).tid op bank
      (s1.modCore core fun k => { k with bankChange := r }).modGroup gid fun g => qput g p.toNat true
    | [] => s
  else s

/-- BANK_MODE_CHANGE. -/
def execBankModeChange (core : Nat) (s : State) : Result := .next (bankModeChange s core)

/-- The changes that a core's teams have requested are made in their order (R139), before a tear-down gives banks back; one that still waits for an access to its
bank is left to its own event (log 70). -/
def settleBanks (s : State) (core : Nat) : State := (s.core core).bankChange.foldl (fun t _ => bankModeChange t core) s

end Sys2Proof.Machine
end

