-- ==== Sys2Proof/Machine/Task.lean ====
section
/-! DEFINITION. Operand slots and tasks (09): SCLAIM, SREL, TPOST, TQRY; SLOT_ZERO; the scheduler's TASK_FETCH, TASK_START, TASK_STEP and
TASK_COMPLETE; the tile engines' steps (R268). The attention pair's are in Attn. -/
namespace Sys2Proof.Machine

/-! ## Slots (R252 to R254) -/

/-- SCLAIM (R253): the lowest run of n free slots of the home core. -/
def execSclaim (d : BitVec 8) (p : BitVec 4) (imm : BitVec 8) (s : State) : Result :=
  issueUniform (encode (.sclaim d p imm)) d.toNat s fun c g s1 =>
    let core := g.tid / 32
    let n := imm.toNat
    let slots := (s1.core core).slots
    match (List.range (65 - n)).find? fun f => (List.range n).all fun i => slots.getD (f + i) .zeroing == .free with
    | some f =>
      .next ((retire s1 c (qput (uput g d.toNat (BitVec.ofNat 32 f)) p.toNat true)).modCore core fun k =>
        { k with slots := k.slots.mapIdx fun i x => if f ≤ i ∧ i < f + n then .held g.tid else x })
    | none => .next (retire s1 c (qput (uput g d.toNat 0x40) p.toNat false))

/-- The tasks and copies that a SREL of slots f to f + n - 1 waits for (R254): those queued at the home core now. -/
def slotUsers (s : State) (tid f n : Nat) : List Nat × List (Nat × Nat) :=
  let names (p : Nat → Bool) : Bool := (List.range n).any fun i => p (f + i)
  (((s.teamTasks tid).filter fun t => t.fetched && names t.uses).map (·.id),
   s.cores.flatMap fun k => (k.2.copies.filter fun c => (s.group c.gid).tid == tid && names c.writesSlot).map fun c => (k.1, c.id))

/-- SREL (R254): its checks, then the slots are released, or wait for their users. -/
def execSrel (a : BitVec 8) (imm : BitVec 8) (s : State) : Result :=
  let w := encode (.srel a imm)
  issue w s fun c g s1 =>
    let f := (readU s1 g c a.toNat).toNat
    let n := imm.toNat
    match slotErr s1 g.tid f n (min f 63) with
    | some cause => trapAt s1 c w (gangTrap g c 0x11 cause 0)
    | none =>
      let (ts, cs) := slotUsers s1 g.tid f n
      if ts.isEmpty && cs.isEmpty then .next (retire (releaseSlots s1 (g.tid / 32) f n) c g)
      else .next ((s1.setGroup c.gid (g.mapSlices c.gang fun _ x => { x with wait := .srel f n })).modCore (g.tid / 32) fun k =>
        { k with releasing := k.releasing ++ [{ gid := c.gid, first := f, n := n, tasks := ts, copies := cs }] })

/-- SLOT_ZERO (R254): the zeroing engine finishes the slot at the head of its queue, which becomes free. -/
def execSlotZero (core : Nat) (s : State) : Result :=
  .next (match (s.core core).zeroQueue with
    | k :: r => s.modCore core fun x => { x with zeroQueue := r, slots := lset x.slots k .free, opmem := x.opmem.filter fun e => e.1 / slotSize ≠ k }
    | [] => s)

/-! ## TPOST and TQRY (R261, R262, R272) -/

/-- What TPOST checks of the record's address (R262). -/
def recordCheck (t : Team) (g : Group) (c : Ctx) (a : DWord) : Option TrapInfo :=
  if a.toNat % 64 ≠ 0 then some (gangTrap g c 8 1 a)
  else match t.offset a with
  | none => none
  | some off =>
    match t.place off 1, t.place off 64 with
    | .push _, _ => some (gangTrap g c 8 3 a)
    | .pop _, _ => some (gangTrap g c 8 3 a)
    | .count _, _ => some (gangTrap g c 8 3 a)
    | _, .scratch => none
    | _, _ => some (gangTrap g c 9 0 (BitVec.ofNat 64 off))

/-- TPOST: votes its handle of four registers. -/
def execTpost (a b : BitVec 8) (s : State) : Result :=
  let rd (g : Group) (i l : Nat) : Word := readV g (a.toNat + i) l
  let lanes (g : Group) (c : Ctx) : List Nat := lanesOf (runSet g c)
  let pair (g : Group) (c : Ctx) (i : Nat) : DWord := let l := (lanes g c).headD 0; pairOf (rd g i l) (rd g (i + 1) l)
  issuePost (encode (.tpost a b)) s
    (fun c g s1 =>
      match voteFails (lanes g c) 4 (rd g) with
      | some hit => some (voteTrap (lanes g c) 4 2 (rd g) hit)
      | none => recordCheck (s1.team g.tid) g c (pair g c 0))
    fun c g s1 =>
      let i := newId s1 (g.tid / 32)
      (i.1, .task { id := i.2, gid := c.gid, recAddr := pair g c 0, base := pair g c 2, off := (readU s1 g c b.toNat).setWidth 16, body := [], fetched := false,
                    order := 0, preds := [], cpysBefore := [], phase := .posted, engine := 0, step := 0, status := 0, cells := [], held := [], changed := [],
                    cap := none, reloc := ([], []), fault := none })

/-- The engine that registers a task's locks: 3 for tile tasks, 4 for ATTN (R266, 10 R288). -/
def Task.lockEngine (t : Task) : Nat := if t.typ = 4 then 4 else 3
/-- The task runs on the attention pair. -/
def Task.isKv (t : Task) : Bool := decide (3 ≤ t.typ)

/-- Row bytes of D and of O (R259; 10 R288). -/
def Task.rowBytes (s : State) (t : Task) : Nat :=
  if t.typ = 4 then
    (match s.slabOf (s.group t.gid).tid (t.f 0x11 1) with | some e => kvD e.fmt.toNat | none => t.dim) * (if t.f 0x13 1 = 1 then 2 else 4)
  else t.n * outBytes (t.f 0x11 1)

/-- The memory operands of a task: address, bytes from the first to the last, whether it is written. -/
def Task.memory (s : State) (t : Task) : List (Nat × Nat × Bool) :=
  let run (w pitch rows rowb : Nat) (wr : Bool) : List (Nat × Nat × Bool) :=
    if locKind w = 1 then [(t.locAddr w, (rows - 1) * pitch + rowb, wr)] else []
  match t.typ with
  | 0 => run (t.f 0x20 8) (t.f 0x1C 4) t.m (fmtRow (t.f 0x10 1) t.k) false ++ run (t.f 0x28 8) (t.f 0x38 4) t.n (fmtRow (t.f 0x11 1) t.k) false
  | 1 => run (t.f 0x20 8) (t.f 0x1C 4) t.m (fmtRow (t.f 0x10 1) t.k) false
  | 2 => run (t.f 0x20 8) (t.f 0x1C 4) t.m (t.rowBytes s) true
  | 3 => []
  | _ => run (t.f 0x30 8) (t.f 0x1C 4) t.m (t.rowBytes s) true

/-- The locks of a task (R266). -/
def State.taskLocks (s : State) (core : Nat) (t : Task) : List Lock :=
  (t.memory s).map fun r => { asid := s.asid (s.group t.gid).tid, base := r.1, len := r.2.1, write := r.2.2,
                              owner := { engine := t.lockEngine, core := core, id := t.id, opid := t.ident } }

/-- The task is ready (R265): its predecessors and the CPYS before it are complete, and no task of its team fetched earlier meets it in a slot. -/
def taskReady (s : State) (core : Nat) (t : Task) : Bool :=
  t.fetched && t.phase == .queued && t.status == 0 && t.preds.isEmpty && !s.swapped (s.group t.gid).tid && !(s.team (s.group t.gid).tid).filling &&
  (t.cpysBefore.all fun e => match s.findCopy e.1 e.2 with
    | some c => !((t.reads ++ t.writes).any fun k => c.writesSlot k)
    | none => true) &&
  (s.core core).tasks.all fun u =>
    !(u.fetched && decide (u.order < t.order) && (s.group u.gid).tid == (s.group t.gid).tid) ||
    !((u.writes.any fun k => t.reads.contains k || t.writes.contains k) || u.reads.any fun k => t.writes.contains k)

/-- The locks of a task are held, or it needs none. -/
def lockReady (s : State) (core : Nat) (t : Task) : Bool := (s.taskLocks core t).isEmpty || s.hasLocks (dieOf core) t.lockEngine core t.id

/-- The word that TQRY writes (R272). -/
def taskState (s : State) (core : Nat) (t : Task) : Word :=
  let st := match t.phase with
    | .running => 3
    | .moved => if t.status < 0x10 then 3 else 1
    | .stopped => 4
    | _ => if taskReady s core t && lockReady s core t then 2 else 1
  BitVec.ofNat 32 (st * 2 ^ 29 + t.step % 2 ^ 24)

/-- The state of a task that waits for its fetch (R272): 1, or 4 when the fetch has faulted, for the identifier that its record holds now (log 31). -/
def waitingState (s : State) (tid n : Nat) : Word :=
  let ident (t : Task) : Option Nat := match (engLoad s tid (tid / 32) t.recAddr.toNat 2).2 with | .ok b => some ((leNat b + t.off.toNat) % 65536) | _ => none
  match (s.teamTasks tid).find? fun t => !t.fetched && ident t == some n with
  | some t => if t.phase = .stopped then 0x80000000 else 0x20000000
  | none => 0

/-- TQRY. -/
def execTqry (d a : BitVec 8) (s : State) : Result :=
  issueRegs (encode (.tqry d a)) s fun c g s1 =>
    let n := (readU s1 g c a.toNat).toNat % 65536
    let v : Word := match (s1.teamTasks g.tid).find? fun t => t.fetched && t.ident == n with
      | some t => taskState s1 (g.tid / 32) t
      | none => waitingState s1 g.tid n
    vput g d.toNat fun l => if isActive g c l then some v else none

/-! ## Validation (R264; 10 R288) -/

/-- A location word of an allowed kind with its zero bits zero. -/
def locOk (w : Nat) (kinds : List Nat) : Bool :=
  kinds.contains (locKind w) && w / 2 ^ 57 % 32 == 0 && (locKind w != 0 || w / 64 % 2 ^ 51 == 0)

/-- Check 0x11: fields that must be zero, and the kinds of locations. -/
def Task.reservedOk (t : Task) : Bool :=
  let z (off n : Nat) : Bool := t.f off n == 0
  let opt := t.f 0x12 1
  let l0 := t.f 0x20 8; let l1 := t.f 0x28 8; let l2 := t.f 0x30 8
  !t.ctl 7 && t.f 7 1 / 32 == 0 && z 0xC 4 &&
  match t.typ with
  | 0 => decide (opt < 2) && z 0x13 1 && z 0x3C 4 && locOk l0 [0, 1] && locOk l1 [0, 1] && locOk l2 [0] && (locKind l0 == 1 || z 0x1C 4) && (locKind l1 == 1 || z 0x38 4)
  | 1 => decide (opt < 2) && z 0x13 1 && z 0x3C 4 && locOk l0 [1] && locOk l1 [0] && locOk l2 [0] && z 0x38 4
  | 2 => (opt == 0 || opt == 2) && z 0x13 1 && z 0x3C 4 && z 0x18 4 && locOk l0 [0, 1] && z 0x28 8 && locOk l2 [0] && (locKind l0 == 1 || z 0x1C 4) && z 0x38 4
  | 3 => z 0x13 1 && z 0x16 2 && z 0x18 4 && z 0x1C 4 && z 0x38 8 && locOk l0 [0] && locOk l1 [0] && locOk l2 [0]
  | _ => decide (opt < 4) && z 0x16 2 && locOk l0 [0] && locOk l1 [0] && (t.isSel || l1 == 0) && locOk l2 [1] && locOk (t.f 0x38 8) [0]

/-- Check 0x12: M, N, K and KSEL. -/
def Task.sizesOk (t : Task) : Bool :=
  let within (x hi : Nat) : Bool := decide (1 ≤ x) && decide (x ≤ hi)
  match t.typ with
  | 0 => within t.m 128 && within t.n 128 && within t.k (2 ^ 24)
  | 1 => within t.m 65535 && within t.n 8 && within t.k (2 ^ 24)
  | 2 => within t.m (if t.vec then 65535 else 128) && within t.n (if t.vec then 8 else 128)
  | 3 => within t.m 64 && within (t.f 0x12 1) 16
  | _ => within t.m 64

/-- Check 0x13: formats, and SCALE of ATTN. -/
def Task.formatsOk (t : Task) : Bool :=
  let a := t.f 0x10 1; let b := t.f 0x11 1
  match t.typ with
  | 2 => (a == 0 && decide (b ≤ 2)) || (a == 1 && (b == 3 || b == 0)) || (a == 2 && (b == 4 || b == 0))
  | 3 => decide (a ≤ 1)
  | 4 => let e := t.f 0x18 4 / 2 ^ 23; decide (a ≤ 1) && decide (t.f 0x13 1 ≤ 1) && decide (1 ≤ e) && decide (e ≤ 254)
  | _ => (accKind a b).isSome

/-- Check 0x15: a memory operand of rows of rowb bytes. The pitch is a multiple of 16 (09 R259, R264) also where 15 R409 has a row of D of 4N bytes for every N (log 68). -/
def Task.memOk (t : Task) (w pitch rows rowb : Nat) : Bool :=
  locKind w == 0 || (t.locAddr w % 16 == 0 && pitch % 16 == 0 && decide (rowb ≤ pitch) && decide (t.locAddr w + (rows - 1) * pitch + rowb ≤ 2 ^ 57))

def Task.memoryOk (s : State) (t : Task) : Bool :=
  match t.typ with
  | 0 => t.memOk (t.f 0x20 8) (t.f 0x1C 4) t.m (fmtRow (t.f 0x10 1) t.k) && t.memOk (t.f 0x28 8) (t.f 0x38 4) t.n (fmtRow (t.f 0x11 1) t.k)
  | 1 => t.memOk (t.f 0x20 8) (t.f 0x1C 4) t.m (fmtRow (t.f 0x10 1) t.k)
  | 2 => t.memOk (t.f 0x20 8) (t.f 0x1C 4) t.m (t.rowBytes s)
  | 3 => true
  | _ => t.memOk (t.f 0x30 8) (t.f 0x1C 4) t.m (t.rowBytes s)

/-- Check 0x16: the accumulator, or the workspace, apart from the other slot operands. -/
def Task.apartOk (t : Task) : Bool :=
  let apart (xs ys : List Nat) : Bool := xs.all fun k => !ys.contains k
  match t.typ with
  | 0 => apart t.accRun (t.tileRun (t.f 0x20 8) (t.f 0x10 1) ++ t.tileRun (t.f 0x28 8) (t.f 0x11 1))
  | 1 => apart t.accRun (t.tileRun (t.f 0x28 8) (t.f 0x11 1))
  | 2 => apart t.accRun t.writes
  | 3 => apart (slotRun (t.f 0x30 8) 1) [locSlot (t.f 0x20 8), locSlot (t.f 0x28 8)]
  | _ => apart (slotRun (t.f 0x38 8) 2) (t.reads)

/-- The status of a fetched record: 0 when it is valid; else the first check that fails decides. -/
def validate (s : State) (t : Task) : Nat :=
  let tid := (s.group t.gid).tid
  let entry := s.slabOf tid (t.f 0x11 1)
  let checks : List (Bool × Nat) :=
    [(decide (5 ≤ t.typ), 0x10), (!t.reservedOk, 0x11), (!t.sizesOk, 0x12), (!t.formatsOk, 0x13), (t.isKv && entry.isNone, 0x19),
     (t.typ == 4 && decide (t.f 0x1C 4 < t.rowBytes s), 0x12), ((t.reads ++ t.writes).any fun k => decide (63 < k) || !s.holdsSlot tid k, 0x14),
     (!t.memoryOk s, 0x15), (!t.apartOk, 0x16),
     (((s.teamTasks tid).any fun u => u.id != t.id && u.fetched && u.ident == t.ident) || (t.ctl 4 && t.pred0 == t.ident) || (t.ctl 5 && t.pred1 == t.ident), 0x17)]
  ((checks.find? (·.1)).map (·.2)).getD 0

/-! ## Faults of tasks (R267, R269) -/

/-- Cancel a task: it writes nothing further, arrives on no barrier, makes no dependant ready (R270), and gives back the pages it holds. -/
def cancelTask (s : State) (core id : Nat) : State :=
  match s.findTask core id with
  | none => s
  | some t =>
    let tid := (s.group t.gid).tid
    let s1 := dropLocks (releasePages s tid t) (dieOf core) t.lockEngine core id
    srelCheck (s1.modCore core fun k => { k with tasks := k.tasks.filter fun x => x.id ≠ id }) tid

/-- Raise TASK_FAULT for a task that stops. With no live group left in its team the task is cancelled (12 R428). -/
def taskFault (s : State) (core : Nat) (t : Task) (k : EngineFault) (opnd va ident : Nat) : State :=
  let eng := if opnd = 0 then 3 else t.engine
  let r := asyncRecord 0x10 (taskFaultKind k * 2 ^ 12 + opnd * 2 ^ 8 + eng * 2 ^ 6) (pageOf va) (ident + t.step % 2 ^ 24 * 2 ^ 16)
  let s1 := raiseAsync (s.modTask core t.id fun x => { x with phase := .stopped, fault := some (k, opnd, pageOf va) }) t.gid r (.task core t.id)
  if (s.asyncTarget t.gid).isNone then cancelTask s1 core t.id else s1

/-- The bytes of DONE (R257). -/
def doneBytes (status step : Nat) : List Byte := leBytes 4 (status * 2 ^ 24 + step % 2 ^ 24)

/-- Where a task's DONE lies. -/
def donePlace (s : State) (tid core : Nat) (t : Task) : State × EngPlace := engPlace s tid core (t.recAddr.toNat + 8) 4 true

/-! ## SLOT rows and memory rows (R250, R251, R259) -/

/-- The bytes of n elements from element k on of row r of a slot run. -/
def slotRow (s : State) (core first fmt r k n : Nat) : List Byte :=
  let e := fmtExtent fmt
  (List.range (ceilDiv (k % e + n) e)).flatMap fun i =>
    let lo := max k (k / e * e + e * i)
    let hi := min (k + n) (k / e * e + e * (i + 1))
    s.opRead core (slotSize * (first + lo / e) + r * fmtSlotRow fmt + fmtRow fmt (lo % e)) (fmtRow fmt (hi - lo))

/-- Rows that an engine has read, or why it has not. -/
inductive RowsOut where
  | ok (rows : List (List Byte))
  | fault (k : EngineFault) (va : Nat)
  | wait
deriving DecidableEq, Repr

/-- Read rows from memory, in ascending order. -/
def memRows (tid core base pitch off n : Nat) : List Nat → State → State × RowsOut
  | [], s => (s, .ok [])
  | r :: rs, s =>
    match engLoad s tid core (base + r * pitch + off) n with
    | (s1, .fault k va) => (s1, .fault k va)
    | (s1, .wait) => (s1, .wait)
    | (s1, .ok b) =>
      match memRows tid core base pitch off n rs s1 with
      | (s2, .ok bs) => (s2, .ok (b :: bs))
      | w => w

/-- n elements from element k on (k a multiple of 16) of some rows of an operand. -/
def operandRows (s : State) (tid core : Nat) (t : Task) (w fmt pitch : Nat) (rows : List Nat) (k n : Nat) : State × RowsOut :=
  if locKind w = 0 then (s, .ok (rows.map fun r => slotRow s core (locSlot w) fmt r k n))
  else memRows tid core (t.locAddr w) pitch (fmtRow fmt k) (fmtRow fmt n) rows s

/-- Go on with the rows of an operand. -/
def withRows (r : State × RowsOut) (opnd : Nat) (k : State → List (List Byte) → StepOut) : StepOut :=
  match r with
  | (s, .ok b) => k s b
  | (s, .fault f va) => .fault s f opnd va
  | (_, .wait) => .wait

/-! ## The tile engines' steps (R268) -/

/-- Position of row i of the accumulator. -/
def Task.accPos (t : Task) (i : Nat) : Nat := slotSize * locSlot (t.f 0x30 8) + t.accPitch * i

/-- Accumulator rows from the slots. -/
def accRows (s : State) (core : Nat) (t : Task) (rows : List Nat) : List (List DWord) :=
  rows.map fun i => (List.range t.n).map fun j => BitVec.ofNat 64 (leNat (s.opRead core (t.accPos i + 8 * j) 8))

/-- Write accumulator rows to the slots. -/
def putAccRows (s : State) (core : Nat) (t : Task) (rows : List (Nat × List DWord)) : State :=
  rows.foldl (fun u r => u.opWrite core (t.accPos r.1) (r.2.flatMap fun x => leBytes 8 x.toNat)) s

/-- The accumulator of an MMA as it stands. -/
def mmaRows (s : State) (core : Nat) (t : Task) : List (List DWord) :=
  if !t.cells.isEmpty then (List.range t.m).map fun i => (t.cells.drop (t.n * i)).take t.n
  else if t.zero ∧ t.step = 0 then List.replicate t.m (List.replicate t.n 0)
  else accRows s core t (List.range t.m)

/-- Write an MMA's accumulator to its slots: at completion and whenever it stops. -/
def mmaSpill (s : State) (core : Nat) (t : Task) : State := putAccRows s core t ((mmaRows s core t).mapIdx fun i r => (i, r))

/-- Steps of a task. -/
def taskSteps (s : State) (core : Nat) (t : Task) : Nat :=
  match t.typ with
  | 0 => ceilDiv t.k 16
  | 1 => ceilDiv t.m 128
  | 2 => ceilDiv t.m 16
  | _ => kvSteps s t core

/-- The rows from n * step on, at most n of them. -/
def Task.chunk (t : Task) (n : Nat) : List Nat := ((List.range n).map fun i => n * t.step + i).filter fun i => decide (i < t.m)

/-- Step t of an MMA. -/
def mmaStep (s : State) (tid core : Nat) (t : Task) : StepOut :=
  let fa := t.f 0x10 1; let fb := t.f 0x11 1
  let k := 16 * t.step; let n := min 16 (t.k - k)
  withRows (operandRows s tid core t (t.f 0x20 8) fa (t.f 0x1C 4) (List.range t.m) k n) 1 fun s1 as =>
    withRows (operandRows s1 tid core t (t.f 0x28 8) fb (t.f 0x38 4) (List.range t.n) k n) 2 fun s2 bs =>
      .ok (s2.modTask core t.id fun x => { x with cells := (tileStep fa fb t.ftz as bs 0 n (mmaRows s core t)).flatten })

/-- Step c of an MV: rows 128c and on over the whole of K. -/
def mvStep (s : State) (tid core : Nat) (t : Task) : StepOut :=
  let fa := t.f 0x10 1; let fb := t.f 0x11 1
  let rows := t.chunk 128
  withRows (operandRows s tid core t (t.f 0x20 8) fa (t.f 0x1C 4) rows 0 t.k) 4 fun s1 as =>
    withRows (operandRows s1 tid core t (t.f 0x28 8) fb 0 (List.range t.n) 0 t.k) 2 fun s2 bs =>
      let accs := if t.zero then List.replicate rows.length (List.replicate t.n 0) else accRows s core t rows
      .ok (putAccRows s2 core t (rows.zip (tileSteps fa fb t.ftz as bs t.k accs)))

/-- Write row i of D in a slot run. -/
def putOutRow (s : State) (core : Nat) (t : Task) (i : Nat) (bs : List Byte) : State :=
  (List.range t.outSpan).foldl (fun u k =>
    u.opWrite core (slotSize * (locSlot (t.f 0x20 8) + i / 128 * t.outSpan + k) + 256 * (i % 128)) ((bs.drop (256 * k)).take 256)) s

/-- Step t of an ACCST: rows 16t and on are converted and written. -/
def accstStep (s : State) (tid core : Nat) (t : Task) : StepOut :=
  let out := t.f 0x11 1
  let rows := t.chunk 16
  let bytes := (accRows s core t rows).map fun r => r.flatMap fun a => leBytes (outBytes out) (accConvert (t.f 0x10 1) out t.ftz a)
  if locKind (t.f 0x20 8) = 0 then .ok ((rows.zip bytes).foldl (fun u r => putOutRow u core t r.1 r.2) s)
  else withPlaces (engPlaces s tid core (rows.map fun i => (t.locAddr (t.f 0x20 8) + t.f 0x1C 4 * i, t.n * outBytes out, true))) 3 fun s1 ps =>
    .ok (engWrite s1 tid ps bytes.flatten)

/-- The next step of a running task. -/
def taskStep (s : State) (tid core : Nat) (t : Task) : StepOut :=
  match t.typ with
  | 0 => mmaStep s tid core t
  | 1 => mvStep s tid core t
  | 2 => accstStep s tid core t
  | _ => kvStep s tid core t

/-- What a task writes of its engine's state as it stops (R269; 10 R294): it then leaves the engine. -/
def leaveEngine (s : State) (core : Nat) (t : Task) : State :=
  let s1 := match t.typ with
    | 0 => mmaSpill s core t
    | 4 => if t.cap.isSome then spillRows s core t else s
    | _ => s
  s1.modTask core t.id fun x => { x with cells := [] }

/-- A task stops before a step (R269): DONE is written with STATUS 0x02, then the trap is raised. Where the page of DONE itself faults, that is the trap, and the operand's
comes after its TRET, once DONE can be written (log 38); none while DONE's line must wait. -/
def stopTask (s : State) (tid core : Nat) (t : Task) (k : EngineFault) (opnd va : Nat) : Option State :=
  match donePlace (leaveEngine s core t) tid core t with
  | (s1, .ok ps) => some (taskFault (engWrite s1 tid ps (doneBytes 2 t.step)) core t k opnd va t.ident)
  | (s1, .fault f v) => some (taskFault s1 core t f 0 v t.ident)
  | (_, .wait) => none

/-- What a start or a step of a task makes: none while it must wait. -/
def stopOut (tid core : Nat) (t : Task) (f : State → State) : StepOut → Option State
  | .ok s => some (f s)
  | .fault s k opnd va => stopTask s tid core t k opnd va
  | .wait => none

/-! ## The scheduler's events -/

/-- The queued task that is fetched next: the first that is not fetched and not stopped. -/
def nextFetch (s : State) (core : Nat) : Option Task :=
  (s.core core).tasks.find? fun t => !t.fetched && t.phase == .queued && !s.swapped (s.group t.gid).tid

/-- The fetch of a task's record. -/
def fetchRecord (s : State) (core : Nat) (t : Task) : State × EngData := engLoad s (s.group t.gid).tid core t.recAddr.toNat 64

def fetchReady (s : State) (core : Nat) (t : Task) : Bool :=
  (nextFetch s core).map (·.id) == some t.id && !s.swapped (s.group t.gid).tid && (match (fetchRecord s core t).2 with | .wait => false | _ => true)

/-- The tasks that a fetched record binds as predecessors (R265). -/
def bindPreds (s : State) (t : Task) : List Nat :=
  ((s.teamTasks (s.group t.gid).tid).filter fun u => u.id != t.id && u.fetched && ((t.ctl 4 && u.ident == t.pred0) || (t.ctl 5 && u.ident == t.pred1))).map (·.id)

/-- TASK_FETCH (R263, R264): the record is read once and validated. On a fault of the fetch, the identifier that TASK_FAULT names is open, since it has not been
read. -/
def execTaskFetch (core id : Nat) (s : State) : Result :=
  .next (match s.findTask core id with
    | none => s
    | some t =>
      if !fetchReady s core t then s
      else match fetchRecord s core t with
      | (s1, .ok b0) =>
        let b := relocRecord t.reloc b0
        let n := newId s1 core
        let u := { t with body := b, fetched := true, order := n.2 }
        let status := validate n.1 u
        n.1.modTask core id fun _ => { u with preds := if status = 0 then bindPreds n.1 u else [], status := status, phase := if status = 0 then .queued else .moved }
      | (s1, .fault k va) => taskFault s1 core t k 0 va (Config.unreadIdent s.time).toNat
      | (_, .wait) => s)

/-- The free engine for a task: tile engine 0, else 1; the attention pair is number 2. -/
def freeEngine (s : State) (core : Nat) (t : Task) : Option Nat :=
  let busy (e : Nat) : Bool := (s.core core).tasks.any fun u => u.phase == .running && u.engine == e
  if t.isKv then (if busy 2 then none else some 2) else if !busy 0 then some 0 else if !busy 1 then some 1 else none

/-- The lines of the posting core that a task reads (07 R224, R266): its memory sources; for a slab task, the slab's runs. -/
def taskSource (s : State) (t : Task) : List (DWord × Nat) :=
  if t.isKv then
    match s.slabOf (s.group t.gid).tid (t.f 0x11 1) with
    | some e =>
      let n := kvPs e.fmt.toNat * 2 ^ e.log2p; let m := 2048 * 2 ^ e.log2p
      [(e.dbase, n), (e.mbase, m)] ++ if e.state = 1 then [(e.obase, n / 2), (e.ombase, m / 2)] else []
    | none => []
  else ((t.memory s).filter fun r => !r.2.2).map fun r => (BitVec.ofNat 64 r.1, r.2.1)

/-- The posting core's lines of a task's sources. -/
def taskLines (s : State) (t : Task) (x : L1Line) : Bool :=
  let tid := (s.group t.gid).tid
  x.inRanges (s.asid tid) (s.vmid tid) (taskSource s t)

/-- What a start does on the pair: the capture of R289, made once. -/
def capture (s : State) (tid core : Nat) (t : Task) : StepOut := if t.isKv && t.cap.isNone then kvCapture s tid core t else .ok s

/-- The task that a free engine of its kind takes next: the ready one fetched earliest (R266). -/
def isNext (s : State) (core : Nat) (t : Task) : Bool :=
  (s.core core).tasks.all fun u => !(u.isKv == t.isKv && decide (u.order < t.order) && taskReady s core u && lockReady s core u)

/-- A task takes a free engine: the posting core cleans the source lines, the pair captures the slab; or the task stops before its first step. -/
def takeEngine (s : State) (core : Nat) (t : Task) : Option State :=
  let tid := (s.group t.gid).tid
  let u := { t with engine := (freeEngine s core t).getD 0 }
  let s1 := (cleanLines s (s.group t.gid).core (taskLines s t) false).modTask core t.id fun x => { x with engine := u.engine }
  stopOut tid core u (fun r => r.modTask core t.id fun x => { x with phase := .running }) (capture s1 tid core u)

/-- TASK_START may act on the task. -/
def startReady (s : State) (core : Nat) (t : Task) : Bool :=
  taskReady s core t &&
  if !lockReady s core t then true
  else (freeEngine s core t).isSome && isNext s core t && cleanReady s (s.group t.gid).core (taskLines s t) && (takeEngine s core t).isSome

/-- TASK_START (R266): a ready task registers its locks; holding them, it takes a free engine, and the posting core cleans the source lines. -/
def execTaskStart (core id : Nat) (s : State) : Result :=
  .next (match s.findTask core id with
    | none => s
    | some t =>
      if !startReady s core t then s
      else if !lockReady s core t then
        let r := askLocks s (dieOf core) { engine := t.lockEngine, core := core, id := id, opid := t.ident } (s.taskLocks core t)
        if r.2 then r.1 else r.1.modTask core id fun x => { x with phase := .waiting }
      else (takeEngine s core t).getD s)

/-- After a step of a task: the next one is due, or, after the last, its data is moved. -/
def stepped (core : Nat) (t : Task) (last : Bool) (s1 : State) : State :=
  let s2 := s1.modTask core t.id fun x => { x with step := x.step + 1 }
  if !last then s2
  else
    let s3 := match s2.findTask core t.id with | some u => if u.typ = 0 then mmaSpill s2 core u else s2 | none => s2
    s3.modTask core t.id fun x => { x with phase := .moved, status := 1, cells := [] }

/-- A step of a running task (R268), or its stop before that step (R269): none while it must wait. -/
def taskNext (s : State) (core : Nat) (t : Task) : Option State :=
  let tid := (s.group t.gid).tid
  stopOut tid core t (stepped core t (decide (taskSteps s core t ≤ t.step + 1))) (taskStep s tid core t)

/-- TASK_STEP has something to do. -/
def stepReady (s : State) (core : Nat) (t : Task) : Bool := t.phase == .running && (taskNext s core t).isSome

/-- TASK_STEP (R268, R269): one step of a running task, or its stop before that step. After the last step its data is moved. -/
def execTaskStep (core id : Nat) (s : State) : Result :=
  .next (match s.findTask core id with
    | none => s
    | some t => if stepReady s core t then (taskNext s core t).getD s else s)

/-- A task whose last step is done, or that does not run; a fault of its DONE's page may have stopped it since. -/
def Task.ended (t : Task) : Bool := t.phase == .moved || (t.phase == .queued && t.status != 0)

def taskDone (s : State) (core : Nat) (t : Task) : Bool :=
  t.ended && (match (donePlace s (s.group t.gid).tid core t).2 with | .wait => false | _ => true)

/-- The memory ranges that a task's arrival carries (R266; 10 R288). -/
def Task.arrives (s : State) (t : Task) : List (DWord × Nat) :=
  if t.status ≠ 1 then []
  else ((t.memory s).filter (·.2.2)).map (fun r => (BitVec.ofNat 64 r.1, r.2.1)) ++ t.changed

/-- Free a completed task's entry: its dependants lose a predecessor, or fail with 0x18 (R265). -/
def freeTask (s : State) (core : Nat) (t : Task) : State :=
  let after (x : Task) : Task :=
    if x.preds.contains t.id then
      (if t.status = 1 then { x with preds := x.preds.filter (· ≠ t.id) } else { x with preds := [], status := 0x18, phase := .moved })
    else x
  s.modCore core fun k => { k with tasks := (k.tasks.filter fun x => x.id ≠ t.id).map after }

/-- TASK_COMPLETE (R266): DONE, the arrival, the locks, the entry; a record that failed validation raises TASK_FAULT with KIND 1. -/
def execTaskComplete (core id : Nat) (s : State) : Result :=
  .next (match s.findTask core id with
    | none => s
    | some t =>
      let tid := (s.group t.gid).tid
      if !taskDone s core t then s
      else match donePlace s tid core t with
      | (s1, .ok ps) =>
        let s2 := sendArrival (engWrite s1 tid ps (doneBytes t.status t.step)) tid (BitVec.ofNat 8 ((t.ctl 6).toNat * 16 + t.f 7 1 % 16)) (t.arrives s)
        let s3 := srelCheck (freeTask (dropLocks s2 (dieOf core) t.lockEngine core id) core t) tid
        if t.status = 1 ∨ t.status = 0x18 then s3
        else raiseAsync s3 t.gid (asyncRecord 0x10 0x10C0 t.recAddr t.ident) .none
      | (s1, .fault k va) => taskFault s1 core t k 0 va t.ident
      | (_, .wait) => s)

end Sys2Proof.Machine
end

