-- ==== Sys2Proof/Machine/Post.lean ====
section
/-! DEFINITION. Engine posts on their way (02 R53; 07 R224): POST_TAKEN moves a post from its partition's buffer to its queue; RANGE_LOCK_START lets a
waiting operation take its locks (07 R222); the instruction LAUNCH (13 R382, R383). -/
namespace Sys2Proof.Machine

/-! ## LAUNCH -/

/-- LAUNCH (R383): its checks, then the post; the result comes with the reply. -/
def execLaunch (d a : BitVec 8) (s : State) : Result :=
  issuePost (encode (.launch d a)) s
    (fun c g s1 =>
      let ra := readU64 s1 g c a.toNat
      if uniformSplit g c then some (gangTrap g c 4 d.toNat 0)
      else if ra.toNat % 256 ≠ 0 then some (gangTrap g c 8 1 ra)
      else if ((s1.team g.tid).offset ra).isSome then some (gangTrap g c 8 3 ra) else none)
    fun c g s1 => (s1, .launch c.gid d.toNat (readU64 s1 g c a.toNat))

/-- The regions of a launch record (R376): those in use. -/
def recordRegions (b : List Byte) : List (DWord × Nat) :=
  (List.range (min (recField b 0xA 1) 8)).map fun i => (BitVec.ofNat 64 (recField b (0x80 + 16 * i) 8), recField b (0x88 + 16 * i) 8)

/-- Write a LAUNCH's result pair. A group that has retired has no registers left (03 R75). -/
def launchResult (s : State) (gid d : Nat) (x : DWord) : State :=
  if (s.group gid).retired then s else s.modGroup gid fun g => uput64 g d x

/-! ## POST_TAKEN -/

/-- The group of a post. -/
def Post.gid : Post → Nat | .copy c => c.gid | .task t => t.gid | .evict e => e.gid | .launch g _ _ => g

/-- The slices that posted have no store or atomic outstanding (R224): none in their counters and, for a post of before the frame, none in the group's open
frame, which no counter counts. -/
def postQuiet (s : State) (x : PostSlot) : Bool :=
  let g := s.group x.post.gid
  ((slicesOf x.gang).all fun i => let y := g.slice i; y.stores == 0 && y.atomics == 0) &&
  (x.priv || g.frameOp.all fun o => o.gang &&& x.gang == 0 || !(o.kind.counter == 1 || o.kind.counter == 2))

/-- Nor has a swap withdrawn one of theirs (12 R358): such a post leaves its buffer only after the restore. -/
def withdrawnQuiet (s : State) (gid : Nat) (m : SliceMask) : Bool :=
  let g := s.group gid
  (g.withdrawn ++ g.queue.filterMap (·.log)).all fun o => o.gang &&& m == 0 || !(o.kind.counter == 1 || o.kind.counter == 2)

/-- The engine-post counters of the slices fall. -/
def lowerPosts (s : State) (gid : Nat) (m : SliceMask) : State :=
  s.modGroup gid fun g => g.mapSlices m fun _ x => { x with posts := x.posts - 1 }

/-- The ranges that a posted operation will read, as far as its post cleans them (R224; for a task, its record). -/
def postSource (s : State) (p : Post) : List (DWord × Nat) :=
  match p with
  | .copy c => if c.kind = .grow then
      (match s.slabOf (s.group c.gid).tid (regAt c.regs 0) with
        | some e => ((growRanges e).filter fun r => !r.2.2).map fun r => (r.1, r.2.1)
        | none => [])
    else [(shapeOf c.kind c.regs).srcRange]
  | .task t => [(t.recAddr, 64)]
  | .evict x => match s.slabOf (s.group x.gid).tid x.entry with
    | some e => [(e.dbase, kvPs e.fmt.toNat * 2 ^ e.log2p), (e.mbase, 2048 * 2 ^ e.log2p)]
    | none => []
  | .launch _ _ ra => [(ra, 256)]

/-- The lines of the posting core in some ranges of the group's address space. -/
def groupLines (s : State) (gid : Nat) (rs : List (DWord × Nat)) (x : L1Line) : Bool :=
  let tid := (s.group gid).tid
  x.inRanges (s.asid tid) (s.vmid tid) rs

/-- Clean the lines of some ranges in the posting core's L1. -/
def cleanFor (s : State) (gid : Nat) (rs : List (DWord × Nat)) : State := cleanLines s (s.group gid).core (groupLines s gid rs) false

/-- The copies of a core in its descriptor queue; those in the relay queue have given their entries back. -/
def descQueue (s : State) (core : Nat) : List Copy := (s.core core).copies.filter fun c => !s.relayed core c.id

/-- The core whose copy unit carries a copy: the posting core's, but the home core's for a CPYS, which has the operand memory (09 R249). -/
def Copy.unit (c : Copy) (s : State) (core : Nat) : Nat := if c.kind = .cpys then (s.group c.gid).tid / 32 else core

/-- The post's queue has room: 64 descriptors (08 R231), 64 tasks (09 R266), 16 evictions (10 R295). -/
def postRoom (s : State) (core : Nat) (p : Post) : Bool :=
  match p with
  | .copy c => decide ((descQueue s (c.unit s core)).length < 64)
  | .task t => decide ((s.core ((s.group t.gid).tid / 32)).tasks.length < 64)
  | .evict _ => decide ((s.die (dieOf core)).evicts.length < 16)
  | .launch _ _ _ => true

/-- LAUNCH reads its record's two lines as loads of its issuer, at the level at which it was issued (R383): the bytes, a fault, or nothing yet. -/
def launchRecord (s : State) (gid : Nat) (priv : Bool) (ra : DWord) : State × EngData :=
  let tid := (s.group gid).tid; let core := (s.group gid).core; let a := ra.toNat
  match engReachAt priv s tid core a 128 false with
  | (s1, .fault k) => (s1, .fault k a)
  | (s1, .wait) => (s1, .wait)
  | (s1, .ok h) =>
    match engReachAt priv s1 tid core (a + 128) 128 false with
    | (s2, .fault k) => (s2, .fault k (a + 128))
    | (s2, .wait) => (s2, .wait)
    | (s2, .ok i) => let r := engRead s2 tid core [(a, 128, h), (a + 128, 128, i)]; (r.1, .ok r.2)

/-- Where a LAUNCH's record is read, its regions are cleaned too. -/
def launchReady (s : State) (gid : Nat) (priv : Bool) (ra : DWord) : Bool :=
  match (launchRecord s gid priv ra).2 with
  | .wait => false
  | .fault _ _ => true
  | .ok _ => cleanReady s (s.group gid).core fun _ => true

/-- A post of a slab operation. A swap's spill waits for it (10 R281), so it leaves its buffer before the restore. -/
def Post.isSlab : Post → Bool | .copy c => c.kind == .grow | .evict _ => true | _ => false

/-- POST_TAKEN may act on the post of a partition. -/
def takeReady (s : State) (core : Nat) (x : PostSlot) : Bool :=
  let gid := x.post.gid
  postQuiet s x && (!s.swapped (s.group gid).tid || x.post.isSlab || withdrawnQuiet s gid x.gang) && postRoom s core x.post && cleanReady s (s.group gid).core (groupLines s gid (postSource s x.post)) &&
  match x.post with | .launch _ _ ra => launchReady s gid x.priv ra | _ => true

/-- The queued CPYS of a team: a task that is queued now comes after them (08 R232). -/
def queuedCpys (s : State) (tid : Nat) : List (Nat × Nat) :=
  s.cores.flatMap fun k => (k.2.copies.filter fun c => c.kind == .cpys && (s.group c.gid).tid == tid).map fun c => (k.1, c.id)

/-- The post enters its queue. -/
def takePost (s : State) (core : Nat) (x : PostSlot) : State :=
  let gid := x.post.gid
  let tid := (s.group gid).tid
  match x.post with
  | .copy c =>
    let u := c.unit s core
    let e := freeEntry s 64 ((descQueue s u).map (·.entry))
    let i := if u = core then (s, c.id) else newId s u
    lowerPosts (i.1.modCore u fun k => { k with copies := k.copies ++ [{ c with id := i.2, phase := .queued, entry := e }] }) gid x.gang
  | .task t =>
    let before := queuedCpys s tid
    lowerPosts (s.modCore (tid / 32) fun k => { k with tasks := k.tasks ++ [{ t with phase := .queued, cpysBefore := before }] }) gid x.gang
  | .evict v =>
    let e := freeEntry s 16 ((s.die (dieOf core)).evicts.map (·.place))
    lowerPosts (s.modDie (dieOf core) fun d => { d with evicts := d.evicts ++ [{ v with phase := .queued, place := e }] }) gid x.gang
  | .launch _ d ra =>
    match launchRecord s gid x.priv ra with
    | (s1, .ok b) =>
      let s2 := cleanFor s1 gid (recordRegions b)
      s2.modHub fun h => { h with launchReqs := h.launchReqs ++ [{ gid := gid, gang := x.gang, d := d, ra := ra, grid := s.gridOf tid }] }
    | (s1, _) => lowerPosts (launchResult s1 gid d 7) gid x.gang

/-- The queues that serve the partitions in turn (02 R53): 0 the descriptor queue, 1 the posted-task queue. -/
def Post.turnQueue : Post → Option Nat
  | .copy _ => some 0
  | .task _ => some 1
  | _ => none

/-- The core whose queue takes a post: a task's and a CPYS's is the team's home core (09 R249, R262). -/
def Post.server (p : Post) (s : State) (core : Nat) : Nat :=
  match p with
  | .copy c => c.unit s core
  | .task t => (s.group t.gid).tid / 32
  | _ => core

/-- The place of a post in its queue's round: its partition, or source 8, the posts that members on other cores sent across the cluster network (09 R262). -/
def Post.source (p : Post) (s : State) (core part : Nat) : Nat := if p.server s core = core then part else 8

/-- Source n of queue q of core u has a post that the queue could take. -/
def sourceTakes (s : State) (u q n : Nat) : Bool :=
  s.cores.any fun k => (List.range 8).any fun p =>
    match sfind (s.core k.1).postBuf p with
    | some y => y.post.turnQueue == some q && y.post.server s k.1 == u && y.post.source s k.1 p == n && takeReady s k.1 y
    | none => false

/-- It is the turn of the post's source: none between the one served last and it has a post that the queue could take (02 R53, 09 R262). Of the members' posts, any
may come first: no rule orders them. -/
def postTurn (s : State) (core part : Nat) (x : PostSlot) : Bool :=
  match x.post.turnQueue with
  | none => true
  | some q =>
    let u := x.post.server s core
    ((List.range 9).map fun i => ((s.core u).lastPost.getD q 8 + 1 + i) % 9).find? (sourceTakes s u q) == some (x.post.source s core part)

/-- The queue has served a post's source; the post leaves its buffer. -/
def servePost (s : State) (core part : Nat) (p : Post) : State :=
  let t := s.modCore core fun k => { k with postBuf := sdel k.postBuf part }
  match p.turnQueue with
  | some q => t.modCore (p.server s core) fun k => { k with lastPost := lset k.lastPost q (p.source s core part) }
  | none => t

/-- POST_TAKEN: the post in a partition's buffer leaves it. -/
def execPostTaken (core part : Nat) (s : State) : Result :=
  .next (match sfind (s.core core).postBuf part with
    | some x =>
      if takeReady s core x && postTurn s core part x then
        takePost (servePost (cleanFor s x.post.gid (postSource s x.post)) core part x.post) core x
      else s
    | none => s)

/-! ## RANGE_LOCK_START -/

/-- The operation goes on with its locks. -/
def lockGranted (s : State) (die : Nat) (o : LockOwner) : State :=
  match o.engine with
  | 3 => s.modTask o.core o.id fun t => { t with phase := .queued }
  | 4 => s.modTask o.core o.id fun t => { t with phase := .queued }
  | 5 => s.modDie die fun d => { d with evicts := d.evicts.map fun x => if x.id = o.id then { x with phase := .running } else x }
  | _ => s.modCopy o.core o.id fun c => { c with phase := .running }

/-- The operation that has waited longest can take its locks now (R222). -/
def lockStartReady (s : State) (die n : Nat) : Bool :=
  n == 0 && match (s.die die).lockWait with
  | w :: _ => (s.die die).canLock w.2
  | [] => false

/-- RANGE_LOCK_START: waiter n of a die's lock table starts. -/
def execRangeLockStart (die n : Nat) (s : State) : Result :=
  .next (if lockStartReady s die n then
    match (s.die die).lockWait with
    | w :: r => lockGranted (s.modDie die fun d => { d with locks := d.locks ++ w.2, lockWait := r }) die w.1
    | [] => s
  else s)

end Sys2Proof.Machine
end

