-- ==== Sys2Proof/Machine/Place.lean ====
section
/-! DEFINITION. Placement (11): frame operations (R313), PIN, UNPIN, PHINT, PCNT (R315 to R320), shootdowns (R309, R310), MIGR with its moves (R321 to
R328) and the handover of pool pages (R329 to R332). -/
namespace Sys2Proof.Machine

/-! ## Frame operations (R313, R314) -/

/-- Count a pinned frame into or out of a partition's quota. -/
def pinQuota (s : State) (part : Nat) (up : Bool) : State :=
  s.modRegs part fun r => { r with pinUsed := if up then r.pinUsed + 1 else r.pinUsed - 1 }

/-- PIN_INC as R317: the status, 0 when it pins. The refusals are tried in R317's order (log 43). -/
def pinInc (s : State) (part f : Nat) : State × Nat :=
  let f := s.recordFrame f
  let r := s.frameRec f
  if r.pinc = 0xFFF then (s, 1)
  else if r.claim then (s, 4)
  else if r.pinc = 0 ∧ (s.partRec part).pinq ≤ (s.regs part).pinUsed then (s, 3)
  else ((if r.pinc = 0 then pinQuota s part true else s).setFrameRec f { r with pinc := r.pinc + 1 }, 0)

/-- PIN_DEC as R318. -/
def pinDec (s : State) (part f : Nat) : State × Nat :=
  let f := s.recordFrame f
  let r := s.frameRec f
  if r.pinc = 0 then (s, 2)
  else ((if r.pinc = 1 then pinQuota s part false else s).setFrameRec f { r with pinc := r.pinc - 1 }, 0)

/-- The frame is held by a move, a handover or a claim. -/
def FrameRec.engaged (r : FrameRec) : Bool := r.moving || r.fwd || r.handoff || r.claim

/-- ASSIGN (R313). -/
def assignFrame (s : State) (f owner : Nat) : State × Nat :=
  let f := s.recordFrame f
  let r := s.frameRec f
  if r.alloc || r.engaged then (s, 5) else (s.setFrameRec f { r with alloc := true, part := BitVec.ofNat 4 owner, acc := 0, share := 0 }, 0)

/-- The quota of a partition (14 R386) for the local list of a home: near of C0 to C3, mid, far. -/
def PartRec.quota (r : PartRec) (list : Nat) : Nat := if list < 4 then r.nearq.getD list 0 else if list = 4 then r.midq else r.farq

/-- The frames of a home that a partition has been given for its local list. -/
def localCount (s : State) (part list : Nat) : Nat :=
  (s.hub.frames.filter fun e => e.2.local_ && e.2.alloc && e.2.part.toNat == part && homeOf (e.1 * 4096) == list).length

/-- The referee gives a frame to a partition (14 R387): ASSIGN with LOCAL set, up to the quota of the list. guest: the frame as the list holds it, which for a
partition with a guest is guest-physical (12 R355). -/
def giveFrame (s : State) (part frame guest : Nat) : State :=
  let list := homeOf (frame * 4096)
  let f := s.recordFrame frame
  if 6 ≤ list ∨ 12 ≤ part ∨ s.owned frame = false ∨ (s.partRec part).valid = false ∨ (s.partRec part).quota list ≤ localCount s part list then s
  else match assignFrame s frame part with
    | (s1, 0) => (s1.setFrameRec f { s1.frameRec f with local_ := true }).modRegs part fun r =>
        { r with lists := lset r.lists list (r.lists.getD list [] ++ [if (s.partRec part).vmid = 0 then frame else guest]) }
    | (s1, _) => s1

/-- A frame operation on a frame that the caller may name: its status. A LOCAL frame is assigned only within the quota of its list (14 R388, which names no status: QUOTA
is the model's choice, log 55). -/
def applyFrameOp (s : State) (part op operand frame : Nat) : State × Nat :=
  let f := s.recordFrame frame
  let r := s.frameRec f
  match op with
  | 1 => if r.share = 0x7FFF then (s, 1) else (s.setFrameRec f { r with share := r.share + 1 }, 0)
  | 2 => if r.share = 0 then (s, 2) else (s.setFrameRec f { r with share := r.share - 1 }, 0)
  | 3 => pinInc s part frame
  | 4 => pinDec s part frame
  | 5 => ((if r.pinc = 0 then s else pinQuota s part false).setFrameRec f { r with pinc := 0 }, 0)
  | 6 => (s.setFrameRec f { r with acc := 0 }, 0)
  | 7 => match assignFrame s frame operand with
    | (t, 0) => if r.local_ = true ∧ (s.partRec operand).quota (homeOf (frame * 4096)) ≤ localCount s operand (homeOf (frame * 4096)) then (s, 3) else (t, 0)
    | x => x
  | 8 => if r.pinc ≠ 0 ∨ r.share ≠ 0 ∨ r.engaged then (s, 5) else (s.setFrameRec f { r with alloc := false }, 0)
  | _ => (s, 6)

/-- A frame operation of a partition's software (R351, 14 R406): NOT_OWNER for a frame of another partition, a pool frame that this package does not
own, and an address with no frame. -/
def frameOp (s : State) (part op operand frame : Nat) : State × Nat :=
  if 6 ≤ homeOf (frame * 4096) ∨ s.owned frame = false ∨ (s.frameRec (s.recordFrame frame)).part.toNat ≠ part then (s, 7)
  else applyFrameOp s part op operand frame

/-- An operation that the CPU die makes through a partition's control page: FOPA names the frame, FOPS takes the status. -/
def ctlFrameOp (part op operand frame : Nat) (s : State) : State :=
  let r := frameOp s part op operand frame
  r.1.modCtl part fun c => { c with fopa := BitVec.ofNat 64 (frame * 4096), fops := BitVec.ofNat 4 r.2 }

def execShareInc (part frame : Nat) (s : State) : Result := .next (ctlFrameOp part 1 0 frame s)
def execShareDec (part frame : Nat) (s : State) : Result := .next (ctlFrameOp part 2 0 frame s)
def execPinInc (part frame : Nat) (s : State) : Result := .next (ctlFrameOp part 3 0 frame s)
def execPinDec (part frame : Nat) (s : State) : Result := .next (ctlFrameOp part 4 0 frame s)
def execPinClr (part frame : Nat) (s : State) : Result := .next (ctlFrameOp part 5 0 frame s)
def execAccClr (part frame : Nat) (s : State) : Result := .next (ctlFrameOp part 6 0 frame s)
/-- ASSIGN: by a partition's software, or, as part 12, by the referee, whose operand holds the partition (bits [3:0]) and the guest-physical frame above it
(log 67). -/
def execAssign (part frame operand : Nat) (s : State) : Result :=
  .next (if part = 12 then giveFrame s (operand % 16) frame (operand / 16) else ctlFrameOp part 7 operand frame s)
def execFree (part frame : Nat) (s : State) : Result := .next (ctlFrameOp part 8 0 frame s)

/-! ## PIN, UNPIN, PHINT, PCNT -/

/-- PIN and UNPIN: no alignment, no window (ALIGN cause 3), no range lock. -/
def pinSpec : CheckSpec := { align := fun _ => 1, noWindow := true, win := .other, locks := false, lockLine := false }

/-- PIN (R317). -/
def execPin (p : BitVec 4) (a : BitVec 8) (s : State) : Result :=
  issueMem (encode (.pin p a)) (some p.toNat) false s
    (fun c g s1 => { kind := .pin p, active := runSet g c, addr := fun _ => readU64 s1 g c a.toNat, data := fun _ => 0 })
    fun _ g s1 o => memCheck s1 g o pinSpec

/-- UNPIN (R318). -/
def execUnpin (p : BitVec 4) (a : BitVec 8) (s : State) : Result :=
  issueMem (encode (.unpin p a)) (some p.toNat) false s
    (fun c g s1 => { kind := .unpin p, active := runSet g c, addr := fun _ => readU64 s1 g c a.toNat, data := fun _ => 0 })
    fun _ g s1 o => memCheck s1 g o pinSpec

/-- The first part of an operation that names one address. -/
def LogOp.hit0 (o : LogOp) : Option Hit := match o.hits with | (h :: _) :: _ => some h | _ => none

/-- Set or clear bit PIN of the leaf PTE used: one atomic at its home. -/
def markPin (s : State) (part : Nat) (h : Hit) (on : Bool) : State :=
  pteUpdate s part h.pteAddr fun x => if on then x ||| 2 ^ 56 else if x.testBit 56 then x - 2 ^ 56 else x

/-- PIN performed at the frame's home. -/
def doPin (s : State) (o : LogOp) (d : BitVec 4) : State :=
  let out (t : State) (q : Bool) : State := (finishOp t o).modGroup o.gid fun g => qput g d.toNat q
  match o.hit0 with
  | none => out s false
  | some h =>
    if h.attr = 2 then out s false
    else
      let part := s.partOf (s.group o.gid).tid
      let r := pinInc s part (h.pa / 4096)
      if r.2 = 0 then out (markPin r.1 part h true) true else out s false

/-- UNPIN performed. -/
def doUnpin (s : State) (o : LogOp) (d : BitVec 4) : State :=
  let out (t : State) (q : Bool) : State := (finishOp t o).modGroup o.gid fun g => qput g d.toNat q
  match o.hit0 with
  | none => out s false
  | some h =>
    let part := s.partOf (s.group o.gid).tid
    let r := pinDec s part (h.pa / 4096)
    if r.2 ≠ 0 then out s false
    else out (if (r.1.frameRec (r.1.recordFrame (h.pa / 4096))).pinc = 0 then markPin r.1 part h false else r.1) true

/-- One page of PHINT (R319): skipped in the window, on a fault, and in a pool page that this package does not own; none while it must wait. -/
def hintPage (s : State) (g : Group) (priv : Bool) (hint : BitVec 2) (va : Nat) : Option State :=
  if ((s.team g.tid).offset (BitVec.ofNat 64 va)).isSome then some s
  else match translate s (s.xctx g.tid g.core priv) va 0 with
    | (s1, .ok h) =>
      (match homeError s1 (s.partOf g.tid) h.pa false with
        | some _ => some s
        | none => if 6 ≤ homeOf h.pa then some s else
            let f := s1.recordFrame (h.pa / 4096)
            some (s1.setFrameRec f { s1.frameRec f with hint := hint }))
    | (_, .trap _ _) => some s
    | (_, .wait) => none

/-- PHINT: it counts as a store until its homes have replied. -/
def execPhint (h : BitVec 2) (a imm : BitVec 8) (s : State) : Result :=
  issue (encode (.phint h a imm)) s fun c g s1 =>
    issueRequest (encode (.phint h a imm)) s1 c g
      { kind := .phint h imm.toNat, active := runSet g c, addr := fun _ => readU64 s1 g c a.toNat, data := fun _ => 0 }

/-- The hints of a PHINT at their homes; none while a page must wait. -/
def hintPages (s : State) (o : LogOp) (h : BitVec 2) (n : Nat) : Option State :=
  (List.range n).foldl (fun r i => r.bind fun t => hintPage t (s.group o.gid) o.priv h ((o.ea 0 + 4096 * i) % 2 ^ 64)) (some s)

/-- Every home of a PHINT can reply. -/
def hintReady (s : State) (o : LogOp) : Bool := match o.kind with | .phint h n => (hintPages s o h n).isSome | _ => true

/-- PHINT performed. -/
def doPhint (s : State) (o : LogOp) (h : BitVec 2) (n : Nat) : State := finishOp ((hintPages s o h n).getD s) o

/-- PCNT (R320): no check at issue; a window address gives 0. -/
def execPcnt (d a : BitVec 8) (c : BitVec 1) (s : State) : Result :=
  issueMem (encode (.pcnt d a c)) none false s
    (fun x g _ => { kind := .pcnt d.toNat (c == 1), active := activeSet g x, addr := fun l => readV64 g a.toNat l, data := fun _ => 0 })
    fun _ _ _ _ => none

/-- One lane of PCNT at the frame's home. -/
def pcntLane (s : State) (tid : Nat) (clr : Bool) (h : Hit) : State × Nat :=
  if h.attr = 3 ∨ 6 ≤ homeOf h.pa ∨ s.owned (h.pa / 4096) = false then (s, 0)
  else
    let f := s.recordFrame (h.pa / 4096)
    let r := s.frameRec f
    if r.part.toNat ≠ s.partOf tid then (s, 0)
    else
      (if clr then s.setFrameRec f { r with acc := 0 } else s,
       (decide (r.share ≠ 0)).toNat * 2 ^ 11 + (decide (r.pinc ≠ 0)).toNat * 2 ^ 10 + (tierOf (f * 4096) + 1) * 2 ^ 8 + r.acc.toNat)

/-- PCNT performed, in ascending lane order. -/
def doPcnt (s : State) (o : LogOp) (d : Nat) (clr : Bool) : State :=
  let r := (s.placed o).foldl (fun r p =>
    match p.2 with
    | h :: _ => let t := pcntLane r.1 (s.group o.gid).tid clr h; (t.1, r.2 ++ [(p.1.lane, t.2)])
    | [] => r) (s, ([] : List (Nat × Nat)))
  (finishOp r.1 o).modGroup o.gid fun g => vput g d fun l => ((r.2.find? fun e => e.1 == l).map (·.2)).map (BitVec.ofNat 32)

/-! ## Shootdowns (R309, R310) -/

/-- The request matches a TLB entry, a walk-cache entry, a line (a G-stage request matches every line of the VMID). -/
def Shoot.tlb (q : Shoot) (e : TlbEntry) : Bool :=
  e.gstage == q.gstage && e.vmid == q.vmid && (q.gstage || e.asid == q.asid) && (match q.va with | some v => decide (e.vbase ≤ v) && decide (v < e.vbase + e.size) | none => true)
def Shoot.walk (q : Shoot) (e : WalkEntry) : Bool :=
  e.gstage == q.gstage && e.vmid == q.vmid && (q.gstage || e.asid == q.asid) && (match q.va with | some v => e.prefix_ == v / 2 ^ (12 + 9 * e.level) | none => true)
def Shoot.line (q : Shoot) (x : L1Line) : Bool :=
  x.vmid == q.vmid && (q.gstage || (x.asid == q.asid && (match q.va with | some v => x.vline * 128 / x.size == v / x.size | none => true)))

/-- Clean, and with inv drop, the lines of every core that satisfy p. -/
def cleanAll (s : State) (p : L1Line → Bool) (inv : Bool) : State := s.cores.foldl (fun t k => cleanLines t k.1 p inv) s

/-- The write-backs of a shootdown are acknowledged at once. -/
def shootReady (s : State) (q : Shoot) : Bool := s.cores.all fun k => cleanReady s k.1 q.line

/-- A shootdown at every translation unit (R310): entries go, the cores' lines are written back and dropped, and accesses that have not been made translate again. -/
def shoot (s : State) (q : Shoot) : State :=
  let drop : Nat × Die → Nat × Die := fun d =>
    (d.1, { d.2 with tlb := d.2.tlb.filter fun e => !q.tlb e, walkCache := d.2.walkCache.filter fun e => !q.walk e })
  let s1 : State := { s with dies := s.dies.map drop }
  unwalk (cleanAll s1 q.line true) fun g a h =>
    s.vmid g.tid == q.vmid && (q.gstage || (s.asid g.tid == q.asid && (match q.va with | some v => a.va / h.size == v / h.size || (a.va + a.n - 1) / h.size == v / h.size | none => true)))

/-- SHOOTDOWN: a request of the CPU die. While it cannot be served it waits, unacknowledged, at the hub (R309, R310). -/
def execShootdown (gstage : Bool) (asid vmid : Nat) (va : Option Nat) (s : State) : Result :=
  let q : Shoot := { gstage := gstage, asid := asid, vmid := vmid, va := va }
  .next (if shootReady s q then shoot s q else s.modHub fun h => { h with shoots := h.shoots ++ [q] })

/-- A waiting request of the CPU die is served. -/
def execShootServe (n : Nat) (s : State) : Result :=
  .next (match s.hub.shoots[n]? with
    | some q => if shootReady s q then (shoot s q).modHub fun h => { h with shoots := h.shoots.eraseIdx n } else s
    | none => s)

/-! ## MIGR (R322 to R327) -/

/-- The lowest place of a list that holds nothing. -/
def freePlace {α : Type} (l : List (Option α)) : Option Nat := (List.range l.length).find? fun i => match l[i]? with | some none => true | _ => false

/-- The frames of a run. -/
def runFrames (a : Nat) (big : Bool) : List Nat := (List.range (if big then 512 else 1)).map fun i => a / 4096 + i

/-- A run lies in one memory range outside its frame-record area. -/
def runInMemory (a : Nat) (big : Bool) : Bool :=
  let n := if big then 0x200000 else 0x1000
  decide (homeOf a < 6) && !inRecordArea a && !inRecordArea (a + n - 1)

/-- Free move slots. -/
def freeMoveSlot (s : State) : Option Nat := (List.range 16).find? fun i => s.hub.moves.all fun m => m.slot != some i

/-- MOVE (R323): the checks in their order, then the move starts. -/
def migrMove (s : State) (w n : Nat) : State × Nat :=
  let o := w / 2 ^ 12 * 2 ^ 12
  let big := w.testBit 0
  let size := if big then 0x200000 else 0x1000
  let fos := runFrames o big; let fns := runFrames n big
  let any (fs : List Nat) (p : FrameRec → Bool) : Bool := fs.any fun f => p (s.frameRec f)
  if w / 2 ^ 57 ≠ 0 ∨ w / 8 % 2 ^ 9 ≠ 0 ∨ n % 4096 ≠ 0 ∨ o % size ≠ 0 ∨ n % size ≠ 0 ∨ runInMemory o big = false ∨ runInMemory n big = false ∨
      rangesMeet o size n size = true then (s, 4 * 2 ^ 28)
  else if (fos ++ fns).any fun f => !s.owned f then (s, 6 * 2 ^ 28)
  else if any (fos ++ fns) FrameRec.engaged then (s, 2 * 2 ^ 28)
  else if any fos fun r => r.pinc != 0 then (s, 3 * 2 ^ 28)
  else if any fns (·.alloc) then (s, 5 * 2 ^ 28)
  else match freeMoveSlot s with
    | none => (s, 2 ^ 28)
    | some i =>
      if 64 ≤ (s.hub.moves.filter fun m => homeOf m.o == homeOf o).length then (s, 2 ^ 28)
      else
        let s1 := (fos.zip fns).foldl (fun t e =>
          let r := t.frameRec e.1
          (t.setFrameRec e.2 { t.frameRec e.2 with owner := r.owner, share := r.share, acc := r.acc, part := r.part, hint := r.hint, alloc := true, moving := true }).setFrameRec
            e.1 { r with moving := true }) s
        (s1.modHub fun h => { h with moves := h.moves ++ [{ slot := some i, o := o, n := n, big := big, w := 0, stalled := [], subsLost := none }] }, i)

/-- RETIRE (R327). A move of the same O with another SIZE is not the one that it names, so that there is no forwarding entry: status 7 (DESIGN CHOICE, log 68). -/
def migrRetire (s : State) (w b : Nat) : State × Nat :=
  let o := w / 2 ^ 12 * 2 ^ 12
  let big := w.testBit 0
  let entry := (List.range 16).find? fun i => match s.hub.claims.getD i none with | some c => c.frame == o / 4096 | none => false
  let move := s.hub.moves.find? fun m => m.o == o && m.big == big
  if w / 2 ^ 57 ≠ 0 ∨ w / 8 % 2 ^ 9 ≠ 0 ∨ b ≠ 0 ∨ (big ∧ o % 0x200000 ≠ 0) ∨ (big ∧ entry.isSome) then (s, 4 * 2 ^ 28)
  else if (match entry with | some i => (match s.hub.claims.getD i none with | some c => c.failed.isNone | none => false) | none => false) ||
      (match move with | some m => m.slot.isSome | none => false) then (s, 2 * 2 ^ 28)
  else match entry, move with
    | some i, _ => (s.modHub fun h => { h with claims := lset h.claims i none }, 0)
    | none, some m =>
      ((runFrames o m.big).foldl (fun t f => t.setFrameRec f { t.frameRec f with fwd := false, alloc := false })
        (s.modHub fun h => { h with moves := h.moves.filter fun x => !(x.o == o && x.big == big) }), 0)
    | none, none => (s, 7 * 2 ^ 28)

/-- CLAIM (R330): the entry that waits for the owner's answer. -/
def migrClaim (s : State) (part w b : Nat) : State × Nat :=
  let f := w / 2 ^ 12
  if w / 2 ^ 57 ≠ 0 ∨ w / 8 % 2 ^ 9 ≠ 0 ∨ w.testBit 0 ∨ tierOf (f * 4096) ≠ 2 ∨ inRecordArea (f * 4096) ∨ b % 8 ≠ 0 ∨ 6 ≤ homeOf b then (s, 4 * 2 ^ 28)
  else if s.owned f then (s, 8 * 2 ^ 28)
  else match freePlace s.hub.claims with
    | none => (s, 2 ^ 28)
    | some i =>
      let c : Claim := { frame := f, pte := b, part := part, failed := none, granted := false, owner := (s.frameRec f).owner.toNat % 16 }
      (s.modHub fun h => { h with claims := lset h.claims i (some c) }, i)

/-- MIGR: the request goes to the hub, and counts as an atomic until the hub replies. -/
def migr (word : Word) (d a b : BitVec 8) (s : State) : Result :=
  issueUniform word d.toNat s fun c g s1 =>
    issueRequest word s1 c g
      { kind := .migr d.toNat, active := runSet g c, addr := fun _ => readU64 s1 g c a.toNat, data := fun _ => (readU64 s1 g c b.toNat).setWidth 128 }

/-- What the hub does on a MIGR, and its status: the operation word says which operation it is; OP 3 gives status 4. -/
def migrServe (s : State) (part w n : Nat) : State × Nat :=
  match w / 2 % 4 with
  | 0 => migrMove s (w - w / 2 % 4 * 2) n
  | 1 => migrRetire s (w - w / 2 % 4 * 2) n
  | 2 => migrClaim s part (w - w / 2 % 4 * 2) n
  | _ => (s, 4 * 2 ^ 28)

/-- The hub's reply to a MIGR: its status. -/
def doMigr (s : State) (o : LogOp) (d : Nat) : State :=
  let r := migrServe s (s.partOf (s.group o.gid).tid) (o.ea 0) (o.value 0)
  (finishOp r.1 o).modGroup o.gid fun g => uput g d (BitVec.ofNat 32 r.2)

def execMigrMove (d a b : BitVec 8) (s : State) : Result := migr (encode (.migrMove d a b)) d a b s
def execMigrRetire (d a b : BitVec 8) (s : State) : Result := migr (encode (.migrRetire d a b)) d a b s
def execMigrClaim (d a b : BitVec 8) (s : State) : Result := migr (encode (.migrClaim d a b)) d a b s

/-! ## Moving a line (R324 to R326) -/

/-- A parked subscription has another place at the homes: what the device keeps of its team, and the directory where its team has one, name it there. The messages name
the new place already. -/
def renameParked (s : State) (a b : Nat × Nat) : State :=
  let slot (d : DirSlot) : DirSlot := if d.home = a.1 ∧ d.idx = a.2 ∧ s.names { d with home := b.1, idx := b.2 } = true then { d with home := b.1, idx := b.2 } else d
  let moved (v : Saved) : List ((Nat × Nat) × (Nat × Nat)) :=
    if v.moved.any fun e => e.2 == a then v.moved.map fun e => if e.2 = a then (e.1, b) else e
    else if v.subs.any fun d => d.home == a.1 && d.idx == a.2 then v.moved ++ [(a, b)] else v.moved
  let core : Nat × Core → Nat × Core := fun k => (k.1, { k.2 with directory := k.2.directory.map slot })
  ({ s with cores := s.cores.map core } : State).modHub fun u => { u with saved := u.saved.map fun v => { v with subs := v.subs.map slot, moved := moved v } }

/-- Move one subscription with its line to the home of the new place: its identity changes wherever it is named, and the die of a live one holds a read lease
there (06 R188). With no room it is lost with cause 1; lost: its page's subscriptions had none. -/
def moveSub (s : State) (old idx new : Nat) (x : Sub) (lost : Bool) : State :=
  let h := homeOf new
  if h = old then s.modSub old idx fun y => { y with word := new }
  else if lost ∨ 65536 ≤ (s.home h).subs.length then loseSub s old idx 1
  else
    let j := freeIdx 0 (s.home h).subs
    let s0 := (s.modHome old fun k => { k with subs := sdel k.subs idx }).modHome h fun k => { k with subs := sput k.subs j { x with word := new } }
    let s1 := if x.st = .parked then s0 else grantLease s0 (dieOf x.core) new false
    let re (p : Push) : Push := if p.home = old ∧ p.idx = idx ∧ p.tid = x.tid ∧ p.off = x.off then { p with home := h, idx := j } else p
    let msg (m : SubMsg) : SubMsg := match m with
      | .park a b => if a = old ∧ b = idx then .park h j else m
      | .repoint a b c d => if a = old ∧ b = idx then .repoint h j c d else m
      | _ => m
    let owed (u : Hub) : Bool := x.st == .pending || u.refusals.any fun p => re p != p
    let s2 := s1.modHub fun u =>
      { u with subMsgs := u.subMsgs.map msg, pushNet := u.pushNet.map re, refusals := u.refusals.map re,
               signals := if u.signals.contains (old, x.core) && owed u && !u.signals.contains (h, x.core) then u.signals ++ [(h, x.core)] else u.signals }
    if x.st = .parked then renameParked s2 (old, idx) (h, j)
    else s2.modCore x.core fun k =>
      { k with inbox := k.inbox.map re, directory := k.directory.map fun d => if d.tid = x.tid ∧ d.off = x.off then { d with home := h, idx := j } else d,
               refusedHomes := if k.refusedHomes.contains old && !k.refusedHomes.contains h then k.refusedHomes ++ [h] else k.refusedHomes }

/-- What the homes and the hub keep for one word goes with its line: subscriptions, SEQ, the relay-written mark, the sync object bound to it (log 65). -/
def moveWord (s : State) (src dst : Nat) (lost : Bool) : State :=
  let s := s.modHub fun u => { u with sync := u.sync.map fun e => if e.obj = src then { e with obj := dst } else e }
  let old := homeOf src
  let k := s.home old
  let seq := sget 0 k.seqs src
  let subs := k.subs.filter fun e => e.2.word == src
  let s1 := subs.foldl (fun t e => moveSub t old e.1 dst e.2 lost) s
  let some_ := (s1.home (homeOf dst)).subs.any fun e => e.2.word == dst
  let s2 := (s1.modHome old fun k => { k with seqs := sdel k.seqs src }).modHome (homeOf dst) fun k => { k with seqs := if some_ && !subs.isEmpty then sput k.seqs dst seq else k.seqs }
  if k.relayMarks.contains src then
    ((s2.modHome old fun k => { k with relayMarks := k.relayMarks.filter (· ≠ src) }).modHome (homeOf dst) fun k => { k with relayMarks := k.relayMarks ++ [dst] }).modHub fun u =>
      { u with relayFlags := u.relayFlags.map fun f => if f.addr = src then { f with addr := dst } else f }
  else s2

def State.modMove (s : State) (slot : Nat) (f : Move → Move) : State :=
  s.modHub fun h => { h with moves := h.moves.map fun m => if m.slot = some slot then f m else m }

/-- The move of a slot. -/
def State.findMove (s : State) (slot : Nat) : Option Move := s.hub.moves.find? fun m => m.slot == some slot

/-- Lines of a move. -/
def Move.lines (m : Move) : Nat := m.size / 128

/-- The subscriptions to words of a move's page that are still at its old home. -/
def pageSubs (s : State) (m : Move) : List (Nat × Sub) := (s.home (homeOf m.o)).subs.filter fun e => m.holds e.2.word

/-- Whether the subscriptions of a move's page are lost with cause 1: decided at its first standing line, when the new home lacks room for all of them (06 R187). -/
def moveLost (s : State) (m : Move) : Bool :=
  match m.subsLost with
  | some b => b
  | none => homeOf m.o != homeOf m.n && decide (65536 < (s.home (homeOf m.n)).subs.length + (pageSubs s m).length)

/-- The recall of a line (R325): every cache that the directory lists gives it up. -/
def takeBack (s : State) (line : Nat) : State := (LineState.agents (s.lineState line)).foldl (fun t a => leaveLine t line a) s

/-- The leases of a line's region end for the agents that keep nothing of the region (R328). -/
def endLeases (s : State) (line : Nat) : State :=
  let h := homeOf (line * 128); let r := line * 128 / 0x200000
  s.modHome h fun k => { k with leases := k.leases.filter fun l => !(l.region == r && !holdsRegion s h l.agent r) }

/-- MIGRATE_LINE: line W is recalled and copied, what the homes keep for it moves, the writes that waited are applied at the new place, and W advances; with the last
line the move completes. -/
def execMigrateLine (slot : Nat) (s : State) : Result :=
  .next (match s.findMove slot with
    | none => s
    | some m =>
      let src := m.o + 128 * m.w; let dst := m.n + 128 * m.w
      let s0 := takeBack (takeBack s (src / 128)) (dst / 128)
      let s1 := performWrite s0 { cells := cellsOf dst (bgets s.mem src 128), keep := false }
      let standing := (s.home (homeOf m.o)).subs.any fun e => e.2.word / 128 == src / 128
      let lost := moveLost s m
      let s2 := endLeases ((List.range 16).foldl (fun t i => moveWord t (src + 8 * i) (dst + 8 * i) lost) s1) (src / 128)
      let s3 := s2.modMove slot fun m => { m with w := m.w + 1, stalled := [], subsLost := if standing then some lost else m.subsLost }
      let s4 := m.stalled.foldl performWrite s3
      if m.w + 1 < m.lines then s4
      else
        let s5 := (runFrames m.o m.big).foldl (fun t f => t.setFrameRec f { t.frameRec f with moving := false, fwd := true }) s4
        let s6 := (runFrames m.n m.big).foldl (fun t f => t.setFrameRec f { t.frameRec f with moving := false }) s5
        s6.modMove slot fun m => { m with slot := none })

/-- Write n of those refused may be tried again: none before it waits for one of its lines, and it would not be refused again. -/
def retryReady (s : State) (n : Nat) : Bool :=
  match s.hub.retries[n]? with
  | some x =>
    (s.hub.retries.take n).all (fun y => y.cells.all fun c => x.cells.all fun d => c.1 / 128 != d.1 / 128) &&
    (match x.cells.findSome? fun e => s.stallMove e.1 with | some m => decide (m.stalled.length < 16) | none => true)
  | none => false

/-- STALLED_WRITE_RETRY. -/
def execStalledWriteRetry (n : Nat) (s : State) : Result :=
  .next (if retryReady s n then
    match s.hub.retries[n]? with
    | some x => homeStore (s.modHub fun h => { h with retries := ldrop h.retries n }) x
    | none => s
  else s)

/-! ## Handover of pool pages (R329 to R332) -/

/-- CLAIM_REQUEST: a claim of another package's partition reaches this hub, the frame's owner. -/
def execClaimRequest (frame claimant part : Nat) (s : State) : Result :=
  let r := s.frameRec frame
  .next (if tierOf (frame * 4096) = 2 ∧ s.owned frame = true ∧ r.engaged = false ∧ claimant < 16 ∧ BitVec.ofNat 4 claimant ≠ Config.package then
    (s.setFrameRec frame { r with claim := true, claimant := BitVec.ofNat 4 claimant }).modHub fun h => { h with ownClaims := h.ownClaims ++ [(frame, part)] }
  else s)

/-- A line whose recorded address lies in a frame. -/
def lineInFrame (f : Nat) (x : L1Line) : Bool := x.pline / 32 == f

/-- The release may go on: nothing pins the frame, and the write-backs it makes are acknowledged at once. -/
def releaseReady (s : State) (frame : Nat) : Bool :=
  let r := s.frameRec frame
  r.claim && r.pinc == 0 && s.owned frame && tierOf (frame * 4096) == 2 && s.cores.all fun k => cleanReady s k.1 (lineInFrame frame)

/-- The relay-written marks of a frame's words go (08 R238). -/
def clearMarks (s : State) (f : Nat) : State :=
  (s.modHome (homeOf (f * 4096)) fun k => { k with relayMarks := k.relayMarks.filter fun w => w / 4096 ≠ f }).modHub fun h =>
    { h with relayFlags := h.relayFlags.filter fun x => x.addr / 4096 ≠ f }

/-- HANDOVER_RELEASE (R332): lines and translations of the frame go, subscriptions to its words are lost with cause 2, and the record names its new owner. -/
def execHandoverRelease (frame : Nat) (s : State) : Result :=
  .next (if releaseReady s frame then
    let r := s.frameRec frame
    let part := ((s.hub.ownClaims.find? fun e => e.1 == frame).map (·.2)).getD 0
    let covers (e : TlbEntry) : Bool := (e.gstage || e.vmid == 0) && decide (e.pbase ≤ frame * 4096) && decide (frame * 4096 < e.pbase + e.size)
    let drop : Nat × Die → Nat × Die := fun d => (d.1, { d.2 with tlb := d.2.tlb.filter fun e => !covers e })
    let s1 := cleanAll { s with dies := s.dies.map drop } (lineInFrame frame) true
    let s2 := unwalk s1 fun _ _ h => h.pa / 4096 == frame
    let s3 := clearMarks (((s2.home 5).subs.filter fun e => e.2.word / 4096 == frame).foldl (fun t e => loseSub t 5 e.1 2)
      ((List.range 32).foldl (fun t i => takeBack t (frame * 32 + i)) s2)) frame
    let s4 := s3.setFrameRec frame { s3.frameRec frame with owner := r.claimant.setWidth 6, part := BitVec.ofNat 4 part, acc := 0, handoff := false, claim := false, claimant := 0 }
    (s4.modHub fun h => { h with ownClaims := h.ownClaims.filter fun e => e.1 ≠ frame }).modReferee fun x => { x with notices := x.notices ++ [(0, frame)] }
  else s)

/-- HOLIM_EXPIRY (R330): the frame stayed pinned beyond the limit; the claim is refused. -/
def execHolimExpiry (frame : Nat) (s : State) : Result :=
  let r := s.frameRec frame
  .next (if r.claim && r.pinc != 0 && s.owned frame && tierOf (frame * 4096) == 2 then
    (s.setFrameRec frame { r with claim := false, claimant := 0 }).modHub fun h => { h with ownClaims := h.ownClaims.filter fun e => e.1 ≠ frame }
  else s)

/-- The pending claim of an entry. -/
def pendingClaim (s : State) (entry : Nat) : Option Claim :=
  match s.hub.claims.getD entry none with
  | some c => if c.failed.isNone then some c else none
  | none => none

/-- A pending claim fails, unless its frame has been granted. -/
def failClaim (s : State) (entry reason : Nat) (owner : Option Nat) : State :=
  match pendingClaim s entry with
  | some c => if c.granted then s else s.modHub fun h => { h with claims := lset h.claims entry (some { c with failed := some reason, owner := owner.getD c.owner }) }
  | none => s

/-- CLAIM_TIMEOUT: the owner did not answer within twice HOLIM. -/
def execClaimTimeout (entry : Nat) (s : State) : Result := .next (failClaim s entry 3 none)

/-- CLAIM_REFUSAL: the owner refused; the entry stays, failed, until RETIRE. -/
def execClaimRefusal (entry owner : Nat) (s : State) : Result := .next (failClaim s entry 1 (some (owner % 16)))

/-- The owner has released a claimed frame: it is this package's. -/
def takeFrame (s : State) (c : Claim) : State :=
  clearMarks (s.setFrameRec c.frame { s.frameRec c.frame with owner := Config.package.setWidth 6, part := BitVec.ofNat 4 c.part, acc := 0, handoff := false, claim := false, claimant := 0 }) c.frame

/-- CLAIM_GRANT: the owner has released the frame to this package; then MIG is cleared in the PTE that the claim names, once that atomic can be made, and the entry is
freed. -/
def execClaimGrant (entry : Nat) (s : State) : Result :=
  .next (match pendingClaim s entry with
    | some c =>
      let s1 := if c.granted then s else takeFrame s c
      let put (x : Option Claim) (t : State) : State := t.modHub fun h => { h with claims := lset h.claims entry x }
      if s1.lineHeld c.pte then put (some { c with granted := true }) s1
      else put none (pteUpdate s1 c.part c.pte fun x => if x.testBit 58 then x - 2 ^ 58 else x)
    | none => s)

/-- The claim of an entry has been granted, and MIG can be cleared. -/
def grantDue (s : State) (entry : Nat) : Bool :=
  match pendingClaim s entry with
  | some c => c.granted && !s.lineHeld c.pte
  | none => false

end Sys2Proof.Machine
end

