-- ==== Sys2Proof/Machine/Super.lean ====
section
/-! DEFINITION. Supervisor instructions (12): SOLO, UNSOLO, TRET (R344, R348, R349), the control registers with CRD and CWR (R350, R351), TLBI, PTST,
IFENCE, FTMAP, RINGP, GRES, GKILL (R352 to R357), SNAP (14 R404, R405); the events TRAP_DELIVERY, HELD_TRAP_ENTER, HELD_TRAP_RETRY, TFCUR_WRITE,
CONTROL_REG_WRITE, LEASE_CLR; and the row RESERVED_OPCODE (01 R34). -/
namespace Sys2Proof.Machine

/-! ## Reserved opcodes -/

/-- RESERVED_OPCODE (01 R34, R35): the word raises ILLEGAL with cause 1. -/
def execReservedOpcode (w : Word) (s : State) : Result :=
  withGang s fun c g =>
    match decodeCheck g c w with
    | some t => trapAt (countIssue s c) c w t
    | none => trapAt (countIssue s c) c w (gangTrap g c 1 1 0)

/-! ## SOLO, UNSOLO, TRET -/

/-- The live handler slices that satisfy p form one gang with the issuing gang, and go on to its next word. -/
def joinHandler (g : Group) (c : Ctx) (p : Nat → Slice → Bool) : Group :=
  let first := g.slice (lowestSlice c.gang)
  { g with slices := g.slices.mapIdx fun i x =>
      if x.handler.isSome && !x.isDead && p i x then { x with gang := first.gang, pc := first.pc + 4, promoted := false } else x }

/-- SOLO (R344, R348). -/
def execSolo (s : State) : Result :=
  issue (encode .solo) s fun c g s1 =>
    .next (s1.setGroup c.gid { joinHandler g c (fun _ x => x.run != 0) with solo := true })

/-- UNSOLO (R348): each handler slice runs its lanes of FMASK again. -/
def execUnsolo (s : State) : Result :=
  issue (encode .unsolo) s fun c g s1 =>
    let fm : LaneMask := (g.frame.map (·.fmask)).getD 0
    let run (i : Nat) (x : Slice) : Slice := if x.handler.isSome then { x with run := (fm >>> (4 * i)).setWidth 4 &&& x.live } else x
    let first := lowestSlice c.gang
    let head := g.slice first
    let g1 := { g with slices := g.slices.mapIdx run, solo := false }
    let back (x : Slice) : Slice :=
      if x.handler.isSome && x.run != 0 then { x with gang := head.gang, pc := head.pc + 4, promoted := false } else x
    .next (s1.setGroup c.gid { g1 with slices := g1.slices.map back })

/-- TRET (R349): the frame closes for every handler slice; a SREL that was waited for may have ended meanwhile. -/
def execTret (k : BitVec 1) (s : State) : Result :=
  issue (encode (.tret k)) s fun c _ s1 => .next (srelPass (closeFrame s1 c.gid (k == 1)) c.gid)

/-! ## Control registers (R350, R351) -/

/-- Halves of a 64-bit register. -/
def halfOf (x : DWord) (hi : Bool) : Word := if hi then hiHalf x else loHalf x
def putHalf (x : DWord) (hi : Bool) (v : Word) : DWord := if hi then pairOf (loHalf x) v else pairOf v (hiHalf x)

/-- The value of a control register for a group. -/
def controlReg (s : State) (g : Group) (n : Nat) : Word :=
  let r := s.regs (s.partOf g.tid)
  let fr (f : Frame → Word) : Word := (g.frame.map f).getD 0
  let nat (x : Nat) : Word := BitVec.ofNat 32 x
  if n < 0x008 then fr fun f => f.record.words.getD n 0
  else if n < 0x010 then fr fun f => (f.fmask >>> (32 * (n - 0x008))).setWidth 32
  else if n < 0x020 then fr fun f => f.tfu.getD (n - 0x010) 0
  else if n = 0x020 then fr fun f => f.tfq.setWidth 32
  else if n = 0x021 then fr fun f => nat f.tfcur
  else if n < 0x024 then fr fun f => halfOf f.tfpc (n == 0x023)
  else if n < 0x032 then halfOf (BitVec.ofNat 64 (s.tvec g.tid)) (n == 0x031)
  else if n < 0x034 then halfOf (BitVec.ofNat 64 (s.bindField g.tid 0x48 8)) (n == 0x033)
  else if n < 0x036 then halfOf (groupHandle g g.parkSerial) (n == 0x035)
  else if n = 0x041 then nat r.leaseSt
  else if n < 0x04A then halfOf r.fopa (n == 0x049)
  else if n = 0x04B then r.fops.setWidth 32
  else if n < 0x060 then
    (match s.findMove (n - 0x050) with | some m => nat (2 ^ 31 + m.big.toNat * 2 ^ 16 + m.w % 2 ^ 15) | none => 0)
  else if n < 0x070 then
    (match s.hub.claims.getD (n - 0x060) none with
      | some c => nat ((match c.failed with | some k => 2 + k * 2 ^ 12 | none => 1) + c.owner * 2 ^ 4)
      | none => 0)
  else if n < 0x082 then halfOf r.ring (n == 0x081)
  else if n = 0x082 then nat r.ringSz
  else if n = 0x083 then r.ringHead.setWidth 32
  else if n = 0x084 then r.ringTail.setWidth 32
  else nat (r.lists.getD (n - 0x090) []).length

/-- CRD. -/
def execCrd (d : BitVec 8) (imm : BitVec 16) (s : State) : Result :=
  issueUniform (encode (.crd d imm)) d.toNat s fun c g s1 => .next (retire s1 c (uput g d.toNat (controlReg s1 g imm.toNat)))

/-- Change the open frame; without one nothing happens. -/
def modFrame (s : State) (gid : Nat) (f : Frame → Frame) : State := s.modGroup gid fun g => { g with frame := g.frame.map f }

/-- log2 of a ring's entries: 4 to 12, other values read back as 4. -/
def ringSize (v : Word) : Nat := if 4 ≤ v.toNat ∧ v.toNat ≤ 12 then v.toNat else 4

/-- A write to TFCUR (R344): it moves the SOLO lane to a lane of FMASK. -/
def writeTfcur (s : State) (gid : Nat) (v : Word) : State :=
  modFrame s gid fun f => if v.toNat < 256 ∧ f.fmask.getLsbD v.toNat then { f with tfcur := v.toNat } else f

/-- A write to LEASE_CLR (R351) by a partition on a die. Whose region it is decides before whether its flag is set (log 44). -/
def writeLeaseClr (s : State) (die part : Nat) (v : Word) : State :=
  let region := v.toNat % 2 ^ 24
  let home := v.toNat / 2 ^ 24 % 8
  let mine := (List.range 512).all fun i => (s.frameRec (region * 512 + i)).part.toNat == part
  let set := (s.die die).leaseLost.any fun e => e.1 == home && e.2.1 == region
  if !mine then s.modRegs part fun r => { r with leaseSt := 2 }
  else if !set then s.modRegs part fun r => { r with leaseSt := 1 }
  else (s.modDie die fun d => { d with leaseLost := d.leaseLost.filter fun e => !(e.1 == home && e.2.1 == region) }).modRegs part fun r => { r with leaseSt := 0 }

/-- A write to FOPC (R351, 11 R313). -/
def writeFopc (s : State) (part : Nat) (v : Word) : State :=
  let r := frameOp s part (v.toNat % 16) (v.toNat / 16 % 16) ((s.regs part).fopa.toNat / 4096)
  r.1.modRegs part fun p => { p with fops := BitVec.ofNat 4 r.2 }

/-- A write to a register without behaviour of its own. -/
def writePlain (s : State) (gid n : Nat) (v : Word) : State :=
  let part := s.partOf (s.group gid).tid
  if 0x010 ≤ n ∧ n < 0x020 then modFrame s gid fun f => { f with tfu := lset f.tfu (n - 0x010) v }
  else if n = 0x020 then modFrame s gid fun f => { f with tfq := v.setWidth 3 }
  else if n = 0x022 ∨ n = 0x023 then modFrame s gid fun f => { f with tfpc := putHalf f.tfpc (n == 0x023) v &&& ~~~3#64 }
  else if n = 0x048 ∨ n = 0x049 then s.modRegs part fun r => { r with fopa := putHalf r.fopa (n == 0x049) v }
  else if n = 0x080 ∨ n = 0x081 then s.modRegs part fun r => { r with ring := putHalf r.ring (n == 0x081) v }
  else if n = 0x082 then s.modRegs part fun r => { r with ringSz := ringSize v }
  else if n = 0x083 then s.modRegs part fun r => { r with ringHead := v.setWidth 16 }
  else s

/-- CWR: the write acts as it arrives. -/
def writeControl (s : State) (gid n : Nat) (v : Word) : State :=
  let g := s.group gid
  if n = 0x021 then writeTfcur s gid v
  else if n = 0x040 then writeLeaseClr s (dieOf g.core) (s.partOf g.tid) v
  else if n = 0x04A then writeFopc s (s.partOf g.tid) v
  else writePlain s gid n v

def execCwr (d : BitVec 8) (imm : BitVec 16) (s : State) : Result :=
  issue (encode (.cwr d imm)) s fun c g s1 =>
    let s2 := writeControl s1 c.gid imm.toNat (readU s1 g c d.toNat)
    .next (retire s2 c (s2.group c.gid))

/-- TFCUR_WRITE and LEASE_CLR: what such a write does, as a step of its own. -/
def execTfcurWrite (gid : Nat) (v : Word) (s : State) : Result := .next (writeTfcur s gid v)
def execLeaseClr (die part : Nat) (v : Word) (s : State) : Result := .next (writeLeaseClr s die part v)

/-! ## TLBI, PTST, IFENCE -/

/-- TLBI (R352): the G-stage forms raise PRIV for a team with a G-stage; the request is served when its write-backs can be. -/
def tlbi (w : Word) (gstage : Bool) (q : State → Group → Ctx → Shoot) (s : State) : Result :=
  issue w s fun c g s1 =>
    if gstage && s1.bindField g.tid 0x38 8 != 0 then trapAt s1 c w (gangTrap g c 3 0 0)
    else
      let r := q s1 g c
      if !shootReady s1 r then .next s
      else let s2 := shoot s1 r; .next (retire s2 c (s2.group c.gid))

/-- The low 16 bits of the b operand: the ASID; the VMID of a G-stage request (log 42). -/
def tlbiId (s : State) (g : Group) (c : Ctx) (b : BitVec 8) : Nat := (readU s g c b.toNat).toNat % 2 ^ 16

def execTlbiVa (a b : BitVec 8) (s : State) : Result :=
  tlbi (encode (.tlbiVa a b)) false (fun s g c => { gstage := false, asid := tlbiId s g c b, vmid := s.vmid g.tid, va := some (readU64 s g c a.toNat).toNat }) s
def execTlbiAsid (b : BitVec 8) (s : State) : Result :=
  tlbi (encode (.tlbiAsid b)) false (fun s g c => { gstage := false, asid := tlbiId s g c b, vmid := s.vmid g.tid, va := none }) s
def execTlbiGva (a b : BitVec 8) (s : State) : Result :=
  tlbi (encode (.tlbiGva a b)) true (fun s g c => { gstage := true, asid := 0, vmid := tlbiId s g c b % 2 ^ 14, va := some (readU64 s g c a.toNat).toNat }) s
def execTlbiVmid (b : BitVec 8) (s : State) : Result :=
  tlbi (encode (.tlbiVmid b)) true (fun s g c => { gstage := true, asid := 0, vmid := tlbiId s g c b % 2 ^ 14, va := none }) s

/-- The pair that PTST writes (R353). Of a leaf under handover the manual gives no result. -/
def ptstResult (s : State) (r : State × Reach) : State × DWord :=
  match r with
  | (s1, .ok h) => (s1, BitVec.ofNat 64 (h.pa / 4096 * 4096 + h.level * 2 ^ 4 + tierOf h.pa))
  | (_, .trap 0x0C _) => (s, Config.ptstMig s.time)
  | (_, .trap code cause) => (s, BitVec.ofNat 64 (cause / 2 ^ 12 * 2 ^ 8 + cause / 2 ^ 4 % 16 * 2 ^ 4 + (if code = 0x0A then 1 else 2) * 2 ^ 2 + 3))
  | (_, .wait) => (s, Config.ptstMig s.time)

/-- PTST: a translation at supervisor level that never traps and never sets A or D. -/
def execPtst (d a : BitVec 8) (acc : BitVec 2) (s : State) : Result :=
  issueUniform (encode (.ptst d a acc)) d.toNat s fun c g s1 =>
    let x := { s1.xctx g.tid g.core true with noAD := true }
    let r := ptstResult s1 (translate s1 x (readU64 s1 g c a.toNat).toNat acc.toNat)
    .next (retire r.1 c (uput64 (r.1.group c.gid) d.toNat r.2))

/-- The slices of a context have no store or atomic outstanding. -/
def storesDone (g : Group) (c : Ctx) : Bool := (ctxSlices c).all fun i => (g.slice i).stores == 0 && (g.slice i).atomics == 0

/-- IFENCE (R354). -/
def execIfence (s : State) : Result :=
  issue (encode .ifence) s fun c g s1 =>
    let p := ofAsid (s1.asid g.tid) (s1.vmid g.tid)
    if !storesDone g c || !cleanReady s1 g.core p then .next s
    else
      let s2 := (cleanLines s1 g.core p false).modCore g.core fun k => { k with icache := [] }
      .next (retire s2 c (s2.group c.gid))

/-! ## FTMAP (R355) -/

/-- The PTE at which a walk for first touch ends. -/
inductive Touch where
  | status (x : Nat)
  | leaf (addr pte : Nat)
  | open_
  | wait
deriving DecidableEq, Repr

/-- Walk the first stage, level by level, reading every PTE at its home. Where a PTE cannot be read, or is no legal non-leaf, the manual gives no status. -/
def touchWalk (x : Xctx) (va : Nat) : Nat → State → Nat → State × Touch
  | level, s, base =>
    match endMig 0 (secondStage s x (base + 8 * (va / 2 ^ (12 + 9 * level) % 512)) 0) with
    | (s1, .fault _ _ _ _) => (s1, .open_)
    | (s1, .mig _) => (s1, .open_)
    | (s1, .wait) => (s1, .wait)
    | (s1, .ok e) =>
      if (homeError s1 x.part e.pbase false).isSome then (s1, .open_)
      else
        let s2 := lineRequest s1 x.part x.die e.pbase .homeRead
        let pte := s2.pread e.pbase 8
        match level with
        | 0 => (s2, if pte.testBit 0 then .status 1 else if !pte.testBit 57 then .status 2
               else if (s2.stallMove e.pbase).isSome || s2.linePending e.pbase then .wait else .leaf e.pbase pte)
        | l + 1 =>
          match pteKind pte (l + 1) with
          | .invalid => (s2, .status 4)
          | .leaf => (s2, .status 1)
          | .bad => (s2, .open_)
          | .next => touchWalk x va l s2 (pte / 2 ^ 10 % 2 ^ 44 * 4096)

/-- The local lists that AFF names, in their order: near of C0 to C3, mid, far. -/
def touchLists (die aff : Nat) : List Nat :=
  let n := [(die + 1) % 4, (die + 3) % 4]
  match aff with
  | 0 => [die]
  | 1 => [die, min (n.getD 0 0) (n.getD 1 0), max (n.getD 0 0) (n.getD 1 0), (die + 2) % 4]
  | 2 => [4]
  | _ => [5]

/-- Fill an invalid leaf with a frame of the partition's lists: the state and how it ends. A list whose quota has been lowered below the frames given gives none
(14 R388). The frame of a guest that has no G-stage mapping gives no status: R355 has the mapping exist. -/
def touchFill (s : State) (x : Xctx) (addr pte : Nat) : State × Touch :=
  let lists := (s.regs x.part).lists
  match (touchLists x.die (pte / 2 ^ 54 % 4)).find? fun i => !(lists.getD i []).isEmpty && decide (localCount s x.part i ≤ (s.partRec x.part).quota i) with
  | none => (s, .status 3)
  | some i =>
    let f := (lists.getD i []).headD 0
    match endMig 1 (secondStage s x (f * 4096) 1) with
    | (s1, .ok e) =>
      let s2 := s1.modRegs x.part fun r => { r with lists := lset r.lists i ((r.lists.getD i []).drop 1) }
      let s3 := (assignFrame (s2.pwrite e.pbase (List.replicate 4096 0)) (e.pbase / 4096) x.part).1
      let keep := pte % 2 ^ 10 + pte / 2 ^ 54 * 2 ^ 54 - 2 ^ 57
      let new := keep ||| (f % 2 ^ 44 * 2 ^ 10) ||| 0xC1
      ((lineRequest s3 x.part x.die addr .homeStore).pstore addr 8 new, .status 0)
    | (s1, .wait) => (s1, .wait)
    | (s1, _) => (s1, .open_)

/-- FTMAP. -/
def execFtmap (d a : BitVec 8) (s : State) : Result :=
  issueUniform (encode (.ftmap d a)) d.toNat s fun c g s1 =>
    let x := s1.xctx g.tid g.core true
    let out (t : State) (v : Word) : Result := .next (retire t c (uput (t.group c.gid) d.toNat v))
    let w := touchWalk x (readU64 s1 g c a.toNat).toNat 4 s1 x.root
    match (match w.2 with | .leaf addr pte => touchFill w.1 x addr pte | _ => w) with
    | (t, .status k) => out t (BitVec.ofNat 32 k)
    | (_, .wait) => .next s
    | (t, _) => out t (Config.ftmapStatus s.time)

/-! ## RINGP (R356) -/

/-- The 64 bytes of a fault-ring entry. -/
def ringEntry (r : Record) (handle : DWord) (asid : Nat) (seq : BitVec 16) : List Byte :=
  r.bytes ++ leBytes 8 handle.toNat ++ leBytes 2 asid ++ leBytes 2 seq.toNat ++ leBytes 20 0

/-- The ring holds as many entries as it can. -/
def ringFull (head tail : BitVec 16) (sz : Nat) : Bool := decide (2 ^ sz ≤ (tail - head).toNat)

/-- Where RINGP's entry goes. -/
inductive RingPlace where
  | at (pa : Nat)
  | wait
  | fails
deriving DecidableEq, Repr

/-- Where RINGP's entry goes: its physical address, when the translation and the frame allow it. -/
def ringPlace (s : State) (tid core : Nat) : State × RingPlace :=
  let part := s.partOf tid
  let r := s.regs part
  match endMig 1 (secondStage s (s.xctx tid core true) (r.ring.toNat + 64 * (r.ringTail.toNat % 2 ^ r.ringSz)) 1) with
  | (s1, .ok e) =>
    (s1, if homeOf e.pbase < 6 ∧ inRecordArea e.pbase = false ∧ s1.owned (e.pbase / 4096) = true ∧ (s1.frameRec (s1.recordFrame (e.pbase / 4096))).part.toNat = part then
      .at e.pbase else .fails)
  | (s1, .wait) => (s1, .wait)
  | (s1, _) => (s1, .fails)

/-- RINGP: the entry is written and the group parks. The release orders the slice's earlier accesses (07 R201). -/
def execRingp (d : BitVec 8) (s : State) : Result :=
  issueUniform (encode (.ringp d)) d.toNat s fun c g s1 =>
    let part := s1.partOf g.tid
    let r := s1.regs part
    let out (t : State) (v : Word) : State := retire t c (uput (t.group c.gid) d.toNat v)
    if ringFull r.ringHead r.ringTail r.ringSz then .next (out s1 1)
    else match ringPlace s1 g.tid g.core with
      | (_, .wait) => .next s
      | (s2, .fails) => .next (out s2 2)
      | (s2, .at pa) =>
        if !quiet g c true || (s2.stallMove pa).isSome || s2.linePending pa then .next s
        else
          let rec_ := (g.frame.map (·.record)).getD (asyncRecord 0 0 0 0)
          let s3 := ((lineRequest s2 part (dieOf g.core) pa .homeStore).pwrite pa (ringEntry rec_ (groupHandle g (g.parkSerial + 1)) (s2.asid g.tid) r.ringTail)).modRegs part fun p => { p with ringTail := p.ringTail + 1 }
          .next ((out s3 0).modGroup c.gid Group.park)

/-! ## GRES and GKILL (R357) -/

/-- The bits of a group handle that are not reserved (R346); the others are ignored (00 R12). -/
def handleMask : DWord := 0x0000FFFF0007FFFF

/-- The group that a handle names (R346): a resident one. -/
def handleGroup (s : State) (h : DWord) : Option Nat :=
  let x := h.toNat
  let core := x % 2 ^ 8; let slot := x / 2 ^ 8 % 32; let num := x / 2 ^ 13 % 64
  let tid := core * 32 + slot
  let gid := tid * 64 + num
  if core < 160 ∧ s.bindField tid 0 1 = 2 ∧ num < s.bindField tid 4 2 ∧ (s.group gid).retired = false then some gid else none

/-- The engine operations that a group's waiting traps have stopped. -/
def stoppedEngines (s : State) (gid : Nat) : List EngineRef :=
  let g := s.group gid
  let k := s.core g.core
  g.queue.map (·.engine) ++ (match g.frame with | some f => [f.engine] | none => []) ++ ((k.held ++ k.retry).filter (·.gid == gid)).map (·.engine)

/-- Kill a group: its live masks are cleared, its queue, held traps and frame discarded, its logged instructions cancelled, waiting FIFO accesses too
(R360), and those that wait for a log entry; stopped engine operations go on. -/
def killGroup (s : State) (gid : Nat) : State :=
  let g := s.group gid
  let es := stoppedEngines s gid
  let s1 := ((s.core g.core).log.filter fun o => o.gid == gid && (!o.walked || (fifoLeft s o).isSome)).foldl finishOp s
  let uncount (g : Group) : Group := (g.queue.filterMap (·.log) ++ g.withdrawn).foldl (fun g o => uncountOp g o.kind o.gang o.active) g
  let s2 := s1.modCore g.core fun k => { k with held := k.held.filter fun h => h.gid ≠ gid, retry := k.retry.filter fun h => h.gid ≠ gid }
  let dead (x : Slice) : Slice := { x with live := 0, run := 0, depth := 0, stack := [], handler := none, wait := .none, spin := .no }
  es.foldl resumeEngine (s2.modGroup gid fun g => let u := uncount g
    { u with slices := u.slices.map dead, queue := [], frame := none, parked := false, solo := false, withdrawn := [] })

/-- GRES and GKILL on a handle, for a caller's partition: the status. -/
def onParked (s : State) (part : Nat) (h : DWord) (f : State → Nat → State) : State × Nat :=
  match handleGroup s h with
  | none => (s, 2)
  | some gid =>
    let g := s.group gid
    if s.partOf g.tid ≠ part then (s, 2)
    else if !g.parked || g.parkSerial != (h >>> 32).setWidth 16 then (s, 1)
    else (f s gid, 0)

def resumeParked (s : State) (part : Nat) (h : DWord) (skip : Bool) : State × Nat := onParked s part h fun t gid => srelPass (closeFrame t gid skip) gid
def killParked (s : State) (part : Nat) (h : DWord) : State × Nat := onParked s part h killGroup

/-- GRES. -/
def execGres (d a : BitVec 8) (k : BitVec 1) (s : State) : Result :=
  issueUniform (encode (.gres d a k)) d.toNat s fun c g s1 =>
    let r := resumeParked s1 (s1.partOf g.tid) (readU64 s1 g c a.toNat) (k == 1)
    .next (retire r.1 c (uput (r.1.group c.gid) d.toNat (BitVec.ofNat 32 r.2)))

/-- GKILL. -/
def execGkill (d a : BitVec 8) (s : State) : Result :=
  issueUniform (encode (.gkill d a)) d.toNat s fun c g s1 =>
    let r := killParked s1 (s1.partOf g.tid) (readU64 s1 g c a.toNat)
    .next (retire r.1 c (uput (r.1.group c.gid) d.toNat (BitVec.ofNat 32 r.2)))

/-! ## Snapshots (14 R404, R405) -/

/-- The snapshot blocks: cores 0 to 159, dies from 160, homes from 164, the hub 170, harts from 171, the referee 235. -/
def snapBlocks : List Nat := List.range 236

/-- Send a trigger: refused while one is in flight. -/
def sendSnap (s : State) (n : BitVec 16) : State × Nat :=
  if s.hub.snapFlight then (s, 1) else (s.modHub fun h => { h with snapNum := n, snapFlight := true, snapWait := snapBlocks }, 0)

/-- SNAP: it counts as an atomic until the hub replies. -/
def execSnap (d : BitVec 8) (imm : BitVec 16) (s : State) : Result :=
  issueUniform (encode (.snap d imm)) d.toNat s fun c g s1 =>
    issueRequest (encode (.snap d imm)) s1 c g { kind := .snap d.toNat imm, active := runSet g c, addr := fun _ => 0, data := fun _ => 0 }

/-- The hub's reply to a SNAP. -/
def doSnap (s : State) (o : LogOp) (d : Nat) (n : BitVec 16) : State :=
  let r := sendSnap s n
  (finishOp r.1 o).modGroup o.gid fun g => uput g d (BitVec.ofNat 32 r.2)

/-! ## Delivery (R337, R340) -/

/-- Cancel the engine operation that a trap stopped (12 R428). -/
def cancelEngine (s : State) : EngineRef → State
  | .none => s
  | .copy core id => cancelCopy s core id
  | .task core id => cancelTask s core id
  | .evict die id => match s.findEvict die id with | some x => cancelEvict s die x | none => s

/-- An entry of the group may be delivered now. -/
def deliverReady (s : State) (gid : Nat) : Bool :=
  let g := s.group gid
  match g.queue with
  | e :: _ => !(g.parked || g.frame.isSome || g.retired || s.swapped g.tid || olderLogged s gid e.key || (e.record.async && g.liveSlices == 0))
  | [] => false

/-- TRAP_DELIVERY. -/
def execTrapDelivery (gid : Nat) (s : State) : Result := .next (if deliverReady s gid then tryDeliver s gid else s)

/-- The held trap of a core that may enter a queue now: the first whose group has room; none is live where no group of its team is. -/
def heldReady (s : State) (core : Nat) : Option HeldTrap :=
  (s.core core).held.find? fun h => match s.asyncTarget h.gid with | some n => decide ((s.group n).queue.length < 8) | none => true

/-- Take a held trap out. -/
def dropHeld (x : HeldTrap) : List HeldTrap → List HeldTrap
  | [] => []
  | h :: r => if h = x then r else h :: dropHeld x r

/-- A waiting trap goes on: to the group that it now goes to, or, with no live group of the team, to the referee, and the engine operation that it stopped is
cancelled (R428). -/
def passTrap (s : State) (h : HeldTrap) (enter : State → Nat → State) : State :=
  match s.asyncTarget h.gid with
  | some n => enter s n
  | none => cancelEngine (s.post (s.group h.gid) h.record) h.engine

/-- HELD_TRAP_ENTER. -/
def execHeldTrapEnter (core : Nat) (s : State) : Result :=
  .next (match heldReady s core with
    | some h => passTrap (s.modCore core fun k => { k with held := dropHeld h k.held }) h fun t n => enterAsync t n h.record h.engine
    | none => s)

/-- HELD_TRAP_RETRY: a source that found the buffer full offers its trap again. -/
def execHeldTrapRetry (core : Nat) (s : State) : Result :=
  .next (match (s.core core).retry with
    | h :: r =>
      if (s.core core).held.length < 64 then passTrap (s.modCore core fun k => { k with retry := r }) h fun t n => queueAsync t n h.gid h.record h.engine else s
    | [] => s)

end Sys2Proof.Machine
end

