-- ==== Sys2Proof/Machine/Team.lean ====
section
/-! DEFINITION. Team slots and bind records (13 R367 to R370), the banks that a team is given (05 R135, R136, R140), the pacer's registers (R371),
GROUP_RETIRE (02 R43), TEAM_RELEASE, PACER_RECORD_WRITE and PQPOP. -/
namespace Sys2Proof.Machine

/-! ## Bind records -/

/-- The bind record in a slot. -/
def State.slotRec (s : State) (core slot : Nat) : List Byte := sget bindReset (s.core core).binds slot
def State.setSlotRec (s : State) (core slot : Nat) (b : List Byte) : State := s.modCore core fun k => { k with binds := sput k.binds slot b }
/-- STATE of a slot (R367). -/
def State.slotState (s : State) (core slot : Nat) : Nat := recField (s.slotRec core slot) 0 1
def State.putState (s : State) (core slot st : Nat) : State := s.setSlotRec core slot (setField (s.slotRec core slot) 0 1 st)

/-- Equal in every byte except FLAGS[0] and STATE (R370). -/
def sameRecord (a b : List Byte) : Bool :=
  (a.drop 1).take 2 == (b.drop 1).take 2 && recField a 3 1 / 2 == recField b 3 1 / 2 && a.drop 4 == b.drop 4

/-- The member cores of a record beside its home core. -/
def memberCores (b : List Byte) : List Nat := ((List.range 3).map fun i => recField b (0x59 + i) 1).filter (· ≠ 0xFF)

/-- The slot of a core that holds a copy of a record in a state. -/
def copySlot (s : State) (b : List Byte) (st core : Nat) : Option Nat :=
  (List.range 32).find? fun t => s.slotState core t == st && sameRecord b (s.slotRec core t)

/-- The slots that hold the copies of a team's record. -/
def teamCopies (s : State) (tid : Nat) : List (Nat × Nat) :=
  let b := s.bindRec tid
  (tid / 32, tid % 32) :: ((memberCores b).filter (· ≠ tid / 32)).filterMap fun c => (copySlot s b (recField b 0 1) c).map fun t => (c, t)

/-- Write STATE into every copy. -/
def setSlotState (s : State) (tid st : Nat) : State := (teamCopies s tid).foldl (fun t c => t.putState c.1 c.2 st) s

/-- Core and partition of a group of a record (GMAP). -/
def gmapCore (b : List Byte) (g : Nat) : Nat :=
  let m := recField b (0x80 + g) 1 / 8 % 4
  if m = 0 then recField b 0x58 1 else recField b (0x58 + m) 1
def gmapPart (b : List Byte) (g : Nat) : Nat := recField b (0x80 + g) 1 % 8
/-- Register budget of a group: a producer's or a consumer's. -/
def groupBudget (b : List Byte) (g : Nat) : Nat := if g < recField b 6 1 then recField b 8 1 else recField b 9 1

/-! ## Dispatch checks (R370) -/

/-- A budget (R368). -/
def budgetOk (n : Nat) : Bool := decide (8 ≤ n) && decide (n ≤ 128) && n % 8 == 0

/-- Check 1: the fields keep their limits, the reserved bytes are zero, and the record names the home core and slot that the commit names. -/
def recordLimits (b : List Byte) (core : Nat) : Bool :=
  let f := recField b
  decide (f 1 1 ≤ 15) && decide (f 2 1 ≤ 11) && decide (f 3 1 ≤ 3) && f 3 1 % 2 == 1 && decide (1 ≤ f 4 2) && decide (f 4 2 ≤ 64) && decide (f 6 1 ≤ f 4 2) &&
  decide (f 7 1 ≤ 4) && budgetOk (f 8 1) && budgetOk (f 9 1) && decide (f 0xA 2 ≤ 4095) && f 0xC 4 % 8192 == 0 && decide (f 0xC 4 ≤ 0x200000) &&
  f 0x30 8 / 2 ^ 60 == 10 && (f 0x38 8 == 0 || f 0x38 8 / 2 ^ 60 == 10) && f 0x58 1 == core &&
  ((List.range 3).all fun i => let m := f (0x59 + i) 1; m == 0xFF || (decide (m < 160) && m != core)) &&
  f 0x5C 4 == 0 && f 0x70 16 == 0 && f 0xC0 64 == 0 &&
  ((List.range 64).all fun g => decide (f (0x80 + g) 1 < 32)) &&
  (List.range (f 4 2)).all fun g => decide (gmapCore b g < 160)

/-- A cluster of the package is given to a partition by its die's PARTMAP (R371). -/
def State.clusterGiven (s : State) (part cluster : Nat) : Bool := ((s.die (cluster / 5)).partmap.getD part 0).getLsbD (cluster % 5)

/-- The groups resident on an issue partition, but for those of one team. -/
def State.resident (s : State) (core part : Nat) (except : Option Nat) : List Group :=
  (s.groups.map (·.2)).filter fun g => !g.retired && g.core == core && g.part == part && some g.tid != except && !s.swapped g.tid
/-- Allotment units that some groups take (03 R73). -/
def unitsOf (gs : List Group) : Nat := gs.foldl (fun n g => n + g.budget / 8) 0

/-- PARTSUM (R371): free allotment units and free group places of an issue partition. -/
def partSum (s : State) (core part : Nat) : Word :=
  let gs := s.resident core part none
  BitVec.ofNat 32 ((64 - unitsOf gs) + (16 - gs.length) * 2 ^ 7)

/-- Check 4: every issue partition holds its groups. -/
def groupsFit (s : State) (b : List Byte) (out : Option Nat) : Bool :=
  let gs := List.range (recField b 4 2)
  gs.all fun g =>
    let c := gmapCore b g; let p := gmapPart b g
    let mine := gs.filter fun h => gmapCore b h == c && gmapPart b h == p
    let there := s.resident c p out
    decide (there.length + mine.length ≤ 16) && decide (unitsOf there + mine.foldl (fun n h => n + groupBudget b h / 8) 0 ≤ 64)

/-! ## Banks, slots and entries of a core -/

/-- What a team asks of its home core: scratchpad pages, whole banks that GROW had added, FIFOs, consecutive slots, slab entries, directory entries. -/
structure Need where
  pages : Nat
  grow : Nat
  fifos : Nat
  slots : Nat
  slabs : Nat
  dirs : Nat
deriving DecidableEq, Repr

/-- Free scratchpad pages: lowest bank and lowest page first (05 R136). -/
def Core.freePages (k : Core) : List (Nat × Nat) :=
  (List.range 24).flatMap fun b => match k.banks.getD b .cache with
    | .scratch ps => (List.range 16).filterMap fun i => if ps.getD i none = none then some (b, i) else none
    | _ => []

/-- Cache banks that no change under way has chosen. -/
def Core.spareBanks (k : Core) : List Nat := k.cacheBanks.filter fun b => !k.bankChange.any fun e => e.2.2.1 == b

/-- The lowest run of n free slots. -/
def Core.freeRun (k : Core) (n : Nat) : Option Nat :=
  (List.range (65 - n)).find? fun f => (List.range n).all fun i => k.slots.getD (f + i) .zeroing == .free

/-- Banks that must leave cache mode for a need. -/
def Core.banksFor (k : Core) (n : Need) : Nat := ceilDiv (n.pages - k.freePages.length) 16 + n.grow + n.fifos

/-- Check 5: pages and FIFO banks, at least 4 banks staying in cache mode (05 R135). -/
def Core.supplies (k : Core) (n : Need) : Bool := k.banksFor n == 0 || decide (k.banksFor n + 4 ≤ k.spareBanks.length)
/-- Check 6. -/
def Core.holdsContext (k : Core) (n : Need) : Bool :=
  (k.freeRun n.slots).isSome && decide (k.slabs.length + n.slabs ≤ 256) && decide (k.directory.length + n.dirs ≤ 4096)

/-- The banks of a core once a team has left them: pages and FIFO banks are given back, and a scratchpad bank with every page free goes back to cache mode
(05 R140). -/
def releaseBanks (bs : List Bank) (tid : Nat) : List Bank :=
  bs.map fun b => match b with
    | .scratch ps =>
      let qs := ps.map fun p => if p = some tid then none else p
      if ps.contains (some tid) && qs.all (·.isNone) then .cache else .scratch qs
    | .fifo t f => if t = tid then .cache else .fifo t f
    | .cache => .cache

/-- A core as it will be once a team has left it. -/
def Core.without (k : Core) (tid : Nat) : Core :=
  { k with banks := releaseBanks k.banks tid, slots := k.slots.map fun x => if x = .held tid then .free else x,
           slabs := k.slabs.filter fun e => e.2.tid ≠ tid, directory := k.directory.filter fun d => d.tid ≠ tid }

/-- One spare bank of a core leaves cache mode; which one is open. -/
def takeBank (s : State) (core : Nat) (m : Bank) : State × Nat :=
  let bs := (s.core core).spareBanks
  let b := bs.getD (Config.order s.time % bs.length) 0
  (leaveCache s core b m, b)

/-- Enough free pages for a team, banks switched as they are needed. -/
def openPages (core n : Nat) : Nat → State → State
  | 0, s => s
  | k + 1, s => if (s.core core).freePages.length < n then openPages core n k (takeBank s core (.scratch (List.replicate 16 none))).1 else s

/-- Give n scratchpad pages to a team: the free pages of banks already in scratchpad mode first, then those of the banks switched for it (05 R136). -/
def takePages (s : State) (tid n : Nat) : State :=
  let core := tid / 32
  let s1 := openPages core n 24 s
  let old := (s.core core).freePages
  let ps := (old ++ (s1.core core).freePages.filter fun p => !old.contains p).take n
  let mark (k : Core) : Core := { k with banks := k.banks.mapIdx fun b x => match x with
    | .scratch qs => .scratch (qs.mapIdx fun i q => if ps.contains (b, i) then some tid else q)
    | x => x }
  (s1.modCore core mark).modTeam tid fun t => { t with pages := t.pages ++ ps }

/-- Give back the banks that GROW had added. -/
def takeGrown (tid : Nat) : Nat → State → State
  | 0, s => s
  | n + 1, s =>
    let r := takeBank s (tid / 32) (.scratch (List.replicate 16 (some tid)))
    takeGrown tid n (r.1.modTeam tid fun t => { t with grow := t.grow ++ [r.2], pages := t.pages ++ (List.range 16).map fun i => (r.2, i) })

/-- Give a bank to each FIFO that a team holds. -/
def takeFifos (s : State) (tid : Nat) : State :=
  (List.range 4).foldl (fun t f => match (t.team tid).fifos.getD f none with
    | some _ => (takeBank t (tid / 32) (.fifo tid f)).1
    | none => t) s

/-! ## A team leaves its core -/

/-- The entries that the home cores' directory names for a team: its subscriptions; parked ones among them, on their way out or back. -/
def State.namedSubs (s : State) (tid : Nat) : List (Nat × Nat) :=
  ((s.core (tid / 32)).directory.filter fun d => d.tid == tid && s.names d).map fun d => (d.home, d.idx)

/-- The subscriptions of a team at a home: of the parked ones those that its directory names. -/
def teamSubs (s : State) (tid home : Nat) : List (Nat × Sub) :=
  (s.home home).subs.filter fun e => (e.2.tid == tid && e.2.st != .parked) || (s.namedSubs tid).contains (home, e.1)

/-- Remove a team's subscriptions without writing the slots (06 R192). -/
def removeSubs (s : State) (tid : Nat) : State :=
  let s1 := (List.range 6).foldl (fun t h => (teamSubs s tid h).foldl (fun u e => dropSub u h e.1) t) s
  let other (p : Push) : Bool := p.tid != tid
  let msg (m : SubMsg) : Bool := match m with
    | .remove _ t _ => t != tid
    | .removed _ t _ => t != tid
    | .park h i => !(teamSubs s tid h).any fun e => e.1 == i
    | .repoint _ _ _ t => t != tid
  (s1.modHub fun h => { h with pushNet := h.pushNet.filter other, refusals := h.refusals.filter other, subMsgs := h.subMsgs.filter msg }).modCore (tid / 32) fun k =>
    { k with directory := k.directory.filter fun d => d.tid ≠ tid, inbox := k.inbox.filter other }

/-- The slots of a team are released and zeroed (09 R254, R256); its slab entries are freed (10 R281); its banks go back (05 R140); the team and its groups are
gone and its slots FREE. -/
def clearTeam (s : State) (tid : Nat) : State :=
  let core := tid / 32
  let held := (List.range 64).filter fun i => (s.core core).slots.getD i .free == .held tid
  let s1 := held.foldl (fun t i => releaseSlots t core i 1) s
  let s2 := s1.modCore core fun k =>
    { k with slabs := k.slabs.filter fun e => e.2.tid ≠ tid, banks := releaseBanks k.banks tid, releasing := k.releasing.filter (fun r => (s.group r.gid).tid ≠ tid),
             bankChange := k.bankChange.filter fun b => (s.group b.1).tid ≠ tid }
  let s3 := s2.modHub fun h => { h with arrivals := h.arrivals.filter fun a => a.tid ≠ tid }
  let s4 := setSlotState s3 tid 0
  { s4 with teams := sdel s4.teams tid, groups := s4.groups.filter fun e => e.2.tid ≠ tid || decide (e.1 / 64 ≠ tid) }

/-- A grid has one team fewer. -/
def teamEnded (s : State) (grid : DWord) : State :=
  s.modHub fun h => { h with grids := h.grids.map fun x => if x.id = grid then { x with live := x.live - 1 } else x }

/-! ## Retirement -/

/-- The asynchronous traps that wait in a group which has ceased to be live go to another group of the team, or to the referee (12 R428). -/
def rerouteTraps (s : State) (gid : Nat) : State :=
  ((s.group gid).queue.filter fun e => e.record.async).foldl (fun t e =>
    let u := raiseAsync t gid e.record e.engine
    if (t.asyncTarget gid).isNone then cancelEngine u e.engine else u) (s.modGroup gid fun g => { g with queue := [] })

/-- Every group of a team has retired. -/
def State.allRetired (s : State) (tid : Nat) : Bool := (s.teamGids tid).all fun gid => (s.group gid).retired

/-- A group may retire (02 R43): every slice is dead and every counter zero. An open frame holds it, and so does a logged BIND or UNBIND, which no counter counts but
which acts in the team's address space (DEDUCED, log 16). -/
def retireReady (s : State) (gid : Nat) : Bool :=
  let g := s.group gid
  !g.retired && g.frame.isNone && !s.swapped g.tid && (pendingOps s gid g).isEmpty &&
  g.slices.all fun x => x.isDead && x.loads == 0 && x.stores == 0 && x.atomics == 0 && x.posts == 0

/-- GROUP_RETIRE: the group's registers return to the partition (03 R75), its handle and its waiting traps go; with the team's last group its slot passes to DRAIN
(R374) and its grid has one team fewer (R377). -/
def execGroupRetire (gid : Nat) (s : State) : Result :=
  .next (if retireReady s gid then
    let s1 := rerouteTraps (s.modGroup gid fun g => { g with retired := true, parked := false, vregs := [], preds := [], uregs := [], uq := 0 }) gid
    let tid := (s.group gid).tid
    if s1.allRetired tid && s1.bindField tid 0 1 == 2 then teamEnded (setSlotState s1 tid 4) (s1.gridOf tid) else s1
  else s)

/-- The team's copies and evictions. -/
def State.teamCopiesIn (s : State) (tid : Nat) : List (Nat × Copy) :=
  s.cores.flatMap fun k => (k.2.copies.filter fun c => (s.group c.gid).tid == tid).map fun c => (k.1, c)
def State.teamEvicts (s : State) (tid : Nat) : List (Nat × Evict) :=
  s.dies.flatMap fun d => (d.2.evicts.filter fun x => (s.group x.gid).tid == tid).map fun x => (d.1, x)
def State.teamPosts (s : State) (tid : Nat) : List (Nat × Nat × PostSlot) :=
  s.cores.flatMap fun k => (k.2.postBuf.filter fun p => (s.group p.2.post.gid).tid == tid).map fun p => (k.1, p.1, p.2)

/-- Only tasks are left that wait for a cancelled one: nothing makes them ready any more (09 R270). -/
def tasksStuck (s : State) (tid : Nat) : Bool := (s.teamTasks tid).all fun t => t.fetched && t.phase == .queued && t.status == 0 && !t.preds.isEmpty

/-- The slot holds a home copy (R368, FLAGS). -/
def State.isHomeSlot (s : State) (core slot : Nat) : Bool := recField (s.slotRec core slot) 3 1 % 2 == 1

/-- A LAUNCH of the team is on its way to the port, or its reply on the way back (R383). -/
def launchBusy (s : State) (tid : Nat) : Bool :=
  let mine (gid : Nat) : Bool := (s.group gid).tid == tid
  s.hub.launchReqs.any (fun r => mine r.gid) || s.hub.launchReplies.any fun r => mine r.gid

/-- A draining team's slot may be freed: its copies, tasks and slab operations have finished (R367). So have its LAUNCHes, whose replies must not meet the slot's next
team, and, since its banks then change mode, every bank change requested before on its core (05 R139). -/
def drainReady (s : State) (core slot : Nat) : Bool :=
  let tid := core * 32 + slot
  s.slotState core slot == 4 && s.isHomeSlot core slot && (s.teamCopiesIn tid).isEmpty && (s.teamEvicts tid).isEmpty && (s.teamPosts tid).isEmpty && tasksStuck s tid &&
  !launchBusy s tid && !dropsLeft s tid && (s.core core).bankChange.isEmpty

/-- TEAM_RELEASE: a draining team's slot becomes FREE (R367, R374). -/
def execTeamRelease (core slot : Nat) (s : State) : Result :=
  .next (if drainReady s core slot then
    let tid := core * 32 + slot
    let s1 := (s.teamTasks tid).foldl (fun t x => cancelTask t core x.id) s
    clearTeam (removeSubs s1 tid) tid
  else s)

/-! ## The pacer's writes and reads -/

/-- PACER_RECORD_WRITE (R367): a whole record, in state FREE, with STATE 0x01; or the byte 0x00 into the STATE of a refused slot. Any other write has no effect. -/
def execPacerRecordWrite (core slot : Nat) (bytes : List Byte) (s : State) : Result :=
  .next (if core < 160 ∧ slot < 32 then
    (if s.slotState core slot = 0 ∧ bytes.length = 256 ∧ recField bytes 0 1 = 1 then s.setSlotRec core slot bytes
     else if 0x80 ≤ s.slotState core slot ∧ bytes = [0] then s.putState core slot 0
     else s)
  else s)

/-- The 32 bytes of a pending team entry (R371), as PQE0 to PQE7 hold them. -/
def Pending.bytes (p : Pending) : List Byte :=
  leBytes 8 p.grid.toNat ++ leBytes 4 p.team.toNat ++ leBytes 1 p.prio ++ leBytes 1 p.part ++ leBytes 1 p.restore.toNat ++ [0] ++ leBytes 8 p.save.toNat ++ List.replicate 8 0

/-- PQPOP (R371): the oldest pending entry moves into PQE0 to PQE7. -/
def execPqpop (die : Nat) (s : State) : Result :=
  .next (s.modDie die fun d => match d.pendingQ with
    | p :: r => { d with pendingQ := r, pqe := p.bytes, pqRet := BitVec.ofNat 32 r.length }
    | [] => { d with pqRet := 0xFFFFFFFF })

end Sys2Proof.Machine
end

