-- ==== Sys2Proof/Machine/Context.lean ====
section
/-! DEFINITION. The save area of a team (12 R363 to R365): its layout as bytes, and a context read back from it (R362; 19 R421, R422); the accesses of
the spill engine and of the hub to memory. -/
namespace Sys2Proof.Machine

/-! ## Accesses of the spill engine and of the hub -/

/-- Translate an access that passes no team window; it waits while a write of its line waits at a move. -/
def memReach (s : State) (x : Xctx) (va acc : Nat) : State × EngReach :=
  match reach s x va acc with
  | (s1, .ok h) => if s1.linePending h.pa || (accWrites acc && (s1.stallMove h.pa).isSome) then (s1, .wait) else (s1, .ok h)
  | (s1, .trap code _) => (s1, .fault (if code = 0x0A then .stage1 else if code = 0x0E then .lease else .stage2))
  | (s1, .wait) => (s1, .wait)

/-- Where the parts of some accesses lie; the first that fails decides. -/
def memPlaceFrom (x : Xctx) (acc : Nat) : List (Nat × Nat) → State → State × EngPlace
  | [], s => (s, .ok [])
  | (va, n) :: r, s =>
    match memReach s x va acc with
    | (s1, .fault k) => (s1, .fault k va)
    | (s1, .wait) => (s1, .wait)
    | (s1, .ok h) =>
      match memPlaceFrom x acc r s1 with
      | (s2, .ok ps) => (s2, .ok ((va, n, h) :: ps))
      | w => w

/-- Read n bytes at a virtual address. -/
def memLoad (s : State) (x : Xctx) (va n acc : Nat) : State × EngData :=
  match memPlaceFrom x acc (if n = 0 then [] else pieces va n) s with
  | (s1, .ok ps) => (ps.foldl (fun t p => lineRequest t x.part x.die p.2.2.pa .homeRead) s1, .ok (ps.flatMap fun p => s1.pbytes p.2.2.pa p.2.1))
  | (s1, .fault k v) => (s1, .fault k v)
  | (s1, .wait) => (s1, .wait)

/-- Write placed parts; every part takes its bytes from the front of the list. -/
def memStore (s : State) (part die : Nat) (ps : List (Nat × Nat × Hit)) (bs : List Byte) : State :=
  (ps.foldl (fun r p => ((lineRequest r.1 part die p.2.2.pa .homeStore).pwrite p.2.2.pa (r.2.take p.2.1), r.2.drop p.2.1)) (s, bs)).1

/-! ## Writing the layout -/

def zeros (n : Nat) : List Byte := List.replicate n 0
/-- Bytes padded with zeros to a length. -/
def padTo (n : Nat) (b : List Byte) : List Byte := b ++ zeros (n - b.length)
def roundUp (n k : Nat) : Nat := ceilDiv n k * k

/-- The wait code of a slice (R364); a wait at SREL is saved as none, its PC being at the SREL. -/
def Wait.code : Wait → Nat
  | .none => 0 | .regang _ => 1 | .barw _ _ _ => 2 | .waitb _ => 3 | .waitc _ _ => 4 | .yield _ => 5 | .srel _ _ => 0
  | .again c _ => c

def JoinKind.code : JoinKind → Nat | .mark => 1 | .div => 2 | .call => 3
/-- The 128 bits that hold a join-stack entry (02 R45). -/
def JoinEntry.bits (e : JoinEntry) : Nat := e.kind.code * 2 ^ 66 + e.mask.toNat * 2 ^ 62 + e.pc.toNat

/-- The 17 bits of a regang site (02 R41): bit 16 set with the site below it, or 0 for a slice that waits at none (DESIGN CHOICE: R41 gives the width alone;
log 63). -/
def siteBits (k : BitVec 16) : Nat := 65536 + k.toNat

/-- The site at which a slice waits or, for a handler slice that does not, at which it waited when the frame opened. -/
def Slice.siteField (x : Slice) : Nat :=
  match x.wait, x.handler with
  | .regang k, _ => siteBits k
  | _, some h => (match h.wait with | .regang k => siteBits k | _ => 0)
  | _, none => 0

/-- A slice record. Join-stack entries at or above the depth are saved too: a frame's SDEPTH may need them. -/
def sliceRecord (x : Slice) : List Byte :=
  leBytes 8 x.pc.toNat ++ leBytes 4 x.mode.toNat ++ leBytes 1 (x.live.toNat + x.run.toNat * 16) ++ leBytes 1 (x.depth + (x.wait.at x.issues).code * 16) ++ leBytes 1 x.gang ++
  leBytes 1 (x.handler.isSome.toNat + (decide (x.spin ≠ .no)).toNat * 2) ++ leBytes 4 x.siteField ++
  (match x.handler with
    | some h => leBytes 4 h.mode.toNat ++ leBytes 1 h.run.toNat ++ leBytes 1 h.depth ++ leBytes 1 h.gang ++ leBytes 1 h.wait.code
    | none => zeros 8) ++
  zeros 4 ++ (List.range 8).flatMap fun i => leBytes 16 (if i < x.stack.length then (x.entry i).bits else 0)

/-- A lane mask. -/
def maskBytes (m : LaneMask) : List Byte := leBytes 32 m.toNat

/-- The frame area. -/
def frameRecord (g : Group) : List Byte :=
  padTo 256 (match g.frame with
    | some f => f.tfu.flatMap (fun w => leBytes 4 w.toNat) ++ leBytes 4 f.tfq.toNat ++ leBytes 4 (f.tfcur + f.log.isSome.toNat * 256) ++ leBytes 8 f.tfpc.toNat ++
        f.record.bytes ++ maskBytes f.fmask
    | none => [])

/-- The address and data parts of an entry. -/
def opBytes (o : LogOp) : List Byte :=
  ((List.range 256).flatMap fun l => leBytes 8 (o.addr.getD l 0).toNat) ++ (List.range 256).flatMap fun l => leBytes 16 (o.data.getD l 0).toNat

/-- A queue entry. -/
def entryBytes (r : List Byte) (key : DWord) (fmask : LaneMask) (o : Option LogOp) : List Byte :=
  r ++ leBytes 8 key.toNat ++ leBytes 8 (match o with | some o => o.word.toNat | none => 0) ++ maskBytes (match o with | some o => o.active | none => fmask) ++ zeros 16 ++
  (match o with | some o => opBytes o | none => zeros 6144)

/-- Size of a group block. -/
def blockSize (g : Group) : Nat := roundUp (0x3000 + g.budget * 1024 + (g.queue.length + g.withdrawn.length) * 0x1860) 4096

/-- A group block (R364). -/
def groupBlock (g : Group) : List Byte :=
  padTo (blockSize g)
    (leBytes 2 g.num ++ leBytes 1 g.role ++ leBytes 1 g.budget ++
     leBytes 1 (g.retired.toNat + g.parked.toNat * 2 + g.frame.isSome.toNat * 4 + g.solo.toNat * 8) ++ leBytes 1 g.queue.length ++ leBytes 1 g.withdrawn.length ++
     leBytes 1 g.closed.length ++ leBytes 2 g.openBatch.toNat ++ leBytes 2 g.parkSerial.toNat ++ leBytes 4 (blockSize g) ++
     padTo 16 (g.closed.flatMap fun e => leBytes 2 e.1.toNat) ++ ((List.range 160).flatMap fun i => leBytes 4 (uget g i).toNat) ++ leBytes 4 g.uq.toNat ++ zeros 28 ++
     ((List.range 7).flatMap fun i => maskBytes (g.preds.getD i 0)) ++ zeros 96 ++ ((List.range 64).flatMap fun i => sliceRecord (g.slice i)) ++ frameRecord g ++ zeros 768 ++
     ((List.range g.budget).flatMap fun v => (List.range 256).flatMap fun l => leBytes 4 (vget g v l).toNat) ++
     (g.queue.flatMap fun e => entryBytes e.record.bytes e.key e.fmask e.log) ++ (g.withdrawn.flatMap fun o => entryBytes (zeros 32) o.key 0 (some o)))

/-- A range list of a barrier register. -/
def rangeBytes (r : Ranges) : List Byte := padTo 128 (r.items.flatMap fun e => leBytes 8 e.1.toNat ++ leBytes 8 e.2)

/-- A barrier register (R365; 08 R241). -/
def barrierBytes (b : Barrier) : List Byte :=
  leBytes 8 (b.lap.toNat * 2 ^ 32 + b.pending.toNat * 2 ^ 16 + b.expected.toNat) ++
  leBytes 1 (b.cur.items.length + b.cur.full.toNat * 128) ++ leBytes 1 (b.last.items.length + b.last.full.toNat * 128) ++ zeros 6 ++ rangeBytes b.cur ++ rangeBytes b.last

/-- A subscription entry. -/
def subBytes (s : State) (d : DirSlot) : List Byte :=
  let scope := match sfind (s.home d.home).subs d.idx with | some x => x.scope | none => 0
  leBytes 1 d.home ++ leBytes 1 (d.acq.toNat + scope * 2) ++ leBytes 2 d.seq.toNat ++ leBytes 4 d.idx ++ leBytes 4 d.off ++ zeros 4

def CopyKind.code : CopyKind → Nat | .cpy => 0 | .cpyx => 1 | .cpys => 2 | .grow => 3

/-- A recorded copy. -/
def copyBytes (s : State) (c : Copy) : List Byte :=
  padTo 32 (c.regs.flatMap fun w => leBytes 4 w.toNat) ++ leBytes 1 c.kind.code ++ [c.dfield] ++ leBytes 1 c.scout ++ zeros 1 ++ leBytes 2 c.batch.toNat ++
  leBytes 2 (s.group c.gid).num ++ leBytes 4 c.progress ++ zeros 20

/-- A queued task. STATE is what it was with the team resident. -/
def taskBytes (s : State) (core : Nat) (t : Task) : List Byte :=
  let st := (taskState (setSlotState s (s.group t.gid).tid 2) core t).toNat / 2 ^ 29
  leBytes 8 t.recAddr.toNat ++ leBytes 8 t.base.toNat ++ leBytes 2 t.off.toNat ++ leBytes 1 st ++ zeros 1 ++ leBytes 4 t.step ++ leBytes 2 (s.group t.gid).num ++ zeros 6 ++
  padTo 64 t.body

/-- A slab entry. -/
def slabRecord (e : Nat × Slab) : List Byte := e.2.bytes ++ leBytes 1 e.1 ++ zeros 15

/-- A FIFO. -/
def fifoBytes (f : Nat) (q : List (BitVec 128)) : List Byte := leBytes 1 f ++ zeros 3 ++ leBytes 4 q.length ++ zeros 8 ++ q.flatMap fun x => leBytes 16 x.toNat

/-- The operand slots that a team holds, ascending. -/
def heldSlots (k : Core) (tid : Nat) : List Nat := (List.range 64).filter fun i => k.slots.getD i .free == .held tid

/-- The copies that a spill records, in queue order, each with its core. -/
def recordedCopies (s : State) (tid : Nat) : List (Nat × Copy) := (s.teamCopiesIn tid).filter fun c => c.2.kind != .grow

/-- Insert a directory entry by the index of its subscription, then by its home. -/
def insertSub (d : DirSlot) : List DirSlot → List DirSlot
  | [] => [d]
  | e :: r => if d.idx < e.idx ∨ (d.idx = e.idx ∧ d.home < e.home) then d :: e :: r else e :: insertSub d r
/-- The subscriptions of a team in the order of their indices (R365). -/
def Core.teamSubs (k : Core) (tid : Nat) : List DirSlot := (k.directory.filter fun d => d.tid == tid).foldl (fun l d => insertSub d l) []

/-- The save area of a team (R363 to R365): its parts with their offsets. -/
def saveParts (s : State) (tid : Nat) : List (Nat × List Byte) :=
  let core := tid / 32
  let k := s.core core
  let t := s.team tid
  let blocks := (s.teamGids tid).map fun gid => groupBlock (s.group gid)
  let bars := (List.range 16).flatMap fun i => barrierBytes (t.bar i)
  let dirs := k.teamSubs tid
  let copies := recordedCopies s tid
  let tasks := s.teamTasks tid
  let slabs := k.slabs.filter fun e => e.2.tid == tid
  let fifos := (List.range 4).filterMap fun f => (t.fifos.getD f none).map fun q => (f, q)
  let slots := heldSlots k tid
  let fifoArea := fifos.flatMap fun e => fifoBytes e.1 e.2
  let obar := 0x1000 + (blocks.map List.length).sum
  let osub := obar + bars.length
  let ocopy := roundUp (osub + 16 * dirs.length) 64
  let otask := ocopy + 64 * copies.length
  let oslab := roundUp (otask + 96 * tasks.length) 64
  let ofifo := roundUp (oslab + 80 * slabs.length) 64
  let oslot := roundUp (ofifo + fifoArea.length) 4096
  let oscr := oslot + slotSize * slots.length
  let head := leBytes 4 1 ++ leBytes 4 (ceilDiv (oscr + t.scrSize) 4096) ++ leBytes 2 blocks.length ++ leBytes 1 slots.length ++ leBytes 1 (slots.headD 0) ++
    leBytes 2 dirs.length ++ leBytes 1 slabs.length ++ leBytes 1 copies.length ++ leBytes 1 tasks.length ++ leBytes 1 ((fifos.map fun e => 2 ^ e.1).sum) ++ zeros 2 ++
    leBytes 4 t.scrSize ++ ([0x1000, obar, osub, ocopy, otask, oslab, ofifo, oslot, oscr].flatMap fun o => leBytes 4 o) ++ zeros 68
  [(0, head), (0x1000, blocks.flatten), (obar, bars), (osub, dirs.flatMap (subBytes s)), (ocopy, copies.flatMap fun c => copyBytes s c.2),
   (otask, tasks.flatMap (taskBytes s core)), (oslab, slabs.flatMap slabRecord), (ofifo, fifoArea),
   (oslot, slots.flatMap fun i => s.opRead core (slotSize * i) slotSize), (oscr, bgets t.scratch 0 t.scrSize)]

/-! ## Reading a context back -/

/-- Part of a record. -/
def part (b : List Byte) (off n : Nat) : List Byte := (b.drop off).take n
def w32 (b : List Byte) (off : Nat) : Word := BitVec.ofNat 32 (recField b off 4)
def w64 (b : List Byte) (off : Nat) : DWord := BitVec.ofNat 64 (recField b off 8)
def mask256 (b : List Byte) (off : Nat) : LaneMask := BitVec.ofNat 256 (recField b off 32)

/-- A trap record from its 32 bytes (R334). -/
def readRecord (b : List Byte) : Record :=
  let x := recField b 0 4; let y := recField b 4 4
  { cause := BitVec.ofNat 16 (x / 2 ^ 16), nested := x.testBit 11, logged := x.testBit 10, async := x.testBit 9, code := BitVec.ofNat 8 x, qleft := y / 2 ^ 8,
    lane := BitVec.ofNat 8 y, addr := w64 b 8, pc := w64 b 0x10, opword := w64 b 0x18 }

/-- The wait that a code leaves after a restore (19 R422) in a slice that has issued n instructions: a slice at BARW, WAITB or WAITC executes it afresh and keeps its
code until then; a YIELD's wait has ended. -/
def waitBack (code site n : Nat) : Wait :=
  if code = 1 then .regang (BitVec.ofNat 16 site) else if 2 ≤ code ∧ code ≤ 4 then .again code n else .none

/-- A mode word from the save area: bits 31 to 16 read 0 and no field holds a reserved encoding (01 R26, R28). Where edited bytes hold one, that field takes its
reset value (DESIGN CHOICE, log 69). -/
def modeBack (w : Nat) : Word :=
  let etype := w / 2 ^ 4 % 16; let rnd := w / 2 ^ 8 % 8; let sxw := w / 2 ^ 13 % 4
  BitVec.ofNat 32 (w % 16 + (if etype = 15 then 8 else etype) * 2 ^ 4 + (if 5 ≤ rnd then 0 else rnd) * 2 ^ 8 + w / 2 ^ 11 % 4 * 2 ^ 11 +
    (if sxw = 3 then 0 else sxw) * 2 ^ 13 + w / 2 ^ 15 % 2 * 2 ^ 15)

def joinBack (x : Nat) : JoinEntry :=
  { kind := match x / 2 ^ 66 % 4 with | 2 => .div | 3 => .call | _ => .mark, mask := BitVec.ofNat 4 (x / 2 ^ 62), pc := BitVec.ofNat 62 x }

/-- A slice from its record; h holds what the record has no place for: where a handler slice waits at one REGANG and waited at another, the latter. -/
def readSlice (b : List Byte) (h : Slice) : Slice :=
  let m := recField b 0xC 1; let d := recField b 0xD 1; let f := recField b 0xF 1; let site := recField b 0x10 4
  let raw (i : Nat) : Nat := recField b (0x20 + 16 * i) 16
  let swait : Wait := match recField b 0x1B 1, d / 16, h.handler with
    | 1, 1, some v => (match v.wait with | .regang k => .regang k | _ => waitBack 1 site h.issues)
    | c, _, _ => waitBack c site h.issues
  { h with pc := w64 b 0 &&& ~~~3#64, mode := modeBack (recField b 8 4), live := BitVec.ofNat 4 m, run := BitVec.ofNat 4 (m / 16), depth := d % 16, gang := recField b 0xE 1 % 64,
           stack := ((List.range 8).takeWhile fun i => decide (i < d % 16) || raw i / 2 ^ 66 % 4 != 0).map fun i => joinBack (raw i), wait := waitBack (d / 16) site h.issues,
           spin := if f.testBit 1 then (if h.spin = .no then .opened else h.spin) else .no,
           handler := if f.testBit 0 then some { mode := modeBack (recField b 0x14 4), run := BitVec.ofNat 4 (recField b 0x18 1), depth := recField b 0x19 1, gang := recField b 0x1A 1 % 64,
                                                 wait := swait } else none }

/-- A logged operation from the parts of an entry that hold it. -/
def readOp (b : List Byte) (gid : Nat) (h : LogOp) : LogOp :=
  { h with gid := gid, key := w64 b 0x20, word := w32 b 0x28, active := mask256 b 0x30, walked := false, hits := [],
           addr := (List.range (if h.kind.isUniform then 1 else 256)).map fun l => w64 b (0x60 + 8 * l),
           data := (List.range 256).map fun l => BitVec.ofNat 128 (recField b (0x860 + 16 * l) 16) }

/-- What the record of an operation lacks where the device has kept nothing: a load of no lane. -/
def LogOp.blank : LogOp :=
  { id := 0, gid := 0, key := 0, word := 0, kind := .load 4 0, pc := 0, gang := 0, active := 0, left := 0, modes := [], addr := [], data := [], walked := false,
    hits := [], priv := false }

/-- A queue entry; refs gives the engine operations that a restore has renamed. -/
def readEntry (b : List Byte) (gid : Nat) (refs : EngineRef → EngineRef) (h : Option TrapEntry) : TrapEntry :=
  let r := readRecord b
  let log := if recField b 0x28 8 = 0 then none else some (readOp b gid ((h.bind (·.log)).getD .blank))
  match h with
  | some e => { e with record := r, key := w64 b 0x20, fmask := if log.isNone then mask256 b 0x30 else e.fmask, log := log, engine := refs e.engine }
  | none => { record := r, fmask := mask256 b 0x30, gang := 0, key := w64 b 0x20, log := log, atIssue := log.isNone && !r.async, resume := r.pc, engine := .none }

/-- The frame. -/
def readFrame (b : List Byte) (gid : Nat) (refs : EngineRef → EngineRef) (h : Option Frame) : Frame :=
  let x := recField b 0x44 4
  { tfu := (List.range 16).map fun i => w32 b (4 * i), tfq := BitVec.ofNat 3 (recField b 0x40 4), tfcur := x % 256, tfpc := w64 b 0x48, record := readRecord (part b 0x50 32),
    fmask := mask256 b 0x70, log := if x.testBit 8 then (h.bind (·.log)).map fun o => { o with gid := gid } else none,
    atIssue := match h with | some f => f.atIssue | none => true, engine := refs (match h with | some f => f.engine | none => .none) }

/-- A group from its block. -/
def readGroup (b : List Byte) (gid : Nat) (refs : EngineRef → EngineRef) (h : Group) : Group :=
  let f := recField b 4 1
  let qn := recField b 5 1; let nlog := recField b 6 1; let nreg := recField b 3 1
  let entry (i : Nat) : List Byte := part b (0x3000 + nreg * 1024 + 0x1860 * i) 0x1860
  let queue := (List.range qn).map fun i => readEntry (entry i) gid refs h.queue[i]?
  let ops := (List.range nlog).map fun i => let o := readOp (entry (qn + i)) gid (h.withdrawn.getD i .blank); { o with left := o.active }
  let keys := queue.map (·.key) ++ ops.map (·.key)
  { h with role := recField b 2 1, budget := nreg, retired := f.testBit 0, parked := f.testBit 1, solo := f.testBit 3, openBatch := BitVec.ofNat 16 (recField b 8 2),
           parkSerial := BitVec.ofNat 16 (recField b 0xA 2), closed := (List.range (recField b 7 1)).map fun i => (BitVec.ofNat 16 (recField b (0x10 + 2 * i) 2), 0),
           uregs := (List.range 160).map fun i => (i, w32 b (0x20 + 4 * i)), uq := BitVec.ofNat 3 (recField b 0x2A0 4),
           preds := (List.range 7).map fun i => mask256 b (0x2C0 + 32 * i),
           slices := (List.range 64).map fun i => readSlice (part b (0x400 + 160 * i) 160) (h.slice i),
           frame := if f.testBit 2 then some (readFrame (part b 0x2C00 256) gid refs h.frame) else none,
           vregs := (List.range nreg).map fun v => (v, (List.range 256).map fun l => w32 b (0x3000 + 0x400 * v + 4 * l)),
           queue := queue, withdrawn := ops, issueNo := keys.foldl (fun m k => if m < k then k else m) h.issueNo }

def readRanges (b : List Byte) (off n : Nat) : Ranges :=
  { items := (List.range (n % 16)).map fun i => (w64 b (off + 16 * i), recField b (off + 16 * i + 8) 8), full := n.testBit 7 }
def readBarrier (b : List Byte) : Barrier :=
  { lap := w32 b 4, pending := BitVec.ofNat 16 (recField b 2 2), expected := BitVec.ofNat 16 (recField b 0 2), cur := readRanges b 0x10 (recField b 8 1),
    last := readRanges b 0x90 (recField b 9 1) }

/-- A recorded copy: it re-enters the descriptor queue at its PROGRESS. -/
def readCopy (b : List Byte) (id gid : Nat) (h : Option Copy) : Copy :=
  let kind : CopyKind := match recField b 0x20 1 with | 1 => .cpyx | 2 => .cpys | _ => .cpy
  { id := id, kind := kind, gid := gid, regs := (List.range kind.regs).map fun i => w32 b (4 * i), dfield := BitVec.ofNat 8 (recField b 0x21 1), scout := recField b 0x22 1,
    batch := BitVec.ofNat 16 (recField b 0x24 2), entry := match h with | some c => c.entry | none => 0, phase := .queued, progress := recField b 0x28 4, stopAt := none,
    passed := recField b 0x28 4, met := none, fault := none }

/-- What the record of a task lacks where the device has kept nothing. -/
def Task.blank : Task :=
  { id := 0, gid := 0, recAddr := 0, base := 0, off := 0, body := [], fetched := true, order := 0, preds := [], cpysBefore := [], phase := .queued, engine := 0, step := 0,
    status := 0, cells := [], held := [], changed := [], cap := none, reloc := ([], []), fault := none }

/-- A queued task. -/
def readTask (b : List Byte) (id gid : Nat) (h : Task) : Task :=
  { h with id := id, gid := gid, recAddr := w64 b 0, base := w64 b 8, off := BitVec.ofNat 16 (recField b 0x10 2), step := recField b 0x14 4,
           phase := if recField b 0x12 1 = 4 then .stopped else .queued, body := if h.fetched then part b 0x20 64 else [], engine := 0, cells := [] }

/-! ## The header and its areas -/

/-- The offsets of the areas, by their place in the header. -/
def areaOff (b : List Byte) (i : Nat) : Nat := recField b (0x18 + 4 * i) 4

/-- Offset of group block g. -/
def blockOff (b : List Byte) : Nat → Nat
  | 0 => areaOff b 0
  | g + 1 => let o := blockOff b g; o + recField b (o + 0xC) 4

/-- The context of a team for the spill engine: supervisor level, whatever SUM holds (log 50). -/
def State.spillX (s : State) (tid : Nat) : Xctx := { s.xctx tid (tid / 32) true with own := true }
def State.saveBase (s : State) (tid : Nat) : Nat := s.bindField tid 0x50 8

/-- A part of a team's save area cannot be read yet: it lies at a page under a move or a claim that is decided later. -/
def areaWaits (s : State) (tid : Nat) : Bool :=
  (s.bindField tid 3 1).testBit 1 &&
  match memLoad s (s.spillX tid) (s.saveBase tid) 128 3 with
  | (s1, .ok h) => (match (memLoad s1 (s.spillX tid) (s.saveBase tid) (max 128 (areaOff h 7)) 3).2 with | .wait => true | _ => false)
  | (_, .wait) => true
  | _ => false

/-- A team's save area up to the slot area, read whole; empty where it cannot be read. -/
def saveArea (s : State) (tid : Nat) : State × List Byte :=
  match memLoad s (s.spillX tid) (s.saveBase tid) 128 3 with
  | (s1, .ok h) =>
    (match memLoad s1 (s.spillX tid) (s.saveBase tid) (max 128 (areaOff h 7)) 3 with
      | (s2, .ok b) => (s2, b)
      | (s2, _) => (s2, []))
  | (s1, _) => (s1, [])

/-- What the device keeps of a saved team. -/
def State.findSaved (s : State) (tid : Nat) : Option Saved :=
  s.hub.saved.find? fun v => v.grid == s.gridOf tid && v.team == BitVec.ofNat 32 (s.bindField tid 0x18 4)
def State.dropSaved (s : State) (tid : Nat) : State :=
  s.modHub fun h => { h with saved := h.saved.filter fun v => !(v.grid == s.gridOf tid && v.team == BitVec.ofNat 32 (s.bindField tid 0x18 4)) }

/-- The record asks for a restore (FLAGS[1]). -/
def State.isRestore (s : State) (tid : Nat) : Bool := (s.bindField tid 3 1).testBit 1

/-- FIFOs of a mask. -/
def fifoMask (m : Nat) : List (Option (List (BitVec 128))) := (List.range 4).map fun f => if m.testBit f then some [] else none

/-- What a team's record asks of its home core (R370, check 5). -/
def recordNeed (s : State) (tid : Nat) : Need :=
  { pages := s.bindField tid 0xC 4 / 8192, grow := 0, fifos := s.bindField tid 7 1, slots := 0, slabs := 0, dirs := 0 }

/-- What a team needs of its home core, from its record and, for a restore, its save area. -/
def teamNeed (s : State) (tid : Nat) (b : List Byte) : Need :=
  if s.isRestore tid then
    let grow := match s.findSaved tid with | some v => v.grow | none => 0
    { pages := ceilDiv (recField b 0x14 4 - grow * 0x20000) 8192, grow := grow, fifos := ((fifoMask (recField b 0x11 1)).filter (·.isSome)).length,
      slots := recField b 0xA 1, slabs := recField b 0xE 1, dirs := recField b 0xC 2 }
  else recordNeed s tid

/-- Check 7: the save area agrees with the record. -/
def saveAgrees (s : State) (tid : Nat) (b : List Byte) : Bool :=
  let r := s.bindRec tid
  recField b 0 4 == 1 && recField b 8 2 == recField r 4 2 && (List.range (recField r 4 2)).all fun g => recField b (blockOff b g + 3) 1 == groupBudget r g

/-- The dispatch checks of R370 in their order, for the record in a slot, with a team's resources counted as free: the code of the first that fails. -/
def dispatchCode (s : State) (tid : Nat) (out : Option Nat) : Option Nat :=
  let b := s.bindRec tid
  let core := tid / 32
  let area := if s.isRestore tid then (saveArea s tid).2 else []
  let n := teamNeed s tid area
  let k := match out with | some t => if t / 32 = core then (s.core core).without t else s.core core | none => s.core core
  let others := (memberCores b).filter (· ≠ core)
  if !recordLimits b core then some 1
  else if others.any fun c => (copySlot s b (recField b 0 1) c).isNone then some 2
  else if (core :: others).any fun c => clusterOf c != clusterOf core || !s.clusterGiven (recField b 2 1) (clusterOf c) then some 3
  else if !groupsFit s b out then some 4
  else if !k.supplies (recordNeed s tid) then some 5
  else if s.isRestore tid && !k.holdsContext n then some 6
  else if s.isRestore tid && !saveAgrees s tid area then some 7
  else none

end Sys2Proof.Machine
end

