-- ==== Sys2Proof/Machine/Control.lean ====
section
/-! DEFINITION. The control-flow and mode instructions 0x80 to 0x8D (02 R60 to R70), and the steps by which waiting slices go on:
REGANG_MERGE (R47), YIELD_RELEASE (R54), SPIN_AGE_PROMOTE (R56). -/
namespace Sys2Proof.Machine

/-! ## Branches -/

/-- A taken branch (02 R55): a backward branch to the target of the previous one sets the slice's gang spinning; after SPINW the first
backward branch closes the range. -/
def Slice.branchTo (x : Slice) (target : DWord) : Slice :=
  if target ≤ x.pc then
    let spin := if x.spin = .opened ∨ x.lastBack = some target then .closed target x.pc else x.spin
    ({ x with pc := target, lastBack := some target, spin := spin } : Slice).spinCheck
  else ({ x with pc := target } : Slice).spinCheck

/-- Go on to the next word. -/
def Slice.fall (x : Slice) : Slice := ({ x with pc := x.pc + 4 } : Slice).spinCheck

/-- Replace the group and split its gang by next PC, without advancing it. -/
def settleAt (s : State) (c : Ctx) (g : Group) : State := s.setGroup c.gid (settle c g)

/-- The lanes of slice i that satisfy p, as a mask. -/
def laneBits (i : Nat) (p : Nat → Bool) : BitVec 4 :=
  (List.range 4).foldl (fun m j => if p (4 * i + j) then m ||| (1#4 <<< j) else m) 0

/-- BRA in one slice (R62): the taken lanes decide; lanes of a slice that disagree are separated by a DIV entry. -/
def braSlice (target : DWord) (x : Slice) (t : BitVec 4) : Slice :=
  let f := x.run &&& ~~~t
  if t = 0 then x.fall
  else if f = 0 then x.branchTo target
  else let y := (x.push .div (x.pc + 4) f).branchTo target; { y with run := t }

/-- The target of a branch: 4 times the signed word offset. -/
def branchTarget {n : Nat} (pc : DWord) (imm : BitVec n) : DWord := pc + 4 * imm.signExtend 64

def execBra (p : BitVec 4) (imm : BitVec 16) (s : State) : Result :=
  let w := encode (.bra p imm)
  issue w s fun c g s1 =>
    let take (l : Nat) : Bool := guardTrue g l && readP g p.toNat l
    match c.solo with
    | some l => .next (settleAt s1 c (g.mapSlices c.gang fun _ x => if take l then x.branchTo (branchTarget x.pc imm) else x.fall))
    | none =>
      let t (i : Nat) : BitVec 4 := laneBits i fun l => runs g c l && take l
      if (slicesOf c.gang).any fun i => let x := g.slice i
          t i != 0 && x.run &&& ~~~(t i) != 0 && decide (8 ≤ x.depth) then trapAt s1 c w (gangTrap g c 0x14 1 0)
      else .next (settleAt s1 c (g.mapSlices c.gang fun i x => braSlice (branchTarget x.pc imm) x (t i)))

def execBraq (p : BitVec 4) (imm : BitVec 16) (s : State) : Result :=
  issue (encode (.braq p imm)) s fun c g s1 =>
    .next (settleAt s1 c (g.mapSlices c.gang fun _ x => if readQ g p.toNat then x.branchTo (branchTarget x.pc imm) else x.fall))

/-! ## CALL, RET, MARK, JOIN -/

/-- Push an entry in every slice of the gang, or trap where one is full. -/
def pushAll (w : Word) (kind : JoinKind) (entry next : DWord → DWord) (s : State) : Result :=
  issue w s fun c g s1 =>
    if (slicesOf c.gang).any fun i => decide (8 ≤ (g.slice i).depth) then trapAt s1 c w (gangTrap g c 0x14 1 0)
    else .next (settleAt s1 c (g.mapSlices c.gang fun _ x => ({ x.push kind (entry x.pc) x.run with pc := next x.pc } : Slice).spinCheck))

def execCall (imm : BitVec 24) (s : State) : Result :=
  pushAll (encode (.call imm)) .call (· + 4) (fun pc => branchTarget pc imm) s
def execMark (imm : BitVec 16) (s : State) : Result :=
  pushAll (encode (.mark imm)) .mark (fun pc => branchTarget pc imm) (· + 4) s

/-- Pop in every slice of the gang (R46). Where slices fail with different causes the record holds that of the lowest, which R46 leaves open (DESIGN CHOICE, log
63). -/
def popAll (w : Word) (pop : Slice → PopResult) (s : State) : Result :=
  issue w s fun c g s1 =>
    match (slicesOf c.gang).findSome? fun i => match pop (g.slice i) with | .trap n => some n | .ok _ => none with
    | some cause => trapAt s1 c w (gangTrap g c 0x14 cause 0)
    | none => .next (settleAt s1 c (g.mapSlices c.gang fun _ x => match pop x with | .ok y => y.spinCheck | .trap _ => x))

/-- RET in one slice (R64). -/
def retSlice (x : Slice) : PopResult :=
  if x.depth = 0 then .trap 2
  else
    let e := x.entry (x.depth - 1)
    if e.kind ≠ .call then .trap 3
    else
      let y := { x with depth := x.depth - 1, run := e.mask &&& x.live, pc := e.addr }
      .ok (if y.run = 0 then implicitPop y else y)

def execRet (s : State) : Result := popAll (encode .ret) retSlice s
def execJoin (s : State) : Result := popAll (encode .join) (fun x => joinPop x false x.depth) s

/-! ## REGANG -/

/-- Every live slice of the group waits at some REGANG (R47). -/
def Group.allRegang (g : Group) : Bool :=
  g.liveSlices != 0 && (slicesOf g.liveSlices).all fun i => match (g.slice i).wait with | .regang _ => true | _ => false

/-- Merge the slices of each site into one gang, which takes the lowest gang number among them, and let all go on (R47). Where gangs merge at a site all of its
slices stop spinning, those of the gang that keeps its number too (DESIGN CHOICE: R55 speaks of a gang merged into another; log 63). -/
def regangMerge (g : Group) : Group :=
  let site (i : Nat) : Option (BitVec 16) := match (g.slice i).wait with | .regang k => some k | _ => none
  let num (k : BitVec 16) : Nat := ((slicesOf g.liveSlices).filter fun i => site i == some k).foldl (fun m i => min m (g.slice i).gang) 64
  let merged (k : BitVec 16) : Bool := (slicesOf g.liveSlices).any fun i => site i == some k && (g.slice i).gang != num k
  g.mapSlices g.liveSlices fun i x => match site i with
    | some k => ({ x with gang := num k, wait := .none, pc := x.pc + 4, spin := if merged k then .no else x.spin } : Slice).spinCheck
    | none => x

/-- REGANG: the gang's slices wait at the site, unless another slice waits there with another PC. -/
def execRegang (imm : BitVec 16) (s : State) : Result :=
  let w := encode (.regang imm)
  issue w s fun c g s1 =>
    if (List.range 64).any fun i => let x := g.slice i
        !x.isDead && x.wait == .regang imm && (slicesOf c.gang).any fun j => (g.slice j).pc != x.pc then
      trapAt s1 c w (gangTrap g c 0x06 imm.toNat 0)
    else .next (s1.setGroup c.gid (g.mapSlices c.gang fun _ x => { x with wait := .regang imm }))

/-- The merge happens when every live slice waits, whether the last event was an arrival or a death; inside a handler too (R47). -/
def mergeReady (s : State) (gid : Nat) : Bool :=
  let g := s.group gid
  g.allRegang && !g.parked && !s.swapped g.tid

def execRegangMerge (gid : Nat) (s : State) : Result :=
  .next (if mergeReady s gid then s.modGroup gid regangMerge else s)

/-! ## EXIT -/

/-- EXIT in one slice (R67): the active lanes die; with no lane left to run, waiting lanes resume or the slice dies. -/
def exitSlice (a : BitVec 4) (x : Slice) : Slice :=
  let y := { x with live := x.live &&& ~~~a, run := x.run &&& ~~~a }
  if y.run ≠ 0 then y.fall else (implicitPop y).spinCheck

def execExit (s : State) : Result :=
  issue (encode .exit) s fun c g s1 =>
    .next (settleAt s1 c (g.mapSlices c.gang fun i x => exitSlice (laneBits i (isActive g c)) x))

/-! ## YIELD, SPINW, NOP -/

/-- The other gangs of the partition that are ready now, each with its lowest slice and what that slice has issued (R54). -/
def yieldOwed (s : State) (gid : Nat) (gang : SliceMask) : List (Nat × Nat × Nat) :=
  let g := s.group gid
  (readyGangs s).filterMap fun u =>
    let x := s.group u.gid
    if x.core = g.core ∧ x.part = g.part ∧ (u.gid ≠ gid ∨ u.gang ≠ gang) ∧ gangReady s u.gid u.gang then
      some (u.gid, lowestSlice u.gang, (x.slice (lowestSlice u.gang)).issues)
    else none

def execYield (s : State) : Result :=
  issue (encode .yield) s fun c g s1 =>
    let owed := yieldOwed s1 c.gid c.gang
    let g1 := advance c g
    .next (s1.setGroup c.gid (if owed.isEmpty then g1 else g1.mapSlices c.gang fun _ x => { x with wait := .yield owed }))

/-- A gang that was given way to has issued, or is not ready now (R54). -/
def yieldDone (s : State) (e : Nat × Nat × Nat) : Bool :=
  let x := (s.group e.1).slice e.2.1
  x.issues != e.2.2 || !gangReady s e.1 ((s.group e.1).gangSlices x.gang)

/-- A gang that yielded goes on once each gang it gave way to has issued, or has stopped being ready (R54). -/
def yieldReady (s : State) (gid gang : Nat) : Bool :=
  let g := s.group gid
  let m := g.gangSlices gang
  match (g.slice (lowestSlice m)).wait with
  | .yield owed => m != 0 && owed.all (yieldDone s)
  | _ => false

/-- A slice's wait without the gangs that it need not wait for any more. -/
def Wait.notice (s : State) : Wait → Wait
  | .yield owed => .yield (owed.filter fun e => !yieldDone s e)
  | w => w

/-- Some slice of a group waits after a YIELD. -/
def Group.yields (g : Group) : Bool := g.slices.any fun x => match x.wait with | .yield _ => true | _ => false

/-- Every wait after a YIELD forgets the gangs that have issued or have stopped being ready: becoming ready again changes nothing (R54). It happens at the end of each
step. -/
def State.noteYields (s : State) : State :=
  if s.groups.any fun e => e.2.yields then
    { s with groups := s.groups.map fun e => (e.1, if e.2.yields then { e.2 with slices := e.2.slices.map fun x => { x with wait := x.wait.notice s } } else e.2) }
  else s

def execYieldRelease (gid gang : Nat) (s : State) : Result :=
  .next (if yieldReady s gid gang then s.modGroup gid fun g => g.mapSlices (g.gangSlices gang) fun _ x => { x with wait := .none } else s)

def execSpinw (s : State) : Result :=
  issueRegs (encode .spinw) s fun c g _ => g.mapSlices c.gang fun _ x => { x with spin := .opened }

/-- A spinning gang that has been ready for 256 clocks ranks once by its age (R56). -/
def execSpinAgePromote (gid gang : Nat) (s : State) : Result :=
  let g := s.group gid
  let m := g.gangSlices gang
  .next (if (g.slice (lowestSlice m)).spin ≠ .no ∧ m ≠ 0 then s.setGroup gid (g.mapSlices m fun _ x => { x with promoted := true }) else s)

def execNop (s : State) : Result := issueRegs (encode .nop) s fun _ g _ => g

/-! ## TRAP, SETMODE, SETGRD -/

/-- TRAP raises SOFTWARE for its active lanes; with none it has no effect (R69). -/
def execTrap (imm : BitVec 16) (s : State) : Result :=
  let w := encode (.trap imm)
  issue w s fun c g s1 =>
    let a := activeSet g c
    if a = 0 then .next (retire s1 c g)
    else trapAt s1 c w { code := 0x15, cause := imm.toNat, fmask := a, lane := lowestLane a, addr := 0, opw := 0 }

def execSetmode (imm : BitVec 16) (s : State) : Result :=
  issueRegs (encode (.setmode imm)) s fun c g _ => g.mapSlices c.gang fun _ x => { x with mode := imm.setWidth 32 }
def execSetgrd (guard : BitVec 4) (s : State) : Result :=
  issueRegs (encode (.setgrd guard)) s fun c g _ => g.mapSlices c.gang fun _ x => { x with mode := (x.mode &&& ~~~0xF#32) ||| guard.setWidth 32 }

end Sys2Proof.Machine
end

