-- ==== Sys2Proof/Machine/Convert.lean ====
section
/-! DEFINITION. The conversions CVT and CVTR (04 R130, R131). -/
namespace Sys2Proof.Machine

/-- cvt_elem of R131: one element of a source type as one of a destination type; its bits and the kind that arises. -/
def cvtElem (src dst rnd : Nat) (sat ftz : Bool) (x : Nat) : Nat × Nat :=
  if src < 8 then
    let v := val x (etWidth src) (etSigned src)
    if dst < 8 then (fit v (etWidth dst) (etSigned dst) sat, 0)
    else fpRound (fmtOf dst) (.fin (decide (v < 0)) v.natAbs 0) rnd sat ftz
  else
    let f := fpVal (fmtOf src) ftz x
    if dst < 8 then
      let lo := loEnd (etWidth dst) (etSigned dst); let hi := hiEnd (etWidth dst) (etSigned dst)
      let pat (v : Int) : Nat := (v % (2 ^ etWidth dst : Int)).toNat
      match f with
      | .nan _ => (0, lowKind [sigKind [f], 8])
      | .inf neg => (pat (if neg then lo else hi), if sat then 0 else 8)
      | .fin neg m e =>
        let n := roundMag neg m false e 0 rnd
        let v : Int := if neg then -n else n
        if v < lo then (pat lo, if sat then 0 else 8) else if hi < v then (pat hi, if sat then 0 else 8) else (pat v, 0)
    else
      match f with
      | .nan sig => ((fmtOf dst).nan, if sig then 1 else 0)
      | v => fpRound (fmtOf dst) v rnd sat ftz

/-- The destination elements of a conversion in one lane (R131): part k of the source, or into part k of the destination. -/
def cvtElems (g : Group) (a dst part rnd l : Nat) : List Elem :=
  let m := laneMode g l
  let src := mEtype m
  let n := min (etCount src) (etCount dst)
  let x := readN g a (etWide src) l
  (List.range n).map fun i =>
    let from_ := if etCount dst ≤ etCount src then part * n + i else i
    let onto := if etCount dst ≤ etCount src then i else part * n + i
    let r := cvtElem src dst rnd (mSat m) (mFtz m) (elem x (etWidth src) from_)
    { idx := onto, bits := r.1, kind := r.2 }

/-- A conversion: elements of d that it does not name keep their bits. -/
def cvtOp (w : Word) (d a dst part : Nat) (rnd : Word → Nat) (s : State) : Result :=
  let res (g : Group) (l : Nat) : List Elem := cvtElems g a dst part (rnd (laneMode g l)) l
  floatIssue w res (fun c g => vwrite g c d (isActive g c) (fun _ => etWide dst) fun l =>
    let wd := etWidth dst
    (res g l).foldl (fun t e => t - t / 2 ^ (wd * e.idx) % 2 ^ wd * 2 ^ (wd * e.idx) + e.bits * 2 ^ (wd * e.idx)) (readN g d (etWide dst) l)) s

/-- CVT rounds under the mode's RND; imm8 holds PART and DTYPE (R130). -/
def execCvt (d a : BitVec 8) (part : BitVec 2) (t : BitVec 4) (s : State) : Result :=
  cvtOp (encode (.cvt d a part t)) d.toNat a.toNat t.toNat part.toNat mRnd s
/-- CVTR rounds under its own RM. -/
def execCvtr (d a : BitVec 8) (rm : BitVec 3) (part : BitVec 1) (t : BitVec 4) (s : State) : Result :=
  cvtOp (encode (.cvtr d a rm part t)) d.toNat a.toNat t.toNat part.toNat (fun _ => rm.toNat) s

end Sys2Proof.Machine
end

