-- ==== Sys2Proof/Machine/Gmac.lean ====
section
/-! DEFINITION. AES-128-GMAC, which 13 R378 and 14 R392 name: the block cipher of FIPS 197 and the tag of NIST SP 800-38D for a 96-bit IV and no plaintext. -/
namespace Sys2Proof.Machine

/-! ## The block cipher -/

/-- The product of two bytes in the field of the cipher, by the bits of the second. -/
def aesMul (a b : Nat) : Nat :=
  ((List.range 8).foldl (fun r i => (if b.testBit i then r.1 ^^^ r.2 else r.1, if 128 ≤ r.2 then (r.2 * 2) ^^^ 0x11B else r.2 * 2)) (0, a)).1

/-- The inverse of a byte, 0 for 0: its power 254. -/
def aesInv (a : Nat) : Nat :=
  let p2 := aesMul a a; let p3 := aesMul p2 a; let p6 := aesMul p3 p3; let p12 := aesMul p6 p6; let p15 := aesMul p12 p3
  let p30 := aesMul p15 p15; let p60 := aesMul p30 p30; let p120 := aesMul p60 p60; let p126 := aesMul p120 p6; let p127 := aesMul p126 a
  aesMul p127 p127

/-- The substitution of a byte. -/
def aesSub (a : Nat) : Nat :=
  let x := aesInv a
  let rot (n : Nat) : Nat := (x * 2 ^ n ||| x / 2 ^ (8 - n)) % 256
  x ^^^ rot 1 ^^^ rot 2 ^^^ rot 3 ^^^ rot 4 ^^^ 0x63

/-- Bytes added bit by bit. -/
def xorBytes (a b : List Nat) : List Nat := a.zipWith (· ^^^ ·) b

/-- The key schedule: the last round key made, and every one before it, newest first. -/
def aesKeys (key : List Nat) : List (List Nat) :=
  ((List.range 10).foldl (fun (r : List (List Nat) × Nat) _ =>
    let k := r.1.headD []
    let w (i : Nat) : List Nat := (k.drop (4 * i)).take 4
    let g := xorBytes (((w 3).drop 1 ++ (w 3).take 1).map aesSub) [r.2, 0, 0, 0]
    let a := xorBytes (w 0) g; let b := xorBytes (w 1) a; let c := xorBytes (w 2) b; let d := xorBytes (w 3) c
    ((a ++ b ++ c ++ d) :: r.1, aesMul r.2 2)) ([key], 1)).1

/-- The rows turn. -/
def aesShift (b : List Nat) : List Nat := (List.range 16).map fun i => b.getD ((i + 4 * (i % 4)) % 16) 0

/-- The columns are mixed. -/
def aesMix (b : List Nat) : List Nat :=
  (List.range 16).map fun i =>
    let at_ (j : Nat) : Nat := b.getD (i / 4 * 4 + (i + j) % 4) 0
    aesMul (at_ 0) 2 ^^^ aesMul (at_ 1) 3 ^^^ at_ 2 ^^^ at_ 3

/-- One block under a key. -/
def aes128 (key block : List Nat) : List Nat :=
  match (aesKeys key).reverse with
  | k :: ks =>
    (ks.mapIdx fun i k => (i, k)).foldl (fun b e => let t := aesShift (b.map aesSub); xorBytes (if e.1 = 9 then t else aesMix t) e.2) (xorBytes block k)
  | [] => block

/-! ## The tag -/

/-- Bytes as a number, the first highest. -/
def beNat (bs : List Nat) : Nat := bs.foldl (fun n b => n * 256 + b) 0
/-- The n bytes of a number, the highest first. -/
def beBytes (n x : Nat) : List Nat := ((List.range n).map fun i => x / 256 ^ i % 256).reverse

/-- The product in the field of the tag, whose bit 0 is the highest. -/
def ghashMul (x y : Nat) : Nat :=
  ((List.range 128).foldl (fun r i =>
    (if x.testBit (127 - i) then r.1 ^^^ r.2 else r.1, if r.2 % 2 = 1 then (r.2 / 2) ^^^ (0xE1 * 2 ^ 120) else r.2 / 2)) (0, y)).1

/-- The hash of some blocks under a key. -/
def ghash (h : Nat) (blocks : List Nat) : Nat := blocks.foldl (fun y b => ghashMul (y ^^^ b) h) 0

/-- The blocks of a message, the last filled up with zeros. -/
def ghashBlocks (msg : List Nat) : List Nat :=
  (List.range ((msg.length + 15) / 16)).map fun i => let b := (msg.drop (16 * i)).take 16; beNat b * 256 ^ (16 - b.length)

/-- The 16-byte tag of a message under a 16-byte key and a 12-byte IV. -/
def gmac (key iv msg : List Byte) : List Byte :=
  let nat (l : List Byte) : List Nat := l.map (·.toNat)
  let h := beNat (aes128 (nat key) (List.replicate 16 0))
  let s := ghash h (ghashBlocks (nat msg) ++ [msg.length * 8 * 2 ^ 64])
  (beBytes 16 (s ^^^ beNat (aes128 (nat key) (nat iv ++ [0, 0, 0, 1])))).map (BitVec.ofNat 8)

end Sys2Proof.Machine
end

