-- ==== Sys2Proof/Machine/Perform.lean ====
section
/-! DEFINITION. The performing of logged operations: LOAD_DATA_RETURN (03 R76; 05 R142, R149 to R154), STORE_PERFORMED (05 R149 to R155)
and ATOMIC_REPLY (05 R157 to R161; 07 R210, R211; 11 R317, R318, R322; 14 R405). An operation is performed only once it has passed translation and the
home checks in every lane (12 R339) and no older operation holds it back. -/
namespace Sys2Proof.Machine

/-- A SLABLD whose data is an invalid descriptor raises a trap (10 R283), and the queue must take it. -/
def slabldReady (s : State) (o : LogOp) : Bool :=
  match o.kind with
  | .slabld _ _ => trapRoom s o || slabValid (leBytes 64 ((laneVal (readAll s o).2 0).getD 0))
  | _ => true

/-- A logged operation is ready to be performed. An UNSUB that has asked the homes is finished by their replies instead. -/
def opReady (s : State) (o : LogOp) : Bool :=
  performable s o && syncReady s o && kvReady s o && slabldReady s o && slabstReady s o && hintReady s o && (match o.kind with | .unsub _ sent => !sent | _ => true)

/-- The effect of an operation of the load counter: what its destination receives. -/
def returnLoad (s : State) (o : LogOp) : State :=
  match o.kind with
  | .load w d => doLoad s o w d
  | .sxld d => doSxld s o d
  | .lds d acq scope => doLds s o d acq scope
  | .ldu w d => doLdu s o w d
  | .acq d _ => doAcq s o d
  | .slabld d p => doSlabld s o d p
  | .pcnt d clr => doPcnt s o d clr
  | _ => s

/-- The effect of an operation of the store counter. -/
def performStore (s : State) (o : LogOp) : State :=
  match o.kind with
  | .store _ => doStore s o fun a => o.value a.lane
  | .stu _ => doStore s o fun _ => o.value 0
  | .sxst => doStore s o fun a => sxstBlock o a.lane
  | .unsub d sent => if sent then s else doUnsub s o d
  | .rel add scope => doRel s o add scope
  | .slabst entry keep => doSlabst s o entry keep
  | .kvapp p entry pos => doKvapp s o p entry pos
  | .phint h n => doPhint s o h n
  | _ => s

/-- The effect of an operation of the atomic counter, and of BIND and UNBIND. -/
def replyAtomic (s : State) (o : LogOp) : State :=
  match o.kind with
  | .atomic op d => doAtomic s o op d
  | .faadd d => doFaadd s o d
  | .faopen d f64 count => doFaopen s o d f64 count
  | .pin d => doPin s o d
  | .unpin d => doUnpin s o d
  | .bind d region base len => doBind s o d region base len
  | .unbind d => doUnbind s o d
  | .migr d => doMigr s o d
  | .snap d n => doSnap s o d n
  | _ => s

/-- Perform the operation of a core's log with an identifier, when it is ready. -/
def performOp (core id : Nat) (s : State) (f : State → LogOp → State) : State :=
  match s.findOp core id with
  | some o => if opReady s o then f s o else s
  | none => s

/-- LOAD_DATA_RETURN: the data of a load returns and its destination registers are written. -/
def execLoadDataReturn (core id : Nat) (s : State) : Result := .next (performOp core id s returnLoad)
/-- STORE_PERFORMED: a store is performed and its counter falls. -/
def execStorePerformed (core id : Nat) (s : State) : Result := .next (performOp core id s performStore)
/-- ATOMIC_REPLY: the reply of an atomic, of a placement instruction, or of the hub. -/
def execAtomicReply (core id : Nat) (s : State) : Result := .next (performOp core id s replyAtomic)

end Sys2Proof.Machine
end

