-- ==== Sys2Proof/Machine/Swap.lean ====
section
/-! DEFINITION. Placing a team (13 R369, R377) and pre-emption (12 R358 to R362; 13 R371): COMMIT, PREEMPT, SWAP, SPILL, SPILL_COMPLETE, RESTORE_FILL. -/
namespace Sys2Proof.Machine

/-! ## A fresh team -/

/-- A group as its team's launch leaves it (02 R41, 03 R71, 13 R368): every slice at ENTRY, s0 to s3 from INIT. -/
def freshGroup (b : List Byte) (tid g : Nat) : Group :=
  { Group.reset with core := gmapCore b g, part := gmapPart b g, tid := tid, num := g, role := if g < recField b 6 1 then 0 else 1, budget := groupBudget b g,
                     slices := List.replicate 64 (Slice.launch (BitVec.ofNat 64 (recField b 0x20 8) &&& ~~~3#64)), preds := List.replicate 7 0,
                     uregs := (List.range 4).map fun i => (i, w32 b (0x60 + 4 * i)), retired := false }

/-- The predecessors of a launch record that are valid. -/
def recordPreds (b : List Byte) : List DWord :=
  (if (recField b 3 1).testBit 0 then [w64 b 0x60] else []) ++ (if (recField b 3 1).testBit 1 then [w64 b 0x68] else [])

/-- What the cores that receive a team of a grid invalidate (R377): regions, or every line of the ASID. -/
def gridInval (s : State) (grid : DWord) : List (DWord × Nat) × Bool :=
  match s.hub.grids.find? fun x => x.id == grid with
  | none => ([], false)
  | some x =>
    let preds := recordPreds x.record
    let of (p : DWord) : Option (List (DWord × Nat)) :=
      match s.hub.grids.find? fun y => y.id == p with
      | some y => some (recordRegions y.record)
      | none => (s.hub.doneGrids.find? fun y => y.id == p).map (·.regions)
    ((if x.launched then recordRegions x.record else []) ++ preds.flatMap fun p => (of p).getD [], preds.any fun p => (of p).isNone)

/-- Each core that receives the team drops those lines, and the words of the launch's own regions that its instruction caches hold (01 R36). -/
def invalFor (s : State) (tid : Nat) : State :=
  let (rs, all) := gridInval s (s.gridOf tid)
  let hit (x : L1Line) : Bool := (all && ofAsid (s.asid tid) (s.vmid tid) x) || x.inRanges (s.asid tid) (s.vmid tid) rs
  let own := match s.findGrid (s.gridOf tid) with | some x => recordRegions x.record | none => []
  (s.teamCores tid).foldl (fun t c => (cleanLines t c hit true).modCore c fun k =>
    { k with icache := k.icache.filter fun e => !(e.asid == s.asid tid && e.vmid == s.vmid tid && own.any fun r => decide (e.va < r.1.toNat + r.2) && decide (r.1.toNat < e.va + 4)) }) s

/-- The grid remembers the cores that run its teams. -/
def markCores (s : State) (tid : Nat) : State :=
  let m := (s.teamCores tid).foldl (fun m c => m ||| 1#160 <<< c) 0#160
  s.modHub fun h => { h with grids := h.grids.map fun x => if x.id = s.gridOf tid then { x with cores := x.cores ||| m } else x }

/-- The groups, the window and the FIFOs of a fresh team. -/
def placeFresh (s : State) (tid : Nat) : State :=
  let b := s.bindRec tid
  let s1 := (List.range (recField b 4 2)).foldl (fun t g => t.setGroup (tid * 64 + g) (freshGroup b tid g)) (invalFor s tid)
  s1.setTeam tid { Team.reset with window := (Config.windowBase s.time).setWidth 64 <<< 28, scrSize := recField b 0xC 4, fifos := fifoMask (2 ^ recField b 7 1 - 1),
                                   filling := true, room := false }

/-! ## A restored team (12 R362) -/

/-- What the device keeps of no team. -/
def Saved.blank : Saved :=
  { grid := 0, team := 0, window := 0, grow := 0, slots := [], slabs := [], groups := [], tasks := [], copies := [], evicts := [], held := [], posts := [], subs := [],
    lost := [], moved := [] }

/-- What the device keeps of a restored team, with a window base for one of which it keeps nothing. -/
def State.savedOf (s : State) (tid : Nat) : Saved := (s.findSaved tid).getD { Saved.blank with window := (Config.windowBase s.time).setWidth 64 <<< 28 }

/-- A group's counters without anything outstanding. -/
def Group.zeroCounts (g : Group) : Group := { g with slices := g.slices.map fun x => { x with loads := 0, stores := 0, atomics := 0, posts := 0 } }

/-- The first operation of a team's groups that waits for an entry of the operand log and can have one (12 R338, R339). -/
def relogNext (s : State) (tid : Nat) : Option (Nat × LogOp) :=
  (s.teamGids tid).findSome? fun gid => let g := s.group gid
    if g.retired || !logRoom s g then none else g.withdrawn.head?.map fun o => (gid, o)

/-- A withdrawn operation is reissued with its key: it takes a log entry. -/
def relog (s : State) (gid : Nat) (o : LogOp) : State :=
  let i := newId s (s.group gid).core
  (i.1.modGroup gid fun g => { g with withdrawn := g.withdrawn.drop 1 }).modCore (s.group gid).core fun k => { k with log := k.log ++ [{ o with id := i.2, gid := gid }] }

/-- A group comes back; its logged instructions, those that still wait for their log entries too, are counted again. -/
def restoreGroup (s : State) (tid : Nat) (area : List Byte) (v : Saved) (refs : EngineRef → EngineRef) (n : Nat) : State :=
  let b := s.bindRec tid
  let gid := tid * 64 + n
  let o := blockOff area n
  let h := v.groups.getD n { freshGroup b tid n with openBatch := 0 }
  let g := { (readGroup (part area o (recField area (o + 0xC) 4)) gid refs h).zeroCounts with core := gmapCore b n, part := gmapPart b n, tid := tid, num := n }
  let closed := g.closed.map fun e => (e.1, ((h.closed.find? fun f => f.1 == e.1).map (·.2)).getD 0)
  s.setGroup gid ((g.queue.filterMap (·.log) ++ g.withdrawn).foldl (fun g o => countOp g o.kind o.gang o.active) { g with closed := closed })

/-- The recorded copies re-enter their descriptor queues in order; with the new core and identifier of each. -/
def restoreCopies (s : State) (tid : Nat) (area : List Byte) (v : Saved) : State × List (Nat × Nat) :=
  (List.range (recField area 0xF 1)).foldl (fun r i =>
    let b := part area (areaOff area 3 + 64 * i) 64
    let gid := tid * 64 + recField b 0x26 2
    let core := (readCopy b 0 gid none).unit r.1 (r.1.group gid).core
    let n := newId r.1 core
    let e := freeEntry n.1 64 ((descQueue n.1 core).map (·.entry))
    let c := { readCopy b n.2 gid (v.copies[i]?.map (·.2)) with entry := e }
    (n.1.modCore core fun k => { k with copies := k.copies ++ [c] }, r.2 ++ [(core, n.2)])) (s, [])

/-- The queued tasks: their identifiers start at base; what they wait for is renamed. -/
def restoreTasks (s : State) (tid base : Nat) (area : List Byte) (v : Saved) (copies : List (Nat × Nat)) : State :=
  let newTask (id : Nat) : Option Nat := (v.tasks.findIdx? fun u => u.id == id).map (base + ·)
  let newCopy (e : Nat × Nat) : Option (Nat × Nat) := (v.copies.findIdx? fun c => (c.1, c.2.id) == e).bind fun i => copies[i]?
  let one (i : Nat) : Task :=
    let b := part area (areaOff area 4 + 96 * i) 96
    let h := v.tasks.getD i .blank
    let t := readTask b (base + i) (tid * 64 + recField b 0x18 2) h
    { t with preds := h.preds.filterMap newTask, cpysBefore := h.cpysBefore.filterMap newCopy, order := base + (v.tasks.filter fun u => decide (u.order < h.order)).length,
             cap := h.cap.map fun e => { e with tid := tid } }
  s.modCore (tid / 32) fun k => { k with tasks := k.tasks ++ (List.range (recField area 0x10 1)).map one }

/-- An eviction that only waits for readers goes on waiting. -/
def restoreEvict (s : State) (tid : Nat) (x : Evict) : State :=
  let gid := tid * 64 + x.gid % 64
  let core := (s.group gid).core
  let n := newId s core
  let p := freeEntry n.1 16 ((n.1.die (dieOf core)).evicts.map (·.place))
  n.1.modDie (dieOf core) fun d => { d with evicts := d.evicts ++ [{ x with id := n.2 * 160 + core, gid := gid, core := core, place := p }] }

/-- A trap of the held-trap buffer. -/
def restoreHeld (s : State) (tid : Nat) (refs : EngineRef → EngineRef) (x : HeldTrap) : State :=
  let gid := tid * 64 + x.gid % 64
  let y := { x with gid := gid, engine := refs x.engine }
  s.modCore (s.group gid).core fun k => if k.held.length < 64 then { k with held := k.held ++ [y] } else { k with retry := k.retry ++ [y] }

/-- The cores of a team write back the dirty lines of its address space and, with inv, drop its lines: lines that make room, which the L1 may do at any time (05 R141).
A team's own accesses keep their order and its own writes stay seen when it is restored on other cores (05 R144; 07 R195, R200): it leaves nothing dirty behind, and
meets nothing older (DEDUCED, log 20). -/
def cleanTeam (s : State) (tid : Nat) (inv : Bool) : State :=
  (s.teamCores tid).foldl (fun t c => cleanLines t c (ofAsid (s.asid tid) (s.vmid tid)) inv) s

/-- A restored team: everything but what its core must first have room for. -/
def placeRestored (s : State) (tid : Nat) : State :=
  let (s0, area) := saveArea (cleanTeam s tid true) tid
  let v := s0.savedOf tid
  let core := tid / 32
  let base := (s0.core core).nextId
  let refs (e : EngineRef) : EngineRef := match e with
    | .task _ id => match v.tasks.findIdx? fun u => u.id == id with | some i => .task core (base + i) | none => .none
    | _ => .none
  let s1 := s0.modCore core fun k => { k with nextId := base + recField area 0x10 1 }
  let s2 := (List.range (s1.bindField tid 4 2)).foldl (fun t n => restoreGroup t tid area v refs n) s1
  let fifo (b : List Byte) : List (BitVec 128) := (List.range (recField b 4 4)).map fun i => BitVec.ofNat 128 (recField b (0x10 + 16 * i) 16)
  let fifos := ((List.range 4).foldl (fun r f =>
    if (recField area 0x11 1).testBit f then let b := area.drop r.2; (r.1 ++ [some (fifo b)], r.2 + 16 + 16 * recField b 4 4) else (r.1 ++ [none], r.2))
    (([] : List (Option (List (BitVec 128)))), areaOff area 6)).1
  let team : Team := { Team.reset with window := v.window, scrSize := recField area 0x14 4, fifos := fifos, filling := true, room := false,
                                       bars := (List.range 16).map fun i => readBarrier (part area (areaOff area 1 + 0x110 * i) 0x110) }
  let c := restoreCopies (s2.setTeam tid team) tid area v
  let s3 := v.evicts.foldl (fun t x => restoreEvict t tid x) (restoreTasks c.1 tid base area v c.2)
  v.held.foldl (fun t x => restoreHeld t tid refs x) s3

/-! ## Room on the home core -/

/-- The slots, slab entries and CPYS destinations of a team's queued work take their new numbers (09 R256, 10 R281). -/
def relocTask (m : List (Nat × Nat) × List (Nat × Nat)) (t : Task) : Task :=
  let then_ (a b : List (Nat × Nat)) : List (Nat × Nat) := a.map (fun e => (e.1, renumber b e.2)) ++ b.filter fun e => !a.any fun f => f.1 == e.1
  if t.fetched then { t with body := relocRecord m t.body } else { t with reloc := (then_ t.reloc.1 m.1, then_ t.reloc.2 m.2) }
def relocCopy (m : List (Nat × Nat) × List (Nat × Nat)) (c : Copy) : Copy :=
  match c.kind with
  | .cpys => let x := regAt c.regs 3; { c with regs := lset c.regs 3 (BitVec.ofNat 32 (x / 64 * 64 + renumber m.1 (x % 64))) }
  | .grow => { c with regs := lset c.regs 0 (BitVec.ofNat 32 (renumber m.2 (regAt c.regs 0))) }
  | _ => c
def relocEvict (m : List (Nat × Nat) × List (Nat × Nat)) (x : Evict) : Evict := { x with entry := renumber m.2 x.entry }
def relocPost (m : List (Nat × Nat) × List (Nat × Nat)) (p : PostSlot) : PostSlot :=
  { p with post := match p.post with | .copy c => .copy (relocCopy m c) | .task t => .task (relocTask m t) | .evict x => .evict (relocEvict m x) | l => l }

/-- A subscription entry of the save area becomes an entry of the directory; what it lacks comes from what the device keeps. -/
def readSub (b : List Byte) (tid : Nat) (v : Saved) : DirSlot :=
  let saved := (recField b 0 1, recField b 4 4)
  let at_ := ((v.moved.find? fun e => e.1 == saved).map (·.2)).getD saved
  let h := v.subs.find? fun d => d.home == at_.1 && d.idx == at_.2
  let seq := BitVec.ofNat 16 (recField b 2 2)
  { tid := tid, off := recField b 8 4, st := .live, gid := tid * 64 + (match h with | some d => d.gid % 64 | none => 0), home := at_.1, idx := at_.2,
    acq := (recField b 1 1).testBit 0, value := match h with | some d => d.value | none => 0, seq := seq, count := match h with | some d => d.count | none => 0, refuses := false }

/-- The subscriptions of a save area that have not been lost meanwhile. -/
def areaSubs (area : List Byte) (tid : Nat) (v : Saved) : List DirSlot :=
  ((List.range (recField area 0xC 2)).map fun i => readSub (part area (areaOff area 2 + 16 * i) 16) tid v).filter fun d =>
    !v.lost.any fun e => e.1.home == d.home && e.1.idx == d.idx && e.1.off == d.off

/-- The first n free entries of a slab table. -/
def freeSlabs (k : Core) (n : Nat) : List Nat := ((List.range 256).filter fun i => (sfind k.slabs i).isNone).take n

/-- Give a team its banks, slots, slab entries and directory entries, and relocate its queued work. -/
def takeRoom (s : State) (tid : Nat) : State :=
  let core := tid / 32
  let (s0, area) := if s.isRestore tid then saveArea s tid else (s, [])
  let v := s0.savedOf tid
  let n := teamNeed s0 tid area
  let s1 := takeFifos (takeGrown tid n.grow (takePages s0 tid n.pages)) tid
  let f := ((s1.core core).freeRun n.slots).getD 0
  let olds := if v.slots.length = n.slots then v.slots else (List.range n.slots).map (recField area 0xB 1 + ·)
  let slotMap := olds.mapIdx fun i k => (k, f + i)
  let recs := (List.range n.slabs).map fun i => part area (areaOff area 5 + 80 * i) 80
  let at_ := freeSlabs (s1.core core) n.slabs
  let m := (slotMap, (recs.map fun b => recField b 0x40 1).zip at_)
  let s2 := s1.modCore core fun k =>
    { k with slots := k.slots.mapIdx fun i x => if f ≤ i ∧ i < f + n.slots then .held tid else x,
             slabs := (recs.zip at_).foldl (fun t e => sput t e.2 (slabOfBytes tid (e.1.take 64))) k.slabs,
             directory := k.directory ++ (if s.isRestore tid then areaSubs area tid v else []),
             tasks := k.tasks.map fun t => if (s.group t.gid).tid = tid then relocTask m t else t }
  let mine (gid : Nat) : Bool := (s.group gid).tid == tid
  let s3 := (s.teamCores tid).foldl (fun t c => t.modCore c fun k => { k with copies := k.copies.map fun x => if mine x.gid then relocCopy m x else x }) s2
  let s4 := s3.modDie (dieOf core) fun d => { d with evicts := d.evicts.map fun x => if mine x.gid then relocEvict m x else x }
  let s5 := s4.modHub fun h => { h with saved := h.saved.map fun u => if u.grid = v.grid ∧ u.team = v.team then { u with posts := u.posts.map (relocPost m) } else u }
  s5.modTeam tid fun t => { t with room := true }

/-- The home core has room for a placed team, and no bank change requested before is under way there (05 R139). -/
def roomReady (s : State) (tid : Nat) : Bool :=
  let n := teamNeed s tid (if s.isRestore tid then (saveArea s tid).2 else [])
  (s.core (tid / 32)).bankChange.isEmpty && (s.core (tid / 32)).supplies n && (s.core (tid / 32)).holdsContext n

/-- Place a team whose record has passed its checks: STATE becomes RUN in every copy. -/
def placeTeam (s : State) (tid : Nat) : State :=
  let s1 := markCores (setSlotState s tid 2) tid
  if s1.isRestore tid then placeRestored s1 tid else placeFresh s1 tid

/-! ## COMMIT -/

/-- The checks on a record, then its team (R369). Where its home core has no room yet (a bank change is under way, or a save area holds more banks than the record
asks for), it is given its room later, as after a SWAP (RESTORE_FILL). A commit of a slot that is not BOUND changes nothing. While a part of the save area cannot be read the
commit is under way, and COMMITST says so (R371). -/
def commitTeam (s : State) (die tid : Nat) : State :=
  if s.bindField tid 0 1 = 1 ∧ areaWaits s tid then
    s.modDie die fun d => { d with commitSt := BitVec.ofNat 32 (2 ^ 31 + s.bindField tid 0 1), committing := some tid }
  else
    let s1 := if s.bindField tid 0 1 ≠ 1 then s
      else match dispatchCode s tid none with
      | some c => setSlotState s tid (0x80 + c)
      | none =>
        let t := placeTeam s tid
        if !roomReady t tid then t else if s.isRestore tid then takeRoom t tid else (takeRoom t tid).modTeam tid fun x => { x with filling := false }
    s1.modDie die fun d => { d with commitSt := BitVec.ofNat 32 (s1.bindField tid 0 1), committing := none }

/-- COMMIT (R371): reserved bits are ignored (00 R12), a core that the die does not have names no slot, and a commit while one is under way is ignored. -/
def execCommit (die : Nat) (v : Word) (s : State) : Result :=
  .next (if v.toNat % 64 < 40 ∧ (s.die die).down = false ∧ (s.die die).committing = none then
    commitTeam s die ((die * 40 + v.toNat % 64) * 32 + v.toNat / 64 % 32)
  else s)

/-! ## PREEMPT and SWAP -/

/-- PREEMPT (R371): ignored while one is under way, and for an outgoing slot that is not in RUN or an incoming one that is not BOUND. -/
def execPreempt (die : Nat) (v : Word) (s : State) : Result :=
  let core := die * 40 + v.toNat % 64
  let out := core * 32 + v.toNat / 64 % 32
  let inn := core * 32 + v.toNat / 2048 % 32
  .next (if v.toNat % 64 < 40 ∧ (s.die die).down = false ∧ (s.die die).preempting = none ∧ s.bindField out 0 1 = 2 ∧ s.isHomeSlot core (out % 32) ∧
      s.bindField inn 0 1 = 1 then
    (let busy := s.modDie die fun d => { d with preemptSt := 0x80000000, preempting := some (core, out % 32, inn % 32), loaded := false }
     if s.saveBase out = 0 then s.modDie die fun d => { d with preemptSt := 1 }
     else if areaWaits s inn then busy
     else match dispatchCode s inn (some out) with
      | some c => (setSlotState s inn (0x80 + c)).modDie die fun d => { d with preemptSt := 2 }
      | none => busy)
  else s)

/-- The incoming team's registers and slice records come into the shadow register files of its cores (12 R358). -/
def loadShadow (s : State) (tid : Nat) : State :=
  let placed := placeTeam s tid
  let s1 := if s.isRestore tid then (saveArea s tid).1 else s
  (s.teamGids tid).foldl (fun t gid => let g := placed.group gid; t.modCore g.core fun k => { k with shadow := sput k.shadow gid g }) s1

/-- The live and the shadow copies exchange: a placed team's registers and slice records are those of its cores' shadow register files. -/
def useShadow (s : State) (tid : Nat) : State :=
  (s.teamGids tid).foldl (fun t gid =>
    match sfind (t.core (t.group gid).core).shadow gid with
    | some x => (t.modGroup gid fun g => { g with vregs := x.vregs, uregs := x.uregs, preds := x.preds, uq := x.uq, slices := x.slices }).modCore (t.group gid).core fun k =>
        { k with shadow := sdel k.shadow gid }
    | none => t) s

/-- The operations of a team in its cores' logs. -/
def State.teamOps (s : State) (tid : Nat) : List LogOp := s.cores.flatMap fun k => k.2.log.filter fun o => (s.group o.gid).tid == tid

/-- An operation that a swap withdraws for its own sake (12 R358, R360): unresolved, waiting at a FIFO, or unable to raise its trap. An UNSUB
that has asked its homes is not. -/
def unresolved (s : State) (o : LogOp) : Bool :=
  (match o.kind with | .unsub _ true => false | _ => true) && (!o.walked || (fifoLeft s o).isSome || (unblocked s o && !slabldReady s o))

/-- With them go the operations that they hold back. -/
def heldBack (s : State) (ops : List LogOp) : Nat → List LogOp → List LogOp
  | 0, g => g
  | n + 1, g => heldBack s ops n (ops.filter fun o => g.contains o || g.any fun p => p.gid == o.gid && holdsBack s p o)

/-- Withdraw operations: they leave the log and the counters, with the lanes that are left to serve. -/
def withdrawOps (s : State) (tid : Nat) : State :=
  let ops := s.teamOps tid
  let queued := (s.teamGids tid).flatMap fun gid => (s.group gid).queue.filterMap (·.log)
  let gone := heldBack s (queued ++ ops) ops.length (queued ++ ops.filter (unresolved s))
  (ops.filter fun o => gone.contains o).foldl (fun t o =>
    (finishOp t o).modGroup o.gid fun g => { g with withdrawn := insertOp { o with active := o.left, walked := false, hits := [] } g.withdrawn }) s

/-- A task at a swap (09 R270): a running one leaves its engine at its step boundary, a waiting one its place among those that wait for locks. -/
def swapTask (core : Nat) (s : State) (t : Task) : State :=
  if t.phase = .running then (leaveEngine s core t).modTask core t.id fun x => { x with phase := .queued }
  else if t.phase = .waiting then (dropLocks s (dieOf core) t.lockEngine core t.id).modTask core t.id fun x => { x with phase := .queued }
  else s

/-- A copy at a swap (12 R359): in transfer with more than 4,096 bytes left it stops at the next 4 KiB boundary. -/
def swapCopy (s : State) (e : Nat × Copy) : State :=
  let (core, c) := e
  let total := (shapeOf c.kind c.regs).total
  if c.kind = .grow then s
  else if c.phase = .waiting then (dropLocks s (dieOf core) c.kind.engine core c.id).modCopy core c.id fun x => { x with phase := .queued }
  else if c.phase = .running ∧ c.fault.isNone ∧ 4096 < total - c.progress then
    s.modCopy core c.id fun x => if x.progress % 4096 = 0 then { x with phase := .queued } else { x with stopAt := some (ceilDiv x.progress 4096 * 4096) }
  else s

/-- Operations that still waited for a log entry leave the counters, as those that a swap withdraws do. -/
def uncountWithdrawn (s : State) (tid : Nat) : State :=
  (s.teamGids tid).foldl (fun t gid => t.modGroup gid fun g => g.withdrawn.foldl (fun g o => uncountOp g o.kind o.gang o.active) g) s

/-- The outgoing team stops (12 R358 to R360). -/
def swapOut (s : State) (tid : Nat) : State :=
  let s1 := withdrawOps (uncountWithdrawn (setSlotState s tid 3) tid) tid
  let s2 := (s1.teamTasks tid).foldl (swapTask (tid / 32)) s1
  (s2.teamCopiesIn tid).foldl swapCopy s2

/-- SWAP (12 R358): first the incoming team's context comes into the shadow files, then the outgoing team stops and the incoming one may issue. Where the
outgoing team has ended by itself meanwhile, the incoming one is only placed; a record that fits no more is refused. -/
def execSwap (die : Nat) (s : State) : Result :=
  .next (match (s.die die).preempting with
    | none => s
    | some (core, o, i) =>
      let out := core * 32 + o
      let inn := core * 32 + i
      if s.bindField inn 0 1 ≠ 1 ∨ areaWaits s inn then s
      else
        let runs := s.bindField out 0 1 == 2
        match dispatchCode s inn (if runs then some out else none) with
        | some c => (setSlotState s inn (0x80 + c)).modDie die fun d => { d with preemptSt := 2, preempting := none }
        | none =>
          if (s.die die).loaded = false then (loadShadow s inn).modDie die fun d => { d with loaded := true }
          else if runs then useShadow (placeTeam (swapOut s out) inn) inn
          else (useShadow (placeTeam s inn) inn).modDie die fun d => { d with preemptSt := 0, preempting := none })

/-! ## SPILL -/

/-- Subscriptions of a team whose homes have not been asked to park them. -/
def toPark (s : State) (tid : Nat) : List (Nat × Nat) :=
  (List.range 6).flatMap fun h => ((s.home h).subs.filter fun e => e.2.tid == tid && e.2.st != .parked && !s.hub.subMsgs.contains (.park h e.1)).map fun e => (h, e.1)

/-- The first part of a spill: operations that have become unresolved are withdrawn; what the inbox holds is written (06 R190); once no UNSUB is in flight
the homes are asked to park the subscriptions. -/
def spillDrain (s : State) (tid : Nat) : State :=
  let core := tid / 32
  let s1 := withdrawOps s tid
  let mine := (s1.core core).inbox.filter fun p => p.tid == tid
  let s2 := mine.foldl deliverPush (s1.modCore core fun k => { k with inbox := k.inbox.filter fun p => p.tid ≠ tid })
  if (s2.teamOps tid).any fun o => match o.kind with | .unsub _ _ => true | _ => false then s2
  else s2.modHub fun h => { h with subMsgs := h.subMsgs ++ (toPark s2 tid).map fun e => .park e.1 e.2 }

/-- No subscription message or push of the team is under way, and all its subscriptions are parked. -/
def subsQuiet (s : State) (tid : Nat) : Bool :=
  let mine (p : Push) : Bool := p.tid == tid
  (toPark s tid).isEmpty && !(s.hub.pushNet.any mine || s.hub.refusals.any mine || (s.core (tid / 32)).inbox.any mine) &&
  (List.range 6).all (fun h => (s.home h).subs.all fun e => e.2.tid != tid || e.2.st == .parked) &&
  s.hub.subMsgs.all fun m => match m with | .remove _ t _ => t != tid | .removed _ t _ => t != tid | .repoint _ _ _ t => t != tid | .park _ _ => true

/-- The spill may write the context (12 R361). -/
def saveReady (s : State) (tid : Nat) : Bool :=
  let core := tid / 32
  let k := s.core core
  let mine (gid : Nat) : Bool := (s.group gid).tid == tid
  (s.findSaved tid).isNone && !(s.team tid).filling && (s.teamOps tid).isEmpty &&
  !(s.hub.launchReqs.any (fun r => mine r.gid) || s.hub.launchReplies.any (fun r => mine r.gid) || s.hub.arrivals.any (·.tid == tid)) &&
  (s.teamCopiesIn tid).all (fun c => c.2.kind != .grow && (c.2.phase == .queued || c.2.phase == .stopped)) &&
  (s.teamEvicts tid).all (fun x => x.2.phase == .moved) &&
  (s.teamTasks tid).all (fun t => (t.phase == .queued && t.status == 0) || t.phase == .stopped) &&
  k.slabs.all (fun e => e.2.tid != tid || e.2.state == 0) && !k.bankChange.any (fun e => mine e.1) && subsQuiet s tid && !dropsLeft s tid &&
  (s.teamCores tid).all fun c => cleanReady s c (ofAsid (s.asid tid) (s.vmid tid))

/-- Where the parts of the save area lie. -/
def savePlaces (s : State) (tid : Nat) : State × EngPlace :=
  memPlaceFrom (s.spillX tid) 1 ((saveParts s tid).flatMap fun p => if p.2.isEmpty then [] else pieces (s.saveBase tid + p.1) p.2.length) s

/-- What the device keeps beside the save area. -/
def keepSaved (s : State) (tid : Nat) : Saved :=
  let k := s.core (tid / 32)
  let mine (gid : Nat) : Bool := (s.group gid).tid == tid
  { grid := s.gridOf tid, team := BitVec.ofNat 32 (s.bindField tid 0x18 4), window := (s.team tid).window, grow := (s.team tid).grow.length, slots := heldSlots k tid,
    slabs := (k.slabs.filter fun e => e.2.tid == tid).map (·.1), groups := (s.teamGids tid).map s.group, tasks := s.teamTasks tid, copies := recordedCopies s tid,
    evicts := (s.teamEvicts tid).map (·.2), held := s.cores.flatMap (fun c => (c.2.held ++ c.2.retry).filter fun h => mine h.gid), posts := (s.teamPosts tid).map (·.2.2),
    subs := k.teamSubs tid, lost := [], moved := [] }

/-- The work of a team leaves the device with its context: its locks are given up. -/
def dropWork (s : State) (tid : Nat) : State :=
  let core := tid / 32
  let mine (gid : Nat) : Bool := (s.group gid).tid == tid
  let s1 := (s.teamTasks tid).foldl (fun t x => dropLocks t (dieOf core) x.lockEngine core x.id) s
  let s2 := (s.teamCopiesIn tid).foldl (fun t c => (dropLocks t (dieOf c.1) c.2.kind.engine c.1 c.2.id).modDie (dieOf c.1) fun d =>
    { d with relayQ := d.relayQ.filter (· ≠ (c.1, c.2.id)) }) s1
  let s3 := (s.teamEvicts tid).foldl (fun t x => (dropLocks t x.1 5 x.2.core x.2.id).modDie x.1 fun d => { d with evicts := d.evicts.filter fun y => y.id ≠ x.2.id }) s2
  let s4 := s.cores.foldl (fun t c => t.modCore c.1 fun k =>
    { k with tasks := k.tasks.filter (fun x => !mine x.gid), copies := k.copies.filter (fun x => !mine x.gid), postBuf := k.postBuf.filter (fun p => !mine p.2.post.gid),
             held := k.held.filter (fun h => !mine h.gid), retry := k.retry.filter (fun h => !mine h.gid) }) s3
  s4.modCore core fun k => { k with directory := k.directory.filter fun d => d.tid ≠ tid }

/-- SPILL (12 R361): the spill engine drains what the outgoing team has under way, then writes its context to the save area. While a page of the
area does not translate, the spill waits. What its cores hold dirty of its address space is written back before. -/
def execSpill (core slot : Nat) (s : State) : Result :=
  let tid := core * 32 + slot
  .next (if s.bindField tid 0 1 = 3 ∧ s.isHomeSlot core slot then
    (if saveReady s tid then
      match savePlaces (cleanTeam s tid false) tid with
      | (s1, .ok ps) =>
        let s2 := memStore s1 (s.partOf tid) (dieOf core) ps ((saveParts s tid).flatMap (·.2))
        dropWork (s2.modHub fun h => { h with saved := h.saved ++ [keepSaved s tid] }) tid
      | _ => s
    else if (s.findSaved tid).isNone then spillDrain s tid else s)
  else s)

/-- SPILL_COMPLETE (12 R361, 13 R371): the storage is released, the slot is FREE, and the team is back on the pending queue with RESTORE set. -/
def execSpillComplete (core slot : Nat) (s : State) : Result :=
  let tid := core * 32 + slot
  .next (if s.bindField tid 0 1 = 3 ∧ s.isHomeSlot core slot ∧ (s.findSaved tid).isSome ∧ (s.core core).bankChange.isEmpty then
    let p : Pending := { grid := s.gridOf tid, team := BitVec.ofNat 32 (s.bindField tid 0x18 4), prio := s.grantedPrio tid, part := s.partOf tid, restore := true,
                         save := BitVec.ofNat 64 (s.saveBase tid) }
    (clearTeam s tid).modDie (dieOf core) fun d => { d with pendingQ := d.pendingQ ++ [p], preemptSt := 0, preempting := none }
  else s)

/-! ## RESTORE_FILL -/

/-- A saved post goes back into the buffer of its group's partition, when that is free. -/
def restorePost (s : State) (tid : Nat) (p : PostSlot) : Option State :=
  let gid := tid * 64 + p.post.gid % 64
  let g := s.group gid
  if (sfind (s.core g.core).postBuf g.part).isSome then none
  else
    let at_ := match p.post with | .task _ => tid / 32 | _ => g.core
    let n := newId s at_
    let post : Post := match p.post with
      | .copy c => .copy { c with gid := gid, id := n.2 }
      | .task t => .task { t with gid := gid, id := n.2 }
      | .evict x => .evict { x with gid := gid, core := g.core, id := n.2 * 160 + g.core }
      | .launch _ d ra => .launch gid d ra
    some ((n.1.modGroup gid fun g => g.mapSlices p.gang fun _ x => { x with posts := x.posts + 1 }).modCore g.core fun k =>
      { k with postBuf := sput k.postBuf g.part { p with post := post } })

/-- The final write of a subscription that was lost while it was parked, and its SUB_LOST (06 R187, R189). -/
def restoreLost (tid : Nat) (s : State) (e : DirSlot × Nat) : State :=
  let (d, cause) := e
  raiseAsync (writeSlot s tid d.off (slotBits d.value d.seq (Config.lossCount s.time).toNat d.acq false true (cause == 4))) (tid * 64 + d.gid % 64)
    (asyncRecord 0x13 (d.home * 2 ^ 8 + cause) (BitVec.ofNat 64 d.off) d.seq.toNat) .none

/-- The slots and the scratchpad come back, then the subscriptions are re-pointed (06 R191). -/
def fillStorage (s : State) (tid : Nat) : State :=
  let core := tid / 32
  let (s0, area) := saveArea s tid
  let v := s0.savedOf tid
  let x := s0.spillX tid
  let base := s0.saveBase tid
  let held := heldSlots (s0.core core) tid
  match memLoad s0 x (base + areaOff area 7) (slotSize * held.length) 3 with
  | (s1, .ok sb) =>
    (match memLoad s1 x (base + areaOff area 8) (s0.team tid).scrSize 3 with
      | (s2, .ok b) =>
        let s3 := (held.mapIdx fun i k => (i, k)).foldl (fun t e => t.opWrite core (slotSize * e.2) (part sb (slotSize * e.1) slotSize)) s2
        let s4 := s3.modTeam tid fun t => { t with scratch := bputs t.scratch 0 b, filling := false }
        let s5 := v.lost.foldl (restoreLost tid) s4
        let ds := (s5.core core).directory.filter fun d => d.tid == tid
        (s5.modHub fun h => { h with subMsgs := h.subMsgs ++ ds.map fun d => .repoint d.home d.idx core tid }).dropSaved tid
      | _ => s)
  | _ => s

/-- RESTORE_FILL (12 R362): a commit that waited for its save area goes on; a placed team is given its room, its posts go back to their buffers, then its storage is filled; and an operation that waits for an
entry of the operand log is reissued (12 R339). -/
def execRestoreFill (core slot : Nat) (s : State) : Result :=
  let tid := core * 32 + slot
  .next (if (s.die (dieOf core)).committing = some tid then commitTeam s (dieOf core) tid
  else if (s.team tid).filling ∧ (s.bindField tid 0 1 = 2 ∨ s.bindField tid 0 1 = 3) ∧ s.isHomeSlot core slot then
    (if !(s.team tid).room then (if roomReady s tid then takeRoom s tid else s)
     else if !s.isRestore tid then s.modTeam tid fun t => { t with filling := false }
     else match (s.savedOf tid).posts with
      | p :: r =>
        (match restorePost s tid p with
          | some t => t.modHub fun h => { h with saved := h.saved.map fun u => if u.grid = s.gridOf tid ∧ u.team = BitVec.ofNat 32 (s.bindField tid 0x18 4) then { u with posts := r } else u }
          | none => s)
      | [] => fillStorage s tid)
  else if s.bindField tid 0 1 = 2 ∧ s.isHomeSlot core slot then
    match relogNext s tid with
    | some (gid, o) => relog s gid o
    | none => s
  else s)

end Sys2Proof.Machine
end

