-- ==== Sys2Proof/Machine/Grid.lean ====
section
/-! DEFINITION. Grids and the launch port (13 R375 to R383; 14 R389 to R392): SUBMIT, FABRIC_FRAME_RX, LAUNCH_PACKET, LAUNCH_REQUEST, LAUNCH_REPLY,
RESPONSE_WRITE, RSPHEAD_WRITE, RSPBASE_WRITE, GRID_DEAL, GRID_COMPLETE, and the tear-down of a grid (R394). -/
namespace Sys2Proof.Machine

/-! ## Tables of the hub -/

/-- The hub's context for an address space: it has a translation unit of its own, numbered 4 beside the dies'. MODE of the SATP value is not looked at: no check of
13 R380 names it (DESIGN CHOICE, log 50). -/
def hubX (satp hgatp part : Nat) (sup : Bool) : Xctx :=
  { die := 4, part := part, asid := satp / 2 ^ 44 % 2 ^ 16, vmid := hgatp / 2 ^ 44 % 2 ^ 14, root := rootOf satp, groot := grootOf hgatp, sup := sup, noAD := false, own := sup }

/-- A tenant table entry (R379). -/
def State.tenant (s : State) (i : Nat) : List Byte := sget tenantReset s.hub.tenants i
def State.setTenant (s : State) (i : Nat) (b : List Byte) : State := s.modHub fun h => { h with tenants := sput h.tenants i b }
/-- LIVE of a tenant moves by one. -/
def countLive (s : State) (tenant : Nat) (up : Bool) : State :=
  let b := s.tenant tenant
  s.setTenant tenant (setField b 0x68 2 (if up then recField b 0x68 2 + 1 else recField b 0x68 2 - 1))

/-- A launch page (14 R389, R391): 0 to 127 of the virtual functions, 128 to 139 of the CPU die. -/
def State.page (s : State) (p : Nat) : LaunchPage := sget .reset s.hub.pages p
def State.modPage (s : State) (p : Nat) (f : LaunchPage → LaunchPage) : State := s.modHub fun h => { h with pages := sput h.pages p (f (sget .reset h.pages p)) }
/-- The oldest response of a page does not fit its ring, so it is held (R390). -/
def LaunchPage.holds (p : LaunchPage) : Bool := !p.held.isEmpty && ringFull p.rspHead p.rspTail p.rspSz
/-- VFST[0] BUSY (R389, R390). -/
def LaunchPage.busyNow (p : LaunchPage) : Bool := p.busy || p.holds

/-- The partition that a virtual function is assigned to (14 R386). -/
def State.vfPart (s : State) (vf : Nat) : Option Nat := (List.range 12).find? fun p => (s.partRec p).valid && (s.partRec p).vfs.getLsbD vf

/-! ## Responses (R381, R390 to R392) -/

/-- The 32 bytes of a response. -/
def responseBytes (cookie grid : DWord) (kind status : Nat) : List Byte :=
  leBytes 8 cookie.toNat ++ leBytes 8 grid.toNat ++ leBytes 1 kind ++ leBytes 1 status ++ zeros 14

/-- A response frame: to the sender's address, with its 802.1Q tag, tagged under the tenant's KEY. -/
def responseFrame (port : Nat) (mac key : List Byte) (count : DWord) (r : List Byte) : List Byte :=
  let iv := leBytes 4 port ++ leBytes 8 count.toNat
  let head := [1, 2] ++ leBytes 2 60 ++ zeros 4 ++ r
  mac.take 6 ++ leBytes 6 (Config.portMac port).toNat ++ mac.drop 6 ++ [0x88, 0xB5] ++ head ++ iv ++ gmac key iv head

/-- Send a response to a source: a page's ring, or a fabric port; a page whose responses are discarded takes none (R396). -/
def respond (s : State) (src : Nat) (mac : List Byte) (tenant : Nat) (r : List Byte) : State :=
  if src < 140 then (if (s.page src).discard then s else s.modPage src fun p => { p with held := p.held ++ [r] })
  else if src < 148 then
    let port := src - 140
    let key := if tenant < 4096 then part (s.tenant tenant) 0x50 16 else []
    let n := s.hub.fabricIv.getD port 0
    s.modHub fun h => { h with fabricIv := lset h.fabricIv port (n + 1), sent := h.sent ++ [(port, responseFrame port mac key n r)] }
  else s

/-- The slot of a page's response ring that the next response takes. -/
def LaunchPage.slot (p : LaunchPage) : Nat := p.rspBase.toNat + 32 * (p.rspTail.toNat % 2 ^ p.rspSz)

/-- RESPONSE_WRITE may act: a response that fits its ring; in package memory, at a line where no write waits (11 R324), so that it stands before RSPTAIL counts it. -/
def responseReady (s : State) (page : Nat) : Bool :=
  let p := s.page page
  !p.held.isEmpty && !p.holds && (decide (page < 128) || !s.lineHeld p.slot)

/-- RESPONSE_WRITE (R390): the port writes a page's oldest response into its ring, in host memory or, for the CPU die, in package memory. -/
def execResponseWrite (page : Nat) (s : State) : Result :=
  let p := s.page page
  .next (match p.held with
    | r :: rest =>
      if page < 140 ∧ ringFull p.rspHead p.rspTail p.rspSz = false then
        let a := p.slot
        if page < 128 then
          (s.modHub fun h => { h with upstream := h.upstream ++ [{ requester := some page, addr := BitVec.ofNat 64 a, data := some r }] }).modPage page fun p =>
            { p with held := rest, rspTail := p.rspTail + 1 }
        else if s.lineHeld a then s
        else (s.pwrite a r).modPage page fun p => { p with held := rest, rspTail := p.rspTail + 1 }
      else s
    | [] => s)

/-- RSPHEAD_WRITE (R390): the reader of a ring has consumed entries. -/
def execRspheadWrite (page : Nat) (v : Word) (s : State) : Result := .next (s.modPage page fun p => { p with rspHead := v.setWidth 16 })

/-- RSPBASE_WRITE (R389, R396): a new ring base; responses are no longer discarded. -/
def execRspbaseWrite (page : Nat) (v : DWord) (s : State) : Result := .next (s.modPage page fun p => { p with rspBase := v, discard := false })

/-! ## Packets -/

/-- A SUBMIT (R389): the page's packet buffer goes to the port; discarded while BUSY is set. pkt: what the buffer holds. -/
def submitPacket (s : State) (page : Nat) (pkt : List Byte) : State :=
  if page < 140 ∧ pkt.length = 128 then
    let s1 := s.modPage page fun p => { p with pkt := pkt }
    if (s.page page).busyNow then s1
    else (s1.modPage page fun p => { p with busy := true }).modHub fun h => { h with packets := h.packets ++ [{ src := page, mac := [], bytes := pkt }] }
  else s

/-- SUBMIT. -/
def execSubmit (page : Nat) (pkt : List Byte) (s : State) : Result := .next (submitPacket s page pkt)

/-- The packet in a Puwieg frame, with the source address and the 802.1Q tag of the frame; none for a frame that the port drops (R392). -/
def puwieg (frame : List Byte) : Option (List Byte × List Byte) :=
  let tagged := part frame 12 2 == [0x81, 0x00]
  let at_ := if tagged then 16 else 12
  let h := frame.drop at_
  if part h 0 2 = [0x88, 0xB5] ∧ recField h 2 1 = 1 ∧ recField h 3 1 = 1 ∧ recField h 4 2 = 128 ∧ recField h 6 4 = 0 ∧ 138 ≤ h.length then
    some (part frame 6 6 ++ (if tagged then part frame 12 4 else []), part h 10 128)
  else none

/-- FABRIC_FRAME_RX: a port receives a frame; fcsOk: its frame check sequence is good. -/
def execFabricFrameRx (port : Nat) (frame : List Byte) (fcsOk : Bool) (s : State) : Result :=
  .next (match puwieg frame with
    | some (mac, pkt) => if port < 8 ∧ fcsOk = true then s.modHub fun h => { h with packets := h.packets ++ [{ src := 140 + port, mac := mac, bytes := pkt }] } else s
    | none => s)

/-! ## The checks of a launch -/

/-- The fields of a launch record keep their limits (R376); satp: what SATP may be. -/
def launchRecordOk (b : List Byte) (satp : Nat → Bool) : Bool :=
  let f := recField b
  f 0 2 == 1 && decide (f 2 1 ≤ 15) && decide (f 3 1 ≤ 3) && decide (1 ≤ f 4 2) && decide (f 4 2 ≤ 64) && decide (f 6 1 ≤ f 4 2) && decide (f 7 1 ≤ 4) &&
  budgetOk (f 8 1) && budgetOk (f 9 1) && decide (f 0xA 1 ≤ 8) && f 0xB 1 == 0 && f 0xC 4 % 8192 == 0 && decide (f 0xC 4 ≤ 0x200000) && f 0x14 4 == 0 &&
  f 0x18 8 % 4 == 0 && satp (f 0x28 8) && f 0x30 8 % 64 == 0 && f 0x38 8 % 4096 == 0 && f 0x48 8 % 4096 == 0 && f 0x50 8 % 8 == 0 &&
  ((f 3 1).testBit 0 || f 0x60 8 == 0) && ((f 3 1).testBit 1 || f 0x68 8 == 0) &&
  (List.range 8).all fun i => let base := f (0x80 + 16 * i) 8; let len := f (0x88 + 16 * i) 8
    if i < f 0xA 1 then base % 128 == 0 && len % 128 == 0 else base == 0 && len == 0

/-- An address lies in one of a tenant's code ranges. -/
def inCode (t : List Byte) (a : Nat) : Bool :=
  (List.range 4).any fun i => let base := recField t (0x10 + 16 * i) 8; decide (base ≤ a) && decide (a < base + recField t (0x18 + 16 * i) 8)

/-- How the last checks end. -/
inductive LaunchOut where
  | refuse (status : Nat)
  | ok (record : List Byte)
  | wait
deriving DecidableEq, Repr

/-- Checks 8 to 13 (R380). The record is read at user level, for a LAUNCH by a handler too: R380 names no level (DESIGN CHOICE, log 50). -/
def launchChecks (s : State) (satp hgatp prt tenant ra : Nat) (satpOk : Nat → Bool) : State × LaunchOut :=
  if 4096 ≤ s.hub.grids.length then (s, .refuse 11)
  else if ra % 256 ≠ 0 then (s, .refuse 7)
  else match memLoad s (hubX satp hgatp prt false) ra 256 3 with
    | (s1, .wait) => (s1, .wait)
    | (s1, .fault _ _) => (s1, .refuse 7)
    | (s1, .ok b) =>
      let t := s1.tenant tenant
      (s1, if !launchRecordOk b satpOk then .refuse 8
           else if !inCode t (recField b 0x18 8) || (recField b 0x30 8 != 0 && !inCode t (recField b 0x30 8)) then .refuse 9
           else if (List.range 4).all fun d => (s1.die d).partmap.getD prt 0 == 0 then .refuse 10
           else if (recordPreds b).any fun p => p.toNat % 4096 != tenant then .refuse 12
           else .ok b)

/-- A new grid takes an entry and an identifier (R375); LIVE of its tenant rises. -/
def newGrid (s : State) (tenant : Nat) (x : Grid) : State × DWord :=
  let id := s.hub.serial.setWidth 64 <<< 32 ||| BitVec.ofNat 64 tenant
  let s1 := s.modHub fun h => { h with grids := h.grids ++ [{ x with id := id }], serial := if h.serial + 1 = 0 then 1 else h.serial + 1 }
  (countLive s1 tenant true, id)

/-- What a grid has of its record as it enters the table. -/
def Grid.enter (record : List Byte) (recAddr cookie : DWord) (prio prt satp hgatp src : Nat) (mac : List Byte) (launched : Bool) : Grid :=
  { id := 0, record := record, recAddr := recAddr, prio := prio, part := prt, satp := BitVec.ofNat 64 satp, hgatp := BitVec.ofNat 64 hgatp, cookie := cookie, src := src,
    srcMac := mac, launched := launched, dealt := 0, nextDie := 0, live := recField record 0x10 4 + 1, cores := 0 }

/-! ## LAUNCH_PACKET -/

/-- The source's bit in a tenant's FLAGS is clear, or the virtual function is not the tenant's, or is assigned to no partition (R380, 14 R389). -/
def sourceBad (s : State) (t : List Byte) (src : Nat) : Bool :=
  let flags := recField t 0 1
  if src < 128 then !flags.testBit 2 || !((recField t 4 1).testBit 7 || recField t 4 1 % 128 == src) || (s.vfPart src).isNone
  else if src < 140 then !flags.testBit 1 else !flags.testBit 3

/-- Checks 1 to 7, with the update of LASTSEQ that check 4 makes: the status of the first that fails. -/
def packetChecks (s : State) (p : Packet) : State × Nat :=
  let b := p.bytes
  let tenant := recField b 0 2
  let t := s.tenant tenant
  let fabric := decide (140 ≤ p.src)
  let seq := recField b 8 8
  if 4096 ≤ tenant ∨ (recField t 0 1).testBit 0 = false then (s, 1)
  else if sourceBad s t p.src then (s, 2)
  else if fabric && gmac (part t 0x50 16) (part b 0x60 12) (part b 0 0x70) != part b 0x70 16 then (s, 3)
  else if fabric && decide (seq ≤ recField t 0x60 8) then (s, 4)
  else
    let s1 := if fabric then s.setTenant tenant (setField t 0x60 8 seq) else s
    (s1, if !(recField t 2 2).testBit (recField b 3 1) then 5
         else if recField t 1 1 % 16 < recField b 2 1 then 6
         else if recField b 4 4 != 0 || recField b 0x28 56 != 0 || recField b 0x6C 4 != 0 || (!fabric && (seq != 0 || recField b 0x60 12 != 0 || recField b 0x70 16 != 0)) then 8
         else 0)

/-- The packet that the port serves next: the oldest whose page holds no response. -/
def nextPacket (s : State) : Option (Nat × Packet) :=
  (s.hub.packets.mapIdx fun i p => (i, p)).find? fun e => decide (140 ≤ e.2.src) || !(s.page e.2.src).holds

/-- The port is open: the package has started and is not in minimal mode (14 R402). -/
def State.launchOpen (s : State) : Bool := s.referee.stage == 8 && !s.referee.minimal

/-- A packet leaves the queue; its page is no longer busy. -/
def takePacket (s : State) (e : Nat × Packet) : State :=
  let s1 := s.modHub fun h => { h with packets := ldrop h.packets e.1 }
  if e.2.src < 140 then s1.modPage e.2.src fun p => { p with busy := false } else s1

/-- Refuse a packet. -/
def refusePacket (s : State) (p : Packet) (status : Nat) : State :=
  respond (s.modHub fun h => { h with refused := h.refused + 1 }) p.src p.mac (recField p.bytes 0 2) (responseBytes (w64 p.bytes 0x20) 0 0 status)

/-- Serve a packet: none while its record cannot be read yet. -/
def servePacket (s : State) (e : Nat × Packet) : Option State :=
  let p := e.2
  let b := p.bytes
  let tenant := recField b 0 2
  match packetChecks (takePacket s e) p with
  | (s1, 0) =>
    let hg := recField (s1.tenant tenant) 8 8
    let satp := recField b 0x10 8
    (match launchChecks s1 satp hg (recField b 3 1) tenant (recField b 0x18 8) fun x => x == 0 || x == satp with
      | (_, .wait) => none
      | (s2, .refuse st) => some (refusePacket s2 p st)
      | (s2, .ok r) =>
        let g := newGrid s2 tenant (Grid.enter r (w64 b 0x18) (w64 b 0x20) (recField b 2 1) (recField b 3 1) satp hg p.src p.mac false)
        some (respond (g.1.modHub fun h => { h with accepted := h.accepted + 1 }) p.src p.mac tenant (responseBytes (w64 b 0x20) g.2 0 0)))
  | (s1, st) => some (refusePacket s1 p st)

/-- LAUNCH_PACKET (R380). -/
def execLaunchPacket (s : State) : Result :=
  .next (match nextPacket s with
    | some e => if s.launchOpen then (servePacket s e).getD s else s
    | none => s)

/-! ## LAUNCH requests (R383) -/

/-- Serve a LAUNCH request: the child's grid or the status. A child's responses go to its parent's source, with the parent's cookie. -/
def serveLaunch (s : State) (q : LaunchReq) : Option (State × DWord) :=
  let tid := (s.group q.gid).tid
  let tenant := q.grid.toNat % 4096
  let satp := s.bindField tid 0x30 8
  let hg := s.bindField tid 0x38 8
  match launchChecks s satp hg (s.partOf tid) tenant q.ra.toNat fun x => x == 0 with
  | (_, .wait) => none
  | (s1, .refuse st) => some (s1, BitVec.ofNat 64 st)
  | (s1, .ok r) =>
    let (src, mac, cookie) := match s.findGrid q.grid with | some x => (x.src, x.srcMac, x.cookie) | none => (148, [], 0)
    some (newGrid s1 tenant (Grid.enter r q.ra cookie (min (recField r 2 1) (s.grantedPrio tid)) (s.partOf tid) satp hg src mac true))

/-- LAUNCH_REQUEST: the oldest request. The post no longer counts, and the reply is on its way. -/
def execLaunchRequest (s : State) : Result :=
  .next (match s.hub.launchReqs with
    | q :: r =>
      (match serveLaunch s q with
        | some (s1, v) => (lowerPosts s1 q.gid q.gang).modHub fun h => { h with launchReqs := r, launchReplies := h.launchReplies ++ [{ gid := q.gid, d := q.d, value := v }] }
        | none => s)
    | [] => s)

/-- LAUNCH_REPLY: reply n writes d and d + 1. -/
def execLaunchReply (n : Nat) (s : State) : Result :=
  .next (match s.hub.launchReplies[n]? with
    | some x => launchResult (s.modHub fun h => { h with launchReplies := ldrop h.launchReplies n }) x.gid x.d x.value
    | none => s)

/-! ## GRID_DEAL and GRID_COMPLETE (R377) -/

/-- The die that takes the grid's next team: the next, in ascending order, with a cluster of its partition and room in its queue. -/
def dealDie (s : State) (x : Grid) : Option Nat :=
  ((List.range 4).map fun i => (x.nextDie + i) % 4).find? fun d => (s.die d).partmap.getD x.part 0 != 0 && decide ((s.die d).pendingQ.length < 1024)

/-- A grid's teams may be dealt: every valid predecessor is complete. -/
def dealReady (s : State) (x : Grid) : Bool :=
  decide (x.dealt ≤ recField x.record 0x10 4) && (recordPreds x.record).all (fun p => (s.findGrid p).isNone) && (dealDie s x).isSome

def State.modGrid (s : State) (grid : DWord) (f : Grid → Grid) : State := s.modHub fun h => { h with grids := h.grids.map fun x => if x.id = grid then f x else x }

/-- GRID_DEAL: one team of a grid goes to a pending queue. -/
def execGridDeal (grid : DWord) (s : State) : Result :=
  .next (match s.findGrid grid with
    | some x =>
      if dealReady s x then
        let d := (dealDie s x).getD 0
        let p : Pending := { grid := grid, team := BitVec.ofNat 32 x.dealt, prio := x.prio, part := x.part, restore := false, save := 0 }
        (s.modDie d fun k => { k with pendingQ := k.pendingQ ++ [p] }).modGrid grid fun x => { x with dealt := x.dealt + 1, nextDie := (d + 1) % 4 }
      else s
    | none => s)

/-- Remove a grid from the table: its dependants are released, its ordered-add queues freed (05 R163), LIVE of its tenant falls; the last 256 are remembered. -/
def endGrid (s : State) (x : Grid) : State :=
  let s1 := (abandonAdds s x.id).modHub fun h =>
    let done := h.doneGrids ++ [{ id := x.id, regions := recordRegions x.record }]
    { h with grids := h.grids.filter fun y => y.id ≠ x.id, doneGrids := done.drop (done.length - 256) }
  countLive s1 (x.id.toNat % 4096) false

/-- Lines of a grid's regions. -/
def Grid.lines (x : Grid) (y : L1Line) : Bool := y.inRanges (x.satp.toNat / 2 ^ 44 % 2 ^ 16) (x.hgatp.toNat / 2 ^ 44 % 2 ^ 14) (recordRegions x.record)
/-- The cores that ran a team of a grid. -/
def Grid.coreList (x : Grid) : List Nat := (List.range 160).filter fun c => x.cores.getLsbD c

/-- Every team of a grid has retired, and its regions can be cleaned. -/
def completeReady (s : State) (x : Grid) : Bool := x.live == 0 && x.coreList.all fun c => cleanReady s c x.lines

/-- Store DONEVAL to DONE, as a store at supervisor level and through no window: the status of the response; none while the store must wait. -/
def storeDone (s : State) (x : Grid) : Option (State × Nat) :=
  let done := recField x.record 0x50 8
  if done = 0 then some (s, 0)
  else match memPlaceFrom (hubX x.satp.toNat x.hgatp.toNat x.part true) 1 [(done, 8)] s with
    | (s1, .ok ps) => some (memStore s1 x.part 6 ps (part x.record 0x58 8), 0)
    | (s1, .fault _ _) => some (s1, 13)
    | (_, .wait) => none

/-- GRID_COMPLETE: the regions are cleaned, DONE is stored, the response sent, the entry freed. -/
def execGridComplete (grid : DWord) (s : State) : Result :=
  .next (match s.findGrid grid with
    | some x =>
      if completeReady s x then
        match storeDone (x.coreList.foldl (fun t c => cleanLines t c x.lines false) s) x with
        | some (s1, st) => endGrid (respond s1 x.src x.srcMac (grid.toNat % 4096) (responseBytes x.cookie grid 1 st)) x
        | none => s
      else s
    | none => s)

/-! ## Tear-down (14 R394) -/

/-- The home slots of a grid's teams that are resident, draining or being switched out. -/
def gridTeams (s : State) (grid : DWord) : List Nat :=
  s.cores.flatMap fun k => k.2.binds.filterMap fun e =>
    let st := recField e.2 0 1
    if recField e.2 0x10 8 = grid.toNat ∧ recField e.2 3 1 % 2 = 1 ∧ (st = 2 ∨ st = 3 ∨ st = 4) then some (k.1 * 32 + e.1) else none

/-- What a team still has under way in its cores is given up. -/
def dropUnderWay (s : State) (tid : Nat) : State :=
  let mine (gid : Nat) : Bool := gid / 64 == tid
  let s1 := s.cores.foldl (fun t c => t.modCore c.1 fun k =>
    { k with log := k.log.filter (fun o => !mine o.gid), postBuf := k.postBuf.filter (fun p => !mine p.2.post.gid), bankChange := k.bankChange.filter fun b => !mine b.1 }) s
  s1.modHub fun h => { h with launchReqs := h.launchReqs.filter (fun q => !mine q.gid), launchReplies := h.launchReplies.filter fun q => !mine q.gid }

/-- The growths of a team are completed before it goes, those still in a post buffer too (10 R281); one that a fault, a lock or a wait stops is cancelled with the
team's other copies, as R394 has it for every one (DESIGN CHOICE between the two, log 40). -/
def finishGrows (s : State) (tid : Nat) : State :=
  let take (t : State) (p : Nat × Nat × PostSlot) : State := match p.2.2.post with | .copy c => if c.kind = .grow then takePost t p.1 p.2.2 else t | _ => t
  let s1 := (s.teamPosts tid).foldl take s
  (s1.teamCopiesIn tid).foldl (fun t c => if c.2.kind = .grow then finishGrow c.1 c.2.id 16385 (growStart t c.1 c.2) else t) s1

/-- Tear a team down: its groups are killed as by GKILL, its operations cancelled, its subscriptions removed, its slots and storage released. -/
def tearTeam (s : State) (tid : Nat) : State :=
  let s1 := dropUnderWay (finishGrows ((s.teamGids tid).foldl killGroup (settleBanks s (tid / 32))) tid) tid
  let s2 := (s1.teamCopiesIn tid).foldl (fun t c => cancelCopy t c.1 c.2.id) s1
  let s3 := (s2.teamEvicts tid).foldl (fun t e => cancelEvict t e.1 e.2) s2
  let s4 := settleDrops ((s3.teamTasks tid).foldl (fun t x => cancelTask t (tid / 32) x.id) s3) tid
  (clearTeam (removeSubs s4 tid) tid).modDie (dieOf (tid / 32)) fun d => match d.preempting with
    | some (c, o, _) => if c * 32 + o = tid then { d with preemptSt := 0, preempting := none } else d
    | none => d

/-- A saved context is discarded, and its parked subscriptions with it. -/
def discardSaved (s : State) (grid : DWord) : State :=
  let mine := s.hub.saved.filter fun v => v.grid == grid
  let s1 := mine.foldl (fun t v => v.subs.foldl (fun u d => dropSub u d.home d.idx) t) s
  s1.modHub fun h => { h with saved := h.saved.filter fun v => v.grid != grid }

/-- Tear a grid down; reply: whether its source is sent a response. Nothing is stored to DONE. -/
def tearGrid (s : State) (x : Grid) (reply : Bool) : State :=
  let s1 := (List.range 4).foldl (fun t d => t.modDie d fun k => { k with pendingQ := k.pendingQ.filter fun p => p.grid ≠ x.id }) s
  let s2 := discardSaved ((gridTeams s1 x.id).foldl tearTeam s1) x.id
  let s3 := if reply then respond s2 x.src x.srcMac (x.id.toNat % 4096) (responseBytes x.cookie x.id 2 0) else s2
  endGrid s3 x

end Sys2Proof.Machine
end

