-- ==== Sys2Proof/Machine/Manage.lean ====
section
/-! DEFINITION. The referee, resets and management (14 R386 to R408): the fault queue and its forwarding, the control and hub pages, snapshots, function-level,
hot and warm resets, the boot stages, the mailbox; COMPLETION_TIMEOUT (R393). -/
namespace Sys2Proof.Machine

/-! ## The log (R408) -/

/-- Home clocks since the last cold start: the model counts one a step. -/
def State.clock (s : State) : Nat := s.time - s.referee.coldAt

/-- Append an entry to the referee's ring of 4,096. -/
def addLog (s : State) (event detail part : Nat) (data : List Byte) : State :=
  let e := leBytes 8 s.clock ++ leBytes 2 event ++ leBytes 2 detail ++ leBytes 4 part ++ padTo 16 data
  s.modReferee fun r => { r with log := if r.logNext < r.log.length then lset r.log r.logNext e else r.log ++ [e], logNext := (r.logNext + 1) % 4096 }

/-- No partition. -/
def noPart : Nat := 0xFFFFFFFF

/-- SENSOR_BEYOND_LIMIT. -/
def execSensorBeyondLimit (sensor : Nat) (s : State) : Result := .next (addLog s 6 sensor noPart [])

/-! ## The fault queue (R399, R400) -/

/-- The oldest posting enters the fault queue, when it has room. -/
def postFault (s : State) : State :=
  match s.referee.postings with
  | p :: r =>
    if s.referee.faultQ.length < 1024 then
      addLog (s.modReferee fun x => { x with postings := r, faultQ := x.faultQ ++ [p] }) 3 p.record.code.toNat p.part
        (leBytes 8 p.handle.toNat ++ leBytes 2 p.record.cause.toNat)
    else s
  | [] => s

/-- FAULT_QUEUE_POST. -/
def execFaultQueuePost (s : State) : Result := .next (postFault s)
/-- FAULT_QUEUE_RETRY: a posting that found the queue full is offered again. -/
def execFaultQueueRetry (s : State) : Result := .next (postFault s)

/-- Where the next entry of a partition's referee ring goes. -/
def ringSlot (c : ControlPage) : Nat := c.rring.toNat + 64 * (c.rrTail.toNat % 2 ^ c.rrSz)

/-- The referee can forward an entry: the ring of its partition has room, and the entry's line takes a write now (11 R324), so that it stands before RRTAIL
counts it. -/
def forwardable (s : State) (p : Posting) : Bool := let c := s.ctl p.part; !ringFull c.rrHead c.rrTail c.rrSz && !s.lineHeld (ringSlot c)

/-- Forward entry n of the fault queue: the ring entry, RRTAIL, and the interrupt, a write of RRMSID to RRMSIA. -/
def forward (s : State) (n : Nat) : State :=
  match s.referee.faultQ[n]? with
  | none => s
  | some p =>
    if !forwardable s p then s
    else
      let c := s.ctl p.part
      let s1 := (s.pwrite (ringSlot c) (ringEntry p.record p.handle p.asid c.rrTail)).modCtl p.part fun c => { c with rrTail := c.rrTail + 1 }
      let s2 := s1.modReferee fun r => { r with faultQ := ldrop r.faultQ n, msi := if c.rrMsia = 0 then r.msi else r.msi ++ [(c.rrMsia, c.rrMsid)] }
      if c.rrMsia ≠ 0 ∧ homeOf c.rrMsia.toNat < 6 then s2.pstore c.rrMsia.toNat 4 c.rrMsid.toNat else s2

/-- REFEREE_FORWARD: the first entry whose ring has room. -/
def execRefereeForward (s : State) : Result :=
  .next (match s.referee.faultQ.findIdx? (forwardable s) with
    | some n => forward s n
    | none => s)
/-- REFEREE_RING_RETRY: entry n, blocked by a full ring, is offered again. -/
def execRefereeRingRetry (n : Nat) (s : State) : Result := .next (forward s n)

/-- The referee serves entry n of the fault queue itself (R399), as its own policy resolves it: code 0 GRES, 1 GRES with SKIP, 2 GKILL (12 R357), 3 the
tear-down of the group's grid. The entry leaves the queue. -/
def refereeServe (s : State) (n code : Nat) : State :=
  match s.referee.faultQ[n]? with
  | none => s
  | some p =>
    let tear (t : State) : State := match (handleGroup t p.handle).bind fun gid => t.findGrid (t.gridOf (t.group gid).tid) with
      | some x => addLog (tearGrid t x true) 4 0 x.part []
      | none => t
    let s1 := match code with
      | 0 => (resumeParked s p.part p.handle false).1
      | 1 => (resumeParked s p.part p.handle true).1
      | 2 => (killParked s p.part p.handle).1
      | _ => tear s
    s1.modReferee fun r => { r with faultQ := ldrop r.faultQ n }

/-! ## The control pages (R406) -/

/-- GCMD: an operation on the group that GHANDLE names; GST takes the status. -/
def gcmd (s : State) (part : Nat) (f : State → Nat → DWord → State × Nat) : State :=
  let r := f s part (s.ctl part).ghandle
  r.1.modCtl part fun c => { c with gst := r.2 }

def execGcmdGres (part : Nat) (s : State) : Result := .next (gcmd s part fun t p h => resumeParked t p h false)
def execGcmdGresSkip (part : Nat) (s : State) : Result := .next (gcmd s part fun t p h => resumeParked t p h true)
def execGcmdGkill (part : Nat) (s : State) : Result := .next (gcmd s part fun t p h => killParked t p h)

/-- A write to FOPC of a control page: the operation that its code names, on the frame that FOPA names (11 R313). -/
def writeCtlFopc (s : State) (part : Nat) (v : DWord) : State :=
  let r := frameOp s part (v.toNat % 16) (v.toNat / 16 % 16) ((s.ctl part).fopa.toNat / 4096)
  r.1.modCtl part fun c => { c with fops := BitVec.ofNat 4 r.2 }

/-- Write a register of a control page. -/
def writeCtl (s : State) (part off : Nat) (v : DWord) : State :=
  if off = 0x008 then writeCtlFopc s part v
  else s.modCtl part fun c =>
    if off = 0x000 then { c with fopa := v } else if off = 0x020 then { c with ghandle := v &&& handleMask } else if off = 0x040 then { c with rring := v }
    else if off = 0x048 then { c with rrSz := ringSize (v.setWidth 32) } else if off = 0x04C then { c with rrHead := v.setWidth 16 }
    else if off = 0x058 then { c with rrMsia := v } else if off = 0x060 then { c with rrMsid := v.setWidth 32 } else c

/-- The operating system of a self-hosted partition has completed what a function-level reset left pending: its notice is answered, and RSTDONE is set (R395). -/
def resetDone (s : State) (vf : Nat) : State :=
  if s.referee.notices.any fun e => e.1 == vf && decide (e.2 < 12) then
    (s.modReferee fun r => { r with notices := r.notices.filter fun e => !(e.1 == vf && decide (e.2 < 12)) }).modPage vf fun p => { p with rstDone := true }
  else s

/-! ## Snapshots (R404) -/

/-- SNAPTRIG: discarded while a trigger is in flight. -/
def execSnaptrig (n : BitVec 16) (s : State) : Result := .next (sendSnap s n).1

/-- A sensor entry (R408). -/
def sensorEntry (s : State) (i : Nat) : DWord := (Config.sensor i s.time ++ 0#8 ++ Config.sensorKind i ++ BitVec.ofNat 16 i : BitVec 64)
def sensorEntries (s : State) : List DWord := (List.range Config.sensorCount).map (sensorEntry s)

/-- The counters that a block latches, in the order of the layout. What the model does not count is open. -/
def snapCounters (s : State) (b : Nat) : List DWord :=
  let n (x : Nat) : DWord := BitVec.ofNat 64 x
  if b < 160 then
    let k := s.core b
    [cycleCount s b] ++ (k.issued.map fun x => n (x % 2 ^ 48)) ++ [n k.l1Hits, n k.l1Misses, n k.delivered]
  else if b < 164 then
    let d := s.die (b - 160)
    [n d.l2Hits, n d.l2Misses, n d.tlbMisses, n d.locks.length, n d.relayBytes]
  else if b < 170 then
    let h := s.home (b - 164)
    [n h.applied, n h.subs.length, n h.pushes, n h.refused]
  else if b = 170 then [n s.hub.grids.length, n s.hub.accepted, n s.hub.refused, n s.hub.adds.length]
  else if b < 235 then [Config.counter b 0 s.time, Config.counter b 1 s.time]
  else n Config.sensorCount :: sensorEntries s

/-- SNAPSHOT_LATCH: the trigger reaches a block. -/
def execSnapshotLatch (block : Nat) (s : State) : Result :=
  .next (if s.hub.snapFlight = true ∧ s.hub.snapWait.contains block = true then
    let x : Snapshot := { num := s.hub.snapNum, counters := snapCounters s block }
    s.modHub fun h => { h with snapWait := h.snapWait.filter (· ≠ block), snaps := sput h.snaps block x }
  else s)

/-- SNAPSHOT_COMPLETE: every block has acknowledged the trigger. -/
def execSnapshotComplete (s : State) : Result :=
  .next (if s.hub.snapFlight = true ∧ s.hub.snapWait = [] then s.modHub fun h => { h with snapFlight := false } else s)

/-! ## Function-level and hot resets (R395, R396) -/

/-- The grids whose source is a page. -/
def gridsOf (s : State) (src : Nat) : List Grid := s.hub.grids.filter fun x => x.src == src

/-- Packets of a page that the port has not taken are dropped. -/
def dropPackets (s : State) (src : Nat) : State := s.modHub fun h => { h with packets := h.packets.filter fun p => p.src ≠ src }

/-- FUNCTION_LEVEL_RESET of a virtual function: its grids are torn down, without responses; its page returns to reset; in self-hosted mode the CPU die is
told, and RSTDONE waits for its answer. -/
def execFunctionLevelReset (vf : Nat) (s : State) : Result :=
  .next (if vf < 128 then
    let p := s.vfPart vf
    let s1 := dropPackets ((gridsOf s vf).foldl (fun t x => tearGrid t x false) s) vf
    let told := match p with | some q => (s.partRec q).self | none => false
    let s2 := if told then s1.modReferee fun r => { r with notices := r.notices ++ [(vf, p.getD 0)] } else s1
    addLog (s2.modPage vf fun _ => { LaunchPage.reset with rstDone := !told }) 4 (vf + 0x100) (p.getD noPart) []
  else s)

/-- What a hot reset does to one virtual function: of a partition with SELF set the grids run on and responses are discarded; else they are torn down. -/
def hotFunction (s : State) (vf : Nat) : State :=
  let self := match s.vfPart vf with | some q => (s.partRec q).self | none => false
  let s1 := dropPackets (s.modPage vf fun _ => { LaunchPage.reset with discard := self }) vf
  if self then s1 else (gridsOf s1 vf).foldl (fun t x => tearGrid t x false) s1

/-- HOT_RESET: every virtual function is reset. -/
def execHotReset (s : State) : Result := .next (addLog ((List.range 128).foldl hotFunction s) 4 0 noPart [])

/-! ## Warm resets (R398) -/

/-- The moves of a home are lost (11 R328): the data at their destinations is undefined; the writes that waited for their line are performed at the source. -/
def loseMove (s : State) (m : Move) : State :=
  m.stalled.foldl performWrite
    { s with mem := bputs s.mem m.n ((List.range m.size).map fun i => Config.lostByte (m.n + i) s.time),
             hub := { s.hub with moves := s.hub.moves.filter (· ≠ m) } }

/-- The lines of a die's L2 are written back, and the lines homed on it recalled from every cache. -/
def recallDie (s : State) (die : Nat) : State :=
  let s1 := ((s.die die).l2.map (·.line)).foldl (fun t l => leaveLine t l die) s
  ((s1.home die).lines.map (·.1)).foldl takeBack s1

/-- The referee clears MOVING in the frames that no running move has any more (11 R328). -/
def clearMoving (s : State) : State :=
  s.modHub fun h => { h with frames := h.frames.map fun e =>
    if e.2.moving && !h.moves.any (fun m => m.slot.isSome && (m.holds (e.1 * 4096) || (decide (m.n ≤ e.1 * 4096) && decide (e.1 * 4096 < m.n + m.size)))) then (e.1, { e.2 with moving := false }) else e }

/-- The dirty places of the sync table that name the die's cores are cleared. -/
def clearDirty (s : State) (die : Nat) : State :=
  s.modHub fun h => { h with sync := h.sync.map fun e => { e with dirty := e.dirty.filter fun d => dieOf d.core ≠ die } }

/-- The home slots of the teams that are resident, draining or being switched out in some clusters, with their partitions. -/
def teamsIn (s : State) (m : BitVec 20) : List Nat :=
  s.cores.flatMap fun k => if m.getLsbD (clusterOf k.1) then k.2.binds.filterMap fun e =>
      let st := recField e.2 0 1
      if recField e.2 3 1 % 2 = 1 ∧ (st = 2 ∨ st = 3 ∨ st = 4) then some (k.1 * 32 + e.1) else none
    else []

/-- Steps 1 to 7: the grids with a team on the die are torn down, its lines written back, the lines homed on it recalled, its subscriptions and moves lost;
its requests are answered with errors until it is readmitted, those too that had been translated. A team that still drains while its grid has completed goes as well. The queue of pending teams stays with the pacer. -/
def warmReset (s : State) (die : Nat) : State :=
  let here (x : Grid) : Bool := (gridTeams s x.id).any fun t => dieOf (t / 32) == die
  let s0 := (s.hub.grids.filter here).foldl (fun t x => tearGrid t x true) s
  let s1 := (teamsIn s0 (31#20 <<< (5 * die))).foldl tearTeam s0
  let s2 := s1.cores.foldl (fun t k => cleanLines t k.1 (fun y => dieOf k.1 == die || homeOf (y.pline * 128) == die) true) s1
  let s3 := ((s2.home die).subs.map (·.1)).foldl (fun t i => loseSub t die i 3) (clearDirty (recallDie s2 die) die)
  let s4 := (s3.hub.moves.filter fun m => m.slot.isSome && homeOf m.o == die).foldl loseMove s3
  let s5 := unwalk { s4 with cores := s4.cores.filter fun k => dieOf k.1 ≠ die } fun _ _ h => homeOf (s4.route h.pa) == die
  s5.modDie die fun d => { Die.reset with pendingQ := d.pendingQ, pqe := d.pqe, partmap := d.partmap, down := true }

/-- DIE_READMIT: the die serves again, its cycle counters start at 0, the frames of its lost moves are free of them, and the command that ordered the reset is done. -/
def execDieReadmit (die : Nat) (s : State) : Result :=
  .next (if (s.die die).down then
    ((clearMoving s).modDie die fun d => { d with down := false, released := s.time }).modReferee fun r =>
      if r.mbStatus = 2 ^ 31 ∧ r.changing = none then { r with mbStatus := 0, mbResult := [] } else r
  else s)

/-! ## Starts (R401 to R403) -/

/-- The image slot not in use. -/
def Referee.spare (r : Referee) : Nat := 1 - r.slot
def Referee.image (r : Referee) (i : Nat) : Image := r.images.getD i .reset

/-- Why an image is not accepted: REASON of R403, 0 for an accepted one. -/
def imageReason (r : Referee) (x : Image) : Nat :=
  if !Config.ed25519Ok x.size x.bytes then 1 else if !Config.mldsaOk x.size x.bytes then 2 else if Config.imageSvn x.size x.bytes < r.svnCount then 3 else 0

/-- BOOT_STATUS (R403). -/
def Referee.bootStatus (r : Referee) : Word :=
  BitVec.ofNat 32 (r.minimal.toNat * 2 ^ 31 + r.reason % 8 * 2 ^ 24 + r.stage % 16 * 2 ^ 20 + r.failcnt % 4 * 2 ^ 16 + r.slot % 2 * 2 ^ 8)

/-- COLD_START: everything but what the referee keeps in persistent storage returns to reset, and the stages begin. A package in minimal mode
stays there unless an image has been verified. The start uses the slot of the last one, or the slot of an image verified since. -/
def execColdStart (s : State) : Result :=
  let r := s.referee
  .next (if r.minimal && !r.verified then s
    else
      let fresh : Referee := { Referee.reset with images := r.images, svnCount := r.svnCount, failcnt := r.failcnt, log := r.log, logNext := r.logNext,
                                                  slot := if r.verified then r.spare else r.slot, boot := some 0, coldAt := s.time }
      let hub : Hub := { Hub.reset with fabricIv := s.hub.fabricIv }
      let die (i : Nat) : Nat × Die := (i, { Die.reset with released := s.time })
      { State.reset with referee := fresh, hub := hub, dies := (List.range 4).map die, inputs := s.inputs, time := s.time })

/-- A start fails at a stage: the other slot is next, or, the third time, minimal mode is entered. -/
def failStart (s : State) (stage reason : Nat) : State :=
  let s1 := addLog s 2 (stage * 16 + reason) noPart []
  let n := min 3 (s.referee.failcnt + 1)
  if n = 3 then
    addLog (s1.modReferee fun r => { r with stage := stage, reason := reason, failcnt := 3, boot := none, minimal := true }) 7 0 noPart []
  else s1.modReferee fun r => { r with stage := stage, reason := reason, failcnt := n, boot := some 0, slot := r.spare }

/-- A stage of a start passes: the last makes the package ready. -/
def passStage (s : State) (stage : Nat) : State :=
  if stage = 8 then
    addLog (s.modReferee fun r => { r with stage := 8, boot := none, failcnt := 0, runSvn := Config.imageSvn (r.image r.slot).size (r.image r.slot).bytes }) 1 0 noPart []
  else s.modReferee fun r => { r with stage := stage, boot := some stage }

/-- BOOT_STAGE: the next stage ends; reason: why it fails, as far as the outside decides (5 training, 6 watchdog). The images are checked at stage 2. -/
def execBootStage (reason : Nat) (s : State) : Result :=
  .next (match s.referee.boot with
    | none => s
    | some k =>
      let bad := if k + 1 = 2 then imageReason s.referee (s.referee.image s.referee.slot) else 0
      if bad ≠ 0 then failStart s (k + 1) bad
      else if reason = 5 ∨ reason = 6 then failStart s (k + 1) reason
      else passStage s (k + 1))

/-- BOOT_STAGE_TIMEOUT: the stage under way has lasted more than 2^30 home clocks. -/
def execBootStageTimeout (s : State) : Result :=
  .next (match s.referee.boot with | some k => failStart s (k + 1) 4 | none => s)

/-! ## The mailbox (R407, R408) -/

/-- The status of the last command, its result and the result's place in MBDATA. -/
def mbReply (s : State) (status : Nat) (result : List Byte) : State :=
  s.modReferee fun r => { r with mbStatus := status, mbResult := result, mbData := bputs r.mbData 0 result }

/-- A command's argument stands in MBDATA, its length in MBALEN. -/
def mbHold (s : State) (arg : List Byte) : State :=
  s.modReferee fun r => { r with mbAlen := BitVec.ofNat 32 arg.length, mbData := bputs r.mbData 0 arg }

/-- A command from a source (0 the PCIe host, 1 the CPU die): discarded while BUSY is set; then minimal mode, the owner, the length of the argument. -/
def mailbox (src : Nat) (owner minimal : Bool) (len : Nat → Bool) (arg : List Byte) (s0 : State) (f : State → State) : State :=
  let s := mbHold s0 arg
  if 2 ^ 31 ≤ s0.referee.mbStatus then s0
  else if s.referee.minimal && !minimal then mbReply s 7 []
  else if owner && src != s.referee.owner then mbReply s 4 []
  else if !len arg.length then mbReply s 2 []
  else f s

/-- GET_BOOT_STATUS. -/
def execGetBootStatus (src : Nat) (arg : List Byte) (s : State) : Result :=
  .next (mailbox src false true (· == 0) arg s fun s => mbReply s 0 (leBytes 4 s.referee.bootStatus.toNat))

/-- SET_OWNER. -/
def execSetOwner (src : Nat) (arg : List Byte) (s : State) : Result :=
  .next (mailbox src true false (· == 4) arg s fun s =>
    if 1 < recField arg 0 4 then mbReply s 3 [] else mbReply (s.modReferee fun r => { r with owner := recField arg 0 4 }) 0 [])

/-- Write the slot not in use. -/
def modSpare (s : State) (f : Image → Image) : State := s.modReferee fun r => { r with images := lset r.images r.spare (f (r.image r.spare)) }

/-- IMAGE_BEGIN. -/
def execImageBegin (src : Nat) (arg : List Byte) (s : State) : Result :=
  .next (mailbox src true true (· == 8) arg s fun s => mbReply (modSpare s fun _ => { Image.reset with size := recField arg 0 8, opened := true }) 0 [])

/-- IMAGE_DATA. -/
def execImageData (src : Nat) (arg : List Byte) (s : State) : Result :=
  .next (mailbox src true true (fun n => decide (8 ≤ n) && decide (n ≤ 4096)) arg s fun s =>
    let x := s.referee.image s.referee.spare
    let off := recField arg 0 8
    let data := arg.drop 8
    if !x.opened then mbReply s 5 []
    else if x.size < off + data.length then mbReply s 3 []
    else mbReply (modSpare s fun x => { x with bytes := (cellsOf off data).foldl (fun t e => sput t e.1 e.2) x.bytes }) 0 [])

/-- IMAGE_END. -/
def execImageEnd (src : Nat) (arg : List Byte) (s : State) : Result :=
  .next (mailbox src true true (· == 0) arg s fun s =>
    let r := s.referee
    let x := r.image r.spare
    if !x.opened then mbReply s 5 []
    else
      let why := imageReason r x
      if why ≠ 0 then mbReply (modSpare s fun x => { x with opened := false }) 6 (leBytes 4 why)
      else
        let s1 := (modSpare s fun x => { x with opened := false, bootable := true }).modReferee fun r => { r with verified := true }
        mbReply (addLog s1 5 r.spare noPart []) 0 (leBytes 4 0))

/-- COMMIT_SVN. -/
def execCommitSvn (src : Nat) (arg : List Byte) (s : State) : Result :=
  .next (mailbox src true false (· == 0) arg s fun s =>
    if s.referee.stage ≠ 8 then mbReply s 5 []
    else
      let n := max s.referee.svnCount s.referee.runSvn
      mbReply (s.modReferee fun r => { r with svnCount := n }) 0 (leBytes 4 n))

/-! ### Partitions (R386 to R388) -/

/-- A partition record from its 64 bytes. -/
def PartRec.ofBytes (b : List Byte) : PartRec :=
  { clusters := BitVec.ofNat 20 (recField b 0 4), pinq := recField b 4 4, vfs := BitVec.ofNat 128 (recField b 8 16), nearq := (List.range 4).map fun i => recField b (0x18 + 4 * i) 4,
    midq := recField b 0x28 4, farq := recField b 0x2C 4, vmid := recField b 0x30 2, valid := (recField b 0x32 1).testBit 0, self := (recField b 0x32 1).testBit 1,
    resetting := (recField b 0x32 1).testBit 2, sum := (recField b 0x33 1).testBit 0, adup := (recField b 0x33 1).testBit 1 }

/-- The 64 bytes of a partition record. -/
def PartRec.bytes (r : PartRec) : List Byte :=
  leBytes 4 r.clusters.toNat ++ leBytes 4 r.pinq ++ leBytes 16 r.vfs.toNat ++ ((List.range 4).flatMap fun i => leBytes 4 (r.nearq.getD i 0)) ++ leBytes 4 r.midq ++
  leBytes 4 r.farq ++ leBytes 2 r.vmid ++ leBytes 1 (r.valid.toNat + r.self.toNat * 2 + r.resetting.toNat * 4) ++ leBytes 1 (r.sum.toNat + r.adup.toNat * 2) ++ zeros 12

/-- The record's VMID has 14 bits; reserved bits are ignored, and read back as 0 (00 R12). -/
def partRecordOk (b : List Byte) : Bool := decide (recField b 0x30 2 < 2 ^ 14)

/-- The clusters that a record gives: none unless it is valid. -/
def PartRec.given (r : PartRec) : BitVec 20 := if r.valid then r.clusters else 0

/-- Another valid partition has a cluster or a virtual function of the record. -/
def partOverlaps (s : State) (i : Nat) (r : PartRec) : Bool :=
  (List.range 12).any fun j => let q := s.partRec j
    j != i && q.valid && (q.clusters &&& r.given != 0 || (r.valid && q.vfs &&& r.vfs != 0))

/-- PARTMAP of every die, as CLUSTERS gives it (R387). -/
def deriveMaps (s : State) : State :=
  (List.range 4).foldl (fun t d => t.modDie d fun k =>
    { k with partmap := (List.range 12).map fun p => BitVec.ofNat 5 ((t.partRec p).given.toNat / 2 ^ (5 * d)) }) s

def State.setPartRec (s : State) (i : Nat) (r : PartRec) : State := s.modReferee fun x => { x with parts := sput x.parts i r }

/-- The teams of partition i that stand on the clusters which a new record takes from it. -/
def leavers (s : State) (i : Nat) (r : PartRec) : List Nat := (teamsIn s ((s.partRec i).given &&& ~~~r.given)).filter fun t => s.partOf t == i

/-- The grids of the leaving teams whose SAVE is 0. -/
def leavingGrids (s : State) (i : Nat) (r : PartRec) : List Grid :=
  s.hub.grids.filter fun x => (leavers s i r).any fun t => s.gridOf t == x.id && s.saveBase t == 0

/-- They are torn down (R388). -/
def tearLeavers (s : State) (i : Nat) (r : PartRec) : State := (leavingGrids s i r).foldl (fun t x => tearGrid t x true) s

/-- Write a partition record under R388: an added cluster holds no team; of a removed one the teams whose SAVE is 0 are torn down, and while the pacers have
yet to pre-empt or drain others RESETTING is set and the command waits. -/
def changePartition (s : State) (i : Nat) (r : PartRec) : State :=
  let old := s.partRec i
  if partOverlaps s i r || !(teamsIn s (r.given &&& ~~~old.given)).isEmpty then mbReply s 5 []
  else
    let s1 := tearLeavers s i r
    if (leavers s1 i r).isEmpty then mbReply (deriveMaps (s1.setPartRec i r)) 0 []
    else mbReply ((s1.setPartRec i { old with resetting := true }).modReferee fun x => { x with changing := some (i, r) }) (2 ^ 31) []

/-- A change that waited goes on: a team whose SAVE is 0 has come to stand on the clusters meanwhile and is torn down, or no team is left to wait for: the record is
written, and the command is done. -/
def changeDue (s : State) : Bool := match s.referee.changing with | some (i, r) => (leavers s i r).isEmpty || !(leavingGrids s i r).isEmpty | none => false
def execChange (s : State) : Result :=
  .next (match s.referee.changing with
    | some (i, r) =>
      let s1 := tearLeavers s i r
      if (leavers s1 i r).isEmpty then mbReply ((deriveMaps (s1.setPartRec i r)).modReferee fun x => { x with changing := none }) 0 [] else s1
    | none => s)

/-- SET_PARTITION. -/
def execSetPartition (src : Nat) (arg : List Byte) (s : State) : Result :=
  .next (mailbox src true false (· == 68) arg s fun s =>
    if 12 ≤ recField arg 0 4 ∨ partRecordOk (arg.drop 4) = false then mbReply s 3 []
    else changePartition s (recField arg 0 4) { PartRec.ofBytes (arg.drop 4) with resetting := false })

/-- GET_PARTITION. -/
def execGetPartition (src : Nat) (arg : List Byte) (s : State) : Result :=
  .next (mailbox src false false (· == 4) arg s fun s =>
    if 12 ≤ recField arg 0 4 then mbReply s 3 [] else mbReply s 0 (s.partRec (recField arg 0 4)).bytes)

/-! ### Tenants, grids, dies -/

/-- The fields of a tenant entry keep their limits (13 R379). -/
def tenantOk (b : List Byte) : Bool := recField b 8 8 == 0 || recField b 8 8 / 2 ^ 60 == 10

/-- The bits of byte k of a tenant entry that are not reserved: the others are ignored, and read back as 0 (00 R12). -/
def tenantMask (k : Nat) : Byte := if k < 2 ∨ k = 3 then 0x0F else if (5 ≤ k ∧ k < 8) ∨ 0x6A ≤ k then 0 else 0xFF

/-- SET_TENANT: LASTSEQ and LIVE keep their values. -/
def execSetTenant (src : Nat) (arg : List Byte) (s : State) : Result :=
  .next (mailbox src true false (· == 132) arg s fun s =>
    let i := recField arg 0 4
    let b := arg.drop 4
    let old := s.tenant i
    if 4096 ≤ i ∨ tenantOk b = false then mbReply s 3 []
    else if (recField b 0 1).testBit 0 = false ∧ recField old 0x68 2 ≠ 0 then mbReply s 5 []
    else mbReply (s.setTenant i ((List.range 128).map fun k => if 0x60 ≤ k ∧ k < 0x6A then old.getD k 0 else b.getD k 0 &&& tenantMask k)) 0 [])

/-- GET_TENANT: KEY reads as 0. -/
def execGetTenant (src : Nat) (arg : List Byte) (s : State) : Result :=
  .next (mailbox src true false (· == 4) arg s fun s =>
    let b := s.tenant (recField arg 0 4)
    if 4096 ≤ recField arg 0 4 then mbReply s 3 [] else mbReply s 0 (b.take 0x50 ++ zeros 16 ++ b.drop 0x60))

/-- TEAR_DOWN (R394). -/
def execTearDown (src : Nat) (arg : List Byte) (s : State) : Result :=
  .next (mailbox src true false (· == 8) arg s fun s =>
    match s.findGrid (w64 arg 0) with
    | some x => mbReply (addLog (tearGrid s x true) 4 0 x.part []) 0 []
    | none => mbReply s 3 [])

/-- DIE_RESET (R398): the command stays BUSY until the die is readmitted. -/
def execDieReset (src : Nat) (arg : List Byte) (s : State) : Result :=
  .next (mailbox src true false (· == 4) arg s fun s =>
    let d := recField arg 0 4
    if 4 ≤ d then mbReply s 3 [] else mbReply (addLog (warmReset s d) 4 d noPart []) (2 ^ 31) [])

/-- SNAP by mailbox: 0 sent, 1 another trigger is in flight. -/
def execSnapMailbox (src : Nat) (arg : List Byte) (s : State) : Result :=
  .next (mailbox src true false (· == 4) arg s fun s => let r := sendSnap s (BitVec.ofNat 16 (recField arg 0 4)); mbReply r.1 0 (leBytes 4 r.2))

/-- SET_HOLIM (11 R331). -/
def execSetHolim (src : Nat) (arg : List Byte) (s : State) : Result :=
  .next (mailbox src true false (· == 4) arg s fun s => mbReply (s.modHub fun h => { h with holim := w32 arg 0 }) 0 [])

/-- Entries of the log from an index up to the newest, at most 127. -/
def logFrom (r : Referee) (i : Nat) : List (List Byte) :=
  let n := ((r.logNext + 4095 - i % 4096) % 4096) + 1
  (List.range (min n 127)).filterMap fun j => r.log[(i + j) % 4096]?

/-- READ_LOG. -/
def execReadLog (src : Nat) (arg : List Byte) (s : State) : Result :=
  .next (mailbox src false true (· == 4) arg s fun s =>
    mbReply s 0 (leBytes 4 ((s.referee.logNext + 4095) % 4096) ++ (logFrom s.referee (recField arg 0 4)).flatten))

/-- READ_SENSORS. -/
def execReadSensors (src : Nat) (arg : List Byte) (s : State) : Result :=
  .next (mailbox src false true (· == 0) arg s fun s => mbReply s 0 (leBytes 4 Config.sensorCount ++ (sensorEntries s).flatMap fun x => leBytes 8 x.toNat))

/-- The response to an SPDM 1.3 message; that to GET_MEASUREMENTS (request code 0xE0 in its second byte, log 25) carries both signatures, over the same bytes
(R401). -/
def spdmReply (s : State) (arg : List Byte) : List Byte :=
  let r := Config.spdmResponse arg s.time
  if recField arg 1 1 = 0xE0 then r ++ Config.ed25519Sign r ++ Config.mldsaSign r else r

/-- SPDM, by mailbox, or by PCIe DOE (src 2), which carries the same messages and does not pass through the mailbox's registers. -/
def execSpdm (src : Nat) (arg : List Byte) (s : State) : Result :=
  .next (if src = 2 then s.modReferee fun r => { r with doe := spdmReply s arg }
    else mailbox src false true (fun n => decide (1 ≤ n) && decide (n ≤ 4096)) arg s fun s => mbReply s 0 (spdmReply s arg))

/-! ## The upstream window (R393) -/

/-- A part of an access that lies in the upstream window. -/
def upstreamHit (hs : List Hit) : Bool := hs.any fun h => h.attr != 3 && regionOf h.pa == .upstream

/-- The trap of a thread's read or atomic that went upstream and gets no completion: PAGE_S2 with REASON 5, over the lanes that access that page. -/
def timeoutTrap (s : State) (o : LogOp) : Option TrapInfo :=
  match (s.placed o).find? fun p => upstreamHit p.2 with
  | none => none
  | some (a, _) =>
    let m := laneSet fun l => (s.placed o).any fun p => o.accLane p.1 l && upstreamHit p.2 && p.1.va / 4096 == a.va / 4096
    some { code := 0x0B, cause := pageCause 5 (if o.kind.writes then 1 else 0) 0 false, fmask := m, lane := lowestLane m, addr := BitVec.ofNat 64 a.va, opw := 0 }

/-- The first part of an engine's reads that goes upstream: the number that its read has, and its address. -/
def upstreamRead (s : State) (tid core : Nat) (l : List (Nat × Nat × Nat)) : Option (Nat × Nat) :=
  l.findSome? fun r => match (engPlace s tid core r.2.1 r.2.2 false).2 with
    | .ok ps => (ps.find? fun p => p.2.2.attr != 3 && regionOf p.2.2.pa == .upstream).map fun p => (r.1, p.1)
    | _ => none

/-- What the next piece of a running copy reads. -/
def copyReads (s : State) (c : Copy) : List (Nat × Nat × Nat) :=
  if c.kind = .grow then
    (match s.slabOf (s.group c.gid).tid (regAt c.regs 0) with
      | some e => let ps := kvPs e.fmt.toNat; [(0, e.obase.toNat + ps * e.wmark, ps), (0, e.ombase.toNat + 2048 * e.wmark, 2048)]
      | none => [])
  else let x := shapeOf c.kind c.regs; (x.sources c.progress (copyPiece x c.progress).2).map fun p => (0, p.1, p.2)

/-- What the next step of a running task reads of memory, with its operand (09 R267). -/
def taskReads (s : State) (tid core : Nat) (t : Task) : List (Nat × Nat × Nat) :=
  let rows (opnd w fmt pitch k n : Nat) (rs : List Nat) : List (Nat × Nat × Nat) :=
    if locKind w = 1 then rs.map fun r => (opnd, t.locAddr w + r * pitch + fmtRow fmt k, fmtRow fmt n) else []
  let page (p : Nat) : List (Nat × Nat × Nat) :=
    let a := taskPage s tid t p
    (if t.typ = 4 then [(5, a.1, kvPs t.slab.fmt.toNat)] else []) ++ [(5, a.2, 2048)]
  match t.typ with
  | 0 =>
    let k := 16 * t.step; let n := min 16 (t.k - k)
    rows 1 (t.f 0x20 8) (t.f 0x10 1) (t.f 0x1C 4) k n (List.range t.m) ++ rows 2 (t.f 0x28 8) (t.f 0x11 1) (t.f 0x38 4) k n (List.range t.n)
  | 1 => rows 4 (t.f 0x20 8) (t.f 0x10 1) (t.f 0x1C 4) 0 t.k (t.chunk 128)
  | 2 => []
  | 3 => if t.step < t.slab.pages then page t.step else []
  | _ => let us := unionList s t core t.slab; if t.step + 1 < kvSteps s t core then page (us.getD (t.step % us.length) 0) else []

/-- A read of an engine that went upstream gets no completion: the second-stage KIND of its class (11 R308), for a copy, a task, the fetch of its record, an eviction. -/
def engineTimeout (s : State) (core id : Nat) : State :=
  match s.findCopy core id with
  | some c =>
    if c.phase = .running ∧ c.fault = none then
      match upstreamRead s (s.group c.gid).tid core (copyReads s c) with
      | some (_, va) => s.modCopy core id fun y => { y with fault := some (.stage2, 0, pageOf va) }
      | none => s
    else s
  | none => match s.findTask core id with
    | some t =>
      let tid := (s.group t.gid).tid
      if t.phase = .running then (match upstreamRead s tid core (taskReads s tid core t) with | some (k, va) => (stopTask s tid core t .stage2 k va).getD s | none => s)
      else if (nextFetch s core).map (·.id) = some id then
        (match upstreamRead s tid core [(0, t.recAddr.toNat, 64)] with | some (_, va) => taskFault s core t .stage2 0 va (Config.unreadIdent s.time).toNat | none => s)
      else s
    | none => match s.findEvict (dieOf core) id with
      | some x =>
        let tid := (s.group x.gid).tid
        let a := kvPage x.old x.old (x.slot / 64)
        if x.phase = .running ∧ x.fault = none then
          match upstreamRead s tid (tid / 32) [(0, a.2, 2048), (0, a.1, kvPs x.old.fmt.toNat)] with
          | some (_, va) => s.modEvict (dieOf core) x fun y => { y with fault := some (.stage2, x.kept / 64, BitVec.ofNat 64 va) }
          | none => s
        else s
      | none => s

/-- COMPLETION_TIMEOUT (R393): a read or an atomic that went upstream gets no completion, or one with an error; id: the logged operation, or the engine operation. -/
def execCompletionTimeout (core id : Nat) (s : State) : Result :=
  .next (match s.findOp core id with
    | some o =>
      if o.walked && o.kind.counter != 1 && trapRoom s o then (match timeoutTrap s o with | some t => raiseLogged s o t | none => s) else s
    | none => engineTimeout s core id)

end Sys2Proof.Machine
end

