-- ==== Sys2Proof/Machine/Device.lean ====
section
/-! DEFINITION. Device-register space (14 R406), the mailbox registers (R407) and the register pages of the functions (R389): what an access reads and what it
writes; CONTROL_REG_WRITE. -/
namespace Sys2Proof.Machine

/-! ## Pages of 4-byte registers

Every register lies in one or two aligned 4-byte words; an 8-byte access is the two accesses of its words. -/

/-- What a read of a write-only register gives: no rule says. -/
def writeOnly (s : State) (off : Nat) : Word := Config.writeOnly off s.time

/-- A word of a register page of R389. -/
def launchWord (s : State) (page off : Nat) : Word :=
  let p := s.page page
  if off ≤ 0x080 then writeOnly s off
  else if off = 0x084 then BitVec.ofNat 32 (p.busyNow.toNat + p.rstDone.toNat * 2)
  else if off = 0x088 then loHalf p.rspBase else if off = 0x08C then hiHalf p.rspBase
  else if off = 0x090 then BitVec.ofNat 32 p.rspSz else if off = 0x094 then p.rspHead.setWidth 32 else if off = 0x098 then p.rspTail.setWidth 32
  else 0

/-- Write a word of a register page of R389. -/
def launchPut (s : State) (page off : Nat) (v : Word) : State :=
  if 140 ≤ page then s
  else if off < 0x080 then s.modPage page fun p => { p with pkt := setField p.pkt off 4 v.toNat }
  else if off = 0x080 then submitPacket s page (s.page page).pkt
  else if off = 0x088 ∨ off = 0x08C then s.modPage page fun p => { p with rspBase := putHalf p.rspBase (off == 0x08C) v, discard := false }
  else if off = 0x090 then s.modPage page fun p => { p with rspSz := ringSize v }
  else if off = 0x094 then s.modPage page fun p => { p with rspHead := v.setWidth 16 }
  else s

/-- A word of the control page of a partition. -/
def ctlWord (s : State) (part off : Nat) : Word :=
  let c := s.ctl part
  if off = 0x000 then loHalf c.fopa else if off = 0x004 then hiHalf c.fopa
  else if off = 0x008 ∨ off = 0x028 then writeOnly s off
  else if off = 0x00C then c.fops.setWidth 32
  else if off = 0x020 then loHalf c.ghandle else if off = 0x024 then hiHalf c.ghandle
  else if off = 0x02C then BitVec.ofNat 32 c.gst
  else if off = 0x040 then loHalf c.rring else if off = 0x044 then hiHalf c.rring
  else if off = 0x048 then BitVec.ofNat 32 c.rrSz else if off = 0x04C then c.rrHead.setWidth 32 else if off = 0x050 then c.rrTail.setWidth 32
  else if off = 0x058 then loHalf c.rrMsia else if off = 0x05C then hiHalf c.rrMsia else if off = 0x060 then c.rrMsid
  else if 0x080 ≤ off ∧ off < 0x0C0 then w32 (s.partRec part).bytes (off - 0x080)
  else 0

/-- A write to GCMD. -/
def writeGcmd (s : State) (part : Nat) (v : Word) : State :=
  match v.toNat with
  | 0 => gcmd s part fun t p h => resumeParked t p h false
  | 1 => gcmd s part fun t p h => resumeParked t p h true
  | 2 => gcmd s part fun t p h => killParked t p h
  | _ => s

/-- Write a word of the control page of a partition. -/
def ctlPut (s : State) (part off : Nat) (v : Word) : State :=
  let c := s.ctl part
  let half (x : DWord) : State := writeCtl s part (off / 8 * 8) (putHalf x (off % 8 == 4) v)
  if off = 0x000 ∨ off = 0x004 then half c.fopa
  else if off = 0x020 ∨ off = 0x024 then half c.ghandle
  else if off = 0x028 then writeGcmd s part v
  else if off = 0x040 ∨ off = 0x044 then half c.rring
  else if off = 0x058 ∨ off = 0x05C then half c.rrMsia
  else writeCtl s part off (v.setWidth 64)

/-- A word of the hub page. -/
def hubWord (s : State) (off : Nat) : Word :=
  if off = 0x000 then s.hub.holim else if off = 0x010 then writeOnly s off
  else if off = 0x014 then BitVec.ofNat 32 (s.hub.snapFlight.toNat * 2 ^ 31 + s.hub.snapNum.toNat)
  else 0

/-- Write a word of the hub page: the referee alone does. -/
def hubPut (s : State) (off : Nat) (v : Word) : State :=
  if off = 0x000 then s.modHub fun h => { h with holim := v }
  else if off = 0x010 then (sendSnap s (v.setWidth 16)).1
  else s

/-- A word of a snapshot block. -/
def snapWord (s : State) (block off : Nat) : Word :=
  match sfind s.hub.snaps block with
  | none => 0
  | some x =>
    if off = 0 then x.num.setWidth 32 else if off < 8 then 0
    else let c := x.counters.getD ((off - 8) / 8) 0; if off % 8 = 0 then loHalf c else hiHalf c

/-! ## The mailbox registers -/

/-- The argument of a command: the bytes of MBDATA that MBALEN counts; of a length that no command takes, only that it is too long matters. -/
def mbArg (s : State) : List Byte :=
  let n := s.referee.mbAlen.toNat
  bgets s.referee.mbData 0 (if n ≤ 4096 then n else 4097)

/-- A write to MBCMD starts a command (R408): an unknown code gives status 1. -/
def mbCommand (src code : Nat) (s : State) : Result :=
  let a := mbArg s
  match code with
  | 0x0001 => execGetBootStatus src a s
  | 0x0002 => execSetOwner src a s
  | 0x0010 => execImageBegin src a s
  | 0x0011 => execImageData src a s
  | 0x0012 => execImageEnd src a s
  | 0x0013 => execCommitSvn src a s
  | 0x0020 => execSetPartition src a s
  | 0x0021 => execGetPartition src a s
  | 0x0030 => execSetTenant src a s
  | 0x0031 => execGetTenant src a s
  | 0x0040 => execTearDown src a s
  | 0x0041 => execDieReset src a s
  | 0x0050 => execSnapMailbox src a s
  | 0x0051 => execSetHolim src a s
  | 0x0060 => execReadLog src a s
  | 0x0061 => execReadSensors src a s
  | 0x0070 => execSpdm src a s
  | _ => .next (if 2 ^ 31 ≤ s.referee.mbStatus then s else mbReply s 1 [])

/-- A word of the mailbox registers. -/
def mbWord (s : State) (off : Nat) : Word :=
  let r := s.referee
  if off = 0x0000 then writeOnly s off else if off = 0x0004 then r.mbAlen else if off = 0x0008 then BitVec.ofNat 32 r.mbStatus
  else if off = 0x000C then BitVec.ofNat 32 r.mbResult.length else if off = 0x0010 then r.bootStatus else if off = 0x0014 then BitVec.ofNat 32 r.owner
  else if 0x1000 ≤ off ∧ off < 0x2000 then w32 (bgets r.mbData (off - 0x1000) 4) 0
  else 0

/-- Write a word of the mailbox registers, from a source (0 the PCIe host, 1 the CPU die). -/
def mbPut (src off : Nat) (v : Word) (s : State) : Result :=
  if off = 0x0000 then mbCommand src (v.toNat % 2 ^ 16) s
  else .next (if off = 0x0004 then s.modReferee fun r => { r with mbAlen := v }
    else if 0x1000 ≤ off ∧ off < 0x2000 then s.modReferee fun r => { r with mbData := bputs r.mbData (off - 0x1000) (leBytes 4 v.toNat) }
    else s)

/-! ## Accesses -/

/-- A block of registers: a register page of R389 (a virtual function's, or the CPU die's, 128 and up), a partition's control page, the hub page, the mailbox, a snapshot
block. -/
inductive RegBlock where
  | launch (page : Nat)
  | ctl (part : Nat)
  | hub
  | mailbox
  | snap (block : Nat)
deriving DecidableEq, Repr

/-- The block at an address of device-register space, and the offset in it. -/
def regBlock (a : Nat) : Option (RegBlock × Nat) :=
  let snap (base first n : Nat) : Option (RegBlock × Nat) := if base ≤ a ∧ a < base + 0x400 * n then some (.snap (first + (a - base) / 0x400), (a - base) % 0x400) else none
  if a < 0x0C000 then some (.launch (128 + a / 0x1000), a % 0x1000)
  else if 0x10000 ≤ a ∧ a < 0x1C000 then some (.ctl ((a - 0x10000) / 0x1000), a % 0x1000)
  else if 0x20000 ≤ a ∧ a < 0x21000 then some (.hub, a % 0x1000)
  else if 0x30000 ≤ a ∧ a < 0x32000 then some (.mailbox, a - 0x30000)
  else (snap 0x1000000 0 160 <|> snap 0x1100000 160 4 <|> snap 0x1110000 164 6 <|> snap 0x1120000 170 1 <|> snap 0x1130000 171 64 <|> snap 0x1140000 235 1)

/-- A word of a block. -/
def RegBlock.word (s : State) : RegBlock → Nat → Word
  | .launch p, off => launchWord s p off
  | .ctl p, off => ctlWord s p off
  | .hub, off => hubWord s off
  | .mailbox, off => mbWord s off
  | .snap b, off => snapWord s b off

/-- Write a word of a block; src: 0 the PCIe host, 1 a hart of the CPU die, 2 the referee. A snapshot block is read-only. -/
def RegBlock.put (src : Nat) (v : Word) (s : State) : RegBlock → Nat → Result
  | .launch p, off => .next (launchPut s p off v)
  | .ctl p, off => .next (ctlPut s p off v)
  | .hub, off => .next (if src = 2 then hubPut s off v else s)
  | .mailbox, off => mbPut src off v s
  | .snap _, _ => .next s

/-- A naturally aligned access of 4 or 8 bytes; any other reads 0 and is ignored. -/
def regAligned (n off : Nat) : Bool := (n == 4 || n == 8) && off % n == 0

/-- What an access of n bytes at an offset of a block reads. -/
def RegBlock.read (s : State) (b : RegBlock) (n off : Nat) : DWord :=
  if !regAligned n off then 0
  else pairOf (b.word s off) (if n = 8 then b.word s (off + 4) else 0)

/-- An access of n bytes writes at an offset of a block. -/
def RegBlock.write (src n : Nat) (v : DWord) (s : State) (b : RegBlock) (off : Nat) : Result :=
  if !regAligned n off then .next s
  else match b.put src (loHalf v) s off with
    | .next t => if n = 8 then b.put src (hiHalf v) t (off + 4) else .next t
    | r => r

/-- What an access of n bytes at an address of device-register space reads. -/
def deviceRead (s : State) (n a : Nat) : DWord :=
  match regBlock a with
  | some (b, off) => b.read s n off
  | none => 0

/-- An access of n bytes writes at an address of device-register space. -/
def deviceWrite (src n a : Nat) (v : DWord) (s : State) : Result :=
  match regBlock a with
  | some (b, off) => b.write src n v s off
  | none => .next s

/-- CONTROL_REG_WRITE: a write to a register that has no row of its own: space 0 the control registers (12 R351) of a group, 1 the control page of a
partition, 2 a launch page; and what the referee and the CPU die do through registers of their own, which the spec gives no addresses (log 67): 3 the referee serves an entry of its fault queue,
4 the CPU die answers the reset notice of a function. A write by address: 5 and 6 of device-register space, 4 and 8 bytes, by source unit; 7 and 8 of the BAR of physical
function 0 (R407), by the host; 9 and 10 of the BAR of virtual function unit (R389). -/
def execControlRegWrite (space unit off : Nat) (v : DWord) (s : State) : Result :=
  match space with
  | 0 => .next (writePlain s unit off (v.setWidth 32))
  | 1 => .next (if unit < 12 then writeCtl s unit off v else s)
  | 2 => .next (if off = 0x090 ∧ unit < 140 then s.modPage unit fun p => { p with rspSz := ringSize (v.setWidth 32) } else s)
  | 3 => .next (refereeServe s unit off)
  | 4 => .next (resetDone s unit)
  | 5 => deviceWrite unit 4 off v s
  | 6 => deviceWrite unit 8 off v s
  | 7 => RegBlock.mailbox.write 0 4 v s off
  | 8 => RegBlock.mailbox.write 0 8 v s off
  | 9 => if unit < 128 then (RegBlock.launch unit).write 0 4 v s off else .next s
  | _ => if unit < 128 then (RegBlock.launch unit).write 0 8 v s off else .next s

end Sys2Proof.Machine
end

