-- ==== Sys2Proof/Machine/Events.lean ====
section
/-! DEFINITION. What may happen next: the gangs that may issue and the internal events that are due, the events that only the outside world makes,
and a gang's turn: its fetch, and what comes of a fetch that gives no instruction. -/
namespace Sys2Proof.Machine

/-- What may happen: the meaning that it runs. -/
abbrev Act := State → Result

/-- A meaning when a condition holds. -/
def dueIf (b : Bool) (i : Act) : List Act := if b then [i] else []

/-- Events of a group. -/
def groupEvents (s : State) (gid : Nat) (g : Group) : List Act :=
  dueIf (mergeReady s gid) (execRegangMerge gid) ++ dueIf (deliverReady s gid) (execTrapDelivery gid) ++ dueIf (retireReady s gid) (execGroupRetire gid) ++
  g.gangNumbers.flatMap fun n =>
    let x := g.slice (lowestSlice (g.gangSlices n))
    dueIf (yieldReady s gid n) (execYieldRelease gid n) ++ dueIf (x.spin != .no && !x.promoted) (execSpinAgePromote gid n) ++
    dueIf (waitcReady s gid n) (execWaitcPass gid n) ++ dueIf (waitbReady s gid n) (execWaitbPass gid n) ++ dueIf (barwReady s gid n) (execBarwPass gid n)

/-- Events of a logged operation. -/
def opEvents (s : State) (core : Nat) (o : LogOp) : List Act :=
  dueIf (walkEnds s o) (execTranslationWalk core o.id) ++
  dueIf (opReady s o) (match o.kind.counter with | 0 => execLoadDataReturn core o.id | 1 => execStorePerformed core o.id | _ => execAtomicReply core o.id) ++
  dueIf (fifoReady s o true).isSome (execFifoPushComplete core o.id) ++ dueIf (fifoReady s o false).isSome (execFifoPopComplete core o.id)

/-- Events of a copy and of a task. -/
def copyEvents (s : State) (core : Nat) (c : Copy) : List Act :=
  dueIf (transferReady s core c) (execCopyTransfer core c.id) ++ dueIf (c.fault.isSome && c.phase == .running) (execCopyFault core c.id) ++
  dueIf (copyDone s core c) (execCopyComplete core c.id) ++ dueIf (relayReady s core c) (execRelayEnqueue core c.id) ++ dueIf (growReady s core c) (execGrowPageMove core c.id)
def taskEvents (s : State) (core : Nat) (t : Task) : List Act :=
  dueIf (fetchReady s core t) (execTaskFetch core t.id) ++ dueIf (startReady s core t) (execTaskStart core t.id) ++ dueIf (stepReady s core t) (execTaskStep core t.id) ++
  dueIf (taskDone s core t) (execTaskComplete core t.id)

/-- Events of a team slot. -/
def slotEvents (s : State) (core slot : Nat) : List Act :=
  let tid := core * 32 + slot
  let st := s.bindField tid 0 1
  let home := s.isHomeSlot core slot
  dueIf (drainReady s core slot) (execTeamRelease core slot) ++ dueIf (home && st == 3 && (s.findSaved tid).isNone) (execSpill core slot) ++
  dueIf (home && st == 3 && (s.findSaved tid).isSome) (execSpillComplete core slot) ++
  dueIf ((home && (((st == 2 || st == 3) && (s.team tid).filling) || (st == 2 && (relogNext s tid).isSome))) || (s.die (dieOf core)).committing == some tid) (execRestoreFill core slot)

/-- Events of a core. -/
def coreEvents (s : State) (core : Nat) (k : Core) : List Act :=
  (k.postBuf.flatMap fun p => dueIf (takeReady s core p.2 && postTurn s core p.1 p.2) (execPostTaken core p.1)) ++ k.log.flatMap (opEvents s core) ++ dueIf (bankReady s core) (execBankModeChange core) ++
  dueIf (!k.inbox.isEmpty) (execInboxDelivery core) ++ dueIf (!k.refusedHomes.isEmpty && decide (k.inbox.length ≤ 48)) (execInboxSignal core) ++
  k.copies.flatMap (copyEvents s core) ++ k.tasks.flatMap (taskEvents s core) ++ dueIf (!k.zeroQueue.isEmpty) (execSlotZero core) ++
  dueIf (heldReady s core).isSome (execHeldTrapEnter core) ++ dueIf (!k.retry.isEmpty && decide (k.held.length < 64)) (execHeldTrapRetry core) ++
  k.binds.flatMap fun e => slotEvents s core e.1

/-- Events of a die. -/
def dieEvents (s : State) (die : Nat) (d : Die) : List Act :=
  dueIf (lockStartReady s die 0) (execRangeLockStart die 0) ++ dueIf (evictStep s die).isSome (execEvictRun die) ++ dueIf (switchReady s die).isSome (execEvictSwitch die) ++
  (d.evicts.flatMap fun x => dueIf (evictDone s x) (execEvictComplete die x.id)) ++
  dueIf (match s.evicting die with | some x => x.fault.isSome | none => false) (execEvictFault die) ++
  dueIf (match d.preempting with | some (c, _, i) => s.bindField (c * 32 + i) 0 1 == 1 | none => false) (execSwap die)

/-- An event for every place of a list. -/
def eachOf {α : Type} (l : List α) (f : Nat → α → List Act) : List Act := (l.mapIdx f).flatten

/-- What a message about a subscription leads to. -/
def msgEvent (s : State) (n : Nat) : SubMsg → List Act
  | .remove _ _ _ => dueIf (removeReady s n) (execSubRemove n)
  | .removed _ _ _ => dueIf (unsubReady s n) (execUnsubComplete n)
  | .park _ _ => [execSubPark n]
  | .repoint _ _ _ _ => [execSubRepoint n]

/-- Events of the homes and of the hub. -/
def hubEvents (s : State) : List Act :=
  let h := s.hub
  dueIf (dropDue s).isSome execReaderDrop ++ (eachOf h.shoots fun n q => dueIf (shootReady s q) (execShootServe n)) ++ (h.signals.flatMap fun e => dueIf (redeliveryReady s e.1 e.2) (execRedelivery e.1 e.2)) ++ (eachOf h.adds fun n _ => dueIf (addReady s n) (execOrderedAddApply n)) ++
  (eachOf h.pushNet fun n p => dueIf (s.firstPush n).isSome (if p.redelivery then execRedeliveryAccept n else execPushArrival n)) ++
  (eachOf h.refusals fun n _ => [execRefusedPushReturn n]) ++ dueIf (outsideDue s) execOutside ++ eachOf h.subMsgs (msgEvent s) ++ (eachOf h.arrivals fun n _ => [execBarrierArrival n]) ++
  (h.moves.flatMap fun m => match m.slot with | some i => [execMigrateLine i] | none => []) ++ (eachOf h.retries fun n _ => dueIf (retryReady s n) (execStalledWriteRetry n)) ++
  ((List.range h.claims.length).flatMap fun i => dueIf (grantDue s i) (execClaimGrant i)) ++
  (h.frames.flatMap fun e => dueIf (releaseReady s e.1) (execHandoverRelease e.1)) ++
  dueIf (s.launchOpen && (match nextPacket s with | some e => (servePacket s e).isSome | none => false)) execLaunchPacket ++
  dueIf (match h.launchReqs with | q :: _ => (serveLaunch s q).isSome | [] => false) execLaunchRequest ++ (eachOf h.launchReplies fun n _ => [execLaunchReply n]) ++
  (h.pages.flatMap fun e => dueIf (responseReady s e.1) (execResponseWrite e.1)) ++
  (h.grids.flatMap fun x => dueIf (dealReady s x) (execGridDeal x.id) ++ dueIf (completeReady s x) (execGridComplete x.id)) ++
  (if h.snapFlight then h.snapWait.map execSnapshotLatch ++ dueIf h.snapWait.isEmpty execSnapshotComplete else [])

/-- Events of the referee. -/
def refereeEvents (s : State) : List Act :=
  let r := s.referee
  (if !r.postings.isEmpty && decide (r.faultQ.length < 1024) then [execFaultQueuePost, execFaultQueueRetry] else []) ++
  dueIf (changeDue s) execChange ++ dueIf (r.faultQ.any (forwardable s)) execRefereeForward ++ eachOf r.faultQ fun n p => dueIf (forwardable s p) (execRefereeRingRetry n)

/-- The internal events that are due. -/
def internalEvents (s : State) : List Act :=
  (s.groups.flatMap fun e => groupEvents s e.1 e.2) ++ (s.cores.flatMap fun e => coreEvents s e.1 e.2) ++ (s.dies.flatMap fun e => dieEvents s e.1 e.2) ++
  hubEvents s ++ refereeEvents s

/-- The events that only the outside world makes: the pacers' firmware, the referee's and the mailbox's, the host, the CPU die, other packages, the fabric,
sensors, resets, and limits of time. -/
def isExternal : Instr → Bool
  | .homeStoreApply _ _ => true | .subLoss _ _ _ => true | .leaseRenew _ _ => true | .leaseRelease _ _ _ => true | .leaseExpiry _ _ _ => true
  | .shootdown _ _ _ _ => true | .claimRequest _ _ _ => true | .holimExpiry _ => true | .claimTimeout _ => true | .claimGrant _ => true | .claimRefusal _ _ => true
  | .shareInc _ _ => true | .shareDec _ _ => true | .pinInc _ _ => true | .pinDec _ _ => true | .pinClr _ _ => true | .accClr _ _ => true | .assign _ _ _ => true
  | .free _ _ => true | .leaseClr _ _ _ => true | .tfcurWrite _ _ => true | .controlRegWrite _ _ _ _ => true | .pqpop _ => true | .commit _ _ => true
  | .preempt _ _ => true | .pacerRecordWrite _ _ _ => true | .submit _ _ => true | .fabricFrameRx _ _ _ => true | .functionLevelReset _ => true | .hotReset => true
  | .dieReadmit _ => true | .coldStart => true | .bootStage _ => true | .bootStageTimeout => true | .getBootStatus _ _ => true | .setOwner _ _ => true
  | .imageBegin _ _ => true | .imageData _ _ => true | .imageEnd _ _ => true | .commitSvn _ _ => true | .setPartition _ _ => true | .getPartition _ _ => true
  | .setTenant _ _ => true | .getTenant _ _ => true | .tearDown _ _ => true | .dieReset _ _ => true | .snapMailbox _ _ => true | .setHolim _ _ => true
  | .readLog _ _ => true | .readSensors _ _ => true | .spdm _ _ => true | .snaptrig _ => true | .gcmdGres _ => true | .gcmdGresSkip _ => true | .gcmdGkill _ => true
  | .rspheadWrite _ _ => true | .rspbaseWrite _ _ => true | .lineRequest _ _ _ => true | .completionTimeout _ _ => true | .sensorBeyondLimit _ => true
  | _ => false

/-! ## A gang's turn -/

/-- A fetch that faults (11 R308): the trap names the running lanes of the gang and the PC; no word has been read. -/
def fetchTrap (s : State) (c : Ctx) (code cause : Nat) (addr : DWord) : State :=
  let s1 := countIssue s c
  let g := s1.group c.gid
  let pc := (g.slice (lowestSlice c.gang)).pc
  let m := runSet g c
  raiseEntry s1 c
    { record := { cause := BitVec.ofNat 16 cause, nested := false, logged := false, async := false, code := BitVec.ofNat 8 code, qleft := 0,
                  lane := BitVec.ofNat 8 (lowestLane m), addr := addr, pc := pc, opword := 0 },
      fmask := m, gang := c.gang, key := g.issueNo, log := none, atIssue := false, resume := pc, engine := .none }

/-- A word that no row of the opcode table admits: its decode check gives its trap (01 R35). -/
def undecoded (w : Word) (s : State) : Result := issue w s fun _ _ _ => .fault .undecodable

/-- What a gang's fetch gives it to run: the state with the word read, and its meaning still to be applied. -/
inductive Turn where
  | run (i : Instr) (s : State)
  | done (r : Result)

/-- Fetch and decode at the PC of a gang (01 R15). -/
def gangTurn (s : State) (u : Cur) : Turn :=
  let g := s.group u.gid
  match fetch s u.gid (g.slice (lowestSlice u.gang)).pc with
  | (s1, .word w) =>
    let s2 := { s1 with cur := some u }
    (match decodeBytes (wordBytes w.toNat) with
      | some i => .run i s2
      | none => .done (undecoded w s2))
  | (s1, .trap code cause addr) => .done (.next (fetchTrap s1 { gid := u.gid, gang := u.gang, solo := g.soloLane } code cause addr))
  | (_, .wait) => .done (.next s)

end Sys2Proof.Machine
end

