-- ==== Sys2Proof/Machine/Lane.lean ====
section
/-! DEFINITION. The lane instructions 0x50 to 0x56 (03 R93 to R97). -/
namespace Sys2Proof.Machine

/-- The lane that lane l reads when it asks for lane j: itself where j does not participate (R93). -/
def sourceLane (g : Group) (c : Ctx) (l j : Nat) : Nat := if j < 256 ∧ runs g c j then j else l

/-- A copy of a from a chosen lane (R94). -/
def laneCopy (w : Word) (d a : Nat) (pick : Group → Nat → Nat) (s : State) : Result :=
  issueRegs w s fun c g _ => vwrite g c d (isActive g c) (laneWide g) fun l => readN g a (laneWide g l) (sourceLane g c l (pick g l))

def execShfl (d a b : BitVec 8) (s : State) : Result := laneCopy (encode (.shfl d a b)) d.toNat a.toNat (fun g l => (readV g b.toNat l).toNat) s
def execShflx (d a imm : BitVec 8) (s : State) : Result := laneCopy (encode (.shflx d a imm)) d.toNat a.toNat (fun _ l => l ^^^ imm.toNat) s
def execBcast (d a imm : BitVec 8) (s : State) : Result := laneCopy (encode (.bcast d a imm)) d.toNat a.toNat (fun _ _ => imm.toNat) s

/-- The 256-bit ballot (R95). -/
def ballot (g : Group) (c : Ctx) (p : Nat) : LaneMask := laneSet fun l => isActive g c l && readP g p l

def execVoteAny (d a : BitVec 8) (s : State) : Result :=
  issueRegs (encode (.voteAny d a)) s fun c g _ =>
    let r := ballot g c (a.toNat % 16) != 0
    pput g (d.toNat % 16) fun l => if isActive g c l then some r else none
def execVoteAll (d a : BitVec 8) (s : State) : Result :=
  issueRegs (encode (.voteAll d a)) s fun c g _ =>
    let r := ballot g c (a.toNat % 16) == activeSet g c
    pput g (d.toNat % 16) fun l => if isActive g c l then some r else none
def execVoteBal (d a : BitVec 8) (s : State) : Result :=
  issueRegs (encode (.voteBal d a)) s fun c g _ =>
    let r := ballot g c (a.toNat % 16)
    vput g d.toNat fun l => if isActive g c l then some ((r >>> (32 * (l % 8))).setWidth 32) else none

/-- The combination of a list of operand values under a type (R96): the identity for none. -/
def combine (op : Nat) (m : Word) (xs : List Nat) : Nat :=
  let et := mEtype m; let w := etWidth et; let sg := etSigned et
  let pat (v : Int) : Nat := (v % (2 ^ w : Int)).toNat
  match op with
  | 0 => fit (xs.foldl (fun t x => t + val x w sg) 0) w sg (mSat m)
  | 1 => pat (xs.foldl (fun t x => min t (val x w sg)) (hiEnd w sg))
  | 2 => pat (xs.foldl (fun t x => max t (val x w sg)) (loEnd w sg))
  | 3 => xs.foldl (fun t x => t &&& x) (ones w)
  | 4 => xs.foldl (fun t x => t ||| x) 0
  | _ => xs.foldl (fun t x => t ^^^ x) 0

/-- Each active lane receives the combination of a over the active lanes that it selects, in ascending order. -/
def laneFold (w : Word) (d a op : Nat) (sel : Nat → Nat → Bool) (s : State) : Result :=
  issueRegs w s fun c g _ =>
    let act := lanesOf (activeSet g c)
    vwrite g c d (isActive g c) (laneWide g) fun l =>
      combine op (laneMode g l) ((act.filter fun k => sel k l).map fun k => readN g a (laneWide g l) k)

def execRedu (d a : BitVec 8) (o : BitVec 3) (s : State) : Result := laneFold (encode (.redu d a o)) d.toNat a.toNat o.toNat (fun _ _ => true) s
def execScan (d a : BitVec 8) (e : BitVec 1) (o : BitVec 3) (s : State) : Result :=
  laneFold (encode (.scan d a e o)) d.toNat a.toNat o.toNat (fun k l => if e = 1 then decide (k < l) else decide (k ≤ l)) s

/-- MATCH: the lowest active lane whose a equals this lane's (R97). -/
def execLaneMatch (d a : BitVec 8) (s : State) : Result :=
  issueRegs (encode (.laneMatch d a)) s fun c g _ =>
    let act := lanesOf (activeSet g c)
    vput g d.toNat fun l =>
      if isActive g c l then
        some (BitVec.ofNat 32 ((act.find? fun k => readN g a.toNat (laneWide g l) k == readN g a.toNat (laneWide g l) l).getD l))
      else none

end Sys2Proof.Machine
end

