-- ==== Sys2Proof/Machine/Uniform.lean ====
section
/-! DEFINITION. The uniform instructions 0x60 to 0x72 (03 R99 to R103). -/
namespace Sys2Proof.Machine

/-- A U-field operand at the class's width. -/
def readUN (s : State) (g : Group) (c : Ctx) (code : Nat) : Nat :=
  if uWide g then (readU64 s g c code).toNat else (readU s g c code).toNat
/-- Write a uniform destination at the class's width. -/
def writeUN (g : Group) (d x : Nat) : Group :=
  if uWide g then uput64 g d (BitVec.ofNat 64 x) else uput g d (BitVec.ofNat 32 x)
/-- Width of the uniform class (R99). -/
def uBits (g : Group) : Nat := if uWide g then 64 else 32

/-- An instruction whose whole effect is a uniform register: the value from the width and signedness of the class. -/
def uniOp (w : Word) (d : Nat) (f : State → Group → Ctx → Nat) (s : State) : Result :=
  issueUniform w d s fun c g s1 => .next (retire s1 c (writeUN g d (f s1 g c)))

/-- Two-source uniform arithmetic: the low bits of the exact result (R100). d is read too. -/
def uniArith (w : Word) (d a b : Nat) (f : Int → Int → Int → Int) (s : State) : Result :=
  uniOp w d (fun s g c =>
    let v (x : Nat) : Int := val x (uBits g) (uSigned g)
    (f (v (readUN s g c a)) (v (readUN s g c b)) (v (readUN s g c d)) % (2 ^ uBits g : Int)).toNat) s

/-- Two-source uniform work on bits. -/
def uniBits (w : Word) (d a b : Nat) (f : Nat → Nat → Nat) (s : State) : Result :=
  uniOp w d (fun s g c => f (readUN s g c a) (readUN s g c b)) s

/-- A uniform shift: its amount is a 32-bit operand. -/
def uniShift (w : Word) (d a b : Nat) (f : Nat → Nat → Nat → Nat) (s : State) : Result :=
  uniOp w d (fun s g c => f (uBits g) (readUN s g c a) (readU s g c b).toNat) s

def execUadd (d a b : BitVec 8) (s : State) : Result := uniArith (encode (.uadd d a b)) d.toNat a.toNat b.toNat (fun x y _ => x + y) s
def execUsub (d a b : BitVec 8) (s : State) : Result := uniArith (encode (.usub d a b)) d.toNat a.toNat b.toNat (fun x y _ => x - y) s
def execUmul (d a b : BitVec 8) (s : State) : Result := uniArith (encode (.umul d a b)) d.toNat a.toNat b.toNat (fun x y _ => x * y) s
def execUmad (d a b : BitVec 8) (s : State) : Result := uniArith (encode (.umad d a b)) d.toNat a.toNat b.toNat (fun x y z => x * y + z) s
def execUmin (d a b : BitVec 8) (s : State) : Result := uniArith (encode (.umin d a b)) d.toNat a.toNat b.toNat (fun x y _ => min x y) s
def execUmax (d a b : BitVec 8) (s : State) : Result := uniArith (encode (.umax d a b)) d.toNat a.toNat b.toNat (fun x y _ => max x y) s
def execUand (d a b : BitVec 8) (s : State) : Result := uniBits (encode (.uand d a b)) d.toNat a.toNat b.toNat (fun x y => x &&& y) s
def execUor (d a b : BitVec 8) (s : State) : Result := uniBits (encode (.uor d a b)) d.toNat a.toNat b.toNat (fun x y => x ||| y) s
def execUxor (d a b : BitVec 8) (s : State) : Result := uniBits (encode (.uxor d a b)) d.toNat a.toNat b.toNat (fun x y => x ^^^ y) s
def execUshl (d a b : BitVec 8) (s : State) : Result := uniShift (encode (.ushl d a b)) d.toNat a.toNat b.toNat Sys2Proof.Machine.shl s
def execUshr (d a b : BitVec 8) (s : State) : Result := uniShift (encode (.ushr d a b)) d.toNat a.toNat b.toNat Sys2Proof.Machine.shr s
def execUsar (d a b : BitVec 8) (s : State) : Result := uniShift (encode (.usar d a b)) d.toNat a.toNat b.toNat Sys2Proof.Machine.sar s
/-- x plus the sign-extended immediate (R100). -/
def execUaddi (d a imm : BitVec 8) (s : State) : Result :=
  uniArith (encode (.uaddi d a imm)) d.toNat a.toNat a.toNat (fun x _ _ => x + imm.toInt) s
def execUmov (d a : BitVec 8) (s : State) : Result := uniBits (encode (.umov d a)) d.toNat a.toNat a.toNat (fun x _ => x) s
/-- USEL selects by q0 (R101). -/
def execUsel (d a b : BitVec 8) (s : State) : Result :=
  uniOp (encode (.usel d a b)) d.toNat (fun s g c => readUN s g c (if readQ g 0 then a.toNat else b.toNat)) s

/-- UCMP writes a uniform predicate (R101). CAUSE of its UNIFORM_SPLIT is the P-field, d[3:0], without the condition beside it; so for every destination that
shares its field, and of two destinations (SCLAIM, SLABLD) it names the U-field d (DESIGN CHOICE: R78 says "the destination field's code"; log 63). -/
def execUcmp (cond p : BitVec 4) (a b : BitVec 8) (s : State) : Result :=
  issueUniform (encode (.ucmp cond p a b)) p.toNat s fun c g s1 =>
    let v (x : Nat) : Int := val x (uBits g) (uSigned g)
    .next (retire s1 c (qput g p.toNat (intCond cond.toNat (v (readUN s1 g c a.toNat)) (v (readUN s1 g c b.toNat)))))

/-- UMOVI and UMOVHI write one 32-bit register and do not read the mode word (R102). -/
def execUmovi (d : BitVec 8) (imm : BitVec 16) (s : State) : Result :=
  issueUniform (encode (.umovi d imm)) d.toNat s fun c g s1 => .next (retire s1 c (uput g d.toNat (imm.signExtend 32)))
def execUmovhi (d : BitVec 8) (imm : BitVec 16) (s : State) : Result :=
  issueUniform (encode (.umovhi d imm)) d.toNat s fun c g s1 =>
    .next (retire s1 c (uput g d.toNat (imm ++ (uget g d.toNat).setWidth 16)))

/-- GETSR: a per-slice special register gives each lane its own value (R103). -/
def execGetsr (d a : BitVec 8) (s : State) : Result :=
  issueRegs (encode (.getsr d a)) s fun c g s1 =>
    vput g d.toNat fun l =>
      if isActive g c l then
        some (match a.toNat with
          | 0xC0 => BitVec.ofNat 32 l
          | 0xC1 => BitVec.ofNat 32 (l / 4)
          | 0xD0 => laneMode g l
          | n => readU s1 g c n)
      else none

end Sys2Proof.Machine
end

