-- ==== Sys2Proof/Machine/Dispatch.lean ====
section
/-! DEFINITION. exec: one arm per constructor, each one direct call of the instruction's own meaning. -/
namespace Sys2Proof.Machine

def exec (i : Instr) (s : State) : Host.Outcome State Fault Refusal :=
  match i with
  | .add d a b => Sys2Proof.Machine.execAdd d a b s
  | .sub d a b => Sys2Proof.Machine.execSub d a b s
  | .mul d a b => Sys2Proof.Machine.execMul d a b s
  | .mulh d a b => Sys2Proof.Machine.execMulh d a b s
  | .mad d a b => Sys2Proof.Machine.execMad d a b s
  | .min d a b => Sys2Proof.Machine.execMin d a b s
  | .max d a b => Sys2Proof.Machine.execMax d a b s
  | .abs d a => Sys2Proof.Machine.execAbs d a s
  | .neg d a => Sys2Proof.Machine.execNeg d a s
  | .and d a b => Sys2Proof.Machine.execAnd d a b s
  | .or d a b => Sys2Proof.Machine.execOr d a b s
  | .xor d a b => Sys2Proof.Machine.execXor d a b s
  | .andn d a b => Sys2Proof.Machine.execAndn d a b s
  | .not d a => Sys2Proof.Machine.execNot d a s
  | .shl d a b => Sys2Proof.Machine.execShl d a b s
  | .shr d a b => Sys2Proof.Machine.execShr d a b s
  | .sar d a b => Sys2Proof.Machine.execSar d a b s
  | .rol d a b => Sys2Proof.Machine.execRol d a b s
  | .popc d a => Sys2Proof.Machine.execPopc d a s
  | .clz d a => Sys2Proof.Machine.execClz d a s
  | .brev d a => Sys2Proof.Machine.execBrev d a s
  | .bfe d a b => Sys2Proof.Machine.execBfe d a b s
  | .bfi d a b => Sys2Proof.Machine.execBfi d a b s
  | .sel d a b => Sys2Proof.Machine.execSel d a b s
  | .cmp c p a b => Sys2Proof.Machine.execCmp c p a b s
  | .mov d a => Sys2Proof.Machine.execMov d a s
  | .plog c p q r => Sys2Proof.Machine.execPlog c p q r s
  | .addi d a imm => Sys2Proof.Machine.execAddi d a imm s
  | .movi d imm => Sys2Proof.Machine.execMovi d imm s
  | .movhi d imm => Sys2Proof.Machine.execMovhi d imm s
  | .shli d a imm => Sys2Proof.Machine.execShli d a imm s
  | .shri d a imm => Sys2Proof.Machine.execShri d a imm s
  | .sari d a imm => Sys2Proof.Machine.execSari d a imm s
  | .andi d a imm => Sys2Proof.Machine.execAndi d a imm s
  | .ori d a imm => Sys2Proof.Machine.execOri d a imm s
  | .fadd d a b => Sys2Proof.Machine.execFadd d a b s
  | .fsub d a b => Sys2Proof.Machine.execFsub d a b s
  | .fmul d a b => Sys2Proof.Machine.execFmul d a b s
  | .ffma d a b => Sys2Proof.Machine.execFfma d a b s
  | .fmin d a b => Sys2Proof.Machine.execFmin d a b s
  | .fmax d a b => Sys2Proof.Machine.execFmax d a b s
  | .fabs d a => Sys2Proof.Machine.execFabs d a s
  | .fneg d a => Sys2Proof.Machine.execFneg d a s
  | .fcmp c p a b => Sys2Proof.Machine.execFcmp c p a b s
  | .fclass d a => Sys2Proof.Machine.execFclass d a s
  | .frcp d a => Sys2Proof.Machine.execFrcp d a s
  | .frsq d a => Sys2Proof.Machine.execFrsq d a s
  | .fsqrt d a => Sys2Proof.Machine.execFsqrt d a s
  | .fexp2 d a => Sys2Proof.Machine.execFexp2 d a s
  | .flog2 d a => Sys2Proof.Machine.execFlog2 d a s
  | .fsin d a => Sys2Proof.Machine.execFsin d a s
  | .fcos d a => Sys2Proof.Machine.execFcos d a s
  | .ftanh d a => Sys2Proof.Machine.execFtanh d a s
  | .fdot2 d a b => Sys2Proof.Machine.execFdot2 d a b s
  | .fscale d a b => Sys2Proof.Machine.execFscale d a b s
  | .cvt d a p t => Sys2Proof.Machine.execCvt d a p t s
  | .cvtr d a m p t => Sys2Proof.Machine.execCvtr d a m p t s
  | .rndint d a => Sys2Proof.Machine.execRndint d a s
  | .shfl d a b => Sys2Proof.Machine.execShfl d a b s
  | .shflx d a imm => Sys2Proof.Machine.execShflx d a imm s
  | .voteAny d a => Sys2Proof.Machine.execVoteAny d a s
  | .voteAll d a => Sys2Proof.Machine.execVoteAll d a s
  | .voteBal d a => Sys2Proof.Machine.execVoteBal d a s
  | .redu d a o => Sys2Proof.Machine.execRedu d a o s
  | .scan d a e o => Sys2Proof.Machine.execScan d a e o s
  | .laneMatch d a => Sys2Proof.Machine.execLaneMatch d a s
  | .bcast d a imm => Sys2Proof.Machine.execBcast d a imm s
  | .uadd d a b => Sys2Proof.Machine.execUadd d a b s
  | .usub d a b => Sys2Proof.Machine.execUsub d a b s
  | .umul d a b => Sys2Proof.Machine.execUmul d a b s
  | .umad d a b => Sys2Proof.Machine.execUmad d a b s
  | .uand d a b => Sys2Proof.Machine.execUand d a b s
  | .uor d a b => Sys2Proof.Machine.execUor d a b s
  | .uxor d a b => Sys2Proof.Machine.execUxor d a b s
  | .ushl d a b => Sys2Proof.Machine.execUshl d a b s
  | .ushr d a b => Sys2Proof.Machine.execUshr d a b s
  | .usar d a b => Sys2Proof.Machine.execUsar d a b s
  | .umin d a b => Sys2Proof.Machine.execUmin d a b s
  | .umax d a b => Sys2Proof.Machine.execUmax d a b s
  | .ucmp c p a b => Sys2Proof.Machine.execUcmp c p a b s
  | .usel d a b => Sys2Proof.Machine.execUsel d a b s
  | .umovi d imm => Sys2Proof.Machine.execUmovi d imm s
  | .umovhi d imm => Sys2Proof.Machine.execUmovhi d imm s
  | .uaddi d a imm => Sys2Proof.Machine.execUaddi d a imm s
  | .umov d a => Sys2Proof.Machine.execUmov d a s
  | .getsr d a => Sys2Proof.Machine.execGetsr d a s
  | .bra p imm => Sys2Proof.Machine.execBra p imm s
  | .braq p imm => Sys2Proof.Machine.execBraq p imm s
  | .call imm => Sys2Proof.Machine.execCall imm s
  | .ret => Sys2Proof.Machine.execRet s
  | .mark imm => Sys2Proof.Machine.execMark imm s
  | .join => Sys2Proof.Machine.execJoin s
  | .regang imm => Sys2Proof.Machine.execRegang imm s
  | .exit => Sys2Proof.Machine.execExit s
  | .yield => Sys2Proof.Machine.execYield s
  | .spinw => Sys2Proof.Machine.execSpinw s
  | .trap imm => Sys2Proof.Machine.execTrap imm s
  | .nop => Sys2Proof.Machine.execNop s
  | .setmode imm => Sys2Proof.Machine.execSetmode imm s
  | .setgrd g => Sys2Proof.Machine.execSetgrd g s
  | .ldb d a imm => Sys2Proof.Machine.execLdb d a imm s
  | .ldh d a imm => Sys2Proof.Machine.execLdh d a imm s
  | .ldw d a imm => Sys2Proof.Machine.execLdw d a imm s
  | .ldd d a imm => Sys2Proof.Machine.execLdd d a imm s
  | .ldq d a imm => Sys2Proof.Machine.execLdq d a imm s
  | .stb d a imm => Sys2Proof.Machine.execStb d a imm s
  | .sth d a imm => Sys2Proof.Machine.execSth d a imm s
  | .stw d a imm => Sys2Proof.Machine.execStw d a imm s
  | .std d a imm => Sys2Proof.Machine.execStd d a imm s
  | .stq d a imm => Sys2Proof.Machine.execStq d a imm s
  | .ldu d a imm => Sys2Proof.Machine.execLdu d a imm s
  | .stu d a imm => Sys2Proof.Machine.execStu d a imm s
  | .sxld d a imm => Sys2Proof.Machine.execSxld d a imm s
  | .sxst d a imm => Sys2Proof.Machine.execSxst d a imm s
  | .pref t a imm => Sys2Proof.Machine.execPref t a imm s
  | .lds sc q p a imm => Sys2Proof.Machine.execLds sc q p a imm s
  | .unsub p a imm => Sys2Proof.Machine.execUnsub p a imm s
  | .aadd d a b => Sys2Proof.Machine.execAadd d a b s
  | .amin d a b => Sys2Proof.Machine.execAmin d a b s
  | .amax d a b => Sys2Proof.Machine.execAmax d a b s
  | .aand d a b => Sys2Proof.Machine.execAand d a b s
  | .aor d a b => Sys2Proof.Machine.execAor d a b s
  | .axor d a b => Sys2Proof.Machine.execAxor d a b s
  | .axch d a b => Sys2Proof.Machine.execAxch d a b s
  | .acas d a b => Sys2Proof.Machine.execAcas d a b s
  | .faadd d a b => Sys2Proof.Machine.execFaadd d a b s
  | .faopen d a b => Sys2Proof.Machine.execFaopen d a b s
  | .bankcfgGrow p => Sys2Proof.Machine.execBankcfgGrow p s
  | .bankcfgShrink p => Sys2Proof.Machine.execBankcfgShrink p s
  | .bankcfgFifo p f => Sys2Proof.Machine.execBankcfgFifo p f s
  | .bankcfgUnfifo p f => Sys2Proof.Machine.execBankcfgUnfifo p f s
  | .bind r p a b => Sys2Proof.Machine.execBind r p a b s
  | .unbind p a => Sys2Proof.Machine.execUnbind p a s
  | .acq d a sc => Sys2Proof.Machine.execAcq d a sc s
  | .relSt d a sc => Sys2Proof.Machine.execRelSt d a sc s
  | .relAdd d a sc => Sys2Proof.Machine.execRelAdd d a sc s
  | .fence n c sc => Sys2Proof.Machine.execFence n c sc s
  | .waitc t m => Sys2Proof.Machine.execWaitc t m s
  | .batch d => Sys2Proof.Machine.execBatch d s
  | .waitb a => Sys2Proof.Machine.execWaitb a s
  | .barinit a b => Sys2Proof.Machine.execBarinit a b s
  | .bara d a r b => Sys2Proof.Machine.execBara d a r b s
  | .barw a q b => Sys2Proof.Machine.execBarw a q b s
  | .cpy r b a imm => Sys2Proof.Machine.execCpy r b a imm s
  | .cpyx r b a imm => Sys2Proof.Machine.execCpyx r b a imm s
  | .cpys r b a imm => Sys2Proof.Machine.execCpys r b a imm s
  | .sclaim d p imm => Sys2Proof.Machine.execSclaim d p imm s
  | .srel a imm => Sys2Proof.Machine.execSrel a imm s
  | .tpost a b => Sys2Proof.Machine.execTpost a b s
  | .tqry d a => Sys2Proof.Machine.execTqry d a s
  | .kvapp p a b => Sys2Proof.Machine.execKvapp p a b s
  | .kvgrow r c a b => Sys2Proof.Machine.execKvgrow r c a b s
  | .kvevict r c a b => Sys2Proof.Machine.execKvevict r c a b s
  | .slabld d a p => Sys2Proof.Machine.execSlabld d a p s
  | .slabst d a k => Sys2Proof.Machine.execSlabst d a k s
  | .pin p a => Sys2Proof.Machine.execPin p a s
  | .unpin p a => Sys2Proof.Machine.execUnpin p a s
  | .phint h a imm => Sys2Proof.Machine.execPhint h a imm s
  | .pcnt d a c => Sys2Proof.Machine.execPcnt d a c s
  | .launch d a => Sys2Proof.Machine.execLaunch d a s
  | .solo => Sys2Proof.Machine.execSolo s
  | .tret k => Sys2Proof.Machine.execTret k s
  | .crd d imm => Sys2Proof.Machine.execCrd d imm s
  | .cwr d imm => Sys2Proof.Machine.execCwr d imm s
  | .tlbiVa a b => Sys2Proof.Machine.execTlbiVa a b s
  | .tlbiAsid b => Sys2Proof.Machine.execTlbiAsid b s
  | .tlbiGva a b => Sys2Proof.Machine.execTlbiGva a b s
  | .tlbiVmid b => Sys2Proof.Machine.execTlbiVmid b s
  | .ptst d a c => Sys2Proof.Machine.execPtst d a c s
  | .ifence => Sys2Proof.Machine.execIfence s
  | .unsolo => Sys2Proof.Machine.execUnsolo s
  | .migrMove d a b => Sys2Proof.Machine.execMigrMove d a b s
  | .migrRetire d a b => Sys2Proof.Machine.execMigrRetire d a b s
  | .migrClaim d a b => Sys2Proof.Machine.execMigrClaim d a b s
  | .snap d imm => Sys2Proof.Machine.execSnap d imm s
  | .ftmap d a => Sys2Proof.Machine.execFtmap d a s
  | .ringp d => Sys2Proof.Machine.execRingp d s
  | .gres d a k => Sys2Proof.Machine.execGres d a k s
  | .gkill d a => Sys2Proof.Machine.execGkill d a s
  | .reservedOpcode w => Sys2Proof.Machine.execReservedOpcode w s
  | .regangMerge gid => Sys2Proof.Machine.execRegangMerge gid s
  | .yieldRelease gid gang => Sys2Proof.Machine.execYieldRelease gid gang s
  | .spinAgePromote gid gang => Sys2Proof.Machine.execSpinAgePromote gid gang s
  | .postTaken core part => Sys2Proof.Machine.execPostTaken core part s
  | .loadDataReturn core id => Sys2Proof.Machine.execLoadDataReturn core id s
  | .storePerformed core id => Sys2Proof.Machine.execStorePerformed core id s
  | .atomicReply core id => Sys2Proof.Machine.execAtomicReply core id s
  | .groupRetire gid => Sys2Proof.Machine.execGroupRetire gid s
  | .waitcPass gid gang => Sys2Proof.Machine.execWaitcPass gid gang s
  | .waitbPass gid gang => Sys2Proof.Machine.execWaitbPass gid gang s
  | .barwPass gid gang => Sys2Proof.Machine.execBarwPass gid gang s
  | .translationWalk core id => Sys2Proof.Machine.execTranslationWalk core id s
  | .bankModeChange core => Sys2Proof.Machine.execBankModeChange core s
  | .fifoPushComplete core id => Sys2Proof.Machine.execFifoPushComplete core id s
  | .fifoPopComplete core id => Sys2Proof.Machine.execFifoPopComplete core id s
  | .orderedAddApply n => Sys2Proof.Machine.execOrderedAddApply n s
  | .homeStoreApply pa bytes => Sys2Proof.Machine.execHomeStoreApply pa bytes s
  | .pushArrival n => Sys2Proof.Machine.execPushArrival n s
  | .refusedPushReturn n => Sys2Proof.Machine.execRefusedPushReturn n s
  | .inboxDelivery core => Sys2Proof.Machine.execInboxDelivery core s
  | .inboxSignal core => Sys2Proof.Machine.execInboxSignal core s
  | .redelivery home core => Sys2Proof.Machine.execRedelivery home core s
  | .redeliveryAccept n => Sys2Proof.Machine.execRedeliveryAccept n s
  | .subRemove n => Sys2Proof.Machine.execSubRemove n s
  | .unsubComplete n => Sys2Proof.Machine.execUnsubComplete n s
  | .subLoss home idx cause => Sys2Proof.Machine.execSubLoss home idx cause s
  | .subPark n => Sys2Proof.Machine.execSubPark n s
  | .subRepoint n => Sys2Proof.Machine.execSubRepoint n s
  | .leaseRenew home agent => Sys2Proof.Machine.execLeaseRenew home agent s
  | .leaseRelease home agent region => Sys2Proof.Machine.execLeaseRelease home agent region s
  | .leaseExpiry home agent region => Sys2Proof.Machine.execLeaseExpiry home agent region s
  | .rangeLockStart die n => Sys2Proof.Machine.execRangeLockStart die n s
  | .copyTransfer core id => Sys2Proof.Machine.execCopyTransfer core id s
  | .copyFault core id => Sys2Proof.Machine.execCopyFault core id s
  | .copyComplete core id => Sys2Proof.Machine.execCopyComplete core id s
  | .relayEnqueue core id => Sys2Proof.Machine.execRelayEnqueue core id s
  | .barrierArrival n => Sys2Proof.Machine.execBarrierArrival n s
  | .slotZero core => Sys2Proof.Machine.execSlotZero core s
  | .taskFetch core id => Sys2Proof.Machine.execTaskFetch core id s
  | .taskStart core id => Sys2Proof.Machine.execTaskStart core id s
  | .taskStep core id => Sys2Proof.Machine.execTaskStep core id s
  | .taskComplete core id => Sys2Proof.Machine.execTaskComplete core id s
  | .growPageMove core id => Sys2Proof.Machine.execGrowPageMove core id s
  | .evictRun die => Sys2Proof.Machine.execEvictRun die s
  | .evictSwitch die => Sys2Proof.Machine.execEvictSwitch die s
  | .evictComplete die id => Sys2Proof.Machine.execEvictComplete die id s
  | .evictFault die => Sys2Proof.Machine.execEvictFault die s
  | .shootdown gstage asid vmid va => Sys2Proof.Machine.execShootdown gstage asid vmid va s
  | .migrateLine slot => Sys2Proof.Machine.execMigrateLine slot s
  | .stalledWriteRetry n => Sys2Proof.Machine.execStalledWriteRetry n s
  | .claimRequest frame claimant part => Sys2Proof.Machine.execClaimRequest frame claimant part s
  | .handoverRelease frame => Sys2Proof.Machine.execHandoverRelease frame s
  | .holimExpiry frame => Sys2Proof.Machine.execHolimExpiry frame s
  | .claimTimeout entry => Sys2Proof.Machine.execClaimTimeout entry s
  | .claimGrant entry => Sys2Proof.Machine.execClaimGrant entry s
  | .claimRefusal entry owner => Sys2Proof.Machine.execClaimRefusal entry owner s
  | .shareInc part frame => Sys2Proof.Machine.execShareInc part frame s
  | .shareDec part frame => Sys2Proof.Machine.execShareDec part frame s
  | .pinInc part frame => Sys2Proof.Machine.execPinInc part frame s
  | .pinDec part frame => Sys2Proof.Machine.execPinDec part frame s
  | .pinClr part frame => Sys2Proof.Machine.execPinClr part frame s
  | .accClr part frame => Sys2Proof.Machine.execAccClr part frame s
  | .assign part frame operand => Sys2Proof.Machine.execAssign part frame operand s
  | .free part frame => Sys2Proof.Machine.execFree part frame s
  | .leaseClr die part v => Sys2Proof.Machine.execLeaseClr die part v s
  | .tfcurWrite gid v => Sys2Proof.Machine.execTfcurWrite gid v s
  | .controlRegWrite space unit off v => Sys2Proof.Machine.execControlRegWrite space unit off v s
  | .trapDelivery gid => Sys2Proof.Machine.execTrapDelivery gid s
  | .heldTrapEnter core => Sys2Proof.Machine.execHeldTrapEnter core s
  | .heldTrapRetry core => Sys2Proof.Machine.execHeldTrapRetry core s
  | .faultQueuePost => Sys2Proof.Machine.execFaultQueuePost s
  | .faultQueueRetry => Sys2Proof.Machine.execFaultQueueRetry s
  | .refereeForward => Sys2Proof.Machine.execRefereeForward s
  | .refereeRingRetry n => Sys2Proof.Machine.execRefereeRingRetry n s
  | .pqpop die => Sys2Proof.Machine.execPqpop die s
  | .commit die v => Sys2Proof.Machine.execCommit die v s
  | .preempt die v => Sys2Proof.Machine.execPreempt die v s
  | .swap die => Sys2Proof.Machine.execSwap die s
  | .spill core slot => Sys2Proof.Machine.execSpill core slot s
  | .spillComplete core slot => Sys2Proof.Machine.execSpillComplete core slot s
  | .restoreFill core slot => Sys2Proof.Machine.execRestoreFill core slot s
  | .teamRelease core slot => Sys2Proof.Machine.execTeamRelease core slot s
  | .submit page pkt => Sys2Proof.Machine.execSubmit page pkt s
  | .launchPacket => Sys2Proof.Machine.execLaunchPacket s
  | .fabricFrameRx port frame fcsOk => Sys2Proof.Machine.execFabricFrameRx port frame fcsOk s
  | .launchRequest => Sys2Proof.Machine.execLaunchRequest s
  | .launchReply n => Sys2Proof.Machine.execLaunchReply n s
  | .responseWrite page => Sys2Proof.Machine.execResponseWrite page s
  | .gridDeal grid => Sys2Proof.Machine.execGridDeal grid s
  | .gridComplete grid => Sys2Proof.Machine.execGridComplete grid s
  | .functionLevelReset vf => Sys2Proof.Machine.execFunctionLevelReset vf s
  | .hotReset => Sys2Proof.Machine.execHotReset s
  | .dieReadmit die => Sys2Proof.Machine.execDieReadmit die s
  | .coldStart => Sys2Proof.Machine.execColdStart s
  | .bootStage reason => Sys2Proof.Machine.execBootStage reason s
  | .bootStageTimeout => Sys2Proof.Machine.execBootStageTimeout s
  | .getBootStatus src arg => Sys2Proof.Machine.execGetBootStatus src arg s
  | .setOwner src arg => Sys2Proof.Machine.execSetOwner src arg s
  | .imageBegin src arg => Sys2Proof.Machine.execImageBegin src arg s
  | .imageData src arg => Sys2Proof.Machine.execImageData src arg s
  | .imageEnd src arg => Sys2Proof.Machine.execImageEnd src arg s
  | .commitSvn src arg => Sys2Proof.Machine.execCommitSvn src arg s
  | .setPartition src arg => Sys2Proof.Machine.execSetPartition src arg s
  | .getPartition src arg => Sys2Proof.Machine.execGetPartition src arg s
  | .setTenant src arg => Sys2Proof.Machine.execSetTenant src arg s
  | .getTenant src arg => Sys2Proof.Machine.execGetTenant src arg s
  | .tearDown src arg => Sys2Proof.Machine.execTearDown src arg s
  | .dieReset src arg => Sys2Proof.Machine.execDieReset src arg s
  | .snapMailbox src arg => Sys2Proof.Machine.execSnapMailbox src arg s
  | .setHolim src arg => Sys2Proof.Machine.execSetHolim src arg s
  | .readLog src arg => Sys2Proof.Machine.execReadLog src arg s
  | .readSensors src arg => Sys2Proof.Machine.execReadSensors src arg s
  | .spdm src arg => Sys2Proof.Machine.execSpdm src arg s
  | .snaptrig n => Sys2Proof.Machine.execSnaptrig n s
  | .snapshotLatch block => Sys2Proof.Machine.execSnapshotLatch block s
  | .snapshotComplete => Sys2Proof.Machine.execSnapshotComplete s
  | .gcmdGres part => Sys2Proof.Machine.execGcmdGres part s
  | .gcmdGresSkip part => Sys2Proof.Machine.execGcmdGresSkip part s
  | .gcmdGkill part => Sys2Proof.Machine.execGcmdGkill part s
  | .pacerRecordWrite core slot bytes => Sys2Proof.Machine.execPacerRecordWrite core slot bytes s
  | .rspheadWrite page v => Sys2Proof.Machine.execRspheadWrite page v s
  | .rspbaseWrite page v => Sys2Proof.Machine.execRspbaseWrite page v s
  | .lineRequest agent pa write => Sys2Proof.Machine.execLineRequest agent pa write s
  | .completionTimeout core id => Sys2Proof.Machine.execCompletionTimeout core id s
  | .sensorBeyondLimit sensor => Sys2Proof.Machine.execSensorBeyondLimit sensor s

end Sys2Proof.Machine
end

