-- ==== Sys2Proof/Machine/Step.lean ====
section
/-! DEFINITION. The step of the package: an input of the outside world that is due, or else one of the things that may happen now; with none, time passes.
Beside it, the state in which a given word is the next instruction. -/
namespace Sys2Proof.Machine

/-- A gang's turn: the instruction that it fetches, or what comes of a fetch that gives none. -/
def runGang (u : Cur) (s : State) : Result :=
  match gangTurn s u with
  | .run i t => exec i t
  | .done r => r

/-- Everything that may happen now: a gang issues, or an event is due. -/
def choices (s : State) : List Act := (readyGangs s).map runGang ++ internalEvents s

/-- A step's end: no gang issues any more, what yielded gangs waited for is noted (02 R54), and time has passed. -/
def tick : Result → Result
  | .next s => .next { s.noteYields with cur := none, time := s.time + 1 }
  | r => r

/-- The choice that is made: the only one, or, of several, one that is open. -/
def choose (time : Nat) : List Act → Option Act
  | [] => none
  | [c] => some c
  | cs => cs[Config.pick time % cs.length]?

/-- The first input that is due, and the inputs without it. -/
def dueInput (time : Nat) : List (Nat × Instr) → Option (Instr × List (Nat × Instr))
  | [] => none
  | e :: r => if e.1 ≤ time then some (e.2, r) else (dueInput time r).map fun x => (x.1, e :: x.2)

/-- One step of the package. -/
def step (s : State) : Host.Outcome State Fault Refusal :=
  tick (match dueInput s.time s.inputs with
    | some (i, r) => if isExternal i then exec i { s with inputs := r } else .next { s with inputs := r }
    | none => match choose s.time (choices s) with
      | some c => c s
      | none => .next s)

/-! ## A word as the next instruction -/

/-- Where the word is put: the virtual page and the physical page of the one team's code. -/
def probePc : Nat := 0x10000
def probePa : Nat := 0x8000010000

/-- The bind record of the one team: core 0, slot 0, one group of 128 registers, partition 1. -/
def probeRecord : List Byte :=
  let f (b : List Byte) (off n x : Nat) : List Byte := setField b off n x
  f (f (f (f (f (f (f (f (f bindReset 0 1 2) 2 1 1) 3 1 1) 4 2 1) 8 2 0x8080) 0x20 8 probePc) 0x30 8 (10 * 2 ^ 60)) 0x59 3 0xFFFFFF) 0x40 8 0x20000

/-- The leaf that maps the code page. -/
def probeLeaf : TlbEntry :=
  { gstage := false, asid := 0, vmid := 0, vbase := probePc, size := 4096, pbase := probePa, canR := true, canW := true, canX := true, user := true,
    aSet := true, dSet := true, pbmt := 0, level := 0, pteAddr := 0 }

/-- The one group: its slices as a launch leaves them, with only lane 0 of slice 0 alive. -/
def probeGroup : Group :=
  { Group.reset with core := 0, part := 0, tid := 0, budget := 128, retired := false, preds := List.replicate 7 0,
                     slices := { Slice.launch (BitVec.ofNat 64 probePc) with live := 1, run := 1 } :: List.replicate 63 Slice.dead }

/-- s with a word stored where the next step fetches: one team is resident whose only gang is about to issue it, its code page is mapped, and nothing
else is due. -/
def State.withFetchWord (s : State) (_nbits w : Nat) : State :=
  { State.reset with mem := bputs s.mem probePa (wordBytes w), groups := [(0, probeGroup)], teams := [(0, { Team.reset with window := 0x7000000000 })],
                     cores := [(0, { Core.reset with binds := [(0, probeRecord)] })], dies := [(0, { Die.reset with tlb := [probeLeaf] })],
                     homes := s.homes, time := s.time }

end Sys2Proof.Machine
end

