-- ==== Sys2Proof/Safety.lean ====
section
/-! DEFINITION. The terms in which claims are stated: when a gang issues a word normally, what an instruction leaves as it was, and the invariant of
the machine. -/
namespace Sys2Proof.Machine

/-! ## Who issues -/

/-- The gang that State.cur names, when it has a live slice. -/
def issuer (s : State) : Option Ctx :=
  match s.cur with
  | none => none
  | some u => if (slicesOf u.gang).any fun i => !((s.group u.gid).slice i).isDead
      then some { gid := u.gid, gang := u.gang, solo := (s.group u.gid).soloLane } else none

/-- The word is ready for the issuing gang (02 R49: what it reads and writes, and the room it needs; 03 R76; 12 R362), and it passes the decode checks
of 01 R35. -/
def issues (w : Word) (s : State) : Bool :=
  match issuer s with
  | none => false
  | some c =>
    let g := s.group c.gid
    (decodeCheck g c w).isNone && wordReady s g c w

/-- The group in which the issue number has advanced (12 R336); the checks of an instruction look at it. -/
def counted (g : Group) (c : Ctx) : Group :=
  { g.mapSlices c.gang (fun _ x => { x with issues := x.issues + 1 }) with issueNo := g.issueNo + 1 }

/-! ## What an instruction leaves as it was -/

/-- Everything outside one group is as before, but for the counts of issued instructions that a core keeps for the referee (14 R404). -/
structure BeyondKept (s t : State) (gid : Nat) : Prop where
  mem : t.mem = s.mem
  bytes : ∀ a, bget t.mem a = bget s.mem a
  teams : t.teams = s.teams
  dies : t.dies = s.dies
  homes : t.homes = s.homes
  hub : t.hub = s.hub
  referee : t.referee = s.referee
  cur : t.cur = s.cur
  inputs : t.inputs = s.inputs
  time : t.time = s.time
  groups : ∀ j, j ≠ gid → t.group j = s.group j
  cores : ∀ k, t.core k = { s.core k with issued := (t.core k).issued }

/-- A group's identity, queues, batches and handler state are as before. -/
structure GroupKept (g h : Group) : Prop where
  core : h.core = g.core
  part : h.part = g.part
  tid : h.tid = g.tid
  num : h.num = g.num
  role : h.role = g.role
  budget : h.budget = g.budget
  queue : h.queue = g.queue
  frame : h.frame = g.frame
  parked : h.parked = g.parked
  parkSerial : h.parkSerial = g.parkSerial
  solo : h.solo = g.solo
  openBatch : h.openBatch = g.openBatch
  openLeft : h.openLeft = g.openLeft
  closed : h.closed = g.closed
  posts : h.posts = g.posts
  postNo : h.postNo = g.postNo
  withdrawn : h.withdrawn = g.withdrawn
  retired : h.retired = g.retired

/-- A slice as before, but for its PC, and for what gangs are made of (number, spinning, promotion) and the count of what it issued. -/
structure SliceKept (x y : Slice) : Prop where
  live : y.live = x.live
  run : y.run = x.run
  stack : y.stack = x.stack
  depth : y.depth = x.depth
  mode : y.mode = x.mode
  loads : y.loads = x.loads
  stores : y.stores = x.stores
  atomics : y.atomics = x.atomics
  posts : y.posts = x.posts
  wait : y.wait = x.wait
  handler : y.handler = x.handler
  lastBack : y.lastBack = x.lastBack

/-- The four kinds of registers of a group: vector registers by number and lane, vector predicates, uniform registers, uniform predicates. -/
def SameV (g h : Group) (except : Nat → Bool) : Prop := ∀ n l, except n = false → vget h n l = vget g n l
def SameP (g h : Group) (except : Nat → Bool) : Prop := ∀ n, except n = false → h.preds.getD n 0 = g.preds.getD n 0
def SameU (g h : Group) (except : Nat → Bool) : Prop := ∀ n, except n = false → uget h n = uget g n
/-- No register is an exception. -/
def never : Nat → Bool := fun _ => false
/-- Register n, or n and n + 1. -/
def atReg (n : Nat) : Nat → Bool := fun m => m == n
def atPair (n : Nat) : Nat → Bool := fun m => m == n || m == n + 1

/-- The frame of an instruction whose whole effect lies in its group's registers (03 R75): the issue number advances, the slices of the gang go on to
PC + 4 (01 R15), every other slice keeps its PC. -/
structure RegFrame (s t : State) (c : Ctx) : Prop where
  beyond : BeyondKept s t c.gid
  group : GroupKept (s.group c.gid) (t.group c.gid)
  issueNo : (t.group c.gid).issueNo = (s.group c.gid).issueNo + 1
  slices : ∀ i, SliceKept ((s.group c.gid).slice i) ((t.group c.gid).slice i)
  pcGang : ∀ i, i < (s.group c.gid).slices.length → c.gang.getLsbD i = true → ((t.group c.gid).slice i).pc = ((s.group c.gid).slice i).pc + 4
  pcOther : ∀ i, c.gang.getLsbD i = false → ((t.group c.gid).slice i).pc = ((s.group c.gid).slice i).pc

/-- A register instruction that writes at most the named vector registers, vector predicates, uniform registers and uniform predicates. -/
structure Writes (s t : State) (c : Ctx) (v p u q : Nat → Bool) : Prop where
  frame : RegFrame s t c
  vregs : SameV (s.group c.gid) (t.group c.gid) v
  preds : SameP (s.group c.gid) (t.group c.gid) p
  uregs : SameU (s.group c.gid) (t.group c.gid) u
  upreds : ∀ n, q n = false → (t.group c.gid).uq.getLsbD n = (s.group c.gid).uq.getLsbD n

/-- A vector result (03 R76, R82): the lanes of a set receive a value, as wide as the element type of the lane's slice; every other lane, and the
higher register of a lane whose type has 32 bits, keeps what it held. -/
structure VecResult (s t : State) (c : Ctx) (d : Nat) (lanes wide : Nat → Bool) (f : Nat → Nat) : Prop where
  writes : Writes s t c (atPair d) never never never
  low : ∀ l, l < 256 → lanes l = true → vget (t.group c.gid) d l = BitVec.ofNat 32 (f l)
  high : ∀ l, l < 256 → lanes l = true → wide l = true → vget (t.group c.gid) (d + 1) l = BitVec.ofNat 32 (f l / 2 ^ 32)
  lowKept : ∀ l, l < 256 → lanes l = false → vget (t.group c.gid) d l = vget (s.group c.gid) d l
  highKept : ∀ l, l < 256 → (lanes l && wide l) = false → vget (t.group c.gid) (d + 1) l = vget (s.group c.gid) (d + 1) l

/-- A one-register result: the lanes of a set receive a 32-bit value. -/
structure LaneResult (s t : State) (c : Ctx) (d : Nat) (lanes : Nat → Bool) (f : Nat → Word) : Prop where
  writes : Writes s t c (atReg d) never never never
  value : ∀ l, l < 256 → lanes l = true → vget (t.group c.gid) d l = f l
  kept : ∀ l, l < 256 → lanes l = false → vget (t.group c.gid) d l = vget (s.group c.gid) d l

/-- A vector-predicate result under its destination P-field (01 R25): bit 3 stores the complement, p7 discards. -/
structure PredResult (s t : State) (c : Ctx) (p : Nat) (lanes : Nat → Bool) (f : Nat → Bool) : Prop where
  writes : Writes s t c never (atReg (p % 8)) never never
  discard : p % 8 = 7 → (t.group c.gid).preds = (s.group c.gid).preds
  value : p % 8 ≠ 7 → ∀ l, l < 256 → lanes l = true → ((t.group c.gid).preds.getD (p % 8) 0).getLsbD l = (f l ^^ decide (8 ≤ p % 16))
  kept : p % 8 ≠ 7 → ∀ l, l < 256 → lanes l = false →
    ((t.group c.gid).preds.getD (p % 8) 0).getLsbD l = ((s.group c.gid).preds.getD (p % 8) 0).getLsbD l

/-- A uniform result at the width of the uniform class (03 R99). -/
structure UniResult (s t : State) (c : Ctx) (d : Nat) (wide : Bool) (x : Nat) : Prop where
  writes : Writes s t c never never (if wide then atPair d else atReg d) never
  low : uget (t.group c.gid) d = BitVec.ofNat 32 x
  high : wide = true → uget (t.group c.gid) (d + 1) = BitVec.ofNat 32 (x / 2 ^ 32)

/-- A uniform-predicate result under its destination P-field (01 R25). -/
structure QResult (s t : State) (c : Ctx) (q : Nat) (b : Bool) : Prop where
  writes : Writes s t c never never never (atReg (q % 8))
  discard : q % 8 = 3 → (t.group c.gid).uq = (s.group c.gid).uq
  value : q % 8 < 3 → (t.group c.gid).uq.getLsbD (q % 8) = (b ^^ decide (8 ≤ q % 16))

/-- A slice equals another but for what gangs are made of (number, spinning, promotion) and the count of what it issued. -/
structure SliceLike (x y : Slice) : Prop extends SliceKept x y where
  pc : y.pc = x.pc

/-- No register of a group changes. -/
structure RegsKept (g h : Group) : Prop where
  vregs : SameV g h never
  preds : SameP g h never
  uregs : SameU g h never
  uq : h.uq = g.uq

/-- The effect of a control instruction: every slice of the gang becomes what a function gives, every other slice stays, and no register changes. -/
structure Flow (s t : State) (c : Ctx) (f : Nat → Slice → Slice) : Prop where
  beyond : BeyondKept s t c.gid
  group : GroupKept (s.group c.gid) (t.group c.gid)
  regs : RegsKept (s.group c.gid) (t.group c.gid)
  issueNo : (t.group c.gid).issueNo = (s.group c.gid).issueNo + 1
  slices : ∀ i, i < (s.group c.gid).slices.length → c.gang.getLsbD i = true → SliceLike (f i ((s.group c.gid).slice i)) ((t.group c.gid).slice i)
  others : ∀ i, c.gang.getLsbD i = false → SliceLike ((s.group c.gid).slice i) ((t.group c.gid).slice i)

/-- The part of an instruction's effect that lies in the groups, where it also acts elsewhere: as Flow, but for the frame beyond the groups. -/
structure GangFlow (s t : State) (c : Ctx) (f : Nat → Slice → Slice) : Prop where
  groups : ∀ j, j ≠ c.gid → t.group j = s.group j
  group : GroupKept (s.group c.gid) (t.group c.gid)
  issueNo : (t.group c.gid).issueNo = (s.group c.gid).issueNo + 1
  slices : ∀ i, i < (s.group c.gid).slices.length → c.gang.getLsbD i = true → SliceLike (f i ((s.group c.gid).slice i)) ((t.group c.gid).slice i)
  others : ∀ i, c.gang.getLsbD i = false → SliceLike ((s.group c.gid).slice i) ((t.group c.gid).slice i)
/-- The gang goes on to the next word. -/
def onward : Nat → Slice → Slice := fun _ x => { x with pc := x.pc + 4 }
/-- The same for a store-class instruction (02 R55). -/
def onwardStore : Nat → Slice → Slice := fun _ x => { x with pc := x.pc + 4, lastBack := none }

/-- The effect of an event on a group's slices: those of a set become what a function gives, field by field; nothing else changes anywhere. -/
structure SliceEvent (s t : State) (gid : Nat) (m : SliceMask) (f : Nat → Slice → Slice) : Prop where
  beyond : BeyondKept s t gid
  cores : t.cores = s.cores
  group : GroupKept (s.group gid) (t.group gid)
  regs : RegsKept (s.group gid) (t.group gid)
  issueNo : (t.group gid).issueNo = (s.group gid).issueNo
  slices : ∀ i, i < (s.group gid).slices.length → m.getLsbD i = true → (t.group gid).slice i = f i ((s.group gid).slice i)
  others : ∀ i, m.getLsbD i = false → (t.group gid).slice i = (s.group gid).slice i

/-- What a memory instruction captures when it issues (03 R76, 12 R338): addresses and data of its lanes, the mode words, its issue number. -/
structure Captures (s : State) (c : Ctx) (w : Word) (k : MemKind) (act : LaneMask) (adr : Nat → DWord) (dat : Nat → BitVec 128) (o : LogOp) : Prop where
  gid : o.gid = c.gid
  id : o.id = (s.core (s.group c.gid).core).nextId
  key : o.key = (s.group c.gid).issueNo + 1
  word : o.word = w
  kind : o.kind = k
  pc : o.pc = ((s.group c.gid).slice (lowestSlice c.gang)).pc
  gang : o.gang = opGang c
  active : o.active = act
  left : o.left = act
  addr : ∀ l, l < 256 → (k.isUniform = true → l = 0) → o.ea l = (adr l).toNat
  data : ∀ l, l < 256 → o.value l = (dat l).toNat
  mode : ∀ l, l < 256 → o.mode l = laneMode (s.group c.gid) l
  walked : o.walked = false
  hits : o.hits = []
  priv : o.priv = (s.group c.gid).frame.isSome

/-- A memory instruction has issued (12 R338): its operation stands last in its core's log, its slices count it (02 R42), its gang goes on, and nothing
else changes: no register, no byte of memory. store: it is store-class for spinning (02 R55). -/
structure MemIssue (s t : State) (c : Ctx) (o : LogOp) (store : Bool) : Prop where
  mem : t.mem = s.mem
  bytes : ∀ a, bget t.mem a = bget s.mem a
  teams : t.teams = s.teams
  dies : t.dies = s.dies
  homes : t.homes = s.homes
  hub : t.hub = s.hub
  referee : t.referee = s.referee
  groups : ∀ j, j ≠ c.gid → t.group j = s.group j
  log : (t.core (s.group c.gid).core).log = (s.core (s.group c.gid).core).log ++ [o]
  logs : ∀ k, k ≠ (s.group c.gid).core → (t.core k).log = (s.core k).log
  cores : ∀ k, t.core k = { s.core k with issued := (t.core k).issued, log := (t.core k).log, nextId := (t.core k).nextId }
  group : GroupKept (s.group c.gid) (t.group c.gid)
  regs : RegsKept (s.group c.gid) (t.group c.gid)
  slices : ∀ i, i < (s.group c.gid).slices.length → c.gang.getLsbD i = true →
    let x := (s.group c.gid).slice i
    let n := if o.gang.getLsbD i then o.kind.weight o.active i else 0
    SliceLike ({ x.setCount o.kind.counter (x.count o.kind.counter + n) with pc := x.pc + 4, lastBack := if store then none else x.lastBack }) ((t.group c.gid).slice i)
  others : ∀ i, c.gang.getLsbD i = false → o.gang.getLsbD i = false → SliceLike ((s.group c.gid).slice i) ((t.group c.gid).slice i)

/-- A memory instruction with no active lane has nothing to log: its gang goes on. -/
def IdleIssue (s t : State) (c : Ctx) (store : Bool) : Prop :=
  Flow s t c fun _ x => { x with pc := x.pc + 4, lastBack := if store then none else x.lastBack }

/-- An instruction completes at this state with a property of the next state. -/
def Completes (i : Instr) (s : State) (p : State → Prop) : Prop := ∃ t, exec i s = .next t ∧ p t

/-! ## Operands as the rules name them (03 R82) -/

/-- Element type of the slice of a lane; an operand in the lane at that type's width; its element e as a pattern and as an integer. -/
def laneEt (g : Group) (l : Nat) : Nat := mEtype (laneMode g l)
def laneSrc (g : Group) (code l : Nat) : Nat := readN g code (laneWide g l) l
def srcElem (g : Group) (code l e : Nat) : Nat := elem (laneSrc g code l) (etWidth (laneEt g l)) e
def srcInt (g : Group) (code l e : Nat) : Int := val (srcElem g code l e) (etWidth (laneEt g l)) (etSigned (laneEt g l))
/-- fit under the lane's type, with the mode's SAT where sat says so. -/
def fitLane (g : Group) (l : Nat) (sat : Bool) (v : Int) : Nat := fit v (etWidth (laneEt g l)) (etSigned (laneEt g l)) (sat && mSat (laneMode g l))
/-- Bits of an operand in a lane: 32, or 64 for the wide types. -/
def laneBitsOf (g : Group) (l : Nat) : Nat := if laneWide g l then 64 else 32

/-! ## What a vector instruction says -/

/-- For every state in which the instruction's word issues normally, it completes with a vector result whose value in each active lane satisfies a
property. -/
def VecSays (i : Instr) (d : Nat) (p : Group → Ctx → Nat → Nat → Prop) : Prop :=
  ∀ s c, issuer s = some c → issues (encode i) s = true →
    Completes i s fun t => ∃ f, VecResult s t c d (isActive (s.group c.gid) c) (laneWide (s.group c.gid)) f ∧
      ∀ l, l < 256 → isActive (s.group c.gid) c l = true → f l < 2 ^ laneBitsOf (s.group c.gid) l ∧ p (s.group c.gid) c l (f l)
/-- Each element of the result is what a function gives. -/
def ElemsSay (i : Instr) (d : Nat) (el : Group → Nat → Nat → Nat) : Prop :=
  VecSays i d fun g _ l x => ∀ e, e < etCount (laneEt g l) → elem x (etWidth (laneEt g l)) e = el g l e
/-- Each bit of each element of the result is what a function gives. -/
def ElemBitsSay (i : Instr) (d : Nat) (bit : Group → Nat → Nat → Nat → Bool) : Prop :=
  VecSays i d fun g _ l x => ∀ e j, e < etCount (laneEt g l) → j < etWidth (laneEt g l) →
    (elem x (etWidth (laneEt g l)) e).testBit j = bit g l e j
/-- Each bit of the whole result is what a function gives. -/
def BitsSay (i : Instr) (d : Nat) (bit : Group → Nat → Nat → Bool) : Prop :=
  VecSays i d fun g _ l x => ∀ j, j < laneBitsOf g l → x.testBit j = bit g l j
/-- The result is what a function gives. -/
def WordSays (i : Instr) (d : Nat) (f : Group → Ctx → Nat → Nat) : Prop := VecSays i d fun g c l x => x = f g c l % 2 ^ laneBitsOf g l
/-- A 32-bit result in the active lanes. -/
def LaneSays (i : Instr) (d : Nat) (f : State → Group → Ctx → Nat → Word) : Prop :=
  ∀ s c, issuer s = some c → issues (encode i) s = true →
    Completes i s fun t => LaneResult s t c d (isActive (s.group c.gid) c) (f s (s.group c.gid) c)
/-- A predicate result in the active lanes. -/
def PredSays (i : Instr) (p : Nat) (f : Group → Ctx → Nat → Bool) : Prop :=
  ∀ s c, issuer s = some c → issues (encode i) s = true →
    Completes i s fun t => PredResult s t c p (isActive (s.group c.gid) c) (f (s.group c.gid) c)

/-- A uniform instruction, issued by a gang that holds every live slice (03 R78): its value at the width of the class. -/
def UniSays (i : Instr) (d : Nat) (f : State → Group → Ctx → Nat) : Prop :=
  ∀ s c, issuer s = some c → issues (encode i) s = true → uniformSplit (s.group c.gid) c = false →
    Completes i s fun t => UniResult s t c d (uWide (s.group c.gid)) (f s (s.group c.gid) c)
/-- The same for one 32-bit register. -/
def Uni32Says (i : Instr) (d : Nat) (f : State → Group → Ctx → Word) : Prop :=
  ∀ s c, issuer s = some c → issues (encode i) s = true → uniformSplit (s.group c.gid) c = false →
    Completes i s fun t => UniResult s t c d false (f s (s.group c.gid) c).toNat
/-- The instruction raises a trap, with no part of its effect: the next state is what raising it gives. -/
def Raises (i : Instr) (s : State) (c : Ctx) (t : TrapInfo) : Prop := exec i s = .next (raiseTrap (countIssue s c) c (encode i) t)

/-- A memory instruction: where it is ready and where it writes no uniform state or its gang holds every live slice, it raises the trap that its checks find; where they
find none and it need not wait, it completes by standing in the log. -/
def MemSaysWhen (i : Instr) (uniform store : Bool) (kind : State → Group → Ctx → MemKind) (active : Group → Ctx → LaneMask)
    (addr : State → Group → Ctx → Nat → DWord) (data : State → Group → Ctx → Nat → BitVec 128)
    (checks : State → Group → Ctx → LogOp → Option TrapInfo) (waits : State → Group → Ctx → Bool) : Prop :=
  ∀ s c, issuer s = some c → issues (encode i) s = true →
    let g := s.group c.gid
    let captured (o : LogOp) : Prop := Captures s c (encode i) (kind s g c) (active g c) (addr s g c) (data s g c) o
    let checked (o : LogOp) : Option TrapInfo := checks (countIssue s c) (counted g c) c o
    (uniform = true → uniformSplit g c = false) →
    (∀ f, (∀ o, captured o → checked o = some f) → Raises i s c f) ∧
    ((∀ o, captured o → checked o = none) → waits (countIssue s c) (counted g c) c = false →
      (active g c ≠ 0 → Completes i s fun t => ∃ o, captured o ∧ MemIssue s t c o store) ∧
      (active g c = 0 → Completes i s fun t => IdleIssue s t c store))
/-- A memory instruction that waits for nothing else. -/
def MemSays (i : Instr) (uniform store : Bool) (kind : State → Group → Ctx → MemKind) (active : Group → Ctx → LaneMask) (addr : State → Group → Ctx → Nat → DWord)
    (data : State → Group → Ctx → Nat → BitVec 128) (checks : State → Group → Ctx → LogOp → Option TrapInfo) : Prop :=
  MemSaysWhen i uniform store kind active addr data checks fun _ _ _ => false

/-- The elements of a float result: bits and kind of invalid operation each (04 R112). -/
def elemList (g : Group) (l : Nat) (el : Nat → Nat × Nat) : List Elem :=
  (List.range (etCount (laneEt g l))).map fun e => { idx := e, bits := (el e).1, kind := (el e).2 }
/-- An invalid operation arises in an active lane whose slice has FPX set. -/
def fpHit (g : Group) (c : Ctx) (res : Nat → List Elem) (l : Nat) : Bool := isActive g c l && mFpx (laneMode g l) && (res l).any fun e => e.kind != 0
/-- A float instruction (04 R112): with no invalid operation in a lane that has FPX set, it completes with the elements packed; else it raises
FP_INVALID for those lanes, and names the lowest and its lowest element. -/
def FloatSays (i : Instr) (d : Nat) (res : Group → Nat → List Elem) (wide : Group → Nat → Bool) (value : Group → Nat → Nat) : Prop :=
  ∀ s c, issuer s = some c → issues (encode i) s = true →
    ((∀ l, l < 256 → fpHit (s.group c.gid) c (res (s.group c.gid)) l = false) →
      Completes i s fun t => VecResult s t c d (isActive (s.group c.gid) c) (wide (s.group c.gid)) (value (s.group c.gid))) ∧
    (∀ l e, l < 256 → fpHit (s.group c.gid) c (res (s.group c.gid)) l = true →
      (∀ k, k < l → fpHit (s.group c.gid) c (res (s.group c.gid)) k = false) →
      firstInvalid (res (s.group c.gid) l) = some e →
      Raises i s c { code := 7, cause := e.idx * 16 + e.kind, fmask := laneSet (fpHit (s.group c.gid) c (res (s.group c.gid))), lane := l, addr := 0, opw := 0 })

/-! ## What memory traffic may change -/

/-- What translating, fetching lines, writing back and applying stores may change: bytes of memory (in their canonical form), what homes and hub keep
of it (subscriptions' counts, sequence numbers, directories, leases, pushes under way, frame records, relay-written flags, waiting writes, requests to the host),
the L1s and L2s with their counts, and the translation caches. Everything else stays: groups, teams, the referee, logs, slots, tasks, locks. -/
structure Traffic (s t : State) : Prop where
  wf : Memory.wf s.mem → Memory.wf t.mem
  groups : t.groups = s.groups
  teams : t.teams = s.teams
  referee : t.referee = s.referee
  cur : t.cur = s.cur
  inputs : t.inputs = s.inputs
  time : t.time = s.time
  cores : ∀ k, t.core k = { s.core k with l1 := (t.core k).l1, l1Hits := (t.core k).l1Hits, l1Misses := (t.core k).l1Misses }
  dies : ∀ d, t.die d = { s.die d with tlb := (t.die d).tlb, walkCache := (t.die d).walkCache, tlbMisses := (t.die d).tlbMisses, l2 := (t.die d).l2, l2Hits := (t.die d).l2Hits, l2Misses := (t.die d).l2Misses }
  hub : t.hub = { s.hub with pushNet := t.hub.pushNet, upstream := t.hub.upstream, frames := t.hub.frames, moves := t.hub.moves, retries := t.hub.retries, relayFlags := t.hub.relayFlags }

/-- A logged operation has been served: it has left its core's log, its slices no longer count it, and of its group only registers may differ otherwise.
-/
structure Served (s t : State) (o : LogOp) : Prop where
  wf : Memory.wf s.mem → Memory.wf t.mem
  groups : ∀ j, j ≠ o.gid → t.group j = s.group j
  group : GroupKept (s.group o.gid) (t.group o.gid)
  issueNo : (t.group o.gid).issueNo = (s.group o.gid).issueNo
  counted : ∀ i, i < (s.group o.gid).slices.length → o.gang.getLsbD i = true →
    (t.group o.gid).slice i = (let x := (s.group o.gid).slice i; x.setCount o.kind.counter (x.count o.kind.counter - o.kind.weight o.active i))
  others : ∀ i, o.gang.getLsbD i = false → (t.group o.gid).slice i = (s.group o.gid).slice i
  log : (t.core (s.group o.gid).core).log = (s.core (s.group o.gid).core).log.filter fun p => decide (p.id ≠ o.id)
  logs : ∀ k, k ≠ (s.group o.gid).core → (t.core k).log = (s.core k).log
  referee : t.referee = s.referee
  cur : t.cur = s.cur
  inputs : t.inputs = s.inputs
  time : t.time = s.time

/-! ## Safe runs -/

/-- The invariant: memory is in its canonical form. -/
def Inv (s : State) : Prop := Memory.wf s.mem

/-- The outcome is no stop. -/
def Goes : Host.Outcome State Fault Refusal → Bool
  | .next _ => true
  | .fault _ => false
  | .refused _ => false

end Sys2Proof.Machine
end

