-- ==== Sys2Proof/WellFormed.lean ====
section
/-! DEFINITION. Which terms of Instr stand for something. A word is its bit fields, whose widths their types hold, so every word row is well-formed but that a
reserved word must have a reserved opcode (01 R34); an event names a unit that the package has, and what it carries has its size. -/
namespace Sys2Proof

/-- The rows that are instruction words. -/
def Instr.isWord (i : Instr) : Bool := (encodeNat i).isSome

/-- The row that the decoder gives for a row's word: MIGR_MOVE, MIGR_RETIRE and MIGR_CLAIM share one word, whose operation word in the pair a names the operation (11 R322). -/
def Instr.decoded : Instr → Instr
  | .migrRetire d a b => .migrMove d a b
  | .migrClaim d a b => .migrMove d a b
  | i => i

/-- Well-formedness: a core, die, slot, page, partition, virtual function, home, group, gang, port or block that exists; lengths and codes within their limits. -/
def Instr.wellFormed : Instr → Bool
  | .add _ _ _ => true
  | .sub _ _ _ => true
  | .mul _ _ _ => true
  | .mulh _ _ _ => true
  | .mad _ _ _ => true
  | .min _ _ _ => true
  | .max _ _ _ => true
  | .abs _ _ => true
  | .neg _ _ => true
  | .and _ _ _ => true
  | .or _ _ _ => true
  | .xor _ _ _ => true
  | .andn _ _ _ => true
  | .not _ _ => true
  | .shl _ _ _ => true
  | .shr _ _ _ => true
  | .sar _ _ _ => true
  | .rol _ _ _ => true
  | .popc _ _ => true
  | .clz _ _ => true
  | .brev _ _ => true
  | .bfe _ _ _ => true
  | .bfi _ _ _ => true
  | .sel _ _ _ => true
  | .cmp _ _ _ _ => true
  | .mov _ _ => true
  | .plog _ _ _ _ => true
  | .addi _ _ _ => true
  | .movi _ _ => true
  | .movhi _ _ => true
  | .shli _ _ _ => true
  | .shri _ _ _ => true
  | .sari _ _ _ => true
  | .andi _ _ _ => true
  | .ori _ _ _ => true
  | .fadd _ _ _ => true
  | .fsub _ _ _ => true
  | .fmul _ _ _ => true
  | .ffma _ _ _ => true
  | .fmin _ _ _ => true
  | .fmax _ _ _ => true
  | .fabs _ _ => true
  | .fneg _ _ => true
  | .fcmp _ _ _ _ => true
  | .fclass _ _ => true
  | .frcp _ _ => true
  | .frsq _ _ => true
  | .fsqrt _ _ => true
  | .fexp2 _ _ => true
  | .flog2 _ _ => true
  | .fsin _ _ => true
  | .fcos _ _ => true
  | .ftanh _ _ => true
  | .fdot2 _ _ _ => true
  | .fscale _ _ _ => true
  | .cvt _ _ _ _ => true
  | .cvtr _ _ _ _ _ => true
  | .rndint _ _ => true
  | .shfl _ _ _ => true
  | .shflx _ _ _ => true
  | .voteAny _ _ => true
  | .voteAll _ _ => true
  | .voteBal _ _ => true
  | .redu _ _ _ => true
  | .scan _ _ _ _ => true
  | .laneMatch _ _ => true
  | .bcast _ _ _ => true
  | .uadd _ _ _ => true
  | .usub _ _ _ => true
  | .umul _ _ _ => true
  | .umad _ _ _ => true
  | .uand _ _ _ => true
  | .uor _ _ _ => true
  | .uxor _ _ _ => true
  | .ushl _ _ _ => true
  | .ushr _ _ _ => true
  | .usar _ _ _ => true
  | .umin _ _ _ => true
  | .umax _ _ _ => true
  | .ucmp _ _ _ _ => true
  | .usel _ _ _ => true
  | .umovi _ _ => true
  | .umovhi _ _ => true
  | .uaddi _ _ _ => true
  | .umov _ _ => true
  | .getsr _ _ => true
  | .bra _ _ => true
  | .braq _ _ => true
  | .call _ => true
  | .ret => true
  | .mark _ => true
  | .join => true
  | .regang _ => true
  | .exit => true
  | .yield => true
  | .spinw => true
  | .trap _ => true
  | .nop => true
  | .setmode _ => true
  | .setgrd _ => true
  | .ldb _ _ _ => true
  | .ldh _ _ _ => true
  | .ldw _ _ _ => true
  | .ldd _ _ _ => true
  | .ldq _ _ _ => true
  | .stb _ _ _ => true
  | .sth _ _ _ => true
  | .stw _ _ _ => true
  | .std _ _ _ => true
  | .stq _ _ _ => true
  | .ldu _ _ _ => true
  | .stu _ _ _ => true
  | .sxld _ _ _ => true
  | .sxst _ _ _ => true
  | .pref _ _ _ => true
  | .lds _ _ _ _ _ => true
  | .unsub _ _ _ => true
  | .aadd _ _ _ => true
  | .amin _ _ _ => true
  | .amax _ _ _ => true
  | .aand _ _ _ => true
  | .aor _ _ _ => true
  | .axor _ _ _ => true
  | .axch _ _ _ => true
  | .acas _ _ _ => true
  | .faadd _ _ _ => true
  | .faopen _ _ _ => true
  | .bankcfgGrow _ => true
  | .bankcfgShrink _ => true
  | .bankcfgFifo _ _ => true
  | .bankcfgUnfifo _ _ => true
  | .bind _ _ _ _ => true
  | .unbind _ _ => true
  | .acq _ _ _ => true
  | .relSt _ _ _ => true
  | .relAdd _ _ _ => true
  | .fence _ _ _ => true
  | .waitc _ _ => true
  | .batch _ => true
  | .waitb _ => true
  | .barinit _ _ => true
  | .bara _ _ _ _ => true
  | .barw _ _ _ => true
  | .cpy _ _ _ _ => true
  | .cpyx _ _ _ _ => true
  | .cpys _ _ _ _ => true
  | .sclaim _ _ _ => true
  | .srel _ _ => true
  | .tpost _ _ => true
  | .tqry _ _ => true
  | .kvapp _ _ _ => true
  | .kvgrow _ _ _ _ => true
  | .kvevict _ _ _ _ => true
  | .slabld _ _ _ => true
  | .slabst _ _ _ => true
  | .pin _ _ => true
  | .unpin _ _ => true
  | .phint _ _ _ => true
  | .pcnt _ _ _ => true
  | .launch _ _ => true
  | .solo => true
  | .tret _ => true
  | .crd _ _ => true
  | .cwr _ _ => true
  | .tlbiVa _ _ => true
  | .tlbiAsid _ => true
  | .tlbiGva _ _ => true
  | .tlbiVmid _ => true
  | .ptst _ _ _ => true
  | .ifence => true
  | .unsolo => true
  | .migrMove _ _ _ => true
  | .migrRetire _ _ _ => true
  | .migrClaim _ _ _ => true
  | .snap _ _ => true
  | .ftmap _ _ => true
  | .ringp _ => true
  | .gres _ _ _ => true
  | .gkill _ _ => true
  | .reservedOpcode w => !opcodeUsed (w.toNat / 2 ^ 24)
  | .regangMerge gid => decide (gid < 160 * 32 * 64)
  | .yieldRelease gid gang => decide (gid < 160 * 32 * 64 ∧ gang < 64)
  | .spinAgePromote gid gang => decide (gid < 160 * 32 * 64 ∧ gang < 64)
  | .postTaken core part => decide (core < 160 ∧ part < 8)
  | .loadDataReturn core _ => decide (core < 160)
  | .storePerformed core _ => decide (core < 160)
  | .atomicReply core _ => decide (core < 160)
  | .groupRetire gid => decide (gid < 160 * 32 * 64)
  | .waitcPass gid gang => decide (gid < 160 * 32 * 64 ∧ gang < 64)
  | .waitbPass gid gang => decide (gid < 160 * 32 * 64 ∧ gang < 64)
  | .barwPass gid gang => decide (gid < 160 * 32 * 64 ∧ gang < 64)
  | .translationWalk core _ => decide (core < 160)
  | .bankModeChange core => decide (core < 160)
  | .fifoPushComplete core _ => decide (core < 160)
  | .fifoPopComplete core _ => decide (core < 160)
  | .orderedAddApply _ => true
  | .homeStoreApply pa bytes => decide (pa % 2 ^ 57 + bytes.length ≤ 2 ^ 57 ∧ pa / 2 ^ 57 < 17)
  | .pushArrival _ => true
  | .refusedPushReturn _ => true
  | .inboxDelivery core => decide (core < 160)
  | .inboxSignal core => decide (core < 160)
  | .redelivery home core => decide (home < 6 ∧ core < 160)
  | .redeliveryAccept _ => true
  | .subRemove _ => true
  | .unsubComplete _ => true
  | .subLoss home _ cause => decide (home < 6 ∧ 1 ≤ cause ∧ cause ≤ 4)
  | .subPark _ => true
  | .subRepoint _ => true
  | .leaseRenew home _ => decide (home < 6)
  | .leaseRelease home _ _ => decide (home < 6)
  | .leaseExpiry home _ _ => decide (home < 6)
  | .rangeLockStart die _ => decide (die < 4)
  | .copyTransfer core _ => decide (core < 160)
  | .copyFault core _ => decide (core < 160)
  | .copyComplete core _ => decide (core < 160)
  | .relayEnqueue core _ => decide (core < 160)
  | .barrierArrival _ => true
  | .slotZero core => decide (core < 160)
  | .taskFetch core _ => decide (core < 160)
  | .taskStart core _ => decide (core < 160)
  | .taskStep core _ => decide (core < 160)
  | .taskComplete core _ => decide (core < 160)
  | .growPageMove core _ => decide (core < 160)
  | .evictRun die => decide (die < 4)
  | .evictSwitch die => decide (die < 4)
  | .evictComplete die _ => decide (die < 4)
  | .evictFault die => decide (die < 4)
  | .shootdown _ asid vmid va => decide (asid < 2 ^ 16 ∧ vmid < 2 ^ 14 ∧ (va.all fun x => decide (x < 2 ^ 64)) = true)
  | .migrateLine slot => decide (slot < 16)
  | .stalledWriteRetry _ => true
  | .claimRequest frame _ part => decide (frame < 2 ^ 45 ∧ part < 12)
  | .handoverRelease frame => decide (frame < 2 ^ 45)
  | .holimExpiry frame => decide (frame < 2 ^ 45)
  | .claimTimeout entry => decide (entry < 16)
  | .claimGrant entry => decide (entry < 16)
  | .claimRefusal entry _ => decide (entry < 16)
  | .shareInc part frame => decide (part < 12 ∧ frame < 2 ^ 45)
  | .shareDec part frame => decide (part < 12 ∧ frame < 2 ^ 45)
  | .pinInc part frame => decide (part < 12 ∧ frame < 2 ^ 45)
  | .pinDec part frame => decide (part < 12 ∧ frame < 2 ^ 45)
  | .pinClr part frame => decide (part < 12 ∧ frame < 2 ^ 45)
  | .accClr part frame => decide (part < 12 ∧ frame < 2 ^ 45)
  | .assign part frame operand => decide (frame < 2 ^ 45 ∧ ((part < 12 ∧ operand < 16) ∨ (part = 12 ∧ operand % 16 < 12 ∧ operand < 2 ^ 51)))
  | .free part frame => decide (part < 12 ∧ frame < 2 ^ 45)
  | .leaseClr die part _ => decide (die < 4 ∧ part < 12)
  | .tfcurWrite gid _ => decide (gid < 160 * 32 * 64)
  | .controlRegWrite space _ off _ => decide (space < 11 ∧ off < (if space = 5 ∨ space = 6 then 2 ^ 38 else if space = 7 ∨ space = 8 then 8192 else 4096))
  | .trapDelivery gid => decide (gid < 160 * 32 * 64)
  | .heldTrapEnter core => decide (core < 160)
  | .heldTrapRetry core => decide (core < 160)
  | .faultQueuePost => true
  | .faultQueueRetry => true
  | .refereeForward => true
  | .refereeRingRetry _ => true
  | .pqpop die => decide (die < 4)
  | .commit die _ => decide (die < 4)
  | .preempt die _ => decide (die < 4)
  | .swap die => decide (die < 4)
  | .spill core slot => decide (core < 160 ∧ slot < 32)
  | .spillComplete core slot => decide (core < 160 ∧ slot < 32)
  | .restoreFill core slot => decide (core < 160 ∧ slot < 32)
  | .teamRelease core slot => decide (core < 160 ∧ slot < 32)
  | .submit page pkt => decide (page < 140 ∧ pkt.length = 128)
  | .launchPacket => true
  | .fabricFrameRx port frame _ => decide (port < 8 ∧ frame.length < 2 ^ 16)
  | .launchRequest => true
  | .launchReply _ => true
  | .responseWrite page => decide (page < 140)
  | .gridDeal _ => true
  | .gridComplete _ => true
  | .functionLevelReset vf => decide (vf < 128)
  | .hotReset => true
  | .dieReadmit die => decide (die < 4)
  | .coldStart => true
  | .bootStage reason => decide (reason < 7)
  | .bootStageTimeout => true
  | .getBootStatus src arg => decide (src < 2 ∧ arg.length ≤ 4096)
  | .setOwner src arg => decide (src < 2 ∧ arg.length ≤ 4096)
  | .imageBegin src arg => decide (src < 2 ∧ arg.length ≤ 4096)
  | .imageData src arg => decide (src < 2 ∧ arg.length ≤ 4096)
  | .imageEnd src arg => decide (src < 2 ∧ arg.length ≤ 4096)
  | .commitSvn src arg => decide (src < 2 ∧ arg.length ≤ 4096)
  | .setPartition src arg => decide (src < 2 ∧ arg.length ≤ 4096)
  | .getPartition src arg => decide (src < 2 ∧ arg.length ≤ 4096)
  | .setTenant src arg => decide (src < 2 ∧ arg.length ≤ 4096)
  | .getTenant src arg => decide (src < 2 ∧ arg.length ≤ 4096)
  | .tearDown src arg => decide (src < 2 ∧ arg.length ≤ 4096)
  | .dieReset src arg => decide (src < 2 ∧ arg.length ≤ 4096)
  | .snapMailbox src arg => decide (src < 2 ∧ arg.length ≤ 4096)
  | .setHolim src arg => decide (src < 2 ∧ arg.length ≤ 4096)
  | .readLog src arg => decide (src < 2 ∧ arg.length ≤ 4096)
  | .readSensors src arg => decide (src < 2 ∧ arg.length ≤ 4096)
  | .spdm src arg => decide (src < 3 ∧ arg.length ≤ 4096)
  | .snaptrig _ => true
  | .snapshotLatch block => decide (block < 236)
  | .snapshotComplete => true
  | .gcmdGres part => decide (part < 12)
  | .gcmdGresSkip part => decide (part < 12)
  | .gcmdGkill part => decide (part < 12)
  | .pacerRecordWrite core slot bytes => decide (core < 160 ∧ slot < 32 ∧ (bytes.length = 256 ∨ bytes = [0]))
  | .rspheadWrite page _ => decide (page < 140)
  | .rspbaseWrite page _ => decide (page < 140)
  | .lineRequest _ pa _ => decide (pa < 2 ^ 57)
  | .completionTimeout core _ => decide (core < 160)
  | .sensorBeyondLimit sensor => decide (sensor < 2 ^ 16)

end Sys2Proof
end

