-- ==== Sys2Proof/Certificates/Slice0/Obligations.lean ====
section
/-! DEFINITION. The statements for the provers: each formalises rules of the spec, chapter by chapter. Where a statement rests on a choice of the model, its docstring
names the log entry. A statement about an instruction word holds for every state in which a gang issues it (issuer) and its word passes the decode checks with its registers
ready (issues). -/

namespace Sys2Proof.Machine

/-! ## Vector integer instructions (03) -/

/-- R84: ABS, NEG, NOT, POPC, CLZ, BREV and MOV. -/
def vectorOneSource : Prop :=
  ∀ d a : BitVec 8,
    ElemsSay (.abs d a) d.toNat (fun g l e => fitLane g l true (if 0 ≤ srcInt g a.toNat l e then srcInt g a.toNat l e else -srcInt g a.toNat l e)) ∧
    ElemsSay (.neg d a) d.toNat (fun g l e => fitLane g l true (-srcInt g a.toNat l e)) ∧
    BitsSay (.not d a) d.toNat (fun g l j => !(laneSrc g a.toNat l).testBit j) ∧
    ElemsSay (.popc d a) d.toNat (fun g l e => (List.range (etWidth (laneEt g l))).countP fun j => (srcElem g a.toNat l e).testBit j) ∧
    VecSays (.clz d a) d.toNat (fun g _ l x => ∀ e, e < etCount (laneEt g l) →
      let w := etWidth (laneEt g l); let n := elem x w e
      n ≤ w ∧ (∀ j, w - n ≤ j → j < w → (srcElem g a.toNat l e).testBit j = false) ∧ (n < w → (srcElem g a.toNat l e).testBit (w - 1 - n) = true)) ∧
    ElemBitsSay (.brev d a) d.toNat (fun g l e j => (srcElem g a.toNat l e).testBit (etWidth (laneEt g l) - 1 - j)) ∧
    BitsSay (.mov d a) d.toNat (fun g l j => (laneSrc g a.toNat l).testBit j)

/-- The amount of a register shift (R86): for a packed type the same element of b, for a scalar type the 32-bit operand b. -/
def shiftAmount (g : Group) (b l e : Nat) : Nat := if etCount (laneEt g l) = 1 then (readV g b l).toNat else srcElem g b l e

/-- R86: SHL, SHR, SAR and ROL, bit by bit. -/
def vectorShifts : Prop :=
  ∀ d a b : BitVec 8,
    ElemBitsSay (.shl d a b) d.toNat (fun g l e j => decide (shiftAmount g b.toNat l e ≤ j) && (srcElem g a.toNat l e).testBit (j - shiftAmount g b.toNat l e)) ∧
    ElemBitsSay (.shr d a b) d.toNat (fun g l e j => (srcElem g a.toNat l e).testBit (j + shiftAmount g b.toNat l e)) ∧
    ElemBitsSay (.sar d a b) d.toNat (fun g l e j =>
      (srcElem g a.toNat l e).testBit (if j + shiftAmount g b.toNat l e < etWidth (laneEt g l) then j + shiftAmount g b.toNat l e else etWidth (laneEt g l) - 1)) ∧
    ElemBitsSay (.rol d a b) d.toNat (fun g l e j =>
      (srcElem g a.toNat l e).testBit ((j + etWidth (laneEt g l) - shiftAmount g b.toNat l e % etWidth (laneEt g l)) % etWidth (laneEt g l)))

/-- Position and width of a bit field (R87), for operands of n bits. -/
def fieldPos (g : Group) (b l : Nat) : Nat := (readV g b l).toNat % 256

def fieldWidth (g : Group) (b l n : Nat) : Nat :=
  min (if n ≤ fieldPos g b l then 0 else (readV g b l).toNat / 256 % 256) (n - fieldPos g b l)

/-- R87: BFE takes a field, extended as the type is signed; BFI puts one in and leaves the other bits of d. -/
def bitFields : Prop :=
  ∀ d a b : BitVec 8,
    BitsSay (.bfe d a b) d.toNat (fun g l j =>
      let pos := fieldPos g b.toNat l; let wd := fieldWidth g b.toNat l (laneBitsOf g l)
      if j < wd then (laneSrc g a.toNat l).testBit (pos + j)
      else etSigned (laneEt g l) && decide (wd ≠ 0) && (laneSrc g a.toNat l).testBit (pos + wd - 1)) ∧
    BitsSay (.bfi d a b) d.toNat (fun g l j =>
      let pos := fieldPos g b.toNat l; let wd := fieldWidth g b.toNat l (laneBitsOf g l)
      if pos ≤ j ∧ j < pos + wd then (laneSrc g a.toNat l).testBit (j - pos) else (laneSrc g d.toNat l).testBit j)

/-- R91: the immediate forms. -/
def vectorImmediates : Prop :=
  (∀ d a imm : BitVec 8,
    ElemsSay (.addi d a imm) d.toNat (fun g l e => fitLane g l true (srcInt g a.toNat l e + imm.toInt)) ∧
    ElemBitsSay (.shli d a imm) d.toNat (fun g l e j => decide (imm.toNat ≤ j) && (srcElem g a.toNat l e).testBit (j - imm.toNat)) ∧
    ElemBitsSay (.shri d a imm) d.toNat (fun g l e j => (srcElem g a.toNat l e).testBit (j + imm.toNat)) ∧
    ElemBitsSay (.sari d a imm) d.toNat (fun g l e j =>
      (srcElem g a.toNat l e).testBit (if j + imm.toNat < etWidth (laneEt g l) then j + imm.toNat else etWidth (laneEt g l) - 1)) ∧
    BitsSay (.andi d a imm) d.toNat (fun g l j => (laneSrc g a.toNat l).testBit j && imm.getLsbD j) ∧
    BitsSay (.ori d a imm) d.toNat (fun g l j => (laneSrc g a.toNat l).testBit j || imm.getLsbD j)) ∧
  (∀ (d : BitVec 8) (imm : BitVec 16),
    LaneSays (.movi d imm) d.toNat (fun _ _ _ _ => imm.signExtend 32) ∧
    LaneSays (.movhi d imm) d.toNat (fun _ g _ l => imm ++ (readV g d.toNat l).extractLsb' 0 16))

end Sys2Proof.Machine

section
open Sys2Proof Sys2Proof.Machine

/-- R83: ADD, SUB, MUL, MULH, MAD, MIN and MAX write fit of the exact result, element by element, in the active lanes; nothing else changes but the PC. -/
def Obligations.VectorArithmetic : Prop :=
  ∀ d a b : BitVec 8,
    ElemsSay (.add d a b) d.toNat (fun g l e => fitLane g l true (srcInt g a.toNat l e + srcInt g b.toNat l e)) ∧
    ElemsSay (.sub d a b) d.toNat (fun g l e => fitLane g l true (srcInt g a.toNat l e - srcInt g b.toNat l e)) ∧
    ElemsSay (.mul d a b) d.toNat (fun g l e => fitLane g l true (srcInt g a.toNat l e * srcInt g b.toNat l e)) ∧
    ElemsSay (.mulh d a b) d.toNat (fun g l e => fitLane g l false (srcInt g a.toNat l e * srcInt g b.toNat l e / 2 ^ etWidth (laneEt g l))) ∧
    ElemsSay (.mad d a b) d.toNat (fun g l e => fitLane g l true (srcInt g a.toNat l e * srcInt g b.toNat l e + srcInt g d.toNat l e)) ∧
    ElemsSay (.min d a b) d.toNat (fun g l e => fitLane g l false (if srcInt g a.toNat l e ≤ srcInt g b.toNat l e then srcInt g a.toNat l e else srcInt g b.toNat l e)) ∧
    ElemsSay (.max d a b) d.toNat (fun g l e => fitLane g l false (if srcInt g a.toNat l e ≤ srcInt g b.toNat l e then srcInt g b.toNat l e else srcInt g a.toNat l e))

/-- R85: AND, OR, XOR and ANDN act on the whole word. -/
def Obligations.VectorBitwise : Prop :=
  ∀ d a b : BitVec 8,
    encode (.and d a b) = 0x0A#8 ++ d ++ a ++ b ∧ encode (.or d a b) = 0x0B#8 ++ d ++ a ++ b ∧ encode (.xor d a b) = 0x0C#8 ++ d ++ a ++ b ∧
    encode (.andn d a b) = 0x0D#8 ++ d ++ a ++ b ∧
    BitsSay (.and d a b) d.toNat (fun g l j => (laneSrc g a.toNat l).testBit j && (laneSrc g b.toNat l).testBit j) ∧
    BitsSay (.or d a b) d.toNat (fun g l j => (laneSrc g a.toNat l).testBit j || (laneSrc g b.toNat l).testBit j) ∧
    BitsSay (.xor d a b) d.toNat (fun g l j => (laneSrc g a.toNat l).testBit j ^^ (laneSrc g b.toNat l).testBit j) ∧
    BitsSay (.andn d a b) d.toNat (fun g l j => (laneSrc g a.toNat l).testBit j && !(laneSrc g b.toNat l).testBit j)

/-- R88 to R90: SEL writes every running lane, its source chosen by the guard; CMP and PLOG write a predicate. -/
def Obligations.SelectAndPredicates : Prop :=
  (∀ d a b : BitVec 8, encode (.sel d a b) = 0x18#8 ++ d ++ a ++ b) ∧
  (∀ (g : Group) l, (mGuard (laneMode g l) = 7 → guardTrue g l = true) ∧ (mGuard (laneMode g l) = 15 → guardTrue g l = false)) ∧
  (∀ (d a b : BitVec 8) s c, issuer s = some c → issues (encode (.sel d a b)) s = true →
    Completes (.sel d a b) s fun t => ∃ f, VecResult s t c d.toNat (runs (s.group c.gid) c) (laneWide (s.group c.gid)) f ∧
      ∀ l, l < 256 → runs (s.group c.gid) c l = true →
        f l = laneSrc (s.group c.gid) (if guardTrue (s.group c.gid) l then a.toNat else b.toNat) l) ∧
  (∀ (cond pd : BitVec 4) (a b : BitVec 8), PredSays (.cmp cond pd a b) pd.toNat fun g _ l =>
    let x := srcInt g a.toNat l 0; let y := srcInt g b.toNat l 0
    if cond = 0 then decide (x = y) else if cond = 1 then decide (x ≠ y) else if cond = 2 then decide (x < y)
    else if cond = 3 then decide (x ≤ y) else if cond = 4 then decide (y < x) else decide (y ≤ x)) ∧
  (∀ op pd pa pb : BitVec 4, PredSays (.plog op pd pa pb) pd.toNat fun g _ l =>
    if op = 0 then readP g pa.toNat l && readP g pb.toNat l else if op = 1 then readP g pa.toNat l || readP g pb.toNat l
    else readP g pa.toNat l ^^ readP g pb.toNat l)

/-- Register shifts and bit fields. -/
def Obligations.VectorShiftsAndFields : Prop := vectorShifts ∧ bitFields

/-- The one-source instructions and the immediate forms. -/
def Obligations.VectorOneSourceAndImmediates : Prop := vectorOneSource ∧ vectorImmediates

end

namespace Sys2Proof.Machine

/-! ## Lane instructions (03) -/

/-! ## Uniform instructions (03) -/

/-- The integer of a uniform operand at the width and signedness of the class (R99). -/
def uniInt (s : State) (g : Group) (c : Ctx) (code : Nat) : Int := val (readUN s g c code) (uBits g) (uSigned g)

/-- The low bits of an exact result. -/
def uniLow (g : Group) (v : Int) : Nat := (v % (2 ^ uBits g : Int)).toNat

/-- R101, R102: UCMP, USEL, UMOVI, UMOVHI and UMOV. -/
def uniformMovesAndCompare : Prop :=
  (∀ (cond p : BitVec 4) (a b : BitVec 8) s c, issuer s = some c → issues (encode (.ucmp cond p a b)) s = true → uniformSplit (s.group c.gid) c = false →
    Completes (.ucmp cond p a b) s fun t => QResult s t c p.toNat
      (let x := uniInt s (s.group c.gid) c a.toNat; let y := uniInt s (s.group c.gid) c b.toNat
       if cond = 0 then decide (x = y) else if cond = 1 then decide (x ≠ y) else if cond = 2 then decide (x < y)
       else if cond = 3 then decide (x ≤ y) else if cond = 4 then decide (y < x) else decide (y ≤ x))) ∧
  (∀ d a b : BitVec 8, UniSays (.usel d a b) d.toNat fun s g c => readUN s g c (if g.uq.getLsbD 0 then a.toNat else b.toNat)) ∧
  (∀ d a : BitVec 8, UniSays (.umov d a) d.toNat fun s g c => readUN s g c a.toNat) ∧
  (∀ (d : BitVec 8) (imm : BitVec 16),
    Uni32Says (.umovi d imm) d.toNat (fun _ _ _ => imm.signExtend 32) ∧
    Uni32Says (.umovhi d imm) d.toNat (fun _ g _ => imm ++ (uget g d.toNat).extractLsb' 0 16))

/-- R103: GETSR gives every active lane the value of a; %lane, %slice and %mode each lane or slice its own. -/
def getSpecialRegister : Prop :=
  ∀ d a : BitVec 8, LaneSays (.getsr d a) d.toNat fun s g c l =>
    if a = 0xC0 then BitVec.ofNat 32 l else if a = 0xC1 then BitVec.ofNat 32 (l / 4) else if a = 0xD0 then (g.slice (l / 4)).mode
    else readU s g c a.toNat

end Sys2Proof.Machine

section
open Sys2Proof Sys2Proof.Machine

/-- R94: SHFL, SHFLX and BCAST copy a from a chosen lane; a lane that does not participate is replaced by the reader itself (R93). -/
def Obligations.LaneCopies : Prop :=
  let from_ (g : Group) (c : Ctx) (l j : Nat) : Nat := if j < 256 ∧ runs g c j = true then j else l
  ∀ d a b : BitVec 8,
    encode (.shfl d a b) = 0x50#8 ++ d ++ a ++ b ∧ encode (.shflx d a b) = 0x51#8 ++ d ++ a ++ b ∧ encode (.bcast d a b) = 0x56#8 ++ d ++ a ++ b ∧
    WordSays (.shfl d a b) d.toNat (fun g c l => readN g a.toNat (laneWide g l) (from_ g c l (readV g b.toNat l).toNat)) ∧
    WordSays (.shflx d a b) d.toNat (fun g c l => readN g a.toNat (laneWide g l) (from_ g c l (l ^^^ b.toNat))) ∧
    WordSays (.bcast d a b) d.toNat (fun g c l => readN g a.toNat (laneWide g l) (from_ g c l b.toNat))

/-- R95 to R97: VOTE, REDU, SCAN and MATCH over the active lanes. -/
def Obligations.LaneReductions : Prop :=
  ∀ d a : BitVec 8,
    encode (.laneMatch d a) = 0x55#8 ++ d ++ a ++ 0#8 ∧
    PredSays (.voteAny d a) (d.toNat % 16) (fun g c _ => (List.range 256).any fun k => isActive g c k && readP g (a.toNat % 16) k) ∧
    PredSays (.voteAll d a) (d.toNat % 16) (fun g c _ => (List.range 256).all fun k => !isActive g c k || readP g (a.toNat % 16) k) ∧
    (∀ s c, issuer s = some c → issues (encode (.voteBal d a)) s = true →
      Completes (.voteBal d a) s fun t => ∃ f, LaneResult s t c d.toNat (isActive (s.group c.gid) c) f ∧
        ∀ l j, l < 256 → j < 32 → (f l).getLsbD j =
          (isActive (s.group c.gid) c (32 * (l % 8) + j) && readP (s.group c.gid) (a.toNat % 16) (32 * (l % 8) + j))) ∧
    (∀ o : BitVec 3, WordSays (.redu d a o) d.toNat fun g c l =>
      combine o.toNat (laneMode g l) (((List.range 256).filter fun k => isActive g c k).map fun k => readN g a.toNat (laneWide g l) k)) ∧
    (∀ (e : BitVec 1) (o : BitVec 3), WordSays (.scan d a e o) d.toNat fun g c l =>
      combine o.toNat (laneMode g l) (((List.range 256).filter fun k => isActive g c k && (if e = 1 then decide (k < l) else decide (k ≤ l))).map
        fun k => readN g a.toNat (laneWide g l) k)) ∧
    (∀ s c, issuer s = some c → issues (encode (.laneMatch d a)) s = true →
      Completes (.laneMatch d a) s fun t => ∃ f : Nat → Nat, LaneResult s t c d.toNat (isActive (s.group c.gid) c) (fun l => BitVec.ofNat 32 (f l)) ∧
        ∀ l, l < 256 → isActive (s.group c.gid) c l = true →
          f l ≤ l ∧ isActive (s.group c.gid) c (f l) = true ∧
          readN (s.group c.gid) a.toNat (laneWide (s.group c.gid) l) (f l) = readN (s.group c.gid) a.toNat (laneWide (s.group c.gid) l) l ∧
          ∀ k, k < f l → isActive (s.group c.gid) c k = true →
            readN (s.group c.gid) a.toNat (laneWide (s.group c.gid) l) k ≠ readN (s.group c.gid) a.toNat (laneWide (s.group c.gid) l) l)

/-- R100: the uniform arithmetic writes the low bits of the exact result; bitwise work and shifts too. -/
def Obligations.UniformArithmetic : Prop :=
  ∀ d a b : BitVec 8,
    UniSays (.uadd d a b) d.toNat (fun s g c => uniLow g (uniInt s g c a.toNat + uniInt s g c b.toNat)) ∧
    UniSays (.usub d a b) d.toNat (fun s g c => uniLow g (uniInt s g c a.toNat - uniInt s g c b.toNat)) ∧
    UniSays (.umul d a b) d.toNat (fun s g c => uniLow g (uniInt s g c a.toNat * uniInt s g c b.toNat)) ∧
    UniSays (.umad d a b) d.toNat (fun s g c => uniLow g (uniInt s g c a.toNat * uniInt s g c b.toNat + uniInt s g c d.toNat)) ∧
    UniSays (.uand d a b) d.toNat (fun s g c => readUN s g c a.toNat &&& readUN s g c b.toNat) ∧
    UniSays (.uor d a b) d.toNat (fun s g c => readUN s g c a.toNat ||| readUN s g c b.toNat) ∧
    UniSays (.uxor d a b) d.toNat (fun s g c => readUN s g c a.toNat ^^^ readUN s g c b.toNat) ∧
    UniSays (.ushl d a b) d.toNat (fun s g c => if (readU s g c b.toNat).toNat < uBits g
      then uniLow g ((readUN s g c a.toNat : Int) * 2 ^ (readU s g c b.toNat).toNat) else 0) ∧
    UniSays (.ushr d a b) d.toNat (fun s g c => readUN s g c a.toNat / 2 ^ (readU s g c b.toNat).toNat) ∧
    UniSays (.usar d a b) d.toNat (fun s g c =>
      uniLow g (val (readUN s g c a.toNat) (uBits g) true / 2 ^ (if (readU s g c b.toNat).toNat < uBits g then (readU s g c b.toNat).toNat else uBits g - 1))) ∧
    UniSays (.umin d a b) d.toNat (fun s g c => if uniInt s g c a.toNat ≤ uniInt s g c b.toNat then readUN s g c a.toNat else readUN s g c b.toNat) ∧
    UniSays (.umax d a b) d.toNat (fun s g c => if uniInt s g c a.toNat ≤ uniInt s g c b.toNat then readUN s g c b.toNat else readUN s g c a.toNat) ∧
    UniSays (.uaddi d a b) d.toNat (fun s g c => uniLow g (uniInt s g c a.toNat + b.toInt))

/-- R78: a uniform write by a gang that lacks a live slice of its group raises UNIFORM_SPLIT for the lanes that run, with the destination field's code as its cause, and has
no other effect (the field of UCMP, and that of the two which SCLAIM and SLABLD have: log 63). LAUNCH has a statement of its own; the privileged ones issue in SOLO mode alone, which splits no write (R79). -/
def Obligations.UniformSplitTraps : Prop :=
  let traps (i : Instr) (code : Nat) : Prop := ∀ s c, issuer s = some c → issues (encode i) s = true → uniformSplit (s.group c.gid) c = true →
    let m := laneSet (runs (s.group c.gid) c)
    Raises i s c { code := 0x04, cause := code, fmask := m, lane := lowestLane m, addr := 0, opw := 0 }
  (∀ d a b : BitVec 8, traps (.uadd d a b) d.toNat ∧ traps (.usub d a b) d.toNat ∧ traps (.umul d a b) d.toNat ∧ traps (.umad d a b) d.toNat ∧
    traps (.uand d a b) d.toNat ∧ traps (.uor d a b) d.toNat ∧ traps (.uxor d a b) d.toNat ∧ traps (.ushl d a b) d.toNat ∧ traps (.ushr d a b) d.toNat ∧
    traps (.usar d a b) d.toNat ∧ traps (.umin d a b) d.toNat ∧ traps (.umax d a b) d.toNat ∧ traps (.uaddi d a b) d.toNat ∧ traps (.usel d a b) d.toNat ∧
    traps (.umov d a) d.toNat) ∧
  (∀ (d : BitVec 8) (imm : BitVec 16), traps (.umovi d imm) d.toNat ∧ traps (.umovhi d imm) d.toNat) ∧
  (∀ (cond p : BitVec 4) (a b : BitVec 8), traps (.ucmp cond p a b) p.toNat) ∧
  (∀ (d : BitVec 8) (p : BitVec 4) (imm : BitVec 8), traps (.batch d) d.toNat ∧ traps (.sclaim d p imm) d.toNat) ∧
  (∀ d a b : BitVec 8, traps (.ldu d a b) d.toNat ∧ traps (.faopen d a b) (d.toNat % 16)) ∧
  (∀ (p q : BitVec 4) (a b : BitVec 8) (f : BitVec 2), traps (.bankcfgGrow p) p.toNat ∧ traps (.bankcfgShrink p) p.toNat ∧ traps (.bankcfgFifo p f) p.toNat ∧
    traps (.bankcfgUnfifo p f) p.toNat ∧ traps (.bind f p a b) p.toNat ∧ traps (.unbind p a) p.toNat ∧ traps (.kvapp p a b) p.toNat ∧ traps (.pin p a) p.toNat ∧
    traps (.unpin p a) p.toNat ∧ traps (.slabld a b q) a.toNat)

/-- Uniform moves and compares, and what a lane reads of uniform state. -/
def Obligations.UniformMoves : Prop := uniformMovesAndCompare ∧ getSpecialRegister

end

namespace Sys2Proof.Machine

/-! ## Floating point (04) -/

/-- The format and the value of an element of a float operand (R105, R121). -/
def laneFmt (g : Group) (l : Nat) : Fmt := fmtOf (laneEt g l)

def fpElem (g : Group) (code l e : Nat) : FV := fpVal (laneFmt g l) (mFtz (laneMode g l)) (srcElem g code l e)

/-- Round an exact value under the mode of a lane, with the lowest of the kinds that arose. -/
def fpResult (g : Group) (l : Nat) (v : FV) (ks : List Nat) : Nat × Nat :=
  let r := fpRound (laneFmt g l) v (mRnd (laneMode g l)) false (mFtz (laneMode g l))
  (r.1, lowKind (r.2 :: ks))

/-- The exact sum of values, some of them products, rounded once. -/
def fpSum (g : Group) (l : Nat) (ops : List FV) (terms : List (FV × Nat)) : Nat × Nat :=
  let t := sumFV (terms.map (·.1)) (mRnd (laneMode g l))
  fpResult g l (if terms.any (·.1.isNan) then .nan false else t.1) (sigKind ops :: t.2 :: terms.map (·.2))

/-- A float instruction whose elements are those of its own type. -/
def FpSays (i : Instr) (d : Nat) (el : Group → Nat → Nat → Nat × Nat) : Prop :=
  FloatSays i d (fun g l => elemList g l (el g l)) laneWide fun g l => packBits (etWidth (laneEt g l)) (elemList g l (el g l))

/-- R126, R128, R132: the function instructions give, element by element, what their function gives (functionValues); FSCALE scales every element by the same power
of two; RNDINT rounds to an integral value. -/
def floatFunctions : Prop :=
  let fn (f : Word → Fmt → FV → Nat × Nat) (a : Nat) (g : Group) (l e : Nat) : Nat × Nat := f (laneMode g l) (laneFmt g l) (fpElem g a l e)
  (∀ d a : BitVec 8,
    FpSays (.frcp d a) d.toNat (fn frcp a.toNat) ∧ FpSays (.frsq d a) d.toNat (fn frsq a.toNat) ∧ FpSays (.fsqrt d a) d.toNat (fn fsqrt a.toNat) ∧
    FpSays (.fexp2 d a) d.toNat (fn fexp2 a.toNat) ∧ FpSays (.flog2 d a) d.toNat (fn flog2 a.toNat) ∧ FpSays (.fsin d a) d.toNat (fn fsin a.toNat) ∧
    FpSays (.fcos d a) d.toNat (fn fcos a.toNat) ∧ FpSays (.ftanh d a) d.toNat (fn ftanh a.toNat) ∧ FpSays (.rndint d a) d.toNat (fn rndInt a.toNat)) ∧
  (∀ d a b : BitVec 8, FpSays (.fscale d a b) d.toNat fun g l e =>
    let x := fpElem g a.toNat l e
    if x.isNan then ((laneFmt g l).nan, sigKind [x])
    else fpRound (laneFmt g l) (match x with | .fin neg n k => .fin neg n (k + (readV g b.toNat l).toInt) | v => v) (mRnd (laneMode g l)) false (mFtz (laneMode g l)))

/-- 2^k. -/
def pow2 (k : Int) : Rat := if 0 ≤ k then (2 : Rat) ^ k.toNat else 1 / (2 : Rat) ^ (-k).toNat

/-- R108: an exact magnitude rounded to a multiple of a unit, by mode: toward zero, away from it, or to the nearest, a tie to the even multiple or away from zero. -/
def roundingModes : Prop :=
  ∀ (neg : Bool) (m : Nat) (e q : Int) (rnd : Nat),
    let x : Rat := m * pow2 e
    let n : Rat := roundMag neg m false e q rnd * pow2 q
    ((rnd = 1 ∨ (rnd = 2 ∧ neg = false) ∨ (rnd = 3 ∧ neg = true)) → n ≤ x ∧ x < n + pow2 q) ∧
    (((rnd = 2 ∧ neg = true) ∨ (rnd = 3 ∧ neg = false)) → x ≤ n ∧ n < x + pow2 q) ∧
    ((rnd = 0 ∨ rnd = 4) → 2 * (x - n) ≤ pow2 q ∧ 2 * (n - x) ≤ pow2 q) ∧
    (rnd = 0 → (2 * (x - n) = pow2 q ∨ 2 * (n - x) = pow2 q) → roundMag neg m false e q rnd % 2 = 0) ∧
    (rnd = 4 → 2 * (x - n) ≠ pow2 q)

/-- r is the positive magnitude y at which a rising p takes the value t, rounded once: y is q * 2^k, or lies above it by less than a unit of a place that rounding does
not reach. -/
def RoundsTo (m : Word) (fm : Fmt) (neg : Bool) (p : Rat → Rat) (t : Rat) (r : Nat × Nat) : Prop :=
  ∃ (q : Nat) (st : Bool) (k : Int), 2 ^ (fm.fb + 3) ≤ q ∧ (if st then p (q * pow2 k) < t ∧ t < p ((q + 1) * pow2 k) else p (q * pow2 k) = t) ∧
    r = fpRoundMag fm neg q st k (mRnd m) false (mFtz m)

/-- R126: FRCP, FRSQ and FSQRT, their special cases and the exact value that they round; the cases of the other functions in which the value is known exactly. In the
rest, bounds of the value at a rising precision decide the rounding (the bounds, and the free choice where they never do, are the model's: log 14). -/
def functionValues : Prop :=
  ∀ (m : Word) (fm : Fmt),
    (∀ f ∈ [frcp, frsq, fsqrt, fexp2, flog2, fsin, fcos, ftanh, rndInt], ∀ sig, f m fm (.nan sig) = (fm.nan, if sig then 1 else 0)) ∧
    (∀ neg e, frcp m fm (.inf neg) = (fm.sign neg 0, 0) ∧ frcp m fm (.fin neg 0 e) = (fm.sign neg fm.infBits, 0) ∧
      frsq m fm (.inf neg) = (if neg then (fm.nan, 4) else (0, 0)) ∧ frsq m fm (.fin neg 0 e) = (fm.sign neg fm.infBits, 0) ∧
      fsqrt m fm (.inf neg) = (if neg then (fm.nan, 4) else (fm.infBits, 0)) ∧ fsqrt m fm (.fin neg 0 e) = (fm.sign neg 0, 0) ∧
      fexp2 m fm (.inf neg) = (if neg then 0 else fm.infBits, 0) ∧ flog2 m fm (.inf neg) = (if neg then (fm.nan, 5) else (fm.infBits, 0)) ∧
      flog2 m fm (.fin neg 0 e) = (fm.sign true fm.infBits, 0) ∧ fsin m fm (.inf neg) = (fm.nan, 6) ∧ fsin m fm (.fin neg 0 e) = (fm.sign neg 0, 0) ∧
      fcos m fm (.inf neg) = (fm.nan, 6) ∧ fcos m fm (.fin neg 0 e) = fpRound fm (.fin false 1 0) (mRnd m) false (mFtz m) ∧
      ftanh m fm (.inf neg) = fpRound fm (.fin neg 1 0) (mRnd m) false (mFtz m) ∧ ftanh m fm (.fin neg 0 e) = (fm.sign neg 0, 0) ∧
      rndInt m fm (.inf neg) = fpRound fm (.inf neg) 0 false false ∧ rndInt m fm (.fin neg 0 e) = (fm.sign neg 0, 0)) ∧
    (∀ neg (n : Nat) e, n ≠ 0 → let v : Rat := n * pow2 e
      RoundsTo m fm neg (fun y => y * v) 1 (frcp m fm (.fin neg n e)) ∧
      frsq m fm (.fin true n e) = (fm.nan, 4) ∧ RoundsTo m fm false (fun y => y * y * v) 1 (frsq m fm (.fin false n e)) ∧
      fsqrt m fm (.fin true n e) = (fm.nan, 4) ∧ RoundsTo m fm false (fun y => y * y) v (fsqrt m fm (.fin false n e)) ∧
      flog2 m fm (.fin true n e) = (fm.nan, 5) ∧
      rndInt m fm (.fin neg n e) = fpRound fm (if 0 ≤ e then .fin neg n e else .fin neg (roundMag neg n false e 0 (mRnd m)) 0) 0 false false) ∧
    (∀ neg (n : Nat) e (k : Int), (n : Rat) * pow2 e = k.natAbs → (k < 0 → neg = true) → (0 < k → neg = false) →
      fexp2 m fm (.fin neg n e) = fpRoundMag fm false 1 false k (mRnd m) false (mFtz m)) ∧
    (∀ (j : Nat) e, flog2 m fm (.fin false (2 ^ j) e) = fpRound fm (.fin (decide (e + j < 0)) (e + j).natAbs 0) (mRnd m) false (mFtz m)) ∧
    (∀ neg (n : Nat) e, n ≠ 0 →
      let by_ (b : Nat → Bounds) : Nat × Nat := (roundFunction fm b (mRnd m) (mFtz m) (keyOf (.fin neg n e)), 0)
      ((∀ k : Nat, (n : Rat) * pow2 e ≠ k) → fexp2 m fm (.fin neg n e) = by_ (exp2Bounds neg n e)) ∧
      ((∀ j, n ≠ 2 ^ j) → neg = false → flog2 m fm (.fin neg n e) = by_ (log2Bounds n e)) ∧
      fsin m fm (.fin neg n e) = by_ (fun p => let b := trigBounds 0 n e p; if neg then { b with lo := -b.hi, hi := -b.lo } else b) ∧
      fcos m fm (.fin neg n e) = by_ (trigBounds 1 n e) ∧
      ftanh m fm (.fin neg n e) = by_ (fun p => let b := tanhBounds n e p; if neg then { b with lo := -b.hi, hi := -b.lo } else b))

/-- R131: which elements a conversion reads and writes, and what it makes of one: between integers, from and to floats. -/
def elementConversions : Prop :=
  (∀ (g : Group) (a dst part rnd l : Nat),
    let src := laneEt g l; let n := min (etCount src) (etCount dst)
    (cvtElems g a dst part rnd l).length = n ∧ ∀ i, i < n → ∃ e, (cvtElems g a dst part rnd l)[i]? = some e ∧
      e.idx = (if etCount dst ≤ etCount src then i else part * n + i) ∧
      (e.bits, e.kind) = cvtElem src dst rnd (mSat (laneMode g l)) (mFtz (laneMode g l)) (srcElem g a l (if etCount dst ≤ etCount src then part * n + i else i))) ∧
  (∀ (src dst rnd x : Nat) (sat ftz : Bool),
    let out := cvtElem src dst rnd sat ftz x
    let v := val x (etWidth src) (etSigned src)
    let f := fpVal (fmtOf src) ftz x
    let w := etWidth dst; let sg := etSigned dst
    let lo : Int := if sg then -(2 ^ (w - 1)) else 0
    let hi : Int := if sg then 2 ^ (w - 1) - 1 else 2 ^ w - 1
    (src < 8 → dst < 8 → out = (fit v w sg sat, 0)) ∧
    (src < 8 → 8 ≤ dst → out = fpRound (fmtOf dst) (.fin (decide (v < 0)) v.natAbs 0) rnd sat ftz) ∧
    (8 ≤ src → 8 ≤ dst → (∀ sig, f = .nan sig → out = ((fmtOf dst).nan, if sig then 1 else 0)) ∧
      (∀ neg, f = .inf neg → out = if dst ≠ 12 then ((fmtOf dst).sign neg (fmtOf dst).infBits, 0) else if sat then ((fmtOf dst).sign neg 0x7E, 0) else (0x7F, 9)) ∧
      (∀ neg n e, f = .fin neg n e → out = fpRound (fmtOf dst) f rnd sat ftz)) ∧
    (8 ≤ src → dst < 8 → (∀ sig, f = .nan sig → out = (0, if sig then 1 else 8)) ∧
      (∀ neg, f = .inf neg → out = (fit (if neg then lo else hi) w sg false, if sat then 0 else 8)) ∧
      (∀ neg n e, f = .fin neg n e →
        let r : Int := if neg then -(roundMag neg n false e 0 rnd) else roundMag neg n false e 0 rnd
        out = (fit r w sg true, if lo ≤ r ∧ r ≤ hi ∨ sat = true then 0 else 8))))

/-- R131: CVT and CVTR convert the elements of a part; elements of d that the part does not name keep their bits. -/
def conversions : Prop :=
  let res (a dst part : Nat) (rnd : Word → Nat) (g : Group) (l : Nat) : List Elem := cvtElems g a dst part (rnd (laneMode g l)) l
  let put (dst : Nat) (t : Nat) (e : Elem) : Nat :=
    t - elem t (etWidth dst) e.idx * 2 ^ (etWidth dst * e.idx) + e.bits * 2 ^ (etWidth dst * e.idx)
  (∀ (d a : BitVec 8) (part : BitVec 2) (ty : BitVec 4),
    FloatSays (.cvt d a part ty) d.toNat (res a.toNat ty.toNat part.toNat mRnd) (fun _ _ => etWide ty.toNat)
      fun g l => (res a.toNat ty.toNat part.toNat mRnd g l).foldl (put ty.toNat) (readN g d.toNat (etWide ty.toNat) l)) ∧
  (∀ (d a : BitVec 8) (rm : BitVec 3) (part : BitVec 1) (ty : BitVec 4),
    FloatSays (.cvtr d a rm part ty) d.toNat (res a.toNat ty.toNat part.toNat fun _ => rm.toNat) (fun _ _ => etWide ty.toNat)
      fun g l => (res a.toNat ty.toNat part.toNat (fun _ => rm.toNat) g l).foldl (put ty.toNat) (readN g d.toNat (etWide ty.toNat) l))

end Sys2Proof.Machine

section
open Sys2Proof Sys2Proof.Machine

/-- R122, R127: the two-source float instructions and FDOT2 round the exact value once; an invalid operation in a lane with FPX traps (R112). What FDOT2 gives for
infinities of both signs beside a NaN is the model's choice (log 63). -/
def Obligations.FloatTwoSource : Prop :=
  ∀ d a b : BitVec 8,
    FpSays (.fadd d a b) d.toNat (fun g l e => fpSum g l [fpElem g a.toNat l e, fpElem g b.toNat l e] [(fpElem g a.toNat l e, 0), (fpElem g b.toNat l e, 0)]) ∧
    FpSays (.fsub d a b) d.toNat (fun g l e =>
      fpSum g l [fpElem g a.toNat l e, fpElem g b.toNat l e] [(fpElem g a.toNat l e, 0), ((fpElem g b.toNat l e).neg, 0)]) ∧
    FpSays (.fmul d a b) d.toNat (fun g l e =>
      fpResult g l (mulFV (fpElem g a.toNat l e) (fpElem g b.toNat l e)).1
        [sigKind [fpElem g a.toNat l e, fpElem g b.toNat l e], (mulFV (fpElem g a.toNat l e) (fpElem g b.toNat l e)).2]) ∧
    FpSays (.ffma d a b) d.toNat (fun g l e =>
      fpSum g l [fpElem g a.toNat l e, fpElem g b.toNat l e, fpElem g d.toNat l e] [mulFV (fpElem g a.toNat l e) (fpElem g b.toNat l e), (fpElem g d.toNat l e, 0)]) ∧
    FpSays (.fmin d a b) d.toNat (fun g l e =>
      ((fpRound (laneFmt g l) (minFV (fpElem g a.toNat l e) (fpElem g b.toNat l e)) 0 false false).1, sigKind [fpElem g a.toNat l e, fpElem g b.toNat l e])) ∧
    FpSays (.fmax d a b) d.toNat (fun g l e =>
      ((fpRound (laneFmt g l) (maxFV (fpElem g a.toNat l e) (fpElem g b.toNat l e)) 0 false false).1, sigKind [fpElem g a.toNat l e, fpElem g b.toNat l e])) ∧
    (let half (g : Group) (code l i : Nat) : FV := fpVal (laneFmt g l) (mFtz (laneMode g l)) (elem (readV g code l).toNat 16 i)
     let z (g : Group) (l : Nat) : FV := fpVal (fmtOf 8) (mFtz (laneMode g l)) (readV g d.toNat l).toNat
     let terms (g : Group) (l : Nat) : List (FV × Nat) :=
       [mulFV (half g a.toNat l 0) (half g b.toNat l 0), mulFV (half g a.toNat l 1) (half g b.toNat l 1), (z g l, 0)]
     let exact (g : Group) (l : Nat) : FV × Nat := sumFV ((terms g l).map (·.1)) (mRnd (laneMode g l))
     let out (g : Group) (l : Nat) : Nat × Nat := fpRound (fmtOf 8) (if (terms g l).any (·.1.isNan) then .nan false else (exact g l).1)
       (mRnd (laneMode g l)) false (mFtz (laneMode g l))
     let res (g : Group) (l : Nat) : List Elem := [{ idx := 0, bits := (out g l).1, kind := lowKind ((out g l).2 ::
       sigKind [half g a.toNat l 0, half g b.toNat l 0, half g a.toNat l 1, half g b.toNat l 1, z g l] :: (exact g l).2 :: (terms g l).map (·.2)) }]
     FloatSays (.fdot2 d a b) d.toNat res laneWide fun g l => packBits (etWidth (laneEt g l)) (res g l))

/-- R123: FABS and FNEG change the sign bit alone. R125: FCLASS sets one bit a class. R124: FCMP writes a predicate. -/
def Obligations.FloatSignsAndClasses : Prop :=
  (∀ d a : BitVec 8,
    ElemBitsSay (.fabs d a) d.toNat (fun g l e j => (srcElem g a.toNat l e).testBit j && decide (j + 1 ≠ etWidth (laneEt g l))) ∧
    ElemBitsSay (.fneg d a) d.toNat (fun g l e j => (srcElem g a.toNat l e).testBit j ^^ decide (j + 1 = etWidth (laneEt g l))) ∧
    (∀ s c, issuer s = some c → issues (encode (.fclass d a)) s = true →
      Completes (.fclass d a) s fun t => ∃ f : Nat → Nat, LaneResult s t c d.toNat (isActive (s.group c.gid) c) (fun l => BitVec.ofNat 32 (f l)) ∧
        ∀ l, l < 256 → isActive (s.group c.gid) c l = true → ∀ j, j < 32 →
          (f l).testBit j = decide (j / 16 < etCount (laneEt (s.group c.gid) l) ∧
            j % 16 = classBit (laneFmt (s.group c.gid) l) (srcElem (s.group c.gid) a.toNat l (j / 16))))) ∧
  (∀ (cond p : BitVec 4) (a b : BitVec 8) s c, issuer s = some c → issues (encode (.fcmp cond p a b)) s = true →
    let out (l : Nat) : Bool × Nat := fcmpOut cond.toNat (fpElem (s.group c.gid) a.toNat l 0) (fpElem (s.group c.gid) b.toNat l 0)
    ((∀ l, l < 256 → isActive (s.group c.gid) c l = true → mFpx (laneMode (s.group c.gid) l) = true → (out l).2 = 0) →
      Completes (.fcmp cond p a b) s fun t => PredResult s t c p.toNat (isActive (s.group c.gid) c) fun l => (out l).1) ∧
    (∀ l, l < 256 → isActive (s.group c.gid) c l = true → mFpx (laneMode (s.group c.gid) l) = true → (out l).2 ≠ 0 →
      (∀ k, k < l → (isActive (s.group c.gid) c k && mFpx (laneMode (s.group c.gid) k) && (out k).2 != 0) = false) →
      let bad := laneSet fun k => isActive (s.group c.gid) c k && mFpx (laneMode (s.group c.gid) k) && (out k).2 != 0
      Raises (.fcmp cond p a b) s c { code := 7, cause := (out l).2, fmask := bad, lane := l, addr := 0, opw := 0 }))

/-- The float functions and the conversions. -/
def Obligations.FloatFunctionsAndConversions : Prop := floatFunctions ∧ roundingModes ∧ functionValues ∧ conversions ∧ elementConversions

end

namespace Sys2Proof.Machine

/-! ## Control flow (02) -/

/-- The target of a branch (R62 to R65). -/
def target {n : Nat} (pc : DWord) (imm : BitVec n) : DWord := pc + 4 * imm.signExtend 64

/-- A taken branch: the PC, and, for a backward one, the target that R55 remembers. -/
def jump (x : Slice) (to_ : DWord) : Slice := { x with pc := to_, lastBack := if to_ ≤ x.pc then some to_ else x.lastBack }

/-- A slice of the issuing gang that exists. -/
def inGang (g : Group) (c : Ctx) (i : Nat) : Bool := decide (i < 64) && c.gang.getLsbD i

/-- R46: a push that meets a full stack raises JOIN_STACK with cause 1; JOIN and RET raise it with the cause of the lowest slice that cannot pop. Every
slice is checked before any slice changes. (That the lowest failing slice gives the cause is the model's choice, log 63.) -/
def joinStackTraps : Prop :=
  let raises (i : Instr) (s : State) (c : Ctx) (cause : Nat) : Prop := Raises i s c (gangTrap (s.group c.gid) c 0x14 cause 0)
  (∀ (imm : BitVec 24) s c i, issuer s = some c → issues (encode (.call imm)) s = true →
    inGang (s.group c.gid) c i = true → 8 ≤ ((s.group c.gid).slice i).depth → raises (.call imm) s c 1) ∧
  (∀ (imm : BitVec 16) s c i, issuer s = some c → issues (encode (.mark imm)) s = true →
    inGang (s.group c.gid) c i = true → 8 ≤ ((s.group c.gid).slice i).depth → raises (.mark imm) s c 1) ∧
  (∀ (p : BitVec 4) (imm : BitVec 16) s c i, issuer s = some c → issues (encode (.bra p imm)) s = true → c.solo = none →
    inGang (s.group c.gid) c i = true → 8 ≤ ((s.group c.gid).slice i).depth →
    (let t := laneBits i fun l => runs (s.group c.gid) c l && (guardTrue (s.group c.gid) l && readP (s.group c.gid) p.toNat l)
     t ≠ 0 ∧ ((s.group c.gid).slice i).run &&& ~~~t ≠ 0) → raises (.bra p imm) s c 1) ∧
  (∀ s c i, issuer s = some c → issues (encode .ret) s = true → inGang (s.group c.gid) c i = true →
    (∀ j, j < i → inGang (s.group c.gid) c j = true → 0 < ((s.group c.gid).slice j).depth ∧
      (((s.group c.gid).slice j).entry (((s.group c.gid).slice j).depth - 1)).kind = .call) →
    (((s.group c.gid).slice i).depth = 0 → raises .ret s c 2) ∧
    (0 < ((s.group c.gid).slice i).depth → (((s.group c.gid).slice i).entry (((s.group c.gid).slice i).depth - 1)).kind ≠ .call → raises .ret s c 3)) ∧
  (∀ s c i n, issuer s = some c → issues (encode .join) s = true → inGang (s.group c.gid) c i = true →
    (∀ j, j < i → inGang (s.group c.gid) c j = true → ∃ y, joinPop ((s.group c.gid).slice j) false ((s.group c.gid).slice j).depth = .ok y) →
    joinPop ((s.group c.gid).slice i) false ((s.group c.gid).slice i).depth = .trap n → raises .join s c n)

/-- R46, R426: join_pop takes the topmost entry with a live lane; an explicit pop that meets a CALL entry first fails with cause 3, one that finds none
with cause 2, as that of an empty stack does; an implicit pop never fails, and without an entry the slice has no lane left to run. -/
def joinPopFindsTheTopLiveEntry : Prop :=
  ∀ (x : Slice) (imp : Bool) (d n : Nat), n < d →
    (∀ k, n < k → k < d → (x.entry k).mask &&& x.live = 0 ∧ (imp = false → (x.entry k).kind ≠ .call)) →
    ((imp = false → (x.entry n).kind ≠ .call) → (x.entry n).mask &&& x.live ≠ 0 →
      joinPop x imp d = .ok { x with depth := n, run := (x.entry n).mask &&& x.live, pc := (x.entry n).addr }) ∧
    (imp = false → (x.entry n).kind = .call → joinPop x imp d = .trap 3) ∧
    ((∀ k, k ≤ n → (x.entry k).mask &&& x.live = 0 ∧ (imp = false → (x.entry k).kind ≠ .call)) →
      joinPop x imp d = if imp then .ok { x with depth := 0, run := 0 } else .trap 2) ∧
    joinPop x imp 0 = if imp then .ok { x with depth := 0, run := 0 } else .trap 2

/-- R67: EXIT kills its active lanes; a slice with none left to run resumes waiting lanes or dies. -/
def exitKillsActiveLanes : Prop :=
  ∀ s c, issuer s = some c → issues (encode .exit) s = true →
    Completes .exit s fun u => Flow s u c fun i x =>
      let a := laneBits i (isActive (s.group c.gid) c)
      let y := { x with live := x.live &&& ~~~a, run := x.run &&& ~~~a }
      if y.run ≠ 0 then { y with pc := x.pc + 4 } else implicitPop y

/-- R54 to R56, R68: YIELD waits for the gangs that are ready now, SPINW marks its gang, NOP does nothing; the events by which a gang that yielded goes on, and
by which a spinning gang is promoted. -/
def yieldSpinNop : Prop :=
  (∀ s c, issuer s = some c → issues (encode .yield) s = true →
    Completes .yield s fun u => Flow s u c fun _ x =>
      { x with pc := x.pc + 4, wait := if yieldOwed (countIssue s c) c.gid c.gang = [] then x.wait else .yield (yieldOwed (countIssue s c) c.gid c.gang) }) ∧
  (∀ s c, issuer s = some c → issues (encode .spinw) s = true →
    Completes .spinw s fun u => Flow s u c (fun _ x => { x with pc := x.pc + 4 }) ∧
      ((∀ i j, inGang (s.group c.gid) c i = true → inGang (s.group c.gid) c j = true → ((s.group c.gid).slice i).pc = ((s.group c.gid).slice j).pc) →
        ∀ i, inGang (s.group c.gid) c i = true → i < (s.group c.gid).slices.length → ((u.group c.gid).slice i).spin = .opened)) ∧
  (∀ s c, issuer s = some c → issues (encode .nop) s = true →
    Completes .nop s fun u => Flow s u c fun _ x => { x with pc := x.pc + 4 }) ∧
  (∀ gid gang s, yieldReady s gid gang = true →
    Completes (.yieldRelease gid gang) s fun u => SliceEvent s u gid ((s.group gid).gangSlices gang) fun _ x => { x with wait := .none }) ∧
  (∀ gid gang s, (s.group gid).gangSlices gang ≠ 0 → ((s.group gid).slice (lowestSlice ((s.group gid).gangSlices gang))).spin ≠ .no →
    Completes (.spinAgePromote gid gang) s fun u => SliceEvent s u gid ((s.group gid).gangSlices gang) fun _ x => { x with promoted := true })

/-- R69, R70: TRAP raises SOFTWARE for its active lanes, and without one has no effect; SETMODE and SETGRD write the mode word of every slice of the gang. -/
def softwareTrapAndModes : Prop :=
  (∀ (imm : BitVec 16) s c, issuer s = some c → issues (encode (.trap imm)) s = true →
    (activeSet (s.group c.gid) c ≠ 0 → Raises (.trap imm) s c
      { code := 0x15, cause := imm.toNat, fmask := activeSet (s.group c.gid) c, lane := lowestLane (activeSet (s.group c.gid) c), addr := 0, opw := 0 }) ∧
    (activeSet (s.group c.gid) c = 0 → Completes (.trap imm) s fun u => Flow s u c fun _ x => { x with pc := x.pc + 4 })) ∧
  (∀ (imm : BitVec 16) s c, issuer s = some c → issues (encode (.setmode imm)) s = true →
    Completes (.setmode imm) s fun u => Flow s u c fun _ x => { x with pc := x.pc + 4, mode := imm.setWidth 32 }) ∧
  (∀ (guard : BitVec 4) s c, issuer s = some c → issues (encode (.setgrd guard)) s = true →
    Completes (.setgrd guard) s fun u => Flow s u c fun _ x => { x with pc := x.pc + 4, mode := x.mode.extractLsb' 4 28 ++ guard })

end Sys2Proof.Machine

section
open Sys2Proof Sys2Proof.Machine

/-- R62, R63: BRA sends the lanes of each slice their own way, with a DIV entry where they disagree; in SOLO mode the SOLO lane decides. BRAQ sends the
whole gang. -/
def Obligations.Branches : Prop :=
  (∀ (p : BitVec 4) (imm : BitVec 16) s c, issuer s = some c → issues (encode (.bra p imm)) s = true →
    let g := s.group c.gid
    let takes (l : Nat) : Bool := guardTrue g l && readP g p.toNat l
    let t (i : Nat) : BitVec 4 := laneBits i fun l => runs g c l && takes l
    (c.solo = none → (∀ i, inGang g c i = true → t i ≠ 0 → (g.slice i).run &&& ~~~(t i) ≠ 0 → (g.slice i).depth < 8) →
      Completes (.bra p imm) s fun u => Flow s u c fun i x =>
        let f := x.run &&& ~~~(t i)
        if t i = 0 then { x with pc := x.pc + 4 }
        else
          if f = 0 then jump x (target x.pc imm)
          else { jump (x.push .div (x.pc + 4) f) (target x.pc imm) with run := t i }) ∧
    (∀ l, c.solo = some l →
      Completes (.bra p imm) s fun u => Flow s u c fun _ x => if takes l then jump x (target x.pc imm) else { x with pc := x.pc + 4 })) ∧
  (∀ (p : BitVec 4) (imm : BitVec 16) s c, issuer s = some c → issues (encode (.braq p imm)) s = true →
    Completes (.braq p imm) s fun u => Flow s u c fun _ x => if readQ (s.group c.gid) p.toNat then jump x (target x.pc imm) else { x with pc := x.pc + 4 })

/-- R64, R65: CALL and MARK push an entry in every slice, RET and JOIN pop one; R426: the pop that RET makes of an empty mask never traps. -/
def Obligations.CallsAndJoins : Prop :=
  (∀ (imm : BitVec 24) s c, issuer s = some c → issues (encode (.call imm)) s = true →
    (∀ i, inGang (s.group c.gid) c i = true → ((s.group c.gid).slice i).depth < 8) →
    Completes (.call imm) s fun u => Flow s u c fun _ x => { x.push .call (x.pc + 4) x.run with pc := target x.pc imm }) ∧
  (∀ (imm : BitVec 16) s c, issuer s = some c → issues (encode (.mark imm)) s = true →
    (∀ i, inGang (s.group c.gid) c i = true → ((s.group c.gid).slice i).depth < 8) →
    Completes (.mark imm) s fun u => Flow s u c fun _ x => { x.push .mark (target x.pc imm) x.run with pc := x.pc + 4 }) ∧
  (∀ s c, issuer s = some c → issues (encode .ret) s = true →
    (∀ i, inGang (s.group c.gid) c i = true → 0 < ((s.group c.gid).slice i).depth ∧
      (((s.group c.gid).slice i).entry (((s.group c.gid).slice i).depth - 1)).kind = .call) →
    Completes .ret s fun u => Flow s u c fun _ x =>
      let e := x.entry (x.depth - 1)
      let y := { x with depth := x.depth - 1, run := e.mask &&& x.live, pc := e.addr }
      if y.run = 0 then implicitPop y else y) ∧
  (∀ s c, issuer s = some c → issues (encode .join) s = true →
    (∀ i, inGang (s.group c.gid) c i = true → ∃ y, joinPop ((s.group c.gid).slice i) false ((s.group c.gid).slice i).depth = .ok y) →
    Completes .join s fun u => Flow s u c fun _ x => match joinPop x false x.depth with | .ok y => y | .trap _ => x)

/-- R47: REGANG waits at its site, or raises REGANG_ERR where another slice waits there with another PC; when every live slice waits, REGANG_MERGE lets all go
on, the slices of a site as one gang under the lowest of their numbers. -/
def Obligations.RegangWaitsAndMerges : Prop :=
  let conflict (g : Group) (c : Ctx) (imm : BitVec 16) : Prop := ∃ i j, i < 64 ∧ (g.slice i).isDead = false ∧ (g.slice i).wait = .regang imm ∧
    inGang g c j = true ∧ (g.slice j).pc ≠ (g.slice i).pc
  (∀ (imm : BitVec 16) s c, issuer s = some c → issues (encode (.regang imm)) s = true →
    (¬ conflict (s.group c.gid) c imm → Completes (.regang imm) s fun u => Flow s u c fun _ x => { x with wait := .regang imm }) ∧
    (conflict (s.group c.gid) c imm → Raises (.regang imm) s c (gangTrap (s.group c.gid) c 0x06 imm.toNat 0))) ∧
  (∀ gid s, mergeReady s gid = true →
    Completes (.regangMerge gid) s fun u =>
      BeyondKept s u gid ∧ GroupKept (s.group gid) (u.group gid) ∧ RegsKept (s.group gid) (u.group gid) ∧
      ∀ i, i < 64 → i < (s.group gid).slices.length → ((s.group gid).slice i).isDead = false → ∀ k, ((s.group gid).slice i).wait = .regang k →
        SliceLike { (s.group gid).slice i with wait := .none, pc := ((s.group gid).slice i).pc + 4 } ((u.group gid).slice i) ∧
        (∀ j, j < 64 → ((s.group gid).slice j).isDead = false → ((s.group gid).slice j).wait = .regang k →
          ((u.group gid).slice i).gang ≤ ((s.group gid).slice j).gang) ∧
        (((s.group gid).slice i).gang ≤ 64 → ∃ j, j < 64 ∧ ((s.group gid).slice j).isDead = false ∧ ((s.group gid).slice j).wait = .regang k ∧
          ((u.group gid).slice i).gang = ((s.group gid).slice j).gang))

/-- The join stack: where it traps, and the entry that a pop finds. -/
def Obligations.JoinStack : Prop := joinStackTraps ∧ joinPopFindsTheTopLiveEntry

/-- EXIT, YIELD, SPINW, NOP, TRAP, SETMODE and SETGRD. -/
def Obligations.GangControl : Prop := exitKillsActiveLanes ∧ yieldSpinNop ∧ softwareTrapAndModes

end

namespace Sys2Proof.Machine

/-! ## Memory instructions (05, 06, 07, 10, 11) -/

/-- The address of a lane (R146): the pair that a names, plus a signed count of units. -/
def laneAddr (a imm : BitVec 8) (unit : Nat) : State → Group → Ctx → Nat → DWord := fun _ g _ l => readV64 g a.toNat l + imm.signExtend 64 * BitVec.ofNat 64 unit

/-- The address of a lane without an offset. -/
def lanePair (a : BitVec 8) : State → Group → Ctx → Nat → DWord := fun _ g _ l => readV64 g a.toNat l

/-- The address of a uniform access. -/
def uniformPair (a : BitVec 8) : State → Group → Ctx → Nat → DWord := fun s g c _ => readU64 s g c a.toNat

/-- No data. -/
def noData : State → Group → Ctx → Nat → BitVec 128 := fun _ _ _ _ => 0

/-- R150, R151, R154: what the loads capture. -/
def loadsIssue : Prop :=
  ∀ d a imm : BitVec 8,
    let plain (i : Instr) (w : Nat) : Prop := MemSays i false false (fun _ _ _ => .load w d.toNat) activeSet (laneAddr a imm w) noData fun s g _ o => memCheck s g o (plainSpec w .load)
    plain (.ldb d a imm) 1 ∧ plain (.ldh d a imm) 2 ∧ plain (.ldw d a imm) 4 ∧ plain (.ldd d a imm) 8 ∧ plain (.ldq d a imm) 16 ∧
    MemSays (.ldu d a imm) true false (fun _ g _ => .ldu (if uWide g then 8 else 4) d.toNat) runSet (fun s g c _ => readU64 s g c a.toNat + imm.signExtend 64 * 4) noData
      (fun s g _ o => memCheck s g o (plainSpec (if uWide g then 8 else 4) .load)) ∧
    MemSays (.sxld d a imm) false false (fun _ _ _ => .sxld d.toNat) activeSet (laneAddr a imm 2) noData fun s g _ o => memCheck s g o sxSpec

/-- R150, R151, R155: what the stores capture. -/
def storesIssue : Prop :=
  ∀ d a imm : BitVec 8,
    let plain (i : Instr) (w : Nat) : Prop := MemSays i false true (fun _ _ _ => .store w) activeSet (laneAddr a imm w)
      (fun _ g _ l => BitVec.ofNat 128 (readRegs g d.toNat (max (w / 4) 1) l % 2 ^ (8 * w))) fun s g _ o => memCheck s g o (plainSpec w .store)
    plain (.stb d a imm) 1 ∧ plain (.sth d a imm) 2 ∧ plain (.stw d a imm) 4 ∧ plain (.std d a imm) 8 ∧ plain (.stq d a imm) 16 ∧
    MemSays (.stu d a imm) false true (fun _ g _ => .stu (if uWide g then 8 else 4)) runSet (fun s g c _ => readU64 s g c a.toNat + imm.signExtend 64 * 4)
      (fun s g c _ => if uWide g then (readU64 s g c d.toNat).setWidth 128 else (readU s g c d.toNat).setWidth 128)
      (fun s g _ o => memCheck s g o (plainSpec (if uWide g then 8 else 4) .store)) ∧
    MemSays (.sxst d a imm) false true (fun _ _ _ => .sxst) activeSet (laneAddr a imm 2) (fun _ g _ l => (readV g d.toNat l).setWidth 128)
      fun s g _ o => (sxVote g o a).orElse fun _ => memCheck s g o sxSpec

/-- R157, R160, R161: what the atomics and the ordered adds capture. -/
def atomicsIssue : Prop :=
  ∀ d a b : BitVec 8,
    let wide (g : Group) (c : Ctx) : Bool := (lanesOf (activeSet g c)).any (laneWide g)
    let atomic (i : Instr) (op : Nat) : Prop := MemSays i false true (fun _ g c => .atomic (if wide g c then op + 8 else op) d.toNat) activeSet (lanePair a)
      (fun _ g _ l => BitVec.ofNat 128 (readRegs g b.toNat ((if op = 7 then 2 else 1) * (if laneWide g l then 2 else 1)) l))
      fun s g _ o => memCheck s g o { align := fun x => x.n, noWindow := false, win := .other, locks := true, lockLine := false }
    let unit : CheckSpec := { align := fun x => x.n, noWindow := false, win := .hub, locks := false, lockLine := false }
    atomic (.aadd d a b) 0 ∧ atomic (.amin d a b) 1 ∧ atomic (.amax d a b) 2 ∧ atomic (.aand d a b) 3 ∧ atomic (.aor d a b) 4 ∧ atomic (.axor d a b) 5 ∧
    atomic (.axch d a b) 6 ∧ atomic (.acas d a b) 7 ∧
    MemSays (.faadd d a b) false true (fun _ _ _ => .faadd (d.setWidth 4)) activeSet (lanePair a)
      (fun _ g _ l => BitVec.ofNat 128 (readRegs g b.toNat (if laneWide g l then 2 else 1) l)) (fun s g _ o => memCheck s g o unit) ∧
    MemSays (.faopen d a b) true true (fun s g c => .faopen (d.setWidth 4) (uniformEt g == 11) (readU s g c b.toNat)) runSet (uniformPair a) noData
      fun s g _ o => memCheck s g o unit

/-- R181, R185, R210 to R213: what LDS and UNSUB, BIND and UNBIND, ACQ and REL capture. -/
def synchronisationIssues : Prop :=
  (∀ (sc : BitVec 3) (q : BitVec 1) (p : BitVec 4) (a imm : BitVec 8),
    MemSays (.lds sc q p a imm) false false (fun _ _ _ => .lds p (q == 1) sc.toNat) activeSet (laneAddr a imm 8) (fun _ g _ l => (readV64 g (a.toNat + 2) l).setWidth 128)
      fun s g _ o => (memCheck s g o { syncSpec with locks := false }).orElse fun _ => (slotCheck s g o).orElse fun _ => memCheck s g o { syncSpec with lockLine := true }) ∧
  (∀ (p : BitVec 4) (a imm : BitVec 8),
    MemSays (.unsub p a imm) false true (fun _ _ _ => .unsub p false) activeSet (fun _ _ _ _ => 0) (fun s g c l => (laneAddr a imm 16 s g c l).setWidth 128)
      fun s g _ o => slotCheck s g o) ∧
  (∀ (r : BitVec 2) (p : BitVec 4) (a b : BitVec 8),
    MemSays (.bind r p a b) true false (fun s g c => .bind p r.toNat (readU64 s g c b.toNat) (readU64 s g c (b.toNat + 2))) runSet (uniformPair a) noData
      fun s g c o => (memCheck s g o bindSpec).orElse fun _ =>
        let base := readU64 s g c b.toNat; let len := readU64 s g c (b.toNat + 2)
        if base.toNat % 128 ≠ 0 ∨ len.toNat % 128 ≠ 0 ∨ 2 ^ 57 < base.toNat + len.toNat then some (gangTrap g c 8 1 base) else none) ∧
  (∀ (p : BitVec 4) (a : BitVec 8),
    MemSays (.unbind p a) true false (fun _ _ _ => .unbind p) runSet (uniformPair a) noData fun s g _ o => memCheck s g o bindSpec) ∧
  (∀ (d a : BitVec 8) (sc : BitVec 3),
    MemSays (.acq d a sc) false false (fun _ _ _ => .acq d.toNat sc.toNat) activeSet (lanePair a) noData (fun s g _ o => memCheck s g o syncSpec) ∧
    MemSays (.relSt d a sc) false true (fun _ _ _ => .rel false sc.toNat) activeSet (lanePair a) (fun _ g _ l => (readV64 g d.toNat l).setWidth 128)
      (fun s g _ o => memCheck s g o syncSpec) ∧
    MemSays (.relAdd d a sc) false true (fun _ _ _ => .rel true sc.toNat) activeSet (lanePair a) (fun _ g _ l => (readV64 g d.toNat l).setWidth 128)
      (fun s g _ o => memCheck s g o syncSpec))

/-- R147: a plain load or store of w bytes whose address is no multiple of w raises ALIGN with cause 1 for the active lanes that fail; the record names the
lowest with its address. -/
def misalignedAccessTraps : Prop :=
  ∀ d a imm : BitVec 8,
    let traps (i : Instr) (w : Nat) (store : Bool) : Prop := ∀ s c, issuer s = some c → issues (encode i) s = true →
      let g := s.group c.gid
      let bad (l : Nat) : Bool := isActive g c l && (laneAddr a imm w s g c l).toNat % w != 0
      ∀ l, l < 256 → bad l = true → (∀ k, k < l → bad k = false) →
        Raises i s c { code := 8, cause := 1, fmask := laneSet bad, lane := l, addr := laneAddr a imm w s g c l, opw := 0 }
    traps (.ldh d a imm) 2 false ∧ traps (.ldw d a imm) 4 false ∧ traps (.ldd d a imm) 8 false ∧ traps (.ldq d a imm) 16 false ∧
    traps (.sth d a imm) 2 true ∧ traps (.stw d a imm) 4 true ∧ traps (.std d a imm) 8 true ∧ traps (.stq d a imm) 16 true

/-- R156: PREF completes whatever its addresses are: no register, no counter, no group and no team changes, and its gang goes on. -/
def prefetchNeverTraps : Prop :=
  ∀ (t : BitVec 2) (a imm : BitVec 8) s c, issuer s = some c → issues (encode (.pref t a imm)) s = true →
    Completes (.pref t a imm) s fun u =>
      GroupKept (s.group c.gid) (u.group c.gid) ∧ RegsKept (s.group c.gid) (u.group c.gid) ∧ u.teams = s.teams ∧ u.referee = s.referee ∧
      (∀ j, j ≠ c.gid → u.group j = s.group j) ∧ (∀ k, (u.core k).log = (s.core k).log) ∧
      (∀ i, i < (s.group c.gid).slices.length → c.gang.getLsbD i = true →
        SliceLike { (s.group c.gid).slice i with pc := ((s.group c.gid).slice i).pc + 4 } ((u.group c.gid).slice i)) ∧
      (∀ i, c.gang.getLsbD i = false → SliceLike ((s.group c.gid).slice i) ((u.group c.gid).slice i))

/-- R137, R147, R148, R223: what the checks of an operation's accesses find: alignment first, then the team window, then a range lock of its die that it may not overlap; the
lowest access that fails gives the record, which names the lanes of all that do (log 64). What lies at a window offset decides what it admits; the refusal of the
ordered adds in the scratchpad is the model's (log 9). -/
def accessChecks : Prop :=
  (∀ s (g : Group) (o : LogOp) (k : CheckSpec),
    let accesses := s.accesses o
    let t := s.team g.tid
    let misaligned (a : Acc) : Bool := a.va % k.align a != 0
    let forbidden (a : Acc) : Bool := k.noWindow && (t.offset (BitVec.ofNat 64 a.va)).isSome
    let refusal (a : Acc) : Option (Nat × Nat × Nat) := winCheck t a k.win o.kind.isUniform
    let lock (a : Acc) : Option Lock :=
      let va := if k.lockLine then a.va / 128 * 128 else a.va
      let n := if k.lockLine then 128 else a.n
      if k.locks then (s.die (dieOf g.core)).locks.find? fun x => x.asid == s.asid g.tid && (o.kind.writes || x.write) && decide (x.base < va + n) && decide (va < x.base + x.len) else none
    let record (code cause addr : Nat) (opw : Nat) (bad : Acc → Bool) : Option TrapInfo :=
      let m := laneSet fun l => accesses.any fun a => bad a && o.accLane a l
      some { code := code, cause := cause, fmask := m, lane := lowestLane m, addr := BitVec.ofNat 64 addr, opw := BitVec.ofNat 32 opw }
    let passes (bad : Acc → Bool) : Prop := ∀ a ∈ accesses, bad a = false
    (∀ a, accesses.find? misaligned = some a → memCheck s g o k = record 8 1 a.va 0 misaligned) ∧
    (passes misaligned →
      (∀ a, accesses.find? forbidden = some a → memCheck s g o k = record 8 3 a.va 0 forbidden) ∧
      (passes forbidden →
        (∀ a code cause off, accesses.find? (fun a => (refusal a).isSome) = some a → refusal a = some (code, cause, off) →
          memCheck s g o k = record code cause (if code = 9 then off else a.va) 0 fun b => (refusal b).map (fun e => (e.1, e.2.1)) == some (code, cause)) ∧
        (passes (fun a => (refusal a).isSome) →
          (∀ a x, accesses.find? (fun a => (lock a).isSome) = some a → lock a = some x →
            memCheck s g o k = record 0x0D (x.owner.engine * 2 ^ 12 + if x.write then 2 ^ 11 else 0) a.va (x.owner.opid % 2 ^ 16 + dieOf g.core * 2 ^ 16) fun a => (lock a).isSome) ∧
          (passes (fun a => (lock a).isSome) → memCheck s g o k = none))))) ∧
  (∀ (t : Team) (a : Acc) op uniform off, t.offset (BitVec.ofNat 64 a.va) = some off → winCheck t a op uniform = (windowError t off a.n op uniform).map fun e => (e.1, e.2, off)) ∧
  ∀ (t : Team) off n op uniform, 1 ≤ n →
    let storage := off + n ≤ t.scrSize
    let register := 0x4000000 ≤ off ∧ off < 0x4040000 ∧ (t.fifos.getD ((off - 0x4000000) / 0x10000) none).isSome = true ∧ off % 0x10000 + n ≤ 0x24
    let at_ := off % 0x10000
    let plain := (op = .load ∨ op = .store) ∧ uniform = false
    let error := windowError t off n op uniform
    (storage → error = if op = .hub then some (8, 3) else none) ∧
    (¬ storage → ¬ register → error = some (9, 0)) ∧
    (¬ storage → register →
      (¬ plain → error = some (8, 3)) ∧
      (plain → at_ + n ≤ 0x10 → error = if n ≠ 16 then some (8, 2) else if op = .store then none else some (8, 3)) ∧
      (plain → 0x10 ≤ at_ → at_ + n ≤ 0x20 → error = if n ≠ 16 then some (8, 2) else if op = .load then none else some (8, 3)) ∧
      (plain → 0x20 ≤ at_ → error = if op = .store then some (8, 3) else if n ≠ 4 then some (8, 2) else none) ∧
      (plain → ((at_ < 0x10 ∧ 0x10 < at_ + n) ∨ (at_ < 0x20 ∧ 0x20 < at_ + n)) → error = some (8, 3)))

/-- The lanes do not agree in their n registers: l is the lowest that differs from the first of them, in register i first. -/
def Disagree (lanes : List Nat) (n : Nat) (rd : Nat → Nat → Word) (l i : Nat) : Prop :=
  let first := lanes.headD 0
  l ∈ lanes ∧ (∀ k ∈ lanes, k < l → ∀ j, j < n → rd j k = rd j first) ∧ i < n ∧ rd i l ≠ rd i first ∧ ∀ j, j < i → rd j l = rd j first

/-- R80: TPOST, BARW and SXST raise VOTE_MISMATCH where the voting lanes do not agree; SXST for the lowest set of 16 lanes that does not. -/
def votesMismatch : Prop :=
  (∀ (a b : BitVec 8) s c l i, issuer s = some c → issues (encode (.tpost a b)) s = true →
    let g := s.group c.gid
    let lanes := lanesOf (runSet g c)
    let rd (i l : Nat) : Word := readV g (a.toNat + i) l
    let m := laneSet fun k => lanes.contains k && (List.range 4).any fun j => rd j k != rd j (lanes.headD 0)
    Disagree lanes 4 rd l i → Raises (.tpost a b) s c { code := 5, cause := i * 16 + 2, fmask := m, lane := l, addr := 0, opw := 0 }) ∧
  (∀ (a : BitVec 8) (q : BitVec 1) (b : BitVec 4) s c l, issuer s = some c → issues (encode (.barw a q b)) s = true →
    let g := s.group c.gid
    let lanes := lanesOf (runSet g c)
    let rd (_ l : Nat) : Word := readV g a.toNat l
    let m := laneSet fun k => lanes.contains k && rd 0 k != rd 0 (lanes.headD 0)
    Disagree lanes 1 rd l 0 → Raises (.barw a q b) s c { code := 5, cause := 2, fmask := m, lane := l, addr := 0, opw := 0 }) ∧
  (∀ (d a imm : BitVec 8) s c m l i, issuer s = some c → issues (encode (.sxst d a imm)) s = true →
    let g := s.group c.gid
    let set (m : Nat) : List Nat := (List.range 16).filterMap fun j => if isActive g c (16 * m + j) then some (16 * m + j) else none
    let rd (i l : Nat) : Word := readV g (a.toNat + i) l
    let mask := laneSet fun k => (set (k / 16)).contains k && (List.range 2).any fun j => rd j k != rd j ((set (k / 16)).headD 0)
    m < 16 → (∀ k, k < m → ∀ x ∈ set k, ∀ j, j < 2 → rd j x = rd j ((set k).headD 0)) → Disagree (set m) 2 rd l i →
      Raises (.sxst d a imm) s c { code := 5, cause := i * 16 + 2, fmask := mask, lane := l, addr := 0, opw := 0 })

end Sys2Proof.Machine

section
open Sys2Proof Sys2Proof.Machine

/-- R283, R284, R317, R318, R320: what SLABLD, SLABST, KVAPP, PIN, UNPIN and PCNT capture. SLABST waits for an idle entry and, without KEEP, for the tasks
that name it. (That KVAPP and SLABST count as store-class is the model's: log 9.) -/
def Obligations.SlabAndPlacementIssues : Prop :=
  (∀ (d a : BitVec 8) (p : BitVec 4),
    MemSays (.slabld d a p) true false (fun _ _ _ => .slabld d.toNat p) runSet (uniformPair a) noData fun s g _ o => memCheck s g o slabSpec) ∧
  (∀ (d a : BitVec 8) (k : BitVec 1),
    MemSaysWhen (.slabst d a k) false true (fun s g c => .slabst (readU s g c d.toNat).toNat (k == 1)) runSet (uniformPair a) noData
      (fun s g c o => (memCheck s g o slabSpec).orElse fun _ => if (s.slabOf g.tid (readU s g c d.toNat).toNat).isNone then some (gangTrap g c 0x16 1 0) else none)
      fun s g c => (match s.slabOf g.tid (readU s g c d.toNat).toNat with | some x => x.state != 0 | none => false) ||
        (k == 0 && namesSlab s g.tid (readU s g c d.toNat).toNat)) ∧
  (∀ (p : BitVec 4) (a b : BitVec 8),
    MemSays (.kvapp p a b) true true (fun s g c => .kvapp p ((readU s g c b.toNat).toNat % 256) (readU s g c (b.toNat + 1))) runSet (fun _ _ _ _ => 0)
      (fun _ g c l => if runs g c l then BitVec.ofNat 128 (readRegs g a.toNat 2 l) else 0)
      fun s g c o =>
        if (readU s g c b.toNat).toNat / 256 ≠ 0 ∨ (readU s g c (b.toNat + 1)).toNat / 2 ^ 25 ≠ 0 then some (gangTrap g c 0x16 4 0)
        else match s.slabOf g.tid (readU s g c b.toNat).toNat with
          | none => some (gangTrap g c 0x16 1 0)
          | some e =>
            let bad (l : Nat) : Bool := decide (l < kvD e.fmt.toNat) && (kvBad (BitVec.ofNat 32 (o.value l)) || kvBad (BitVec.ofNat 32 (o.value l / 2 ^ 32)))
            if (List.range 256).any bad then some { code := 0x16, cause := 6, fmask := laneSet bad, lane := lowestLane (laneSet bad), addr := 0, opw := 0 } else none) ∧
  (∀ (p : BitVec 4) (a : BitVec 8),
    MemSays (.pin p a) true false (fun _ _ _ => .pin p) runSet (uniformPair a) noData (fun s g _ o => memCheck s g o pinSpec) ∧
    MemSays (.unpin p a) true false (fun _ _ _ => .unpin p) runSet (uniformPair a) noData fun s g _ o => memCheck s g o pinSpec) ∧
  (∀ (d a : BitVec 8) (k : BitVec 1),
    MemSays (.pcnt d a k) false false (fun _ _ _ => .pcnt d.toNat (k == 1)) activeSet (lanePair a) noData fun _ _ _ _ => none)

/-- Loads and stores issue. -/
def Obligations.LoadsAndStoresIssue : Prop := loadsIssue ∧ storesIssue

/-- Atomics and the instructions of sync objects and standing loads issue. (That FAADD and FAOPEN meet no range locks and are refused in the team window is the model's:
log 9.) -/
def Obligations.AtomicsAndSynchronisationIssue : Prop := atomicsIssue ∧ synchronisationIssues

/-- What the checks of an access find; a prefetch never traps; votes that fail. -/
def Obligations.AlignmentTraps : Prop := misalignedAccessTraps ∧ accessChecks ∧ prefetchNeverTraps ∧ votesMismatch

end

namespace Sys2Proof.Machine

/-! ## Translation and the performing of memory operations (05, 07, 11, 12) -/

/-- The PTE that a walk reads at a level of a table at base. -/
def pteSlot (base va level : Nat) : Nat := base + 8 * (va / 2 ^ (12 + 9 * level) % 512)

/-- The table that a walk meets n levels below the root. -/
def tableBase (s : State) (root va : Nat) : Nat → Nat
  | 0 => root
  | n + 1 => s.pread (pteSlot (tableBase s root va n) va (4 - n)) 8 / 2 ^ 10 % 2 ^ 44 * 4096

/-- The log of a core after one of its operations was replaced. -/
def logPut (s : State) (core : Nat) (o p : LogOp) : State :=
  s.modCore core fun k => { k with log := k.log.map fun q => if q.id = o.id then p else q }

/-- The queue entry that a fault of a logged operation gives (R338, R339, R341): it names the operation's key, PC and word, the faulting lanes and the gangs that hold
them. -/
structure LoggedEntry (s : State) (o : LogOp) (f : TrapInfo) (e : TrapEntry) : Prop where
  code : e.record.code = BitVec.ofNat 8 f.code
  cause : e.record.cause = BitVec.ofNat 16 f.cause
  lane : e.record.lane = BitVec.ofNat 8 f.lane
  addr : e.record.addr = f.addr
  pc : e.record.pc = o.pc
  opword : e.record.opword = o.word.setWidth 64
  kind : e.record.logged = true ∧ e.record.async = false ∧ e.record.nested = false
  fmask : e.fmask = f.fmask
  key : e.key = o.key
  log : e.log = some { o with walked := false, hits := [] }
  resume : (s.group o.gid).frame = none → e.resume = ((s.group o.gid).slice (f.lane / 4)).pc
  atIssue : e.atIssue = false
  engine : e.engine = .none
  gang : ∀ i, i < 64 → (e.gang.getLsbD i = true ↔ ((s.group o.gid).slice i).isDead = false ∧ ∃ j, j < 64 ∧ ((s.group o.gid).slice j).isDead = false ∧
    f.fmask &&& (0xF#256 <<< (4 * j)) ≠ 0 ∧ ((s.group o.gid).slice j).ownGang = ((s.group o.gid).slice i).ownGang)

/-- The operation moves from its core's log into the queue of its group. -/
def loggedFault (s : State) (core : Nat) (o : LogOp) (e : TrapEntry) : State :=
  deliverIfQuiet ((s.modCore core fun k => { k with log := k.log.filter fun p => p.id ≠ o.id }).modGroup o.gid fun g => { g with queue := enqueue e g.queue }) o.gid

/-- A load's value as its registers receive it (R150): bytes and halves extend by the element type of the lane's mode word. -/
def loadedWord (m : Word) (w x : Nat) : Nat :=
  if w = 1 ∧ etSigned (mEtype m) = true ∧ 128 ≤ x then x + 0xFFFFFF00
  else if w = 2 ∧ etSigned (mEtype m) = true ∧ 32768 ≤ x then x + 0xFFFF0000 else x

/-- R76, R149 to R154: the data of a load returns: its lanes' registers receive what was read, every other register keeps what it held, the counter falls,
and nothing is stored. -/
def loadsReturn : Prop :=
  ∀ core id s o, s.findOp core id = some o → (s.group o.gid).core = core → opReady s o = true →
    let r := (readAll s o).2
    let kept (t : State) : Prop := Served s t o ∧ t.teams = s.teams ∧ SameP (s.group o.gid) (t.group o.gid) never ∧ (t.group o.gid).uq = (s.group o.gid).uq
    (∀ w d, o.kind = .load w d → (w = 1 ∨ w = 2 ∨ w = 4 ∨ w = 8 ∨ w = 16) → (∀ l x, laneVal r l = some x → x < 2 ^ (8 * w)) →
      Completes (.loadDataReturn core id) s fun t => kept t ∧ SameU (s.group o.gid) (t.group o.gid) never ∧
        ∀ n l, l < 256 → vget (t.group o.gid) n l = match (if d ≤ n ∧ n < d + max (w / 4) 1 ∧ o.left.getLsbD l then laneVal r l else none) with
          | some x => BitVec.ofNat 32 (loadedWord (o.mode l) w x / 2 ^ (32 * (n - d)))
          | none => vget (s.group o.gid) n l) ∧
    (∀ d, o.kind = .sxld d → Completes (.loadDataReturn core id) s fun t => kept t ∧ SameU (s.group o.gid) (t.group o.gid) never ∧
        ∀ n l, l < 256 → vget (t.group o.gid) n l = match (if n = d then laneVal r l else none) with
          | some b => BitVec.ofNat 32 (sxldValue (o.mode l) b l)
          | none => vget (s.group o.gid) n l) ∧
    (∀ w d, o.kind = .ldu w d → (w = 4 ∨ w = 8) → Completes (.loadDataReturn core id) s fun t => kept t ∧ SameV (s.group o.gid) (t.group o.gid) never ∧
        uget (t.group o.gid) d = BitVec.ofNat 32 ((laneVal r 0).getD 0) ∧
        (w = 8 → uget (t.group o.gid) (d + 1) = BitVec.ofNat 32 ((laneVal r 0).getD 0 / 2 ^ 32)) ∧
        SameU (s.group o.gid) (t.group o.gid) (if w = 8 then atPair d else atReg d))

/-- R142: a load within a line gives each byte from the L1 where its valid bit is set, else from the home; a store leaves its bytes for the loads that
follow, without fetching. -/
def cachedLinesServeBytes : Prop :=
  ∀ (s : State) (core asid vmid part va n : Nat) (h : Hit), va % 128 + n ≤ 128 →
    (∀ i, i < n → (l1Load s core asid vmid part va n h).2 / 2 ^ (8 * i) % 256 =
      match (s.core core).l1Find asid vmid (va / 128) with
      | some y => if y.valid.getLsbD (va % 128 + i) then y.data.toNat / 2 ^ (8 * (va % 128 + i)) % 256 else (s.pbyte (y.pline * 128 + va % 128 + i)).toNat
      | none => (s.pbyte (h.pa / 128 * 128 + va % 128 + i)).toNat) ∧
    (∀ x k, (l1Load (l1Store s core asid vmid part va n x h) core asid vmid part va n k).2 = x % 2 ^ (8 * n))

/-- An access that lies in the team window whose base is given, below the FIFO registers, as a walk places it (R137). -/
def inWindow (base : Nat) (p : Acc × List Hit) : Prop :=
  base ≤ p.1.va ∧ p.1.va + p.1.n ≤ base + 0x4000000 ∧ p.2 = (pieces p.1.va p.1.n).map fun q =>
    { pa := q.1 - base, attr := 3, canR := true, canW := true, dSet := true, pteAddr := 0, level := 0, size := 4096 }

/-- The access covers a window offset. -/
def coversOff (base : Nat) (p : Acc × List Hit) (k : Nat) : Bool := decide (p.1.va - base ≤ k) && decide (k < p.1.va - base + p.1.n)

/-- New memory value of an atomic (R157). -/
def atomicValue (op w : Nat) (sg : Bool) (old y cmp : Nat) : Nat :=
  if op = 0 then (old + y) % 2 ^ w
  else if op = 1 then (if val old w sg ≤ val y w sg then old else y)
  else if op = 2 then (if val y w sg ≤ val old w sg then old else y)
  else if op = 3 then old &&& y else if op = 4 then old ||| y else if op = 5 then old ^^^ y
  else if op = 6 then y else if old = cmp then y else old

/-- R149, R157, R158: stores and atomics in the team window. Of a store, the highest active lane's bytes remain; the atomics of a word act in ascending
lane order, and each lane receives the value that it found. -/
def windowServes : Prop :=
  ∀ core id s o base, s.findOp core id = some o → (s.group o.gid).core = core → opReady s o = true →
    let tid := (s.group o.gid).tid
    (∀ p ∈ s.placed o, inWindow base p) → Memory.wf (s.team tid).scratch →
    let kept (t : State) : Prop := Served s t o ∧ t.mem = s.mem ∧ (∀ j, j ≠ tid → t.team j = s.team j) ∧ t.team tid = { s.team tid with scratch := (t.team tid).scratch } ∧
      SameP (s.group o.gid) (t.group o.gid) never ∧ SameU (s.group o.gid) (t.group o.gid) never ∧ (t.group o.gid).uq = (s.group o.gid).uq
    (∀ w, o.kind = .store w → Completes (.storePerformed core id) s fun t => kept t ∧ SameV (s.group o.gid) (t.group o.gid) never ∧
      ∀ k, bget (t.team tid).scratch k = match (s.placed o).reverse.find? fun p => o.left.getLsbD p.1.lane && coversOff base p k with
        | some p => BitVec.ofNat 8 (o.value p.1.lane / 2 ^ (8 * (k - (p.1.va - base))))
        | none => bget (s.team tid).scratch k) ∧
    (∀ w, o.kind = .stu w → o.hits ≠ [] → Completes (.storePerformed core id) s fun t => kept t ∧ SameV (s.group o.gid) (t.group o.gid) never ∧
      ∀ k, bget (t.team tid).scratch k = if o.ea 0 - base ≤ k ∧ k < o.ea 0 - base + w then BitVec.ofNat 8 (o.value 0 / 2 ^ (8 * (k - (o.ea 0 - base))))
        else bget (s.team tid).scratch k) ∧
    (∀ op d, o.kind = .atomic op d → op < 16 → (op < 8 → ∀ l, l < 256 → o.active.getLsbD l = true → o.wide l = false) → (∀ p ∈ s.placed o, p.1.va % p.1.n = 0) →
      let rmw (m : List Host.Cell) (p : Acc × List Hit) : List Host.Cell :=
        let x := o.value p.1.lane; let w := 8 * p.1.n
        bputs m (p.1.va - base) (leBytes p.1.n (atomicValue (op % 8) w (etSigned (mEtype (o.mode p.1.lane))) (leNat (bgets m (p.1.va - base) p.1.n))
          (if op % 8 = 7 then x / 2 ^ w % 2 ^ w else x % 2 ^ w) (x % 2 ^ w)))
      Completes (.atomicReply core id) s fun t => kept t ∧ (t.team tid).scratch = (s.placed o).foldl rmw (s.team tid).scratch ∧
        (∀ i p, (s.placed o)[i]? = some p →
          let old := leNat (bgets (((s.placed o).take i).foldl rmw (s.team tid).scratch) (p.1.va - base) p.1.n)
          vget (t.group o.gid) d p.1.lane = BitVec.ofNat 32 old ∧ (o.wide p.1.lane = true → 8 ≤ op → vget (t.group o.gid) (d + 1) p.1.lane = BitVec.ofNat 32 (old / 2 ^ 32))) ∧
        (∀ n l, l < 256 → (o.active.getLsbD l = false ∨ (n ≠ d ∧ (n ≠ d + 1 ∨ o.wide l = false ∨ op < 8))) → vget (t.group o.gid) n l = vget (s.group o.gid) n l))

/-- Bytes at physical addresses that a store reaches plainly: no move under way, no record area, memory that a home serves. -/
def plainBytes (s : State) (pa n : Nat) : Prop :=
  s.hub.moves = [] ∧ Memory.wf s.mem ∧ ∀ i, i < n → regionOf (pa + i) ≠ .upstream ∧ inRecordArea (pa + i) = false

/-- Memory after a store of some bytes at an address. -/
def storedAt (s t : State) (pa : Nat) (bs : List Byte) : Prop :=
  ∀ a, bget t.mem a = if pa ≤ a ∧ a < pa + bs.length then bs.getD (a - pa) 0 else bget s.mem a

/-- The core's L1 does not hold the line of a lane's access, under the address that the operation uses. -/
def unheld (s : State) (core : Nat) (o : LogOp) (l : Nat) : Prop :=
  (s.core core).l1Find (s.asid (s.group o.gid).tid) (s.vmid (s.group o.gid).tid) (o.ea l / 128) = none

/-- R142, R155, R158: outside the team window, a store, a uniform store and the block of an SXST leave their bytes in the core's L1 or, for an uncached page, at the home; the block packs
the sixteen lanes of its set, +0 for a lane that is not active, under the mode of the lowest active one (in the window it goes to the scratchpad). An atomic changes
the home's bytes, once its core's L1 holds nothing of the line, and its lane receives what it found. -/
def homesServe : Prop :=
  ∀ core id s o h l, s.findOp core id = some o → (s.group o.gid).core = core → opReady s o = true → o.hits = [[h]] →
    let g := s.group o.gid
    let stores (va n x : Nat) : Prop := va % 128 + n ≤ 128 → h.attr ≠ 3 → Completes (.storePerformed core id) s fun t =>
      Served s t o ∧ t.teams = s.teams ∧ RegsKept g (t.group o.gid) ∧
      (h.uncached = false → ∀ k, (l1Load t core (s.asid g.tid) (s.vmid g.tid) (s.partOf g.tid) va n k).2 = x % 2 ^ (8 * n)) ∧
      (h.uncached = true → plainBytes s h.pa n → storedAt s t h.pa (leBytes n x))
    (∀ w, o.kind = .store w → lanesOf o.active = [l] → o.left.getLsbD l = true → stores (o.ea l) w (o.value l)) ∧
    (∀ w, o.kind = .stu w → stores (o.ea 0) w (o.value 0)) ∧
    (o.kind = .sxst → o.left.getLsbD l = true →
      let n := sxBytes (o.sx l)
      let lane (j : Nat) : FV := let i := 16 * (l / 16) + j; if o.active.getLsbD i then fpVal (fmtOf 8) (mFtz (o.mode i)) (o.value i) else .fin false 0 0
      let block := sxPack ((List.range 16).map lane) (o.sx l) (mRnd (o.mode l))
      s.placed o = [(⟨l, o.ea l, n⟩, [h])] →
        stores (o.ea l) n block ∧
        (o.ea l % 128 + n ≤ 128 → h.attr = 3 → Memory.wf (s.team g.tid).scratch → Completes (.storePerformed core id) s fun t => Served s t o ∧ t.mem = s.mem ∧
          ∀ a, bget (t.team g.tid).scratch a = if h.pa ≤ a ∧ a < h.pa + n then (leBytes n block).getD (a - h.pa) 0 else bget (s.team g.tid).scratch a)) ∧
    (∀ op d, o.kind = .atomic op d → op < 16 → lanesOf o.active = [l] → (op < 8 → o.wide l = false) → h.attr ≠ 3 → unheld s core o l →
      let n := if o.wide l then 8 else 4
      plainBytes s h.pa n →
        let old := s.pread h.pa n
        let w := 8 * n
        let x := o.value l
        let new := atomicValue (op % 8) w (etSigned (mEtype (o.mode l))) old (if op % 8 = 7 then x / 2 ^ w % 2 ^ w else x % 2 ^ w) (x % 2 ^ w)
        Completes (.atomicReply core id) s fun t => Served s t o ∧ t.teams = s.teams ∧ SameU g (t.group o.gid) never ∧ SameP g (t.group o.gid) never ∧ (t.group o.gid).uq = g.uq ∧
          storedAt s t h.pa (leBytes n new) ∧
          ∀ r k, k < 256 → vget (t.group o.gid) r k =
            if k = l ∧ r = d then BitVec.ofNat 32 old else if k = l ∧ r = d + 1 ∧ o.wide l = true then BitVec.ofNat 32 (old / 2 ^ 32) else vget g r k)

/-- An agent outside the compute dies may use a frame (11 R329): one outside the pool, or one that its package owns. -/
def mayUse (s : State) (agent f : Nat) : Prop :=
  tierOf (f * 4096) ≠ 2 ∨ (s.frameRec f).owner = (if agent = 4 then Config.package else BitVec.ofNat 4 (agent - 5)).setWidth 6

end Sys2Proof.Machine

section
open Sys2Proof Sys2Proof.Machine

/-- R303 to R305, R308: a walk of the first stage, with nothing cached and no second stage, that meets non-leaf PTEs for n levels: what the next PTE gives.
An invalid PTE, a reserved encoding, a missing permission and, without ADUP, a clear A or D each raise PAGE_S1 with their REASON; else the leaf gives the
address. With ADUP a clear A or D is set in the PTE, one atomic at its home, which waits where a write of its line would. SUM does not limit the device's own
accesses (own: log 50). (A leaf with W and without R, reserved bits of a pointer, a pointer at level 0 and a leaf at level 4 taken for reserved encodings: log 12.) -/
def Obligations.PageTableWalk : Prop :=
  ∀ (s : State) (x : Xctx) (va acc n : Nat), x.groot = none → x.noAD = false → (s.die x.die).tlb = [] → (s.die x.die).walkCache = [] → va < 2 ^ 56 → n ≤ 4 →
    (∀ k, k < n → pteKind (s.pread (pteSlot (tableBase s x.root va k) va (4 - k)) 8) (4 - k) = .next) →
    (∀ k, k ≤ n → homeError s x.part (pteSlot (tableBase s x.root va k) va (4 - k)) false = none ∧
      ∀ i, i < 8 → inRecordArea (s.route (pteSlot (tableBase s x.root va k) va (4 - k) + i)) = false) →
    let level := 4 - n
    let slot := pteSlot (tableBase s x.root va n) va level
    let pte := s.pread slot 8
    let writes := acc = 1 ∨ acc = 4
    let allowed := (if acc = 2 then pte.testBit 3 else pte.testBit 1) = true ∧ (writes → pte.testBit 2 = true) ∧
      (if x.sup then pte.testBit 4 = false ∨ (((s.partRec x.part).sum = true ∨ x.own = true) ∧ acc ≠ 2) else pte.testBit 4 = true)
    let pa := if pte.testBit 63 then pte / 2 ^ 10 % 2 ^ 44 * 4096 / 0x10000 * 0x10000 + va % 0x10000
      else pte / 2 ^ 10 % 2 ^ 44 * 4096 + va % (4096 * 512 ^ level)
    let out := (translate s x va acc).2
    let reached := ∃ h, out = .ok h ∧ h.pa = pa ∧ h.attr = pte / 2 ^ 61 % 4 ∧ h.pteAddr = slot ∧ h.level = level
    (pteKind pte level = .invalid → out = .trap 0x0A (pageCause 1 acc level (level == 0 && pte.testBit 57))) ∧
    (pteKind pte level = .bad → out = .trap 0x0A (pageCause 3 acc level false)) ∧
    (pteKind pte level = .leaf → pte.testBit 58 = false →
      (¬ allowed → out = .trap 0x0A (pageCause 2 acc level false)) ∧
      (allowed → (pte.testBit 6 = false ∨ (writes ∧ pte.testBit 7 = false)) → (s.partRec x.part).adup = false →
        out = .trap 0x0A (pageCause 4 acc level false)) ∧
      (allowed → (pte.testBit 6 = false ∨ (writes ∧ pte.testBit 7 = false)) → (s.partRec x.part).adup = true →
        (s.lineHeld slot = true → out = .wait) ∧
        (s.lineHeld slot = false → plainBytes s slot 8 → regionOf pa ≠ .upstream →
          reached ∧ (translate s x va acc).1.pread slot 8 = pte ||| (if writes then 0xC0 else 0x40))) ∧
      (allowed → pte.testBit 6 = true → (writes → pte.testBit 7 = true) → regionOf pa ≠ .upstream → reached))

/-- R338 to R340: the walk of a logged operation ends with every lane placed, waits, or faults; a fault moves the operation into its queue entry.
(That a quiet group takes the trap at once is the model's: log 5; that the gangs which hold a lane of FMASK stop: log 11.) -/
def Obligations.TranslationOfLoggedOperations : Prop :=
  ∀ core id s o, s.findOp core id = some o → (s.group o.gid).core = core → o.walked = false →
    (∀ hits, walkOut o (walkAll s o).2 = .done hits →
      Completes (.translationWalk core id) s fun t => ∃ u, Traffic s u ∧ t = logPut u core o { o with walked := true, hits := hits }) ∧
    (walkOut o (walkAll s o).2 = .wait → exec (.translationWalk core id) s = .next s) ∧
    (∀ f, walkOut o (walkAll s o).2 = .trap f → (s.group o.gid).frame = none → (s.group o.gid).queue.length < 8 →
      Completes (.translationWalk core id) s fun t => ∃ u e, Traffic s u ∧ LoggedEntry s o f e ∧ t = loggedFault u core o e)

/-- R138, R360: the lowest lane that a push or a pop owes is served when its FIFO has a place or an entry: the push appends the lane's 16 bytes; the pop
takes the oldest entry into the lane's four registers. The operation then owes that lane no more. -/
def Obligations.FifosServeOneLane : Prop :=
  ∀ core id s o l f q, s.findOp core id = some o → (s.group o.gid).core = core → o.walked = true → unblocked s o = true → l < 256 →
    (s.team (s.group o.gid).tid).fifos.getD f none = some q →
    let o1 := { o with left := o.left &&& ~~~(1#256 <<< l) }
    (fifoLeft s o = some (l, f, 0) → q.length < 8192 →
      Completes (.fifoPushComplete core id) s fun t =>
        t = logPut (s.modTeam (s.group o.gid).tid fun x => { x with fifos := lset x.fifos f (some (q ++ [BitVec.ofNat 128 (o.value l)])) }) core o o1) ∧
    (fifoLeft s o = some (l, f, 0) → 8192 ≤ q.length → exec (.fifoPushComplete core id) s = .next s) ∧
    (∀ x rest w d, fifoLeft s o = some (l, f, 1) → q = x :: rest → o.kind = .load w d →
      Completes (.fifoPopComplete core id) s fun t =>
        (t.team (s.group o.gid).tid).fifos = lset (s.team (s.group o.gid).tid).fifos f (some rest) ∧ t.mem = s.mem ∧
        (∀ j, j ≠ o.gid → t.group j = s.group j) ∧ GroupKept (s.group o.gid) (t.group o.gid) ∧ (t.group o.gid).slices = (s.group o.gid).slices ∧
        (t.core core).log = (s.core core).log.map (fun p => if p.id = o.id then o1 else p) ∧
        (∀ i, i < 4 → vget (t.group o.gid) (d + i) l = x.extractLsb' (32 * i) 32) ∧
        (∀ n k, k < 256 → (k ≠ l ∨ n < d ∨ d + 4 ≤ n) → vget (t.group o.gid) n k = vget (s.group o.gid) n k) ∧
        SameU (s.group o.gid) (t.group o.gid) never ∧ SameP (s.group o.gid) (t.group o.gid) never ∧ (t.group o.gid).uq = (s.group o.gid).uq) ∧
    (∀ n, fifoLeft s o = some (l, f, n + 1) → q = [] → exec (.fifoPopComplete core id) s = .next s)

/-- Stores and atomics perform: in the team window, in the L1 and at the homes. -/
def Obligations.StoresAndAtomicsPerform : Prop := windowServes ∧ homesServe

/-- R159 to R163: a queue opens when its four conditions hold, a contribution is accepted unless one of five refuses it, and a full queue is applied: the
sum, in ascending key order whatever the order of arrival, then the flag. -/
def Obligations.OrderedAdds : Prop :=
  (∀ (q : AddQueue) (items : List (Nat × DWord)) (start : Nat), (q.items.map (·.1)).Nodup → q.items.Perm items →
    q.total start = ({ q with items := items } : AddQueue).total start) ∧
  (∀ n s q, s.hub.adds[n]? = some q → q.items.length = q.count → plainBytes s q.addr (if q.f64 then 16 else 8) →
    let w := if q.f64 then 8 else 4
    Completes (.orderedAddApply n) s fun t =>
      storedAt s t q.addr (leBytes w (q.total (s.pread q.addr w)) ++ leBytes w 1) ∧ t.hub.adds = ldrop s.hub.adds n ∧ t.groups = s.groups ∧ t.teams = s.teams ∧
      t.cores = s.cores ∧ (∀ k, t.die k = { s.die k with l2 := (t.die k).l2 })) ∧
  (∀ core id s o d f64 count h rest, s.findOp core id = some o → (s.group o.gid).core = core → opReady s o = true → o.kind = .faopen d f64 count →
    o.hits = (h :: rest) :: [] → plainBytes s h.pa (if f64 then 16 else 8) →
    let ok := (∀ q ∈ s.hub.adds, q.addr ≠ h.pa) ∧ s.hub.adds.length < 256 ∧ (s.hub.adds.map AddQueue.count).sum + count.toNat ≤ 262144 ∧ 1 ≤ count.toNat ∧ count.toNat ≤ 65536
    let q : AddQueue := { addr := h.pa, f64 := f64, count := count.toNat, grid := s.gridOf (s.group o.gid).tid, items := [] }
    Completes (.atomicReply core id) s fun t => Served s t o ∧
      (ok → t.hub.adds = s.hub.adds ++ [q] ∧ (t.group o.gid).uq = (qput (s.group o.gid) d.toNat true).uq ∧
        storedAt s t (h.pa + (if f64 then 8 else 4)) (leBytes (if f64 then 8 else 4) 0)) ∧
      (¬ ok → t.hub.adds = s.hub.adds ∧ (t.group o.gid).uq = (qput (s.group o.gid) d.toNat false).uq ∧ t.mem = s.mem)) ∧
  (∀ core id s o d h l, s.findOp core id = some o → (s.group o.gid).core = core → opReady s o = true → o.kind = .faadd d →
    o.hits = [[h]] → lanesOf o.active = [l] →
    let key := addKey s o.gid l
    let refused := ∀ q, s.hub.adds.find? (fun q => q.addr == h.pa) = some q →
      q.f64 ≠ o.wide l ∨ q.grid ≠ s.gridOf (s.group o.gid).tid ∨ (∃ e ∈ q.items, e.1 = key) ∨ q.count ≤ q.items.length
    Completes (.atomicReply core id) s fun t => Served s t o ∧ t.mem = s.mem ∧
      (refused → t.hub.adds = s.hub.adds ∧ (d.toNat % 8 ≠ 7 → ((t.group o.gid).preds.getD (d.toNat % 8) 0).getLsbD l = decide (8 ≤ d.toNat))) ∧
      (¬ refused → t.hub.adds = (s.hub.adds.map fun q => if q.addr = h.pa then { q with items := q.items ++ [(key, BitVec.ofNat 64 (o.value l))] } else q) ∧
        (d.toNat % 8 ≠ 7 → ((t.group o.gid).preds.getD (d.toNat % 8) 0).getLsbD l = !decide (8 ≤ d.toNat))))

/-- R172, R173: a store of an agent outside the compute dies within one word is performed at its home: the bytes change; if the word is subscribed, its
sequence number advances by one and every live subscription is pushed the word as it now stands, the others counting what they miss. Caches give up their
copies of the line. A line request of such an agent begins a lease of its kind (07 R217). Where the event holds the agent is the model's choice (log 57). -/
def Obligations.HomeStoresPush : Prop :=
  (∀ agent pa bs s, 4 ≤ agent → homeOf pa < 6 → s.hub.outside = [] → (homeOf pa < 4 → (s.die (homeOf pa)).down = false) → s.leaseFlag agent pa = none → mayUse s agent (pa / 4096) → plainBytes s pa bs.length → bs ≠ [] → pa / 8 = (pa + bs.length - 1) / 8 →
    (∀ e ∈ s.hub.sync, pa + bs.length ≤ e.obj ∨ e.obj + 8 ≤ pa) →
    let h := homeOf pa
    let word := pa / 8 * 8
    let mine := (s.home h).subs.filter fun e => e.2.word == word
    Completes (.homeStoreApply ((agent - 4) * 2 ^ 57 + pa) bs) s fun t => storedAt s t pa bs ∧ t.groups = s.groups ∧ t.teams = s.teams ∧ t.cores = s.cores ∧
      (∀ k, t.die k = { s.die k with l2 := (t.die k).l2 }) ∧
      (∀ k, k ≠ h → t.home k = s.home k) ∧ (t.home h).applied = (s.home h).applied + 1 ∧
      (mine = [] → t.hub.pushNet = s.hub.pushNet ∧ (t.home h).subs = (s.home h).subs ∧ (t.home h).seqs = (s.home h).seqs) ∧
      (mine ≠ [] → (∀ w, sget 0 (t.home h).seqs w = if w = word then sget 0 (s.home h).seqs word + 1 else sget 0 (s.home h).seqs w) ∧
        (∃ ps, t.hub.pushNet = s.hub.pushNet ++ ps ∧ ps.length = (mine.filter fun e => e.2.st == .live).length ∧
          ∀ (i : Nat) (p : Push) (e : Nat × Sub), ps[i]? = some p → (mine.filter fun e => e.2.st == .live)[i]? = some e → p.home = h ∧ p.idx = e.1 ∧ p.core = e.2.core ∧ p.tid = e.2.tid ∧ p.off = e.2.off ∧
            p.seq = sget 0 (s.home h).seqs word + 1 ∧ p.value = BitVec.ofNat 64 (leNat (bgets t.mem word 8)) ∧ p.count = 0 ∧ p.redelivery = false) ∧
        (t.home h).subs = (s.home h).subs.map fun e => if e.2.word == word && e.2.st != .live then (e.1, { e.2 with skip := e.2.skip + 1 }) else e)) ∧
  (∀ agent pa write s, 4 ≤ agent →
    let a := s.route pa
    homeOf a < 6 → s.route (a / 128 * 128) = a / 128 * 128 → s.hub.outside = [] → (homeOf a < 4 → (s.die (homeOf a)).down = false) → s.leaseFlag agent pa = none → mayUse s agent (pa / 4096) → mayUse s agent (a / 4096) →
    (∀ e ∈ s.hub.sync, e.obj / 128 ≠ a / 128) → (write = true → ∀ e ∈ (s.home (homeOf a)).subs, e.2.word / 128 ≠ a / 128) →
    Completes (.lineRequest agent pa write) s fun t => t.mem = s.mem ∧ t.groups = s.groups ∧ t.teams = s.teams ∧ t.cores = s.cores ∧
      (∀ k, t.die k = { s.die k with l2 := (t.die k).l2 }) ∧
      (∃ l ∈ (t.home (homeOf a)).leases, l.agent = agent ∧ l.region = a / 0x200000 ∧ l.write = write) ∧
      t.lineState (a / 128) = if write then some (.modified agent) else
        match s.lineState (a / 128) with
        | some (.modified b) => some (if b = agent then .modified b else .shared [b, agent])
        | some (.shared l) => some (.shared (if l.contains agent then l else l ++ [agent]))
        | none => some (.shared [agent]))

/-- Loads return, and cached lines serve bytes. -/
def Obligations.LoadsReturnTheirBytes : Prop := loadsReturn ∧ cachedLinesServeBytes

end

namespace Sys2Proof.Machine

/-! ## Banks, fences, batches and barriers (05, 07, 08) -/

/-- The banks of a core in cache mode, as R135 counts them. -/
def cacheCount (s : State) (core : Nat) : Nat := ((List.range 24).filter fun b => (s.core core).banks.getD b .cache == .cache).length

/-- R164: what BANKCFG answers, or asks of the core; the change itself is BANK_MODE_CHANGE. One change of a core at a time. -/
def bankRequests : Prop :=
  let asks (i : Instr) (p : BitVec 4) (op : Nat) (refused : Team → State → Nat → Prop) (fails : Team → State → Nat → Nat → Nat → Prop) : Prop :=
    ∀ s c, issuer s = some c → issues (encode i) s = true → uniformSplit (s.group c.gid) c = false →
      let tid := (s.group c.gid).tid
      (s.core (tid / 32)).bankChange = [] → (op = 1 → windowBusy s tid ((s.team tid).scrSize - 0x20000) (s.team tid).scrSize = false) →
      (6 ≤ op → windowBusy s tid (0x4000000 + 0x10000 * (op - 6)) (0x4000000 + 0x10000 * (op - 6) + 0x24) = false) →
      (∀ bank cause, fails (s.team tid) s tid bank cause → Raises i s c (gangTrap (s.group c.gid) c 0x12 (bank * 2 ^ 8 + cause) 0)) ∧
      ((∀ bank cause, ¬ fails (s.team tid) s tid bank cause) → refused (s.team tid) s tid → Completes i s fun t => QResult s t c p.toNat false) ∧
      ((∀ bank cause, ¬ fails (s.team tid) s tid bank cause) → ¬ refused (s.team tid) s tid → Completes i s fun t =>
        GangFlow s t c onward ∧ RegsKept (s.group c.gid) (t.group c.gid) ∧ t.mem = s.mem ∧ t.dies = s.dies ∧ t.homes = s.homes ∧ t.hub = s.hub ∧
        ∃ bank, (t.core (tid / 32)).bankChange = [(c.gid, op, bank, p)] ∧
          (op = 0 ∨ 2 ≤ op ∧ op < 6 → bank < 24 ∧ (s.core (tid / 32)).banks.getD bank .cache = .cache) ∧
          t.team tid = (if op = 1 then { s.team tid with scrSize := (s.team tid).scrSize - 0x20000 }
            else if 6 ≤ op then { s.team tid with fifos := lset (s.team tid).fifos (op - 6) none } else s.team tid))
  let none_ : Team → State → Nat → Prop := fun _ _ _ => False
  (∀ p, asks (.bankcfgGrow p) p 0 (fun t s tid => cacheCount s (tid / 32) < 5 ∨ 0x200000 < t.scrSize + 0x20000) fun _ _ _ _ _ => False) ∧
  (∀ p, asks (.bankcfgShrink p) p 1 none_ fun t s tid bank cause => (t.grow = [] ∧ bank = 0xFF ∧ cause = 3) ∨
    (t.grow.getLast? = some bank ∧ cause = 1 ∧ ∃ d ∈ (s.core (tid / 32)).directory, d.tid = tid ∧ t.scrSize < d.off + 0x20000 + 16 ∧ d.off < t.scrSize)) ∧
  (∀ p (f : BitVec 2), asks (.bankcfgFifo p f) p (2 + f.toNat) (fun _ s tid => cacheCount s (tid / 32) < 5) fun t s tid bank cause =>
    (t.fifos.getD f.toNat none).isSome = true ∧ bank = fifoBank (s.core (tid / 32)) tid f.toNat ∧ cause = 3) ∧
  (∀ p (f : BitVec 2), asks (.bankcfgUnfifo p f) p (6 + f.toNat) none_ fun t s tid bank cause =>
    (t.fifos.getD f.toNat none = none ∧ bank = 0xFF ∧ cause = 3) ∨
    (∃ q, t.fifos.getD f.toNat none = some q ∧ q ≠ [] ∧ bank = fifoBank (s.core (tid / 32)) tid f.toNat ∧ cause = 2))

/-- R139, R164, R165: the change of a bank: out of cache mode its lines leave the L1, dirty bytes written back; the team gains or loses the pages or the
FIFO; the gang that asked reads true. -/
def bankModeChanges : Prop :=
  ∀ core s gid op bank p rest, (s.core core).bankChange = (gid, op, bank, p) :: rest → bankReady s core = true → (s.group gid).tid / 32 = core → op < 10 →
    let tid := (s.group gid).tid
    Completes (.bankModeChange core) s fun t =>
      (t.core core).bankChange = rest ∧ t.group gid = qput (s.group gid) p.toNat true ∧ (∀ j, j ≠ gid → t.group j = s.group j) ∧ (∀ j, j ≠ tid → t.team j = s.team j) ∧
      (Memory.wf s.mem → Memory.wf t.mem) ∧ t.referee = s.referee ∧
      (op = 0 → (t.core core).banks = lset (s.core core).banks bank (.scratch (List.replicate 16 (some tid))) ∧ (∀ y ∈ (t.core core).l1, y.bank ≠ bank) ∧
        t.team tid = { s.team tid with scrSize := (s.team tid).scrSize + 0x20000, grow := (s.team tid).grow ++ [bank],
                                       pages := (s.team tid).pages ++ (List.range 16).map fun i => (bank, i) }) ∧
      (op = 1 → (t.core core).banks = lset (s.core core).banks bank .cache ∧ t.mem = s.mem ∧ (t.core core).l1 = (s.core core).l1 ∧
        (t.team tid).scrSize = (s.team tid).scrSize ∧ (t.team tid).grow = (s.team tid).grow.dropLast ∧
        (∀ e, e ∈ (t.team tid).pages ↔ e ∈ (s.team tid).pages ∧ e.1 ≠ bank) ∧ (∀ e, e ∈ (t.team tid).scratch ↔ e ∈ (s.team tid).scratch ∧ e.1 < (s.team tid).scrSize)) ∧
      (2 ≤ op → op < 6 → (t.core core).banks = lset (s.core core).banks bank (.fifo tid (op - 2)) ∧ (∀ y ∈ (t.core core).l1, y.bank ≠ bank) ∧
        t.team tid = { s.team tid with fifos := lset (s.team tid).fifos (op - 2) (some []) }) ∧
      (6 ≤ op → (t.core core).banks = lset (s.core core).banks bank .cache ∧ t.mem = s.mem ∧ (t.core core).l1 = (s.core core).l1 ∧ t.team tid = s.team tid)

/-- The lines of a team's address space in its group's L1. -/
def ownLine (s : State) (g : Group) (x : L1Line) : Bool := x.asid == s.asid g.tid && x.vmid == s.vmid g.tid

/-- R242: an arrival on an unarmed register is discarded; the last arrival of a lap reloads it and keeps the lap's ranges; any other lowers PENDING. -/
def barrierArrivals : Prop :=
  (∀ (b : Barrier) rs, b.expected = 0 → b.arrive rs = b) ∧
  (∀ (b : Barrier) rs, b.expected ≠ 0 → b.pending = 1 → b.arrive rs = { b with lap := b.lap + 1, pending := b.expected, last := b.cur.append rs, cur := .empty }) ∧
  (∀ (b : Barrier) rs, b.expected ≠ 0 → b.pending ≠ 1 → b.arrive rs = { b with pending := b.pending - 1, cur := b.cur.append rs }) ∧
  (∀ n s a, s.hub.arrivals[n]? = some a → a.bar < (s.team a.tid).bars.length →
    Completes (.barrierArrival n) s fun t =>
      t.mem = s.mem ∧ t.groups = s.groups ∧ t.cores = s.cores ∧ t.dies = s.dies ∧ t.homes = s.homes ∧ t.hub = { s.hub with arrivals := ldrop s.hub.arrivals n } ∧
      (∀ j, j ≠ a.tid → t.team j = s.team j) ∧ (t.team a.tid).bar a.bar = ((s.team a.tid).bar a.bar).arrive a.ranges ∧
      (∀ b, b ≠ a.bar → (t.team a.tid).bar b = (s.team a.tid).bar b))

/-- R244 to R246: BARINIT arms a register, BARA makes k arrivals and gives the run lanes the lap of the last, BARW waits for a later lap. -/
def barrierInstructions : Prop :=
  (∀ (a : BitVec 8) (b : BitVec 4) s c, issuer s = some c → issues (encode (.barinit a b)) s = true →
    let g := s.group c.gid
    let n : BitVec 16 := (readU s g c a.toNat).setWidth 16
    b.toNat < (s.team g.tid).bars.length →
    Completes (.barinit a b) s fun t => GangFlow s t c onwardStore ∧ RegsKept g (t.group c.gid) ∧ t.mem = s.mem ∧ t.hub = s.hub ∧ (∀ j, j ≠ g.tid → t.team j = s.team j) ∧
      (t.team g.tid).bar b.toNat = { (s.team g.tid).bar b.toNat with expected := n, pending := n, cur := .empty } ∧
      ∀ j, j ≠ b.toNat → (t.team g.tid).bar j = (s.team g.tid).bar j) ∧
  (∀ (d a : BitVec 8) (r : BitVec 1) (b : BitVec 4) s c, issuer s = some c → issues (encode (.bara d a r b)) s = true →
    let g := s.group c.gid
    let k := (readU s g c a.toNat).toNat
    let x := (s.team g.tid).bar b.toNat
    let still := ∀ i ∈ ctxSlices c, (g.slice i).stores = 0 ∧ (g.slice i).atomics = 0
    b.toNat < (s.team g.tid).bars.length →
    (¬ still → exec (.bara d a r b) s = .next s) ∧
    (still → (r = 1 → fenceWorks s g.tid 1 = true → passReady s c.gid = true) →
      Completes (.bara d a r b) s fun t => GangFlow s t c onwardStore ∧ (Memory.wf s.mem → Memory.wf t.mem) ∧ (r = 0 → t.mem = s.mem) ∧
        (t.team g.tid).bar b.toNat = x.arriveMany k ∧ (∀ j, j ≠ b.toNat → (t.team g.tid).bar j = (s.team g.tid).bar j) ∧ (∀ j, j ≠ g.tid → t.team j = s.team j) ∧
        SameV g (t.group c.gid) (atReg d.toNat) ∧ SameP g (t.group c.gid) never ∧ SameU g (t.group c.gid) never ∧ (t.group c.gid).uq = g.uq ∧
        (∀ l, l < 256 → vget (t.group c.gid) d.toNat l = if runs g c l then (if x.expected = 0 then 0xFFFFFFFF else (x.arriveMany (k - 1)).lap) else vget g d.toNat l) ∧
        (r = 1 → fenceWorks s g.tid 1 = true → ∀ y ∈ (t.core g.core).l1, ownLine s g y = true → y.dirty = 0))) ∧
  (∀ (a : BitVec 8) (q : BitVec 1) (b : BitVec 4) s c, issuer s = some c → issues (encode (.barw a q b)) s = true →
    let g := s.group c.gid
    let lap := readV g a.toNat ((lanesOf (runSet g c)).headD 0)
    let x := (s.team g.tid).bar b.toNat
    let reached := x.expected = 0 ∨ (1 ≤ (x.lap - lap).toNat ∧ (x.lap - lap).toNat ≤ 2 ^ 31)
    (∀ l ∈ lanesOf (runSet g c), readV g a.toNat l = lap) →
    (reached → passReady s c.gid = true → Completes (.barw a q b) s fun t => GangFlow s t c onward ∧ RegsKept g (t.group c.gid) ∧ t.teams = s.teams ∧
      (Memory.wf s.mem → Memory.wf t.mem) ∧
      (∀ y ∈ (t.core g.core).l1, (if x.lap = lap + 1 ∧ x.last.full = false then y.inRanges (s.asid g.tid) (s.vmid g.tid) x.last.items else ownLine s g y) = false)) ∧
    (¬ reached → Completes (.barw a q b) s fun t => Flow s t c fun _ y => { y with wait := .barw b.toNat lap (q == 1) })) ∧
  (∀ gid gang b lap acq s, gangWait s gid gang = .barw b lap acq → barwOpen ((s.team (s.group gid).tid).bar b) lap = true → passReady s gid = true →
    Completes (.barwPass gid gang) s fun t => (∀ j, j ≠ gid → t.group j = s.group j) ∧ RegsKept (s.group gid) (t.group gid) ∧ t.teams = s.teams ∧
      (∀ i, i < (s.group gid).slices.length → ((s.group gid).gangSlices gang).getLsbD i = true →
        ((t.group gid).slice i).wait = .none ∧ ((t.group gid).slice i).pc = ((s.group gid).slice i).pc + 4))

end Sys2Proof.Machine

section
open Sys2Proof Sys2Proof.Machine

/-- R214, R215: FENCE waits while an access of the gang is outstanding, then cleans and invalidates the L1 at the scopes that ask for it; WAITC passes when
the counters that it selects are low enough, else its gang waits until they are. -/
def Obligations.FencesAndCounters : Prop :=
  (∀ (n cl : BitVec 1) (sc : BitVec 3) s c, issuer s = some c → issues (encode (.fence n cl sc)) s = true →
    let g := s.group c.gid
    let still := ∀ i ∈ ctxSlices c, (g.slice i).loads = 0 ∧ (g.slice i).stores = 0 ∧ (g.slice i).atomics = 0
    (¬ still → exec (.fence n cl sc) s = .next s) ∧
    (still → fenceWorks s g.tid sc.toNat = false → Completes (.fence n cl sc) s fun t => Flow s t c onward) ∧
    (still → fenceWorks s g.tid sc.toNat = true → cleanReady s g.core (ofAsid (s.asid g.tid) (s.vmid g.tid)) = true →
      Completes (.fence n cl sc) s fun t => GangFlow s t c onward ∧ RegsKept g (t.group c.gid) ∧ t.teams = s.teams ∧ t.referee = s.referee ∧
        (Memory.wf s.mem → Memory.wf t.mem) ∧
        (n = 1 → ∀ x ∈ (t.core g.core).l1, ownLine s g x = false) ∧
        (cl = 1 → ∀ x ∈ (t.core g.core).l1, ownLine s g x = true → x.dirty = 0))) ∧
  (∀ (lim : BitVec 8) (m : BitVec 4) s c, issuer s = some c → issues (encode (.waitc lim m)) s = true →
    let g := s.group c.gid
    let low := ∀ i ∈ ctxSlices c, (m.getLsbD 0 = true → (g.slice i).loads ≤ lim.toNat) ∧ (m.getLsbD 1 = true → (g.slice i).stores ≤ lim.toNat) ∧
      (m.getLsbD 2 = true → (g.slice i).atomics ≤ lim.toNat) ∧ (m.getLsbD 3 = true → (g.slice i).posts ≤ lim.toNat)
    (low → Completes (.waitc lim m) s fun t => Flow s t c onward) ∧
    (¬ low → Completes (.waitc lim m) s fun t => Flow s t c fun _ x => { x with wait := .waitc m lim.toNat })) ∧
  (∀ gid gang s, waitcReady s gid gang = true →
    Completes (.waitcPass gid gang) s fun t => SliceEvent s t gid ((s.group gid).gangSlices gang) fun _ x =>
      ({ x with wait := .none, pc := x.pc + 4, promoted := false } : Slice).spinCheck)

/-- R239, R240: BATCH closes the open batch and gives its number; WAITB n waits for the closed batches at or before n, and as it passes the L1 loses the
destination ranges of the copies that the group had not observed. -/
def Obligations.Batches : Prop :=
  (∀ (d : BitVec 8) s c, issuer s = some c → issues (encode (.batch d)) s = true → uniformSplit (s.group c.gid) c = false →
    let g := s.group c.gid
    (8 ≤ g.closed.length → exec (.batch d) s = .next s) ∧
    (g.closed.length < 8 → Completes (.batch d) s fun t => BeyondKept s t c.gid ∧
      uget (t.group c.gid) d.toNat = g.openBatch.setWidth 32 ∧ SameU g (t.group c.gid) (atReg d.toNat) ∧ SameV g (t.group c.gid) never ∧ SameP g (t.group c.gid) never ∧
      (t.group c.gid).uq = g.uq ∧ (t.group c.gid).openBatch = (if g.openBatch = 0xFFFF then 1 else g.openBatch + 1) ∧ (t.group c.gid).openLeft = 0 ∧
      (t.group c.gid).closed = (if g.openLeft = 0 then g.closed else g.closed ++ [(g.openBatch, g.openLeft)]) ∧
      (∀ i, i < g.slices.length → c.gang.getLsbD i = true → SliceLike (onward i (g.slice i)) ((t.group c.gid).slice i)))) ∧
  (∀ (a : BitVec 8) s c, issuer s = some c → issues (encode (.waitb a)) s = true →
    let g := s.group c.gid
    let n : BitVec 16 := (readU s g c a.toNat).setWidth 16
    let complete := ∀ e ∈ g.closed, 2 ^ 15 ≤ (n - e.1).toNat
    (complete → passReady s c.gid = true → Completes (.waitb a) s fun t =>
      (∀ j, j ≠ c.gid → t.group j = s.group j) ∧ RegsKept g (t.group c.gid) ∧ t.teams = s.teams ∧ (Memory.wf s.mem → Memory.wf t.mem) ∧
      (∀ x ∈ (t.core g.core).l1, ∀ p ∈ freshPosts g n, x.inRanges (s.asid g.tid) (s.vmid g.tid) p.ranges = false) ∧
      (∀ i, i < g.slices.length → c.gang.getLsbD i = true → SliceLike (onward i (g.slice i)) ((t.group c.gid).slice i))) ∧
    (¬ complete → Completes (.waitb a) s fun t => Flow s t c fun _ x => { x with wait := .waitb n })) ∧
  (∀ gid gang n s, gangWait s gid gang = .waitb n → batchesDone (s.group gid) n = true → passReady s gid = true →
    Completes (.waitbPass gid gang) s fun t =>
      (∀ j, j ≠ gid → t.group j = s.group j) ∧ RegsKept (s.group gid) (t.group gid) ∧ t.teams = s.teams ∧ (Memory.wf s.mem → Memory.wf t.mem) ∧
      (∀ x ∈ (t.core (s.group gid).core).l1, ∀ p ∈ freshPosts (s.group gid) n,
        x.inRanges (s.asid (s.group gid).tid) (s.vmid (s.group gid).tid) p.ranges = false) ∧
      (∀ i, i < (s.group gid).slices.length → ((s.group gid).gangSlices gang).getLsbD i = true →
        ((t.group gid).slice i).wait = .none ∧ ((t.group gid).slice i).pc = ((s.group gid).slice i).pc + 4))

/-- Bank requests, and the changes of mode that they lead to. -/
def Obligations.Banks : Prop := bankRequests ∧ bankModeChanges

/-- Barriers: arrivals and instructions. -/
def Obligations.Barriers : Prop := barrierArrivals ∧ barrierInstructions

end

namespace Sys2Proof.Machine

/-! ## Standing slots and leases (06, 07) -/

/-- R176: what a core does with a push that arrives: it refuses it, takes it into the inbox, or coalesces it into an entry for its slot whose write has not
begun. A slot that has refused a push refuses those that follow, until a redelivery; a CLOSING one stays CLOSING meanwhile (log 66). -/
def pushArrivals : Prop :=
  ∀ n s p d, s.firstPush n = some p → p.redelivery = false → s.dirSlot p.tid p.off = some d → p.core = p.tid / 32 →
    let inbox := (s.core p.core).inbox
    let room := inbox.length < 64
    let held := ∃ q ∈ inbox, q.sameSlot p = true ∧ q.begun = false
    let refuses := d.refuses = true ∨ s.swapped p.tid = true ∨ (¬ room ∧ ¬ held)
    Completes (.pushArrival n) s fun t => t.mem = s.mem ∧ t.groups = s.groups ∧ t.teams = s.teams ∧ t.dies = s.dies ∧ t.hub.pushNet = ldrop s.hub.pushNet n ∧
      (refuses → (t.core p.core).inbox = inbox ∧ t.hub.refusals = s.hub.refusals ++ [p] ∧ p.home ∈ (t.core p.core).refusedHomes ∧ t.homes = s.homes ∧
        ∃ e, t.dirSlot p.tid p.off = some e ∧ e.refuses = true ∧ e.st = if d.st = .live then .refused else d.st) ∧
      (¬ refuses → t.hub.refusals = s.hub.refusals ∧ t.dirSlot p.tid p.off = some d ∧
        (room → (t.core p.core).inbox = inbox ++ [p]) ∧
        (¬ room → (t.core p.core).inbox.length = inbox.length ∧ ∃ (i : Nat) (q r : Push), inbox[i]? = some q ∧ q.sameSlot p = true ∧ q.begun = false ∧ (t.core p.core).inbox[i]? = some r ∧
          r.value = p.value ∧ r.seq = p.seq ∧ r.count = min 15 (q.count + p.count + 1) ∧ ∀ j, j ≠ i → (t.core p.core).inbox[j]? = inbox[j]?))

/-- R169, R175, R178: the oldest inbox entry of a core is written to its slot, all 16 bytes at once; before the slot of an acquiring subscription is
written, the L1 of the core that subscribed loses what the delivery names; the entry stays in the inbox meanwhile, its write begun. -/
def deliveries : Prop :=
  (∀ core s p rest d, (s.core core).inbox = p :: rest → s.dirSlot p.tid p.off = some d → p.begun = false → p.regions ≠ [] →
    Completes (.inboxDelivery core) s fun t => (t.core core).inbox = { p with begun := true } :: rest ∧ t.groups = s.groups ∧ t.teams = s.teams ∧
      (Memory.wf s.mem → Memory.wf t.mem) ∧ (d.acq = false → t.mem = s.mem) ∧
      (d.acq = true → ∀ x ∈ (t.core (s.group d.gid).core).l1, ∀ r ∈ p.regions, x.inRanges r.1 (s.vmid p.tid) [(r.2.1, r.2.2)] = false)) ∧
  (∀ core s p rest d, (s.core core).inbox = p :: rest → s.dirSlot p.tid p.off = some d → (p.begun = true ∨ p.regions = []) → p.tid / 32 = core →
    Memory.wf (s.team p.tid).scratch →
    let bits := p.value.toNat + p.seq.toNat * 2 ^ 64 + min p.count 15 * 2 ^ 80 + d.acq.toNat * 2 ^ 86 + 2 ^ 87
    Completes (.inboxDelivery core) s fun t => (t.core core).inbox = rest ∧ t.groups = s.groups ∧ (∀ j, j ≠ p.tid → t.team j = s.team j) ∧
      t.mem = s.mem ∧
      (∀ k, bget (t.team p.tid).scratch k = if p.off ≤ k ∧ k < p.off + 16 then BitVec.ofNat 8 (bits / 2 ^ (8 * (k - p.off))) else bget (s.team p.tid).scratch k) ∧
      ∃ e, t.dirSlot p.tid p.off = some e ∧ e.value = p.value ∧ e.seq = p.seq ∧ e.st = d.st) ∧
  (∀ core s, (s.core core).inbox = [] → exec (.inboxDelivery core) s = .next s)

/-- R183, R185: an LDS of one lane reads the word at its home, writes the whole slot and, where the core's directory and the home have room, enters the subscription
at both, to be pushed every store applied afterwards; a slot that is not FREE is left alone. An UNSUB of one lane closes a LIVE or a REFUSED slot, asks its
home to remove it and waits; a FREE or a CLOSING one it leaves. The predicate says which. -/
def subscribing : Prop :=
  ∀ core id s o h l off, s.findOp core id = some o → (s.group o.gid).core = core → opReady s o = true → lanesOf o.active = [l] →
    let g := s.group o.gid
    let tid := g.tid
    let answers (t : State) (p : BitVec 4) (b : Bool) : Prop := SameV g (t.group o.gid) never ∧ SameU g (t.group o.gid) never ∧
      (p.toNat % 8 ≠ 7 → ((t.group o.gid).preds.getD (p.toNat % 8) 0).getLsbD l = (b != decide (8 ≤ p.toNat)))
    slotOff s tid (o.value l % 2 ^ 64) = some off →
    (∀ p acq sc, o.kind = .lds p acq sc → o.hits = [[h]] → s.hub.moves = [] → unheld s core o l → (acq = false ∨ s.syncFind h.pa = none) →
      Memory.wf (s.team tid).scratch → ((s.home (homeOf h.pa)).subs.map (·.1)).Pairwise (· < ·) →
      let home := s.home (homeOf h.pa)
      let ok := (s.core (tid / 32)).directory.length < 4096 ∧ home.subs.length < 65536 ∧ h.attr ≠ 2 ∧ homeOf h.pa < 6
      let seq := sget 0 home.seqs h.pa
      let entry (sc : Nat) (acq : Bool) : Sub :=
        { word := h.pa, core := tid / 32, tid := tid, off := off, acq := acq, scope := sc, lcore := core, st := .live, lastSeq := seq, skip := 0 }
      let slot (idx : Nat) (acq : Bool) : DirSlot := { tid := tid, off := off, st := .live, gid := o.gid, home := homeOf h.pa, idx := idx, acq := acq,
                                                       value := BitVec.ofNat 64 (s.pread h.pa 8), seq := seq, count := 0, refuses := false }
      let bits := s.pread h.pa 8 + seq.toNat * 2 ^ 64 + (if ok ∧ acq = true then 2 ^ 86 else 0) + (if ok then 2 ^ 87 else 0)
      ((s.dirSlot tid off).isSome = true → Completes (.loadDataReturn core id) s fun t => Served s t o ∧ answers t p false ∧ t.mem = s.mem ∧ t.teams = s.teams ∧
        t.homes = s.homes ∧ t.hub = s.hub) ∧
      (s.dirSlot tid off = none → Completes (.loadDataReturn core id) s fun t => Served s t o ∧ answers t p (decide ok) ∧ t.mem = s.mem ∧
        (∀ a, bget (t.team tid).scratch a = if off ≤ a ∧ a < off + 16 then BitVec.ofNat 8 (bits / 2 ^ (8 * (a - off))) else bget (s.team tid).scratch a) ∧
        (¬ ok → t.dirSlot tid off = none ∧ ∀ k, (t.home k).subs = (s.home k).subs) ∧
        (ok → sget 0 (t.home (homeOf h.pa)).seqs h.pa = seq ∧ ∃ idx, sfind home.subs idx = none ∧
          sfind (t.home (homeOf h.pa)).subs idx = some (entry sc acq) ∧ (∀ j, j ≠ idx → sfind (t.home (homeOf h.pa)).subs j = sfind home.subs j) ∧
          t.dirSlot tid off = some (slot idx acq)))) ∧
    (∀ p, o.kind = .unsub p false →
      ((s.dirSlot tid off = none ∨ ∃ d, s.dirSlot tid off = some d ∧ d.st = .closing) → Completes (.storePerformed core id) s fun t =>
        Served s t o ∧ answers t p false ∧ t.mem = s.mem ∧ t.teams = s.teams ∧ t.homes = s.homes ∧ t.hub = s.hub ∧ ∀ k, (t.core k).directory = (s.core k).directory) ∧
      (∀ d, s.dirSlot tid off = some d → d.st ≠ .closing → Completes (.storePerformed core id) s fun t =>
        answers t p true ∧ t.mem = s.mem ∧ t.teams = s.teams ∧ t.homes = s.homes ∧ t.hub = { s.hub with subMsgs := s.hub.subMsgs ++ [.remove (tid / 32) tid off] } ∧
        t.dirSlot tid off = some { d with st := .closing } ∧ (∀ i, (t.group o.gid).slice i = g.slice i) ∧
        (t.core core).log = (s.core core).log.map fun q => if q.id = o.id then { o with kind := .unsub p true, left := laneSet fun k => k == l } else q))

/-- R187, R189: the loss of a subscription. Its entry at the home goes and its slot is FREE; the final write holds VALUE and SEQ as the slot last received them, what the
inbox still holds for it included, LIVE clear, SUB_LOST set, LEASE_LOST for cause 4; SUB_LOST is raised to the group that issued the LDS or, once that has
ended, to the team's lowest live group, or, with none, posted to the referee. -/
def losses : Prop :=
  ∀ home idx cause x d s, 1 ≤ cause → cause ≤ 4 → sfind (s.home home).subs idx = some x → x.st ≠ .parked → s.dirSlot x.tid x.off = some d → d.st ≠ .closing →
    x.core = x.tid / 32 → Memory.wf (s.team x.tid).scratch → ((s.home home).subs.map (·.1)).Pairwise (· < ·) →
    let last := ((s.core x.core).inbox.filter fun p => p.tid == x.tid && p.off == x.off).getLast?
    let value := (last.map Push.value).getD d.value
    let seq := (last.map Push.seq).getD d.seq
    let r : Record := { cause := BitVec.ofNat 16 (home * 2 ^ 8 + cause), nested := false, logged := false, async := true, code := 0x13, qleft := 0, lane := 0,
                        addr := BitVec.ofNat 64 x.off, pc := 0, opword := seq.setWidth 64 }
    Completes (.subLoss home idx cause) s fun t => sfind (t.home home).subs idx = none ∧ t.dirSlot x.tid x.off = none ∧
      (∃ bits, leNat (bgets (t.team x.tid).scratch x.off 16) = bits ∧ bits % 2 ^ 64 = value.toNat ∧ bits / 2 ^ 64 % 2 ^ 16 = seq.toNat ∧ bits.testBit 84 = true ∧
        (bits.testBit 85 ↔ cause = 4) ∧ bits.testBit 86 = d.acq ∧ bits.testBit 87 = false ∧ bits / 2 ^ 88 = 0) ∧
      (s.asyncTarget d.gid = none → t.groups = s.groups ∧ ∃ p, t.referee = { s.referee with postings := s.referee.postings ++ [p] } ∧ p.record = r) ∧
      (∀ n, s.asyncTarget d.gid = some n → (∀ j, j ≠ n → t.group j = s.group j) ∧
        let e : TrapEntry := { record := r, fmask := 0, gang := 0, key := (s.group n).issueNo, log := none, atIssue := false, resume := 0, engine := .none }
        (asyncRoom s n = true → (s.group n).frame ≠ none → t.group n = { s.group n with queue := enqueue e (s.group n).queue }))

/-- R217 to R220, R351: leases are renewed, given back and expire, the read and the write lease of a region each by itself; an expired lease sets the agent's flag for
its region, takes the agent's lines there away, what its L2 held modified reverting at most to what the home's memory held, and the die's cores drop their lines with
their dirty bytes; LEASE_CLR clears the flag of a region whose frames are the partition's own. (That the unrenewed leases held longest expire together, and what an L2 reverts to, are the
model's choices: log 8; that LEASE_CLR looks at the partition first: log 44.) -/
def leasesEnd : Prop :=
  (∀ home agent s, Completes (.leaseRenew home agent) s fun t => t.mem = s.mem ∧ t.groups = s.groups ∧ t.cores = s.cores ∧ t.dies = s.dies ∧ t.hub = s.hub ∧
    (∀ h, h ≠ home → t.home h = s.home h) ∧ (t.home home).leases.length = (s.home home).leases.length ∧
    ∀ (i : Nat) (l m : Lease), (s.home home).leases[i]? = some l → (t.home home).leases[i]? = some m → m = if l.agent = agent then { l with since := s.time } else l) ∧
  (∀ home agent region s, (agent < 4 → holdsRegion s home agent region = false) →
    Completes (.leaseRelease home agent region) s fun t => t.mem = s.mem ∧ t.groups = s.groups ∧ t.cores = s.cores ∧ t.dies = s.dies ∧
      ∀ l, l ∈ (t.home home).leases ↔ l ∈ (s.home home).leases ∧ ¬ (l.agent = agent ∧ l.region = region)) ∧
  (∀ home agent region s, let mine := (s.home home).leases.filter fun l => l.agent == agent && l.region == region
    let ends (l : Lease) : Prop := l ∈ mine ∧ ∀ m ∈ mine, l.since ≤ m.since
    (mine = [] → exec (.leaseExpiry home agent region) s = .next s) ∧
    (mine ≠ [] → Completes (.leaseExpiry home agent region) s fun t =>
      (∃ k : BitVec 2, (if agent < 4 then (home, region, k) ∈ (t.die agent).leaseLost else (agent, home, region, k) ∈ t.hub.leaseLost) ∧
        ∀ l, ends l → k.getLsbD l.write.toNat = true) ∧
      ((∀ l, ends l → l.write = true) → t.groups = s.groups ∧ t.teams = s.teams ∧
        (∀ m, m ∈ (t.home home).leases ↔ m ∈ (s.home home).leases ∧ ¬ ends m) ∧
        (Memory.wf s.mem → ∀ a, bget t.mem a = bget s.mem a ∨ (agent < 4 ∧ ∃ x ∈ (s.die agent).l2, inRegion home region (x.line * 128) = true ∧
          ∃ e ∈ x.stale, e.1 = a ∧ bget t.mem a = e.2)) ∧
        (((s.home home).lines.map (·.1)).Pairwise (· < ·) → ∀ line, inRegion home region (line * 128) = true → agent ∉ LineState.agents (t.lineState line)) ∧
        (agent < 4 → ∀ k, dieOf k = agent → ∀ x ∈ (t.core k).l1, inRegion home region (s.route (x.pline * 128)) = false)))) ∧
  (∀ die part v s, let region := v.toNat % 2 ^ 24; let home := v.toNat / 2 ^ 24 % 8
    let mine := ∀ i, i < 512 → (s.frameRec (region * 512 + i)).part.toNat = part
    let isSet := ∃ e ∈ (s.die die).leaseLost, e.1 = home ∧ e.2.1 = region
    Completes (.leaseClr die part v) s fun t => t.mem = s.mem ∧ t.groups = s.groups ∧ t.cores = s.cores ∧ t.homes = s.homes ∧
      (¬ mine → (t.regs part).leaseSt = 2) ∧ (mine → ¬ isSet → (t.regs part).leaseSt = 1) ∧ (mine → isSet → (t.regs part).leaseSt = 0) ∧
      (mine → isSet → ∀ e ∈ (t.die die).leaseLost, ¬ (e.1 = home ∧ e.2.1 = region)) ∧ (¬ (mine ∧ isSet) → t.dies = s.dies))

/-- R220: while the flag of its die stands, an access that reaches the home in the region raises LEASE_LOST with the home, the kinds that expired and its address. -/
def leaseLostRaises : Prop :=
  ∀ core id s o l va n s1 h (k : BitVec 2), s.findOp core id = some o → (s.group o.gid).core = core → dieOf core < 4 → o.walked = false →
    let g := s.group o.gid
    s.accesses o = [⟨l, va, n⟩] → 1 ≤ n → va % 128 + n ≤ 128 → va < 2 ^ 64 → (s.team g.tid).offset (BitVec.ofNat 64 va) = none →
    (o.kind.cached = true → (s.core core).l1Find (s.asid g.tid) (s.vmid g.tid) (va / 128) = none) →
    (∀ d c, o.kind ≠ .pcnt d c ∧ o.kind ≠ .pin (BitVec.ofNat 4 d) ∧ o.kind ≠ .unpin (BitVec.ofNat 4 d)) →
    translate s (s.xctx g.tid core o.priv) va (if o.kind.writes then 1 else 0) = (s1, .ok h) → homeError s1 (s.partOf g.tid) h.pa o.kind.writes = none →
    s1.leaseFlag (dieOf core) h.pa = some k → g.frame = none → g.queue.length < 8 →
    let m := laneSet fun j => o.accLane ⟨l, va, n⟩ j
    Completes (.translationWalk core id) s fun t => ∃ u e, Traffic s u ∧ t = loggedFault u core o e ∧
      LoggedEntry s o { code := 0x0E, cause := homeOf (s1.route h.pa) * 2 ^ 8 + k.toNat, fmask := m, lane := lowestLane m, addr := BitVec.ofNat 64 va, opw := 0 } e

end Sys2Proof.Machine

section
open Sys2Proof Sys2Proof.Machine

/-- R175 to R177: a refused push makes its subscription pending and counts what it misses; a core with room signals the homes that it refused; a signalled
home to which every push refused has come back redelivers, to each pending subscription of the core, the word as it stands; an accepted redelivery makes slot and subscription live again. -/
def Obligations.RefusalsAndRedeliveries : Prop :=
  (∀ n s p x, s.hub.refusals[n]? = some p → sfind (s.home p.home).subs p.idx = some x → x.tid = p.tid → x.off = p.off →
    Completes (.refusedPushReturn n) s fun t => t.mem = s.mem ∧ t.groups = s.groups ∧ t.cores = s.cores ∧ t.hub = { s.hub with refusals := ldrop s.hub.refusals n } ∧
      sfind (t.home p.home).subs p.idx = some { x with st := if x.st = .live then .pending else x.st, skip := x.skip + p.count + 1 }) ∧
  (∀ core s, (s.core core).refusedHomes ≠ [] → (s.core core).inbox.length ≤ 48 →
    Completes (.inboxSignal core) s fun t => t.mem = s.mem ∧ t.groups = s.groups ∧ t.homes = s.homes ∧ (t.core core) = { s.core core with refusedHomes := [] } ∧
      t.hub = { s.hub with signals := s.hub.signals ++ (s.core core).refusedHomes.map fun h => (h, core) }) ∧
  (∀ home core s, (home, core) ∈ s.hub.signals → (∀ p ∈ s.hub.refusals, ¬ (p.home = home ∧ p.core = core)) → (∀ e ∈ pendingSubs s home core, inFlight s home e.2 = false) →
    Completes (.redelivery home core) s fun t => t.mem = s.mem ∧ t.groups = s.groups ∧ t.cores = s.cores ∧ (∀ e ∈ t.hub.signals, e ≠ (home, core)) ∧
      ∃ ps, t.hub.pushNet = s.hub.pushNet ++ ps ∧ ps.length = (pendingSubs s home core).length ∧
        ∀ (i : Nat) (p : Push) (e : Nat × Sub), ps[i]? = some p → (pendingSubs s home core)[i]? = some e → p.home = home ∧ p.idx = e.1 ∧ p.core = core ∧ p.tid = e.2.tid ∧
          p.off = e.2.off ∧ p.seq = sget 0 (s.home home).seqs e.2.word ∧ p.value = BitVec.ofNat 64 (leNat (bgets s.mem e.2.word 8)) ∧
          p.count = min (e.2.skip - 1) 15 ∧ p.redelivery = true) ∧
  (∀ n s p d x, s.firstPush n = some p → p.redelivery = true → s.dirSlot p.tid p.off = some d → p.core = p.tid / 32 → sfind (s.home p.home).subs p.idx = some x →
    x.tid = p.tid → x.off = p.off → x.st = .pending → x.skip = 0 →
    Completes (.redeliveryAccept n) s fun t => t.mem = s.mem ∧ t.groups = s.groups ∧ t.teams = s.teams ∧ t.hub.pushNet = ldrop s.hub.pushNet n ∧
      ((s.core p.core).inbox.length < 64 → s.swapped p.tid = false → (t.core p.core).inbox = (s.core p.core).inbox ++ [p] ∧
        (∃ e, t.dirSlot p.tid p.off = some e ∧ e.refuses = false ∧ e.st = if d.st = .refused then .live else d.st) ∧
        sfind (t.home p.home).subs p.idx = some { x with st := .live, lastSeq := p.seq }) ∧
      ((64 ≤ (s.core p.core).inbox.length ∨ s.swapped p.tid = true) → (t.core p.core).inbox = (s.core p.core).inbox ∧ p.home ∈ (t.core p.core).refusedHomes ∧
        (∃ e, t.dirSlot p.tid p.off = some e ∧ e.refuses = true) ∧ sfind (t.home p.home).subs p.idx = some { x with skip := p.count + 1 }))

/-- R171, R186, R187, R190, R191: removal at the home, the end of an UNSUB, the loss of a subscription, parking and re-pointing. Whoever ends a subscription,
its slot is FREE afterwards and shows LIVE clear. How LDS and UNSUB act, and what a loss writes and raises, stand beside it. What COUNT holds in the final write of a
loss no rule says: it is free (log 29). -/
def Obligations.SubscriptionsEnd : Prop := subscribing ∧ losses ∧
  (∀ n core tid off h i x s, s.hub.subMsgs[n]? = some (.remove core tid off) → s.subOf tid off = some (h, i) → sfind (s.home h).subs i = some x →
    (∀ d, s.dirSlot tid off = some d → SubMsg.repoint d.home d.idx (tid / 32) tid ∉ s.hub.subMsgs.take n) →
    Completes (.subRemove n) s fun t => t.mem = s.mem ∧ t.groups = s.groups ∧ t.cores = s.cores ∧ t.teams = s.teams ∧
      (t.home h).subs = sdel (s.home h).subs i ∧ ((∀ e ∈ sdel (s.home h).subs i, e.2.word ≠ x.word) → (t.home h).seqs = sdel (s.home h).seqs x.word) ∧
      t.hub = { s.hub with subMsgs := ldrop s.hub.subMsgs n ++ [.removed core tid off] }) ∧
  (∀ n core tid off d s, s.hub.subMsgs[n]? = some (.removed core tid off) → core = tid / 32 → (∀ p ∈ s.hub.pushNet ++ s.hub.refusals, ¬ (p.tid = tid ∧ p.off = off)) →
    s.dirSlot tid off = some d → (∀ p ∈ (s.core core).inbox, ¬ (p.tid = tid ∧ p.off = off)) → Memory.wf (s.team tid).scratch →
    let bits := d.value.toNat + d.seq.toNat * 2 ^ 64 + min d.count 15 * 2 ^ 80 + d.acq.toNat * 2 ^ 86
    Completes (.unsubComplete n) s fun t => t.mem = s.mem ∧ t.dirSlot tid off = none ∧
      (∀ k, k < 16 → bget (t.team tid).scratch (off + k) = BitVec.ofNat 8 (bits / 2 ^ (8 * k)))) ∧
  (∀ n home idx x s, s.hub.subMsgs[n]? = some (.park home idx) → sfind (s.home home).subs idx = some x →
    Completes (.subPark n) s fun t => t.mem = s.mem ∧ t.groups = s.groups ∧ t.cores = s.cores ∧ sfind (t.home home).subs idx = some { x with st := .parked } ∧
      t.hub = { s.hub with subMsgs := ldrop s.hub.subMsgs n }) ∧
  (∀ n home idx core tid x s, s.hub.subMsgs[n]? = some (.repoint home idx core tid) → sfind (s.home home).subs idx = some x → x.st = .parked →
    Completes (.subRepoint n) s fun t => t.mem = s.mem ∧ t.groups = s.groups ∧ t.cores = s.cores ∧
      (∃ y, sfind (t.home home).subs idx = some y ∧ y.st = .live ∧ y.core = core ∧ y.tid = tid ∧ y.word = x.word) ∧
      (sget 0 (s.home home).seqs x.word = x.lastSeq → t.hub.pushNet = s.hub.pushNet) ∧
      (sget 0 (s.home home).seqs x.word ≠ x.lastSeq → ∃ p, t.hub.pushNet = s.hub.pushNet ++ [p] ∧ p.core = core ∧ p.tid = tid ∧ p.redelivery = true ∧
        p.seq = sget 0 (s.home home).seqs x.word ∧ p.value = BitVec.ofNat 64 (leNat (bgets s.mem x.word 8))))

/-- Leases and what their loss raises. -/
def Obligations.Leases : Prop := leasesEnd ∧ leaseLostRaises

/-- Pushes arrive, and the core delivers them. -/
def Obligations.PushesArriveAndAreDelivered : Prop := pushArrivals ∧ deliveries

end

namespace Sys2Proof.Machine

/-! ## Engine posts and copies (07, 08) -/

/-- An engine post has issued (R53): it lies in its partition's post buffer, the slices of the gang count it and go on, no register and no byte of memory
changes. The slab table of the home core is the one thing besides that some posts change. -/
structure PostIssue (s t : State) (c : Ctx) (p : Post) : Prop where
  mem : t.mem = s.mem
  teams : t.teams = s.teams
  dies : t.dies = s.dies
  homes : t.homes = s.homes
  hub : t.hub = s.hub
  referee : t.referee = s.referee
  groups : ∀ j, j ≠ c.gid → t.group j = s.group j
  posted : sfind (t.core (s.group c.gid).core).postBuf (s.group c.gid).part = some { gang := c.gang, post := p, priv := (s.group c.gid).frame.isSome }
  buffers : ∀ k n, (k ≠ (s.group c.gid).core ∨ n ≠ (s.group c.gid).part) → sfind (t.core k).postBuf n = sfind (s.core k).postBuf n
  cores : ∀ k, t.core k = { s.core k with issued := (t.core k).issued, postBuf := (t.core k).postBuf, nextId := (t.core k).nextId, slabs := (t.core k).slabs }
  group : GroupKept { s.group c.gid with openLeft := (t.group c.gid).openLeft, posts := (t.group c.gid).posts, postNo := (t.group c.gid).postNo } (t.group c.gid)
  regs : RegsKept (s.group c.gid) (t.group c.gid)
  slices : ∀ i, i < (s.group c.gid).slices.length → c.gang.getLsbD i = true →
    let x := (s.group c.gid).slice i
    SliceLike { x with pc := x.pc + 4, lastBack := none, posts := x.posts + 1 } ((t.group c.gid).slice i)
  others : ∀ i, c.gang.getLsbD i = false → SliceLike ((s.group c.gid).slice i) ((t.group c.gid).slice i)

/-- A post that joins the open batch (R239), with the destination ranges that a WAITB invalidates. -/
def Joins (g h : Group) (ranges : List (DWord × Nat)) : Prop :=
  h.openLeft = g.openLeft + 1 ∧ h.postNo = g.postNo + 1 ∧ h.posts.getLast? = some { no := g.postNo + 1, batch := g.openBatch, ranges := ranges, seen := false }

/-- A post that is no copy leaves the batches alone. -/
def NoBatch (g h : Group) : Prop := h.openLeft = g.openLeft ∧ h.postNo = g.postNo ∧ h.posts = g.posts

/-- The partition's post buffer is free and the gang's counters have room. -/
def postFree (s : State) (c : Ctx) : Prop :=
  sfind (s.core (s.group c.gid).core).postBuf (s.group c.gid).part = none ∧ ∀ i ∈ slicesOf c.gang, ((s.group c.gid).slice i).posts < 255

/-- R53, R49 (R42 gives the limit): an engine post waits while its partition's buffer holds one, or while a counter of its gang stands at 255. -/
def postsWait : Prop :=
  ∀ s c, issuer s = some c → ¬ postFree s c → ∀ (r : BitVec 1) (b4 : BitVec 4) (a b : BitVec 8),
    ∀ i ∈ [Instr.cpy r b4 a b, .cpyx r b4 a b, .cpys r b4 a b, .tpost a b, .kvgrow r b4 a b, .kvevict r b4 a b, .launch a b], exec i s = .next s

/-- R228 to R233: CPY, CPYX and CPYS trap where R229 or R232 say so, else are posted with their registers in the open batch. -/
def copiesPost : Prop :=
  let posts (i : Instr) (kind : CopyKind) (n : Nat) (r : BitVec 1) (b : BitVec 4) (a imm : BitVec 8) : Prop :=
    ∀ s c, issuer s = some c → issues (encode i) s = true →
      let g := s.group c.gid
      let rs := (List.range n).map fun j => uget g (a.toNat + j)
      let x := shapeOf kind rs
      (∀ cause v, copyAlign (s.team g.tid) kind rs = some (cause, v) → Raises i s c (gangTrap g c 8 cause (BitVec.ofNat 64 v))) ∧
      (copyAlign (s.team g.tid) kind rs = none → kind = .cpys → ∀ e, slotErr s g.tid x.slots.1 x.slots.2 (regAt rs 3 % 64) = some e →
        Raises i s c (gangTrap g c 0x11 e 0)) ∧
      (copyAlign (s.team g.tid) kind rs = none → (kind = .cpys → slotErr s g.tid x.slots.1 x.slots.2 (regAt rs 3 % 64) = none) →
        Completes i s fun t => ∃ y, PostIssue s t c (.copy y) ∧ y.kind = kind ∧ y.gid = c.gid ∧ y.regs = rs ∧ y.dfield = BitVec.ofNat 8 (r.toNat * 16 + b.toNat) ∧
          y.scout = imm.toNat ∧ y.batch = g.openBatch ∧ y.phase = .posted ∧ y.progress = 0 ∧
          Joins g (t.group c.gid) (if kind = .cpys then [] else [(BitVec.ofNat 64 x.dst, (x.rows - 1) * x.dstr + x.rowb)]))
  ∀ r b a imm, posts (.cpy r b a imm) .cpy 6 r b a imm ∧ posts (.cpyx r b a imm) .cpyx 8 r b a imm ∧ posts (.cpys r b a imm) .cpys 6 r b a imm

/-- R53, R233, R224: a post leaves its buffer once its slices have no store or atomic outstanding, its queue has room, and no source that comes before its own in turn, after
the one that the queue served last, has a post that the queue could take: a core's queue serves its eight partitions and, as one more source, the posts of members on other
cores (R262: tasks; a CPYS joins the same source, the model's reading, log 63); its source lines in the posting core's L1 are clean by then, and the slices' counters of posts
fall. A CPYS goes to the home core, which has the operand memory (R249). -/
def postsTaken : Prop :=
  ∀ core part s x, part < 8 → sfind (s.core core).postBuf part = some x → (s.group x.post.gid).retired = false →
    let gid := x.post.gid
    let g := s.group gid
    let u := match x.post with | .copy y => if y.kind = .cpys then g.tid / 32 else core | .task _ => g.tid / 32 | _ => core
    let n := if u = core then part else 8
    let last (q : Nat) : Nat := (s.core u).lastPost.getD q 8
    let takes (q m : Nat) : Prop := ∃ k p y, p < 8 ∧ sfind (s.core k).postBuf p = some y ∧ y.post.turnQueue = some q ∧ y.post.server s k = u ∧
      y.post.source s k p = m ∧ takeReady s k y = true
    let turn : Prop := ∀ q, x.post.turnQueue = some q → ∃ i, i < 9 ∧ n = (last q + 1 + i) % 9 ∧ ∀ j, j < i → ¬ takes q ((last q + 1 + j) % 9)
    (takeReady s core x = false → exec (.postTaken core part) s = .next s) ∧
    (takeReady s core x = true → ¬ turn → exec (.postTaken core part) s = .next s) ∧
    (takeReady s core x = true → turn → (∀ i ∈ slicesOf x.gang, (g.slice i).stores = 0 ∧ (g.slice i).atomics = 0) ∧
      Completes (.postTaken core part) s fun t => sfind (t.core core).postBuf part = none ∧ (∀ j, j ≠ gid → t.group j = s.group j) ∧
        (Memory.wf s.mem → Memory.wf t.mem) ∧ t.referee = s.referee ∧
        ((∀ gi d ra, x.post ≠ .launch gi d ra) → RegsKept g (t.group gid) ∧ t.teams = s.teams ∧ t.hub.launchReqs = s.hub.launchReqs ∧
          ∀ i, i < g.slices.length → (t.group gid).slice i = if x.gang.getLsbD i then { g.slice i with posts := (g.slice i).posts - 1 } else g.slice i) ∧
        (∀ q, x.post.turnQueue = some q → q < (s.core u).lastPost.length → (t.core u).lastPost.getD q 8 = n) ∧
        (∀ y, x.post = .copy y → ∃ e i, (u = core → i = y.id) ∧ (t.core u).copies = (s.core u).copies ++ [{ y with phase := .queued, id := i, entry := e }]) ∧
        (∀ y, x.post = .task y → ∃ b, (t.core (g.tid / 32)).tasks = (s.core (g.tid / 32)).tasks ++ [{ y with phase := .queued, cpysBefore := b }]) ∧
        (∀ y, x.post = .evict y → ∃ e, (t.die (dieOf core)).evicts = (s.die (dieOf core)).evicts ++ [{ y with phase := .queued, place := e }]) ∧
        (∀ gi d ra, x.post = .launch gi d ra → (∃ q, t.hub.launchReqs = s.hub.launchReqs ++ [q] ∧ q.gid = gid ∧ q.ra = ra ∧ q.gang = x.gang) ∨
          (t.hub.launchReqs = s.hub.launchReqs ∧ (t.group gid).uregs = (uput64 g d 7).uregs)))

/-- R222: the operation that has waited longest starts when its ranges conflict with no lock of another operation; its locks then stand in the table. -/
def locksStart : Prop :=
  ∀ die s (w : LockOwner × List Lock) rest, (s.die die).lockWait = w :: rest →
    ((s.die die).canLock w.2 = false → exec (.rangeLockStart die 0) s = .next s) ∧
    ((s.die die).canLock w.2 = true → Completes (.rangeLockStart die 0) s fun t =>
      t.mem = s.mem ∧ t.groups = s.groups ∧ t.teams = s.teams ∧ t.homes = s.homes ∧ t.hub = s.hub ∧
      (t.die die).lockWait = rest ∧ (t.die die).locks = (s.die die).locks ++ w.2 ∧
      (w.1.engine < 3 → ∀ c, s.findCopy w.1.core w.1.id = some c → t.findCopy w.1.core w.1.id = some { c with phase := .running }))

/-- R233, R235, R236: a running copy moves a piece of its bytes on, or keeps a fault, with what it has moved; its scout goes ahead of the data, and the data moves up to
the page whose fault the scout keeps; a CPYX goes to the relay queue, which frees
its descriptor-queue entry; no arrival, no group's register and no trap queue changes before the copy completes or faults. -/
def copiesMove : Prop :=
  (∀ core id s c, s.findCopy core id = some c → copyTurn s core c = false →
    (transferReady s core c = false → exec (.copyTransfer core id) s = .next s) ∧
    (transferReady s core c = true → Completes (.copyTransfer core id) s fun t =>
      t.groups = s.groups ∧ t.referee = s.referee ∧ t.hub.arrivals = s.hub.arrivals ∧ (Memory.wf s.mem → Memory.wf t.mem) ∧ (∀ d, (t.die d).locks = (s.die d).locks) ∧
      ∃ y, t.findCopy core id = some y ∧ y = { c with progress := y.progress, phase := y.phase, fault := y.fault, passed := y.passed, met := y.met } ∧
        c.progress ≤ y.progress ∧ c.passed ≤ y.passed ∧
        (y.fault = none → c.stopAt = none → c.progress < y.progress ∨ y.phase = .moved ∨ c.passed < y.passed ∨ (c.met = none ∧ y.met.isSome = true)) ∧ (y.phase = .moved → (shapeOf c.kind c.regs).total ≤ y.progress))) ∧
  (∀ core id s c s1 s2 b va h, s.findCopy core id = some c → copyTurn s core c = false → c.phase = .running → c.fault = none → c.stopAt = none → c.kind = .cpy ∨ c.kind = .cpyx →
    let x := shapeOf c.kind c.regs
    let tid := (s.group c.gid).tid
    let from_ := x.src + c.progress / x.rowb * x.sstr + c.progress % x.rowb
    let to_ := (copyPiece x c.progress).1
    let n := min (copyPiece x c.progress).2 (c.passed - c.progress)
    scoutAhead c x = false → c.progress < x.total → c.progress < c.passed → c.progress % x.rowb + n ≤ x.rowb → from_ % 4096 + n ≤ 4096 →
    engLoad s tid core from_ n = (s1, .ok b) → engPlace s1 tid core to_ n true = (s2, .ok [(va, n, h)]) → h.attr ≠ 3 → plainBytes s2 h.pa n → b.length = n →
    Completes (.copyTransfer core id) s fun t => storedAt s2 t h.pa b ∧ ∃ y, t.findCopy core id = some y ∧ y.progress = c.progress + n) ∧
  (∀ core id s c e, s.findCopy core id = some c → copyTurn s core c = false → c.phase = .running → c.fault = none → c.kind ≠ .grow → c.met = some e →
    c.progress < (shapeOf c.kind c.regs).total → c.passed ≤ c.progress →
    Completes (.copyTransfer core id) s fun t => t.mem = s.mem ∧ t.findCopy core id = some { c with fault := some (e.2.1, e.2.2.1, e.2.2.2) }) ∧
  (∀ core id s c, s.findCopy core id = some c → relayReady s core c = true →
    c.kind = .cpyx ∧ (s.die (dieOf core)).relayQ.length < 32 ∧ Completes (.relayEnqueue core id) s fun t =>
      t.mem = s.mem ∧ t.groups = s.groups ∧ t.teams = s.teams ∧ t.homes = s.homes ∧ t.hub = s.hub ∧
      (t.die (dieOf core)).relayQ = (s.die (dieOf core)).relayQ ++ [(core, id)] ∧ (descQueue t core).length + 1 ≤ (descQueue s core).length)

/-- R233, R235, R237: a copy whose bytes are all moved adds one to its flag (CPYX), arrives, leaves its batch and gives its locks up; one that met a fault
raises COPY_FAULT and keeps its locks and its place in its batch. -/
def copiesEnd : Prop :=
  (∀ core id s c, s.findCopy core id = some c → c.phase = .moved → c.kind ≠ .cpyx → c.id = id → (s.core ((s.group c.gid).tid / 32)).releasing = [] →
    Completes (.copyComplete core id) s fun t =>
      t.mem = s.mem ∧ t.teams = s.teams ∧ t.findCopy core id = none ∧ (∀ j, j ≠ c.gid → t.group j = s.group j) ∧ RegsKept (s.group c.gid) (t.group c.gid) ∧
      (∀ l ∈ (t.die (dieOf core)).locks, l.owner.is c.kind.engine core id = false) ∧
      t.hub.arrivals = (if c.dfield.getLsbD 4 then s.hub.arrivals ++ [{ tid := (s.group c.gid).tid, bar := c.dfield.toNat % 16, ranges := c.dests }] else s.hub.arrivals) ∧
      ((s.group c.gid).openBatch = c.batch → (t.group c.gid).openLeft = (s.group c.gid).openLeft - 1 ∧ (t.group c.gid).closed = (s.group c.gid).closed) ∧
      ((s.group c.gid).openBatch ≠ c.batch → (t.group c.gid).openLeft = (s.group c.gid).openLeft ∧
        ∀ e, e ∈ (t.group c.gid).closed ↔ e.2 ≠ 0 ∧ ∃ f ∈ (s.group c.gid).closed, e = if f.1 = c.batch then (f.1, f.2 - 1) else f)) ∧
  (∀ core id s c s1 h, s.findCopy core id = some c → c.phase = .moved → c.kind = .cpyx → c.id = id → flagPlace s core c = (s1, .ok h) → plainBytes s1 h.pa 8 → h.pa % 8 = 0 →
    (s.core ((s.group c.gid).tid / 32)).releasing = [] →
    Completes (.copyComplete core id) s fun t => storedAt s1 t h.pa (leBytes 8 ((s1.pread h.pa 8 + 1) % 2 ^ 64)) ∧ t.findCopy core id = none ∧
      (s1.route h.pa) ∈ (t.home (homeOf (s1.route h.pa))).relayMarks ∧ (∀ l ∈ (t.die (dieOf core)).locks, l.owner.is 2 core id = false)) ∧
  (∀ core id s c k side page, s.findCopy core id = some c → c.id = id → c.fault = some (k, side, page) → c.phase = .running → (s.asyncTarget c.gid).isSome = true →
    Completes (.copyFault core id) s fun t =>
      t = raiseAsync (s.modCopy core id fun x => { x with phase := .stopped }) c.gid
        { cause := BitVec.ofNat 16 (copyFaultKind k * 2 ^ 12 + side * 2 ^ 10 + c.entry), nested := false, logged := false, async := true, code := 0x0F, qleft := 0, lane := 0,
          addr := page, pc := 0, opword := BitVec.ofNat 64 (c.entry + (if s.relayed core id then 64 else 0) + c.batch.toNat * 2 ^ 16) } (.copy core id) ∧
      t.mem = s.mem ∧ t.findCopy core id = some { c with phase := .stopped } ∧ (∀ d, (t.die d).locks = (s.die d).locks))

/-- R228, R229: what each cause of the table of copy ALIGN causes fails on, from the registers of a descriptor. A reserved W gives no unit, and its other tests are
made. -/
def CopyFails (t : Team) (kind : CopyKind) (rs : List Word) (cause : Nat) : Prop :=
  let shape := regAt rs 4
  let two := shape.testBit 31 = true
  let w := shape / 2 ^ 28 % 8
  let uneven (v : Nat) : Prop := w ≤ 4 ∧ v % 2 ^ w ≠ 0
  let src := pairAt rs 0
  let dst := if kind = .cpys then regAt rs 2 else pairAt rs 2
  let rows := shape / 2 ^ 16 % 2 ^ 12
  let rowb := if two then shape % 2 ^ 16 else shape % 2 ^ 25
  let sstr := regAt rs 5 % 2 ^ 16
  let dstr := regAt rs 5 / 2 ^ 16
  let span (stride : Nat) : Nat := if two then (rows - 1) * stride + rowb else rowb
  match cause with
  | 0x10 => uneven src
  | 0x11 => uneven dst
  | 0x12 => (two ∧ rows = 0) ∨ rowb = 0 ∨ (¬ two ∧ 0x1000000 < rowb) ∨ uneven rowb
  | 0x13 => two ∧ uneven sstr
  | 0x14 => two ∧ (uneven dstr ∨ dstr < rowb)
  | 0x15 => 4 < w ∨ (¬ two ∧ (shape / 2 ^ 25 % 8 ≠ 0 ∨ regAt rs 5 ≠ 0)) ∨ (kind = .cpys ∧ 64 ≤ regAt rs 3)
  | 0x16 => kind ≠ .cpys ∧ src < dst + span dstr ∧ dst < src + span sstr
  | 0x17 => 2 ^ 57 < src + span sstr ∨ (kind ≠ .cpys ∧ 2 ^ 57 < dst + span dstr)
  | 0x18 => kind = .cpyx ∧ (pairAt rs 6 % 8 ≠ 0 ∨ (t.offset (BitVec.ofNat 64 (pairAt rs 6))).isSome = true)
  | _ => False

/-- R229: the check of a descriptor passes it when no cause of the table fails; else it names the first cause that fails, with the value of a field of that cause. Which field, where
a cause has several, is the model's choice (log 37). -/
def copyChecks : Prop :=
  ∀ t kind rs,
    ((∀ cause, ¬ CopyFails t kind rs cause) → copyAlign t kind rs = none) ∧
    (∀ cause, CopyFails t kind rs cause → (∀ k, k < cause → ¬ CopyFails t kind rs k) → ∃ v, copyAlign t kind rs = some (cause, v) ∧
      (cause = 0x10 ∨ cause = 0x16 → v = pairAt rs 0) ∧ (cause = 0x11 → v = if kind = .cpys then regAt rs 2 else pairAt rs 2) ∧
      (cause = 0x13 → v = regAt rs 5 % 2 ^ 16) ∧ (cause = 0x14 → v = regAt rs 5 / 2 ^ 16) ∧ (cause = 0x15 → v = regAt rs 4 ∨ v = regAt rs 5 ∨ v = regAt rs 3) ∧
      (cause = 0x17 → v = pairAt rs 0 ∨ v = pairAt rs 2) ∧ (cause = 0x18 → v = pairAt rs 6))

end Sys2Proof.Machine

section
open Sys2Proof Sys2Proof.Machine

/-- Copies, from their post to their end. The size of a piece and the ADDR of a copy's ALIGN are the model's choices (log 37), as is the step in which an operation takes its
locks (log 36). -/
def Obligations.Copies : Prop := postsWait ∧ copyChecks ∧ copiesPost ∧ postsTaken ∧ locksStart ∧ copiesMove ∧ copiesEnd

end

namespace Sys2Proof.Machine

/-! ## Operand slots and tasks (09) -/

/-- R253, R254: SCLAIM takes the lowest run of free slots or gives 64 and false; SREL gives slots back, now or when their users have ended; SLOT_ZERO frees
the next slot. -/
def slotInstructions : Prop :=
  (∀ (d : BitVec 8) (p : BitVec 4) (imm : BitVec 8) s c, issuer s = some c → issues (encode (.sclaim d p imm)) s = true → uniformSplit (s.group c.gid) c = false →
    let g := s.group c.gid
    let n := imm.toNat
    let slots := (s.core (g.tid / 32)).slots
    let run (f : Nat) : Prop := f + n ≤ 64 ∧ ∀ i, i < n → slots.getD (f + i) .zeroing = .free
    let gives (t : State) (x : Word) (q : Bool) : Prop := GangFlow s t c onward ∧ t.mem = s.mem ∧ t.teams = s.teams ∧ t.dies = s.dies ∧ t.homes = s.homes ∧ t.hub = s.hub ∧
      uget (t.group c.gid) d.toNat = x ∧ SameU g (t.group c.gid) (atReg d.toNat) ∧ SameV g (t.group c.gid) never ∧ SameP g (t.group c.gid) never ∧ (t.group c.gid).uq = (qput g p.toNat q).uq
    (∀ f, run f → (∀ e, e < f → ¬ run e) → Completes (.sclaim d p imm) s fun t => gives t (BitVec.ofNat 32 f) true ∧
      (∀ i, (t.core (g.tid / 32)).slots.getD i .zeroing = if f ≤ i ∧ i < f + n then .held g.tid else slots.getD i .zeroing)) ∧
    ((∀ f, ¬ run f) → Completes (.sclaim d p imm) s fun t => gives t 64 false ∧ (t.core (g.tid / 32)).slots = slots)) ∧
  (∀ (a imm : BitVec 8) s c, issuer s = some c → issues (encode (.srel a imm)) s = true →
    let g := s.group c.gid
    let f := (readU s g c a.toNat).toNat
    let n := imm.toNat
    let core := g.tid / 32
    (∀ cause, slotErr s g.tid f n (min f 63) = some cause → Raises (.srel a imm) s c (gangTrap g c 0x11 cause 0)) ∧
    (slotErr s g.tid f n (min f 63) = none → slotUsers s g.tid f n = ([], []) → Completes (.srel a imm) s fun t =>
      GangFlow s t c onward ∧ RegsKept g (t.group c.gid) ∧ t.mem = s.mem ∧ t.teams = s.teams ∧ t.dies = s.dies ∧ t.homes = s.homes ∧ t.hub = s.hub ∧
      (t.core core).zeroQueue = (s.core core).zeroQueue ++ (List.range n).map (f + ·) ∧
      ∀ i, i < (s.core core).slots.length → (t.core core).slots.getD i .free = if f ≤ i ∧ i < f + n then .zeroing else (s.core core).slots.getD i .free) ∧
    (slotErr s g.tid f n (min f 63) = none → slotUsers s g.tid f n ≠ ([], []) → Completes (.srel a imm) s fun t =>
      GangFlow s t c (fun _ x => { x with wait := .srel f n }) ∧ RegsKept g (t.group c.gid) ∧ t.mem = s.mem ∧ t.teams = s.teams ∧ (t.core core).slots = (s.core core).slots ∧
      (t.core core).releasing = (s.core core).releasing ++ [{ gid := c.gid, first := f, n := n, tasks := (slotUsers s g.tid f n).1, copies := (slotUsers s g.tid f n).2 }])) ∧
  (∀ core s k rest, (s.core core).zeroQueue = k :: rest → Completes (.slotZero core) s fun t =>
    t.mem = s.mem ∧ t.groups = s.groups ∧ t.teams = s.teams ∧ t.dies = s.dies ∧ t.homes = s.homes ∧ t.hub = s.hub ∧ (t.core core).zeroQueue = rest ∧
    (t.core core).slots = lset (s.core core).slots k .free ∧ (∀ e, e ∈ (t.core core).opmem ↔ e ∈ (s.core core).opmem ∧ e.1 / slotSize ≠ k))

/-- R262, R272: TPOST posts a task for the record that its handle names; TQRY gives the state of the task with an identifier, 0 for none; one that waits for its fetch has
the identifier that its record holds now (log 31). -/
def taskInstructions : Prop :=
  (∀ (a b : BitVec 8) s c, issuer s = some c → issues (encode (.tpost a b)) s = true →
    let g := s.group c.gid
    let l0 := (lanesOf (runSet g c)).headD 0
    let rd (i : Nat) : Word := readV g (a.toNat + i) l0
    ((∀ l ∈ lanesOf (runSet g c), ∀ i, i < 4 → readV g (a.toNat + i) l = rd i) →
      (∀ tr, recordCheck (s.team g.tid) g c (pairOf (rd 0) (rd 1)) = some tr → Raises (.tpost a b) s c tr) ∧
      (recordCheck (s.team g.tid) g c (pairOf (rd 0) (rd 1)) = none → Completes (.tpost a b) s fun t => ∃ y, PostIssue s t c (.task y) ∧ NoBatch g (t.group c.gid) ∧
        y.gid = c.gid ∧ y.recAddr = pairOf (rd 0) (rd 1) ∧ y.base = pairOf (rd 2) (rd 3) ∧ y.off = (readU s g c b.toNat).setWidth 16 ∧ y.fetched = false ∧ y.phase = .posted ∧
        y.step = 0 ∧ y.status = 0 ∧ y.fault = none))) ∧
  (∀ d a : BitVec 8, LaneSays (.tqry d a) d.toNat fun s g c _ =>
    match (s.teamTasks g.tid).find? fun t => t.fetched && t.ident == (readU s g c a.toNat).toNat % 65536 with
    | some t => taskState s (g.tid / 32) t
    | none => waitingState (countIssue s c) g.tid ((readU s g c a.toNat).toNat % 65536)) ∧
  (∀ s tid n, (∀ t ∈ s.teamTasks tid, t.fetched = true) → waitingState s tid n = 0) ∧
  (∀ s tid n t b, s.teamTasks tid = [t] → t.fetched = false → (engLoad s tid (tid / 32) t.recAddr.toNat 2).2 = .ok b → (leNat b + t.off.toNat) % 65536 = n →
    waitingState s tid n = if t.phase = .stopped then 4#32 <<< 29 else 1#32 <<< 29) ∧
  (∀ s core (t : Task), t.phase = .running → taskState s core t = BitVec.ofNat 32 (3 * 2 ^ 29 + t.step % 2 ^ 24)) ∧
  (∀ s core (t : Task), t.phase = .stopped → taskState s core t = BitVec.ofNat 32 (4 * 2 ^ 29 + t.step % 2 ^ 24)) ∧
  (∀ s core (t : Task), t.phase = .queued → taskReady s core t = true → lockReady s core t = true → taskState s core t = BitVec.ofNat 32 (2 * 2 ^ 29 + t.step % 2 ^ 24)) ∧
  (∀ s core (t : Task), t.phase = .queued → (taskReady s core t = false ∨ lockReady s core t = false) → taskState s core t = BitVec.ofNat 32 (2 ^ 29 + t.step % 2 ^ 24))

/-- What an engine's event may change outside tasks, engines and memory: nothing of groups, referee, subscriptions or arrivals. -/
structure EngineWork (s t : State) : Prop where
  wf : Memory.wf s.mem → Memory.wf t.mem
  groups : t.groups = s.groups
  referee : t.referee = s.referee
  arrivals : t.hub.arrivals = s.hub.arrivals
  cur : t.cur = s.cur
  inputs : t.inputs = s.inputs
  time : t.time = s.time

/-- R263 to R269: the scheduler fetches and validates a record once, starts a ready task that holds its locks on a free engine, and steps it; the last step
leaves status 1. A step that faults stops the task: DONE receives status 2, the fault is kept, or that of DONE itself (log 38). A task of the pair captures its slab as
it starts. -/
def tasksRun : Prop :=
  (∀ core id s x s1 b, s.findTask core id = some x → fetchReady s core x = true → fetchRecord s core x = (s1, .ok b) →
    Completes (.taskFetch core id) s fun t => EngineWork s t ∧ t.teams = s.teams ∧ ∃ y, t.findTask core id = some y ∧ y.body = relocRecord x.reloc b ∧ y.fetched = true ∧
      y.recAddr = x.recAddr ∧ y.base = x.base ∧ y.off = x.off ∧ y.status = validate (newId s1 core).1 { x with body := relocRecord x.reloc b, fetched := true, order := (s1.core core).nextId } ∧
      (y.status = 0 → y.phase = .queued) ∧ (y.status ≠ 0 → y.phase = .moved ∧ y.preds = [])) ∧
  (∀ core id s x, s.findTask core id = some x → startReady s core x = true → lockReady s core x = false → x.id = id →
    Completes (.taskStart core id) s fun t => EngineWork s t ∧ t.mem = s.mem ∧ t.teams = s.teams ∧
      let l := s.taskLocks core x
      let d := s.die (dieOf core)
      (d.canLock l = true → d.mustQueue l = false → (t.die (dieOf core)).locks = d.locks ++ l ∧ t.findTask core id = some x) ∧
      (d.canLock l = false ∨ d.mustQueue l = true → (t.die (dieOf core)).locks = d.locks ∧ t.findTask core id = some { x with phase := .waiting } ∧
        ∃ o, (t.die (dieOf core)).lockWait = d.lockWait ++ [(o, l)])) ∧
  (∀ core id s x, s.findTask core id = some x → startReady s core x = true → lockReady s core x = true → x.isKv = false →
    Completes (.taskStart core id) s fun t => EngineWork s t ∧ t.teams = s.teams ∧
      (∀ y ∈ (t.core (s.group x.gid).core).l1, taskLines s x y = true → y.dirty = 0) ∧
      ∃ e, freeEngine s core x = some e ∧ t.findTask core id = some { x with phase := .running, engine := e }) ∧
  (∀ core id s x s1, s.findTask core id = some x → startReady s core x = true → lockReady s core x = true → x.isKv = true →
    let c := (cleanLines s (s.group x.gid).core (taskLines s x) false).modTask core id fun y => { y with engine := 2 }
    (x.cap = none → kvCapture c (s.group x.gid).tid core { x with engine := 2 } = .ok s1) → (x.cap ≠ none → s1 = c) →
    Completes (.taskStart core id) s fun t => t.mem = s1.mem ∧ ∃ y, s1.findTask core id = some y ∧ t.findTask core id = some { y with phase := .running }) ∧
  (∀ core id s x s1, s.findTask core id = some x → x.phase = .running → taskStep s (s.group x.gid).tid core x = .ok s1 →
    Completes (.taskStep core id) s fun t => EngineWork s t ∧ ∃ y, t.findTask core id = some y ∧ y.step = x.step + 1 ∧ y.body = x.body ∧ y.base = x.base ∧
      (x.step + 1 < taskSteps s core x → y.phase = .running ∧ y.status = x.status) ∧ (taskSteps s core x ≤ x.step + 1 → y.phase = .moved ∧ y.status = 1)) ∧
  (∀ core id s x s1 k opnd va, s.findTask core id = some x → x.phase = .running → taskStep s (s.group x.gid).tid core x = .fault s1 k opnd va →
    (s.asyncTarget x.gid).isSome = true →
    let done := donePlace (leaveEngine s1 core x) (s.group x.gid).tid core x
    let stops (t : State) (f : EngineFault × Nat × DWord) : Prop := (Memory.wf s.mem → Memory.wf t.mem) ∧
      ∃ y, t.findTask core id = some y ∧ y.phase = .stopped ∧ y.step = x.step ∧ y.cells = [] ∧ y.fault = some f
    (done.2 = .wait → exec (.taskStep core id) s = .next s) ∧
    (∀ f v, done.2 = .fault f v → Completes (.taskStep core id) s fun t => stops t (f, 0, pageOf v)) ∧
    (∀ ps, done.2 = .ok ps → Completes (.taskStep core id) s fun t => stops t (k, opnd, pageOf va) ∧
      ∀ v h, ps = [(v, 4, h)] → h.attr ≠ 3 → plainBytes done.1 h.pa 4 → storedAt done.1 t h.pa (leBytes 4 (2 * 2 ^ 24 + x.step % 2 ^ 24))))

/-- R264 to R266: a task completes: DONE receives its status and step, its locks and its entry go; its dependants lose a predecessor, or fail with 0x18. -/
def tasksEnd : Prop :=
  ∀ core id s x s1 va h, s.findTask core id = some x → x.id = id → x.ended = true → donePlace s (s.group x.gid).tid core x = (s1, .ok [(va, 4, h)]) → h.attr ≠ 3 →
    plainBytes s1 h.pa 4 → (s.core core).releasing = [] → (s.group x.gid).tid / 32 = core → x.status = 1 ∨ x.status = 0x18 →
    Completes (.taskComplete core id) s fun t =>
      storedAt s1 t h.pa (leBytes 4 (x.status * 2 ^ 24 + x.step % 2 ^ 24)) ∧ t.groups = s.groups ∧ t.teams = s.teams ∧ t.findTask core id = none ∧
      (∀ l ∈ (t.die (dieOf core)).locks, l.owner.is x.lockEngine core id = false) ∧
      (x.ctl 6 = false → t.hub.arrivals = s.hub.arrivals) ∧ (x.ctl 6 = true → ∃ a, t.hub.arrivals = s.hub.arrivals ++ [a] ∧ a.tid = (s.group x.gid).tid ∧ a.bar = x.f 7 1 % 16) ∧
      ∀ j y, j ≠ id → s.findTask core j = some y → ∃ z, t.findTask core j = some z ∧
        (id ∉ y.preds → z = y) ∧ (id ∈ y.preds → x.status = 1 → z = { y with preds := y.preds.filter (· ≠ id) }) ∧
        (id ∈ y.preds → x.status ≠ 1 → z = { y with preds := [], status := 0x18, phase := .moved })

/-- n bytes of a record as a number. -/
def fieldAt (b : List Byte) (off n : Nat) : Nat := leNat ((b.drop off).take n)

/-- R137, R262: a record's address is a multiple of 64 (ALIGN 1); in the team window 64 bytes have storage: else ALIGN 3 at a FIFO register, PAGE_FT elsewhere. -/
def recordChecks : Prop :=
  ∀ (t : Team) g c (a : DWord),
    (a.toNat % 64 ≠ 0 → recordCheck t g c a = some (gangTrap g c 8 1 a)) ∧
    (a.toNat % 64 = 0 → t.offset a = none → recordCheck t g c a = none) ∧
    (∀ off, a.toNat % 64 = 0 → t.offset a = some off →
      let storage := off + 64 ≤ t.scrSize
      let register := t.scrSize ≤ off ∧ 0x4000000 ≤ off ∧ off < 0x4040000 ∧ (t.fifos.getD ((off - 0x4000000) / 0x10000) none).isSome = true ∧ off % 0x10000 < 0x24
      (storage → recordCheck t g c a = none) ∧ (¬ storage → register → recordCheck t g c a = some (gangTrap g c 8 3 a)) ∧
      (¬ storage → ¬ register → recordCheck t g c a = some (gangTrap g c 9 0 (BitVec.ofNat 64 off))))

/-- R257 to R260, R264, R287, R288: what each check of a fetched record fails on, in the order in which they are made. -/
def RecordFails (s : State) (t : Task) (check : Nat) : Prop :=
  let f (off n : Nat) : Nat := fieldAt t.body off n
  let typ := f 6 1 % 16
  let opt := f 0x12 1
  let kind (w : Nat) : Nat := w / 2 ^ 62
  let badLoc (w : Nat) (kinds : List Nat) : Prop := kind w ∉ kinds ∨ w / 2 ^ 57 % 32 ≠ 0 ∨ (kind w = 0 ∧ w / 64 % 2 ^ 51 ≠ 0)
  let outside (x hi : Nat) : Prop := x < 1 ∨ hi < x
  let m := f 0x14 2
  let n := f 0x16 2
  let k := f 0x18 4
  let badMem (w pitch rows rowb : Nat) : Prop :=
    kind w ≠ 0 ∧ (t.locAddr w % 16 ≠ 0 ∨ pitch % 16 ≠ 0 ∨ pitch < rowb ∨ 2 ^ 57 < t.locAddr w + (rows - 1) * pitch + rowb)
  let tid := (s.group t.gid).tid
  let outRow (e : Slab) : Nat := kvD e.fmt.toNat * if f 0x13 1 = 1 then 2 else 4
  match check with
  | 0 => 5 ≤ typ
  | 1 => (f 6 1).testBit 7 = true ∨ 32 ≤ f 7 1 ∨ f 0xC 4 ≠ 0 ∨
      (typ = 0 ∧ (2 ≤ opt ∨ f 0x13 1 ≠ 0 ∨ f 0x3C 4 ≠ 0 ∨ badLoc (f 0x20 8) [0, 1] ∨ badLoc (f 0x28 8) [0, 1] ∨ badLoc (f 0x30 8) [0] ∨
        (kind (f 0x20 8) = 0 ∧ f 0x1C 4 ≠ 0) ∨ (kind (f 0x28 8) = 0 ∧ f 0x38 4 ≠ 0))) ∨
      (typ = 1 ∧ (2 ≤ opt ∨ f 0x13 1 ≠ 0 ∨ f 0x3C 4 ≠ 0 ∨ badLoc (f 0x20 8) [1] ∨ badLoc (f 0x28 8) [0] ∨ badLoc (f 0x30 8) [0] ∨ f 0x38 4 ≠ 0)) ∨
      (typ = 2 ∧ ((opt ≠ 0 ∧ opt ≠ 2) ∨ f 0x13 1 ≠ 0 ∨ f 0x3C 4 ≠ 0 ∨ k ≠ 0 ∨ badLoc (f 0x20 8) [0, 1] ∨ f 0x28 8 ≠ 0 ∨ badLoc (f 0x30 8) [0] ∨
        (kind (f 0x20 8) = 0 ∧ f 0x1C 4 ≠ 0) ∨ f 0x38 4 ≠ 0)) ∨
      (typ = 3 ∧ (f 0x13 1 ≠ 0 ∨ n ≠ 0 ∨ k ≠ 0 ∨ f 0x1C 4 ≠ 0 ∨ f 0x38 8 ≠ 0 ∨ badLoc (f 0x20 8) [0] ∨ badLoc (f 0x28 8) [0] ∨ badLoc (f 0x30 8) [0])) ∨
      (typ = 4 ∧ (4 ≤ opt ∨ n ≠ 0 ∨ badLoc (f 0x20 8) [0] ∨ badLoc (f 0x28 8) [0] ∨ (opt.testBit 1 = false ∧ f 0x28 8 ≠ 0) ∨ badLoc (f 0x30 8) [1] ∨ badLoc (f 0x38 8) [0]))
  | 2 => (typ = 0 ∧ (outside m 128 ∨ outside n 128 ∨ outside k (2 ^ 24))) ∨ (typ = 1 ∧ (outside m 65535 ∨ outside n 8 ∨ outside k (2 ^ 24))) ∨
      (typ = 2 ∧ (outside m (if opt.testBit 1 then 65535 else 128) ∨ outside n (if opt.testBit 1 then 8 else 128))) ∨ (typ = 3 ∧ (outside m 64 ∨ outside opt 16)) ∨
      (typ = 4 ∧ outside m 64)
  | 3 =>
    let a := f 0x10 1
    let b := f 0x11 1
    (typ < 2 ∧ ¬ ((a ≤ 6 ∧ b ≤ 6) ∨ (a = 7 ∧ b = 7) ∨ (a = 8 ∧ b = 8))) ∨
      (typ = 2 ∧ ¬ ((a = 0 ∧ b ≤ 2) ∨ (a = 1 ∧ (b = 3 ∨ b = 0)) ∨ (a = 2 ∧ (b = 4 ∨ b = 0)))) ∨ (typ = 3 ∧ 1 < a) ∨
      (typ = 4 ∧ (1 < a ∨ 1 < f 0x13 1 ∨ k / 2 ^ 23 = 0 ∨ 254 < k / 2 ^ 23))
  | 4 => 3 ≤ typ ∧ s.slabOf tid (f 0x11 1) = none
  | 5 => typ = 4 ∧ ∃ e, s.slabOf tid (f 0x11 1) = some e ∧ f 0x1C 4 < outRow e
  | 6 => ∃ i ∈ t.reads ++ t.writes, 63 < i ∨ s.holdsSlot tid i = false
  | 7 => (typ = 0 ∧ (badMem (f 0x20 8) (f 0x1C 4) m (fmtRow (f 0x10 1) k) ∨ badMem (f 0x28 8) (f 0x38 4) n (fmtRow (f 0x11 1) k))) ∨
      (typ = 1 ∧ badMem (f 0x20 8) (f 0x1C 4) m (fmtRow (f 0x10 1) k)) ∨ (typ = 2 ∧ badMem (f 0x20 8) (f 0x1C 4) m (n * [4, 2, 2, 4, 8].getD (f 0x11 1) 4)) ∨
      (typ = 4 ∧ ∃ e, s.slabOf tid (f 0x11 1) = some e ∧ badMem (f 0x30 8) (f 0x1C 4) m (outRow e))
  | 8 => (typ = 0 ∧ ∃ i ∈ t.accRun, i ∈ t.tileRun (f 0x20 8) (f 0x10 1) ++ t.tileRun (f 0x28 8) (f 0x11 1)) ∨
      (typ = 1 ∧ ∃ i ∈ t.accRun, i ∈ t.tileRun (f 0x28 8) (f 0x11 1)) ∨ (typ = 2 ∧ ∃ i ∈ t.accRun, i ∈ t.writes) ∨
      (typ = 3 ∧ (f 0x30 8 % 64 = f 0x20 8 % 64 ∨ f 0x30 8 % 64 = f 0x28 8 % 64)) ∨ (typ = 4 ∧ ∃ i ∈ [f 0x38 8 % 64, f 0x38 8 % 64 + 1], i ∈ t.reads)
  | 9 => (∃ u ∈ s.teamTasks tid, u.id ≠ t.id ∧ u.fetched = true ∧ u.ident = t.ident) ∨ ((f 6 1).testBit 4 = true ∧ t.pred0 = t.ident) ∨
      ((f 6 1).testBit 5 = true ∧ t.pred1 = t.ident)
  | _ => False

/-- R264, R288: validation gives the status of the first check that fails, 0 where none does. A pitch of D is a multiple of 16 also where R409 has rows of 4N bytes (the
model's choice: log 68); where D of an ACCST lies in a slot run is the model's (log 38). -/
def recordsValidate : Prop :=
  ∀ s t,
    ((∀ i, ¬ RecordFails s t i) → validate s t = 0) ∧
    ∀ i, RecordFails s t i → (∀ j, j < i → ¬ RecordFails s t j) → validate s t = [0x10, 0x11, 0x12, 0x13, 0x19, 0x12, 0x14, 0x15, 0x16, 0x17].getD i 0

/-- X of a step (R117): the largest floor(log2 |p|) over the finite nonzero products; none where there is none. -/
def StepTop (x : Option Int) (ps : List (FV × FV)) : Prop :=
  let top (p : FV × FV) : Option Int := match p with
    | (.fin _ m e, .fin _ n k) => if m * n = 0 then none else some ((m * n).log2 + (e + k))
    | _ => none
  (x = none ↔ ∀ p ∈ ps, top p = none) ∧ ∀ v, x = some v → (∃ p ∈ ps, top p = some v) ∧ ∀ p ∈ ps, ∀ w, top p = some w → w ≤ v

/-- An element of a matrix of accumulators. -/
def cellAt (t : List (List DWord)) (i j : Nat) : DWord := (t.getD i []).getD j 0

/-- R114, R117 to R120, R250: the value of an element of a row, acc_step, a K-step of a tile of each accumulator kind, and the conversions. -/
def tileArithmetic : Prop :=
  (∀ f ftz bs k, f < 9 → f ≠ 7 → tileValue f ftz bs k =
    let bytes (n i : Nat) : Nat := leNat ((bs.drop (n * i)).take n)
    match f with
    | 0 => fpVal (fmtOf 10) ftz (bytes 2 k) | 1 => fpVal (fmtOf 9) ftz (bytes 2 k) | 2 => fpVal (fmtOf 12) ftz (bytes 1 k) | 3 => fpVal (fmtOf 13) ftz (bytes 1 k)
    | 4 => sxUnpack (bytes 18 (k / 16)) 7 (k % 16) | 5 => sxUnpack (bytes 12 (k / 16)) 4 (k % 16) | 6 => sxUnpack (bytes 8 (k / 16)) 2 (k % 16)
    | _ => fpVal (fmtOf 11) ftz (bytes 8 k)) ∧
  (∀ (x : Option Int) (acc : DWord) (ps : List (FV × FV)) (bad : Bool), ps.length ≤ 16 →
    (accE acc = 255 → accStep x acc ps bad = acc) ∧
    (accE acc ≠ 255 → bad = true → accStep x acc ps bad = 255) ∧
    (accE acc ≠ 255 → bad = false → x = none → accStep x acc ps bad = acc) ∧
    (∀ v, accE acc ≠ 255 → bad = false → x = some v →
      let y : Nat := (max 0 (min 254 (v + 127))).toNat
      let product (p : FV × FV) : Int := match p with
        | (.fin a m e, .fin b n k) =>
          let d := e + k - ((y : Int) - 173)
          let q : Nat := if 0 ≤ d then m * n * 2 ^ d.toNat else m * n / 2 ^ (-d).toNat
          max (-(2 ^ 47 - 1)) (min (2 ^ 47 - 1) (if a = b then q else -(q : Int)))
        | _ => 0
      let sum := (ps.map product).sum
      let e := accE acc
      let z := max e y
      let t := (accS acc).tdiv (2 ^ (z - e)) + sum.tdiv (2 ^ (z - y))
      let r := accStep x acc ps bad
      (-(2 ^ 55) ≤ t → t < 2 ^ 55 → accS r = t ∧ accE r = z) ∧
      (t < -(2 ^ 55) ∨ 2 ^ 55 ≤ t → z ≠ 254 → accS r = t.tdiv 2 ∧ accE r = z + 1) ∧
      (2 ^ 55 ≤ t → z = 254 → accS r = 2 ^ 55 - 1 ∧ accE r = 254) ∧ (t < -(2 ^ 55) → z = 254 → accS r = -(2 ^ 55 - 1) ∧ accE r = 254))) ∧
  (∀ (fa fb : Nat) (ftz : Bool) (as bs : List (List Byte)) (k n : Nat) (accs : List (List DWord)), accs.length = as.length → (∀ r ∈ accs, r.length = bs.length) →
    let a (i : Nat) : List Byte := as.getD i []
    let b (j : Nat) : List Byte := bs.getD j []
    let t := tileStep fa fb ftz as bs k n accs
    let feed (i j : Nat) : List (FV × FV) := (List.range n).map fun h => (tileValue fa ftz (a i) (k + h), tileValue fb ftz (b j) (k + h))
    t.length = as.length ∧ (∀ r ∈ t, r.length = bs.length) ∧
    (fa ≤ 6 → fb ≤ 6 → ∃ x, StepTop x ((List.range as.length).flatMap fun i => (List.range bs.length).flatMap fun j => feed i j) ∧
      ∀ i j, i < as.length → j < bs.length → cellAt t i j = accStep x (cellAt accs i j) (feed i j) ((feed i j).any fun p => p.1.special || p.2.special)) ∧
    (fa = 7 → fb = 7 → ∀ i j, i < as.length → j < bs.length → cellAt t i j =
      cellAt accs i j + BitVec.ofInt 64 ((List.range n).map fun h => ((a i).getD (k + h) 0).toInt * ((b j).getD (k + h) 0).toInt).sum) ∧
    (fa = 8 → fb = 8 → ∀ i j, i < as.length → j < bs.length → cellAt t i j = BitVec.ofNat 64 ((List.range n).foldl (fun (acc : Nat) h =>
      (fpRound (fmtOf 11) (sumFV [(mulFV (tileValue fa ftz (a i) (k + h)) (tileValue fb ftz (b j) (k + h))).1, fpVal (fmtOf 11) ftz acc] 0).1 0 false ftz).1)
      (cellAt accs i j).toNat)) ∧
    tileSteps fa fb ftz as bs 0 accs = accs ∧
    (0 < n → tileSteps fa fb ftz as bs n accs = tileStep fa fb ftz as bs (16 * ((n - 1) / 16)) (n - 16 * ((n - 1) / 16)) (tileSteps fa fb ftz as bs (16 * ((n - 1) / 16)) accs))) ∧
  (∀ (out : Nat) (ftz : Bool) (x : DWord),
    (let fm := if out = 1 then fmtOf 10 else if out = 2 then fmtOf 9 else fmtOf 8
     accConvert 0 out ftz x = if accE x = 255 then fm.nan else if accS x = 0 then 0 else (fpRound fm (.fin (decide (accS x < 0)) (accS x).natAbs (accE x - 173)) 0 false ftz).1) ∧
    (accConvert 1 3 ftz x < 2 ^ 32 ∧ (BitVec.ofNat 32 (accConvert 1 3 ftz x)).toInt = max (-2 ^ 31) (min (2 ^ 31 - 1) x.toInt)) ∧
    accConvert 1 0 ftz x = (fpRound (fmtOf 8) (.fin (decide (x.toInt < 0)) x.toInt.natAbs 0) 0 false false).1 ∧
    accConvert 2 0 ftz x = (fpRound (fmtOf 8) (fpVal (fmtOf 11) ftz x.toNat) 0 false ftz).1 ∧
    accConvert 2 4 ftz x = if ((fmtOf 11).value x.toNat).isNan then 0x7FF8000000000000 else
      if ftz = true ∧ (fmtOf 11).subnormal x.toNat = true then (if x.getLsbD 63 then 2 ^ 63 else 0) else x.toNat)

/-- The parts of an access lie in ordinary memory, no two of them at the same byte. -/
def PartsApart (s : State) (ps : List (Nat × Nat × Hit)) : Prop :=
  (∀ p ∈ ps, p.2.2.attr ≠ 3 ∧ plainBytes s p.2.2.pa p.2.1) ∧ ps.Pairwise fun p q => p.2.2.pa + p.2.1 ≤ q.2.2.pa ∨ q.2.2.pa + q.2.1 ≤ p.2.2.pa

/-- The parts of an access hold these bytes, one after another. -/
def PartsHold (t : State) (ps : List (Nat × Nat × Hit)) (bs : List Byte) : Prop := ps.flatMap (fun p => bgets t.mem p.2.2.pa p.2.1) = bs

/-- R250, R251, R259, R268: what the steps of MMA, MV and ACCST store. -/
def tileTasksStore : Prop :=
  (∀ s core first fmt r k n, fmt < 9 → k % 16 = 0 → 1 ≤ n → n ≤ 16 →
    let extent := [128, 128, 256, 256, 256, 384, 512, 256, 32].getD fmt 1
    slotRow s core first fmt r k n = s.opRead core (36864 * (first + k / extent) + r * (if fmt = 4 ∨ fmt = 5 then 288 else 256) + fmtRow fmt (k % extent)) (fmtRow fmt n)) ∧
  (∀ core id s x, s.findTask core id = some x → x.phase = .running → Memory.wf (s.core core).opmem →
    let tid := (s.group x.gid).tid
    let fa := x.f 0x10 1
    let fb := x.f 0x11 1
    let at_ (u : State) (pitch i j : Nat) : DWord := BitVec.ofNat 64 (leNat (u.opRead core (36864 * (x.f 0x30 8 % 64) + pitch * i + 8 * j) 8))
    (∀ s1 s2 as bs, x.typ = 0 → 0 < x.m → 0 < x.n → x.n ≤ 128 → x.cells = [] ∨ x.cells.length = x.m * x.n →
      let n := min 16 (x.k - 16 * x.step)
      operandRows s tid core x (x.f 0x20 8) fa (x.f 0x1C 4) (List.range x.m) (16 * x.step) n = (s1, .ok as) →
      operandRows s1 tid core x (x.f 0x28 8) fb (x.f 0x38 4) (List.range x.n) (16 * x.step) n = (s2, .ok bs) →
      let acc (i j : Nat) : DWord := if x.cells ≠ [] then x.cells.getD (x.n * i + j) 0 else if x.zero = true ∧ x.step = 0 then 0 else at_ s 1024 i j
      let new := tileStep fa fb x.ftz as bs 0 n ((List.range x.m).map fun i => (List.range x.n).map (acc i))
      Completes (.taskStep core id) s fun t => ∃ y, t.findTask core id = some y ∧ y.step = x.step + 1 ∧
        (x.step + 1 < ceilDiv x.k 16 → y.cells = new.flatten) ∧
        (ceilDiv x.k 16 ≤ x.step + 1 → y.cells = [] ∧ ∀ i j, i < x.m → j < x.n → at_ t 1024 i j = cellAt new i j)) ∧
    (∀ s1 s2 as bs, x.typ = 1 → x.n ≤ 8 →
      let count := min 128 (x.m - 128 * x.step)
      operandRows s tid core x (x.f 0x20 8) fa (x.f 0x1C 4) ((List.range count).map fun r => 128 * x.step + r) 0 x.k = (s1, .ok as) →
      operandRows s1 tid core x (x.f 0x28 8) fb 0 (List.range x.n) 0 x.k = (s2, .ok bs) →
      let new := tileSteps fa fb x.ftz as bs x.k ((List.range count).map fun r => (List.range x.n).map fun j => if x.zero = true then 0 else at_ s 64 (128 * x.step + r) j)
      Completes (.taskStep core id) s fun t => (∀ r j, r < count → j < x.n → at_ t 64 (128 * x.step + r) j = cellAt new r j) ∧
        ∀ i j, j < 8 → i < 128 * x.step ∨ 128 * x.step + count ≤ i ∨ x.n ≤ j → at_ t 64 i j = at_ s 64 i j) ∧
    (x.typ = 2 →
      let count := min 16 (x.m - 16 * x.step)
      let w := outBytes fb
      let out (i j : Nat) : Nat := accConvert fa fb x.ftz (at_ s (if (x.f 0x12 1).testBit 1 then 64 else 1024) i j)
      (x.f 0x20 8 < 2 ^ 62 → Completes (.taskStep core id) s fun t => ∀ r j, r < count → j < x.n →
        let i := 16 * x.step + r
        leNat (t.opRead core (36864 * (x.f 0x20 8 % 64 + i / 128 * ceilDiv (x.n * w) 256 + w * j / 256) + 256 * (i % 128) + w * j % 256) w) = out i j % 2 ^ (8 * w)) ∧
      (∀ s1 ps, 2 ^ 62 ≤ x.f 0x20 8 → engPlaces s tid core ((List.range count).map fun r =>
          ((x.base.toNat + x.f 0x20 8 % 2 ^ 57) % 2 ^ 64 + x.f 0x1C 4 * (16 * x.step + r), x.n * w, true)) = (s1, .ok ps) → PartsApart s1 ps →
        Completes (.taskStep core id) s fun t =>
          PartsHold t ps ((List.range count).flatMap fun r => (List.range x.n).flatMap fun j => leBytes w (out (16 * x.step + r) j)))))

/-- Rounding to FP32 under RNE with the FTZ bit of a task, and the value of FP32 bits (R291). -/
def to32 (ftz : Bool) (v : FV) : Nat := (fpRound (fmtOf 8) v 0 false ftz).1

def of32 (x : Nat) : FV := (fmtOf 8).value x

/-- fexp2 of a difference, sums and products, each rounded to FP32. -/
def expDiff (ftz : Bool) (x y : Nat) : Nat := (fexp2 (if ftz then 0x800 else 0) (fmtOf 8) (of32 (to32 ftz (sumFV [of32 x, (of32 y).neg] 0).1))).1

def plus32 (ftz : Bool) (x y : Nat) : Nat := to32 ftz (sumFV [of32 x, of32 y] 0).1

def times32 (ftz : Bool) (x y : Nat) : Nat := to32 ftz (mulFV (of32 x) (of32 y)).1

/-- R290 to R293: a bound and the order of pages by it; sums of products over the pairs that take part; scores and value sums; the update of m and l; the
quotient of the final step; the addition to a mass. -/
def attentionArithmetic : Prop :=
  (∀ q lo hi : List FV,
    (∀ terms : List FV, terms.length = (q.zip (lo.zip hi)).length →
      (∀ (i : Nat) v l h, (q.zip (lo.zip hi))[i]? = some (v, l, h) →
        ((mulFV v l).1.isNan = true ∨ (mulFV v h).1.isNan = true → terms[i]? = some (FV.nan false)) ∧
        ((mulFV v l).1.isNan = false → (mulFV v h).1.isNan = false → terms[i]? = some (if ltFV (mulFV v l).1 (mulFV v h).1 then (mulFV v h).1 else (mulFV v l).1))) →
      kvBound q lo hi = (fpRound (fmtOf 8) (sumFV terms 3).1 3 false false).1)) ∧
  (∀ a b, boundAbove a b = true ↔ ((of32 a).isNan = true ∧ (of32 b).isNan = false) ∨ ((of32 a).isNan = false ∧ (of32 b).isNan = false ∧ ltFV (of32 b) (of32 a) = true)) ∧
  (∀ e l, ∃ before after, l = before ++ after ∧ rankInsert e l = before ++ e :: after ∧ (∀ x ∈ before, boundAbove e.2 x.2 = false) ∧
    ∀ x, after.head? = some x → boundAbove e.2 x.2 = true) ∧
  (∀ rows cols (a b : Nat → Nat → FV) (on bad : Nat → Nat → Nat → Bool),
    (∀ i j, cellAt (dotMatrix rows cols 0 a b on bad) i j = 0) ∧
    ∀ n, 0 < n → let k := 16 * ((n - 1) / 16)
      let pairs (r c : Nat) : List (FV × FV) := ((List.range (n - k)).filter fun j => on r c (k + j)).map fun j => (a r (k + j), b c (k + j))
      ∃ x, StepTop x ((List.range rows).flatMap fun r => (List.range cols).flatMap fun c => pairs r c) ∧
        ∀ r c, r < rows → c < cols → let old := cellAt (dotMatrix rows cols k a b on bad) r c
          cellAt (dotMatrix rows cols n a b on bad) r c =
            if pairs r c = [] then old else accStep x old (pairs r c) ((List.range 16).any fun j => on r c (k + j) && bad r c (k + j))) ∧
  (∀ t qs ks n un r c, r < t.m → c < n →
    let q (r i : Nat) : FV := (qs.getD r []).getD i (.fin false 0 0)
    let k (c i : Nat) : FV := (ks.getD c []).getD i (.fin false 0 0)
    let dot := cellAt (dotMatrix t.m n t.dim q k (fun r c _ => un r c) fun r c i => (q r i).special || (k c i).special) r c
    ((attnScores t qs ks n un).getD r []).getD c 0 = times32 t.ftz (accConvert 0 0 t.ftz dot) (t.f 0x18 4)) ∧
  (∀ t ws vs n un r d, r < t.m → d < t.dim →
    let w (r i : Nat) : FV := of32 ((ws.getD r []).getD i 0)
    let v (d i : Nat) : FV := (vs.getD i []).getD d (.fin false 0 0)
    let dot := cellAt (dotMatrix t.m t.dim n w v (fun r _ i => un r i) fun r d i => (w r i).special || (v d i).special) r d
    ((valueSums t ws vs n un).getD r []).getD d 0 = accConvert 0 0 t.ftz dot) ∧
  (∀ ftz (r : Row) (ss : List (Option Nat)),
    let y := rowMl ftz r ss
    y.1.m = (ss.filterMap id).foldl (fun x v => (fpRound (fmtOf 8) (maxFV (of32 x) (of32 v)) 0 false false).1) r.m ∧
    y.2.1 = expDiff ftz r.m y.1.m ∧ y.2.2.length = ss.length ∧ (∀ (i v : Nat), ss[i]? = some (some v) → y.2.2[i]? = some (expDiff ftz v y.1.m)) ∧
    y.1.l = (ss.filterMap id).foldl (fun l v => plus32 ftz l (expDiff ftz v y.1.m)) (times32 ftz r.l y.2.1) ∧ y.1.o = r.o) ∧
  (∀ ftz x y, ((of32 x).isNan = true ∨ (of32 y).isNan = true ∨ ((of32 x).isZero = true ∧ (of32 y).isZero = true) → div32 ftz x y = 0x7FC00000) ∧
    ∀ a m e b n k, of32 x = .fin a m e → of32 y = .fin b n k →
      let sign := if a = b then 0 else 0x80000000
      (m ≠ 0 → n = 0 → div32 ftz x y = sign + 0x7F800000) ∧ (m = 0 → n ≠ 0 → div32 ftz x y = sign) ∧
      (m ≠ 0 → n ≠ 0 → ∃ z, RoundsTo (if ftz then 0x800 else 0) (fmtOf 8) (a ^^ b) (fun q => q * (n * pow2 k)) (m * pow2 e) (div32 ftz x y, z))) ∧
  (∀ (m : Nat) (e : Int), (massAddend (.fin false m e) : Int) = ⌊(m : Rat) * pow2 e * 4096⌋)

/-- R289 to R294: the capture; what a page of KVSEL leaves in the running lists and its final step in SELLOC; what a page of ATTN does to the rows, the masses and READERS,
and the final step's output. (The place of the running lists in the workspace is the model's: log 39.) -/
def attentionTasksStore : Prop :=
  ∀ core id s x, s.findTask core id = some x →
    let tid := (s.group x.gid).tid
    let entry := x.f 0x11 1
    let m := x.m
    let work := 36864 * ((if x.typ = 3 then x.f 0x30 8 else x.f 0x38 8) % 64)
    let sel := 36864 * (x.f 0x28 8 % 64)
    let half (u : State) (a : Nat) : Nat := leNat (u.opRead core a 2)
    let pages (e : Slab) : Nat := ceilDiv e.len 64
    let selects (r p : Nat) : Prop := (x.f 0x12 1).testBit 1 = true → ∃ i, i < 32 ∧ half s (sel + 64 * r + 2 * i) = p
    let holds (e : Slab) (p : Nat) : Prop := p < pages e ∧ (x.typ = 4 → ∃ r, r < m ∧ selects r p)
    let readers (u v : State) (h : Hit) (d : Int) : Prop := (leNat (bgets v.mem h.pa 2) : Int) = leNat (bgets u.mem h.pa 2) + d
    Memory.wf (s.core core).opmem → x.typ = 3 ∨ x.typ = 4 →
    (∀ e, s.slabOf tid entry = some e → e.len ≤ 2 ^ 20 → ∃ held : List Nat, held.Pairwise (· < ·) ∧ (∀ p, p ∈ held ↔ holds e p) ∧
      ((∃ p ∈ held, pageMoving s tid entry p = true) → kvCapture s tid core x = .wait) ∧
      ((∀ p ∈ held, pageMoving s tid entry p = false) →
        (∀ s1 k v, engPlaces s tid core (held.map fun p => ((kvPage e e p).2 + 6, 2, true)) = (s1, .fault k v) → kvCapture s tid core x = .fault s1 k 5 v) ∧
        ∀ s1 hs, engPlaces s tid core (held.map fun p => ((kvPage e e p).2 + 6, 2, true)) = (s1, .ok hs) → PartsApart s1 hs → (∀ h ∈ hs, h.2.1 = 2) →
          ((∃ h ∈ hs, leNat (bgets s1.mem h.2.2.pa 2) = 0xFFFF) → kvCapture s tid core x = .wait) ∧
          ((∀ h ∈ hs, leNat (bgets s1.mem h.2.2.pa 2) ≠ 0xFFFF) → ∃ t y, kvCapture s tid core x = .ok t ∧ t.findTask core id = some y ∧ y.cap = some e ∧ y.held = held ∧
            (∀ h ∈ hs, readers s1 t h.2.2 1) ∧
            t.opRead core work 64 = ({ e with obase := 0, ombase := 0, wmark := 0, moven := 0, rwin := 0, state := 0 } : Slab).bytes))) ∧
    ∀ e, x.cap = some e → x.phase = .running → e.len ≤ 2 ^ 20 →
      let d := kvD e.fmt.toNat
      let list (u : State) (y : Task) (r : Nat) : List (Nat × Nat) := rowList u core y r
      let q (r i : Nat) : FV := tileValue x.qfmt x.ftz (s.opRead core (36864 * (x.f 0x20 8 % 64) + 512 * r) 512) i
      let at_ (p : Nat) : Nat × Nat := match s.slabOf tid entry with | some now => kvPage now e p | none => kvPage e e p
      (∀ s1 s2 s3 s4 va h hd lo hi, x.typ = 3 → x.step < pages e → m ≤ 64 → x.f 0x12 1 ≤ 16 → pageMoving s tid entry x.step = false →
        engPlace s tid core ((at_ x.step).2 + 6) 2 true = (s1, .ok [(va, 2, h)]) → engLoad s1 tid core (at_ x.step).2 64 = (s2, .ok hd) →
        engLoad s2 tid core ((at_ x.step).2 + 0x1C0) (2 * d) = (s3, .ok lo) → engLoad s3 tid core ((at_ x.step).2 + 0x3C0) (2 * d) = (s4, .ok hi) → PartsApart s4 [(va, 2, h)] →
        1 ≤ leNat (bgets s4.mem h.pa 2) →
        let bf (b : List Byte) : List FV := (List.range d).map fun i => (fmtOf 10).value (leNat ((b.drop (2 * i)).take 2))
        let bound (r : Nat) : Nat := kvBound ((List.range d).map (q r)) (bf lo) (bf hi)
        let forced : Bool := (hd.getD 3 0).getLsbD 0 || (hd.getD 3 0).getLsbD 1
        Completes (.taskStep core id) s fun t => ∃ y, t.findTask core id = some y ∧ y.held = x.held.filter (· ≠ x.step) ∧ readers s4 t h (-1) ∧
          forcedList t core y = (if forced then (forcedList s core x ++ [x.step]).take 32 else forcedList s core x) ∧
          ∀ r, r < m → list t y r = if forced then list s x r else (rankInsert (x.step, bound r) (list s x r)).take (x.f 0x12 1)) ∧
      (x.typ = 3 → pages e ≤ x.step → Completes (.taskStep core id) s fun t => ∀ r i, r < 64 → i < 32 →
        let forced := forcedList s core x
        let best := ((list s x r).take (min (x.f 0x12 1) (32 - forced.length))).map (·.1)
        half t (sel + 64 * r + 2 * i) = if r < m then (((List.range (pages e)).filter fun p => forced.contains p || best.contains p).getD i 0xFFFF) else 0xFFFF) ∧
      ∀ union : List Nat, x.typ = 4 → union.Pairwise (· < ·) → (∀ p, p ∈ union ↔ holds e p) → 0 < m → x.cells = [] ∨ x.cells.length = m * (d + 2) → (∀ c ∈ x.cells, c.toNat < 2 ^ 32) →
        let mass := (x.f 0x12 1).testBit 0
        let row (u : State) (y : Task) (r : Nat) : Row := (taskRows u core y).getD r (Row.init d)
        let page (k : Nat) : Nat := union.getD k 0
        let count (p : Nat) : Nat := min 64 (e.len - 64 * p)
        let rb := kvRow e.fmt.toNat
        let values (b : List Byte) (n : Nat) : List (List FV) :=
          (List.range n).map fun i => (List.range d).map fun j => tileValue (match e.fmt.toNat % 4 with | 0 => 0 | 1 => 4 | _ => 5) x.ftz ((b.drop (rb * i)).take rb) j
        let qs : List (List FV) := (List.range m).map fun r => (List.range d).map (q r)
        let rowSelects (r p : Nat) : Bool := !(x.f 0x12 1).testBit 1 || (List.range 32).any fun i => half s (sel + 64 * r + 2 * i) == p
        let scores (p : Nat) (kb : List Byte) (r : Nat) : List (Option Nat) :=
          let un (r i : Nat) : Bool := rowSelects r p && decide (i < count p)
          (List.range (count p)).map fun i => if un r i then some (((attnScores x qs (values kb (count p)) (count p) un).getD r []).getD i 0) else none
        let sums (p : Nat) (ws : List (List Nat)) (vb : List Byte) (r j : Nat) : Nat :=
          ((valueSums x ws (values vb (count p)) (count p) fun r i => rowSelects r p && decide (i < count p)).getD r []).getD j 0
        let sees (r p : Nat) : Bool := rowSelects r p && decide (0 < count p)
        let mlOf (p : Nat) (kb : List Byte) (r : Nat) : Row × Nat × List Nat := rowMl x.ftz (row s x r) (scores p kb r)
        (∀ s1 s2 s3 va h kb vb, mass = false → x.step < union.length → pageMoving s tid entry (page x.step) = false →
          let p := page x.step
          engLoad s tid core (at_ p).1 (rb * count p) = (s1, .ok kb) → engLoad s1 tid core ((at_ p).1 + 64 * rb) (rb * count p) = (s2, .ok vb) →
          engPlace s2 tid core ((at_ p).2 + 6) 2 true = (s3, .ok [(va, 2, h)]) → PartsApart s3 [(va, 2, h)] → 1 ≤ leNat (bgets s3.mem h.pa 2) →
          Completes (.taskStep core id) s fun t => ∃ y, t.findTask core id = some y ∧ y.held = x.held.filter (· ≠ p) ∧ readers s3 t h (-1) ∧ ∀ r, r < m →
            let ml := mlOf p kb r
            let ws := (List.range m).map fun r => if sees r p then (mlOf p kb r).2.2 else []
            row t y r = if sees r p then { ml.1 with o := (List.range d).map fun j => plus32 x.ftz (times32 x.ftz ((row s x r).o.getD j 0) ml.2.1) (sums p ws vb r j) } else row s x r) ∧
        (∀ s1 kb, mass = true → x.step < union.length → engLoad s tid core (at_ (page x.step)).1 (rb * count (page x.step)) = (s1, .ok kb) →
          Completes (.taskStep core id) s fun t => ∃ y, t.findTask core id = some y ∧ y.held = x.held ∧
            ∀ r, r < m → row t y r = if sees r (page x.step) then (mlOf (page x.step) kb r).1 else row s x r) ∧
        (∀ s1 s2 s3 s4 va h kb vb ms, mass = true → union.length ≤ x.step → x.step < 2 * union.length →
          let p := page (x.step - union.length)
          pageMoving s tid entry p = false →
          engLoad s tid core (at_ p).1 (rb * count p) = (s1, .ok kb) → engLoad s1 tid core ((at_ p).1 + 64 * rb) (rb * count p) = (s2, .ok vb) →
          engPlace s2 tid core ((at_ p).2 + 6) 2 true = (s3, .ok [(va, 2, h)]) →
          engPlaces s3 tid core ((List.range (count p)).map fun i => ((at_ p).2 + 0x140 + 2 * i, 2, true)) = (s4, .ok ms) → (∀ c ∈ ms, c.2.1 = 2) →
          PartsApart s4 ((va, 2, h) :: ms) → 1 ≤ leNat (bgets s4.mem h.pa 2) →
          let w (r i : Nat) : Nat := match (scores p kb r).getD i none with
            | some v => times32 x.ftz (expDiff x.ftz v (row s x r).m) (div32 x.ftz 0x3F800000 (row s x r).l)
            | none => 0
          let ws := (List.range m).map fun r => (List.range (count p)).map (w r)
          Completes (.taskStep core id) s fun t => ∃ y, t.findTask core id = some y ∧ y.held = x.held.filter (· ≠ p) ∧ readers s4 t h (-1) ∧
            (∀ r, r < m → row t y r = if sees r p then { row s x r with o := (List.range d).map fun j => plus32 x.ftz ((row s x r).o.getD j 0) (sums p ws vb r j) } else row s x r) ∧
            ∀ i c, ms[i]? = some c →
              let old := leNat (bgets s4.mem c.2.2.pa 2)
              let added : List FV := ((List.range m).filter fun r => sees r p).map fun r => of32 (w r i)
              leNat (bgets t.mem c.2.2.pa 2) = if added = [] then old else match (sumFV added 0).1 with
                | .nan _ => old | .inf _ => 0xFFFF | .fin neg a e => min (old + massAddend (.fin neg a e)) 0xFFFF) ∧
        ∀ s1 ps, (if mass then 2 else 1) * union.length ≤ x.step →
          let w := if x.f 0x13 1 = 1 then 2 else 4
          engPlaces s tid core ((List.range m).map fun r => ((x.base.toNat + x.f 0x30 8 % 2 ^ 57) % 2 ^ 64 + x.f 0x1C 4 * r, w * d, true)) = (s1, .ok ps) → PartsApart s1 ps →
          Completes (.taskStep core id) s fun t => PartsHold t ps ((List.range m).flatMap fun r => (List.range d).flatMap fun j =>
            let o := (row s x r).o.getD j 0
            let v := if union.any (rowSelects r) then (if mass then o else div32 x.ftz o (row s x r).l) else 0
            leBytes w (if w = 2 then (fpRound (fmtOf 10) (of32 v) 0 false x.ftz).1 else v))

end Sys2Proof.Machine

section
open Sys2Proof Sys2Proof.Machine

/-- Operand slots and tile tasks. -/
def Obligations.SlotsAndTasks : Prop := slotInstructions ∧ recordChecks ∧ taskInstructions ∧ recordsValidate ∧ tasksRun ∧ tasksEnd ∧ tileArithmetic ∧ tileTasksStore ∧ attentionArithmetic ∧ attentionTasksStore

end

namespace Sys2Proof.Machine

/-! ## Slabs: growth and eviction (10) -/

/-- The two base addresses of a new run (R285). -/
def runBases (s : State) (g : Group) (c : Ctx) (a : BitVec 8) : DWord × DWord := (readU64 s g c a.toNat, readU64 s g c (a.toNat + 2))

/-- R279, R285, R286, R296: KVGROW turns its entry to the new run and posts the growth; KVEVICT, whose b is one 64-bit operand, marks its entry and posts the eviction;
each checks in the order of its rule, and waits for a SLABST of the entry that came before it. -/
def slabPosts : Prop :=
  (∀ (r : BitVec 1) (b4 : BitVec 4) (a b : BitVec 8) s c, issuer s = some c →
    let g := s.group c.gid
    (issues (encode (.kvgrow r b4 a b)) s = true → slabStoring s g.tid (readU s g c b.toNat).toNat = true → exec (.kvgrow r b4 a b) s = .next s) ∧
    (issues (encode (.kvevict r b4 a b)) s = true → slabStoring s g.tid (loHalf (readU64 s g c b.toNat)).toNat = true → exec (.kvevict r b4 a b) s = .next s)) ∧
  (∀ (r : BitVec 1) (b4 : BitVec 4) (a b : BitVec 8) s c, issuer s = some c → issues (encode (.kvgrow r b4 a b)) s = true →
    let i := Instr.kvgrow r b4 a b
    let g := s.group c.gid
    let n := (readU s g c b.toNat).toNat
    let nb := runBases s g c a
    slabStoring s g.tid n = false →
    (s.slabOf g.tid n = none → Raises i s c (gangTrap g c 0x16 1 0)) ∧
    (∀ e, s.slabOf g.tid n = some e →
      (e.state ≠ 0 → Raises i s c (gangTrap g c 0x16 2 0)) ∧
      (e.state = 0 → e.log2p = 14 → Raises i s c (gangTrap g c 0x16 3 0)) ∧
      (e.state = 0 → e.log2p ≠ 14 → ∀ tr, newRunCheck g c e nb.1.toNat nb.2.toNat (kvPs e.fmt.toNat) (e.log2p + 1) = some tr → Raises i s c tr) ∧
      (e.state = 0 → e.log2p ≠ 14 → newRunCheck g c e nb.1.toNat nb.2.toNat (kvPs e.fmt.toNat) (e.log2p + 1) = none → Completes i s fun t =>
        (∃ y, PostIssue s t c (.copy y) ∧ y.kind = .grow ∧ y.gid = c.gid ∧ regAt y.regs 0 = n ∧ y.dfield = BitVec.ofNat 8 (r.toNat * 16 + b4.toNat) ∧ y.batch = g.openBatch ∧
          y.phase = .posted ∧ y.progress = 0) ∧
        Joins g (t.group c.gid) [(nb.1, kvPs e.fmt.toNat * 2 ^ (e.log2p + 1)), (nb.2, 2048 * 2 ^ (e.log2p + 1))] ∧
        t.slabOf g.tid n = some { e with obase := e.dbase, ombase := e.mbase, dbase := nb.1, mbase := nb.2, moven := (e.len + 63) / 64, wmark := 0, log2p := e.log2p + 1, state := 1 } ∧
        ∀ m, m ≠ n → t.slabOf g.tid m = s.slabOf g.tid m))) ∧
  (∀ (r : BitVec 1) (b4 : BitVec 4) (a b : BitVec 8) s c, issuer s = some c → issues (encode (.kvevict r b4 a b)) s = true →
    let i := Instr.kvevict r b4 a b
    let g := s.group c.gid
    let n := (loHalf (readU64 s g c b.toNat)).toNat
    let param := hiHalf (readU64 s g c b.toNat)
    let nb := runBases s g c a
    slabStoring s g.tid n = false →
    (256 ≤ n → Raises i s c (gangTrap g c 0x16 4 0)) ∧
    (n < 256 → s.slabOf g.tid n = none → Raises i s c (gangTrap g c 0x16 1 0)) ∧
    (∀ e, s.slabOf g.tid n = some e →
      let badParam := 2 ^ 24 ≤ param.toNat ∨ evictFmt param = 3 ∨ (evictFmt param ≠ 0 ∧ evictFmt param ≤ e.fmt.toNat % 4)
      (e.state ≠ 0 → Raises i s c (gangTrap g c 0x16 2 0)) ∧
      (e.state = 0 → badParam → Raises i s c (gangTrap g c 0x16 4 0)) ∧
      (e.state = 0 → ¬ badParam → ∀ tr, newRunCheck g c e nb.1.toNat nb.2.toNat (kvPs (newFmt e.fmt param)) e.log2p = some tr → Raises i s c tr) ∧
      (e.state = 0 → ¬ badParam → newRunCheck g c e nb.1.toNat nb.2.toNat (kvPs (newFmt e.fmt param)) e.log2p = none → Completes i s fun t =>
        (∃ y, PostIssue s t c (.evict y) ∧ y.gid = c.gid ∧ y.entry = n ∧ y.ndata = nb.1 ∧ y.nmeta = nb.2 ∧ y.param = param ∧ y.dfield = BitVec.ofNat 8 (r.toNat * 16 + b4.toNat) ∧
          y.batch = g.openBatch ∧ y.phase = .posted ∧ y.slot = 0 ∧ y.kept = 0) ∧
        Joins g (t.group c.gid) [(nb.1, kvPs (newFmt e.fmt param) * 2 ^ e.log2p), (nb.2, 2048 * 2 ^ e.log2p)] ∧
        t.slabOf g.tid n = some { e with state := 2 } ∧ ∀ m, m ≠ n → t.slabOf g.tid m = s.slabOf g.tid m)))

/-- R286: a running growth moves pages in ascending order; the mark rises by one with each whole page, and with the last page the entry is idle and the copy
has moved its data. No register and no trap queue changes. -/
def growthsMove : Prop :=
  ∀ core id s c e u, s.findCopy core id = some c → c.kind = .grow → growReady s core c = true → s.slabOf (s.group c.gid).tid (regAt c.regs 0) = some e → growStep s core c = some u →
    let tid := (s.group c.gid).tid
    let n := regAt c.regs 0
    Completes (.growPageMove core id) s fun t => t = u ∧ EngineWork s t ∧
      (e.moven ≤ e.wmark → t.mem = s.mem ∧ t.slabOf tid n = some e.idle ∧ t.findCopy core id = some { c with phase := .moved, progress := 0 }) ∧
      (e.wmark < e.moven → ∃ y, t.findCopy core id = some y ∧
        (y.fault.isSome = true → y.phase = .running ∧ t.slabOf tid n = some e) ∧
        (y.fault = none → e.wmark + 1 < e.moven → y = { c with progress := 0 } ∧ t.slabOf tid n = some { e with wmark := e.wmark + 1 }) ∧
        (y.fault = none → e.moven = e.wmark + 1 → y = { c with phase := .moved, progress := 0 } ∧ t.slabOf tid n = some e.idle))

/-- R297 to R300: the engine of a die takes the locks of its first eviction, writes one new page at a time, then turns the entry to the new run in one step;
the eviction ends when no reader is left, with its arrival; a fault raises KV_ERR. -/
def evictionsRun : Prop :=
  (∀ die s x e, s.evicting die = some x → s.findEvict die x.id = some x → s.slabOf (s.group x.gid).tid x.entry = some e → x.phase = .running → x.fault = none → x.slot < e.len →
    (evictPage s die x e = none → exec (.evictRun die) s = .next s) ∧
    (evictPage s die x e ≠ none → Completes (.evictRun die) s fun t => EngineWork s t ∧ t.slabOf (s.group x.gid).tid x.entry = some e ∧
      ∃ y, t.findEvict die x.id = some y ∧ x.slot ≤ y.slot ∧ x.kept ≤ y.kept ∧ y.kept ≤ x.kept + 64 ∧ y.phase = .running ∧ y.kept - x.kept ≤ y.slot - x.slot ∧
        (y.fault = none → x.slot < y.slot) ∧ (y.fault ≠ none → y = { x with fault := y.fault }))) ∧
  (∀ die s x e, s.evicting die = some x → s.findEvict die x.id = some x → s.slabOf (s.group x.gid).tid x.entry = some e → x.phase = .queued → s.hasLocks die 5 x.core x.id = false →
    Completes (.evictRun die) s fun t => EngineWork s t ∧ t.mem = s.mem ∧ t.teams = s.teams ∧
      let l := evictLocks s { x with old := e }
      ((s.die die).canLock l = true → (s.die die).mustQueue l = false → (t.die die).locks = (s.die die).locks ++ l ∧ t.findEvict die x.id = some { x with old := e, phase := .running }) ∧
      ((s.die die).canLock l = false ∨ (s.die die).mustQueue l = true → (t.die die).locks = (s.die die).locks ∧ t.findEvict die x.id = some { x with old := e, phase := .waiting })) ∧
  (∀ die s x e, switchReady s die = some x → s.findEvict die x.id = some x → s.slabOf (s.group x.gid).tid x.entry = some e →
    Completes (.evictSwitch die) s fun t => EngineWork s t ∧ t.findEvict die x.id = some { x with phase := .moved, old := e } ∧
      t.slabOf (s.group x.gid).tid x.entry = some { e with dbase := x.ndata, mbase := x.nmeta, len := x.kept, fmt := BitVec.ofNat 8 (newFmt e.fmt x.param), gen := e.gen + 1, state := 0 }) ∧
  (∀ die id s x, s.findEvict die id = some x → evictDone s x = true →
    Completes (.evictComplete die id) s fun t => t.mem = s.mem ∧ t.teams = s.teams ∧ t.cores = s.cores ∧ t.findEvict die id = none ∧
      (∀ j, j ≠ x.gid → t.group j = s.group j) ∧ RegsKept (s.group x.gid) (t.group x.gid) ∧ (∀ l ∈ (t.die die).locks, l.owner.is 5 x.core x.id = false) ∧
      t.hub.arrivals = (if x.dfield.getLsbD 4 then s.hub.arrivals ++ [{ tid := (s.group x.gid).tid, bar := x.dfield.toNat % 16, ranges := x.dests }] else s.hub.arrivals) ∧
      ((s.group x.gid).openBatch = x.batch → (t.group x.gid).openLeft = (s.group x.gid).openLeft - 1)) ∧
  (∀ die s x k page va, s.evicting die = some x → s.findEvict die x.id = some x → x.fault = some (k, page, va) → (s.asyncTarget x.gid).isSome = true →
    Completes (.evictFault die) s fun t => t.mem = s.mem ∧ t.findEvict die x.id = some { x with phase := .stopped } ∧ (t.die die).locks = (s.die die).locks ∧
      t = raiseAsync (s.modEvict die x fun y => { y with phase := .stopped }) x.gid
        { cause := BitVec.ofNat 16 (copyFaultKind k * 2 ^ 12 + 8), nested := false, logged := false, async := true, code := 0x16, qleft := 0, lane := 0, addr := va, pc := 0,
          opword := BitVec.ofNat 64 (x.entry + page * 2 ^ 16) } (.evict die x.id))

/-- R278: the 64 bytes of a descriptor and the entry that they describe. -/
def Describes (b : List Byte) (e : Slab) : Prop :=
  b.length = 64 ∧ e.dbase.toNat = fieldAt b 0x00 8 ∧ e.mbase.toNat = fieldAt b 0x08 8 ∧ e.obase.toNat = fieldAt b 0x10 8 ∧ e.ombase.toNat = fieldAt b 0x18 8 ∧
  e.len = fieldAt b 0x20 4 ∧ e.wmark = fieldAt b 0x24 2 ∧ e.moven = fieldAt b 0x26 2 ∧ e.log2p = fieldAt b 0x28 1 ∧ e.fmt.toNat = fieldAt b 0x29 1 ∧
  e.rwin = fieldAt b 0x2A 1 ∧ e.state = fieldAt b 0x2B 1 ∧ e.gen.toNat = fieldAt b 0x2C 2 ∧ e.sid.toNat = fieldAt b 0x30 4 ∧ fieldAt b 0x2E 2 = 0 ∧ fieldAt b 0x34 12 = 0

/-- R278, R283: what SLABLD accepts. -/
def Accepted (b : List Byte) : Prop :=
  fieldAt b 0x00 8 % 128 = 0 ∧ fieldAt b 0x08 8 % 2048 = 0 ∧ fieldAt b 0x10 8 = 0 ∧ fieldAt b 0x18 8 = 0 ∧ fieldAt b 0x24 2 = 0 ∧ fieldAt b 0x26 2 = 0 ∧
  fieldAt b 0x28 1 ≤ 14 ∧ fieldAt b 0x29 1 % 4 ≠ 3 ∧ fieldAt b 0x29 1 / 4 % 4 ≠ 3 ∧ fieldAt b 0x29 1 < 16 ∧ fieldAt b 0x2B 1 = 0 ∧ fieldAt b 0x2E 2 = 0 ∧
  fieldAt b 0x34 12 = 0 ∧ fieldAt b 0x20 4 ≤ 64 * 2 ^ fieldAt b 0x28 1

/-- R282, R283: SLABLD's 64 bytes have come. A descriptor that breaks R278 is a KV_ERR with cause 5; another goes into the lowest free entry of the home core's table, held by
the team, whose index the register receives; with none free it receives 0xFFFFFFFF and the predicate is false. -/
def slabsLoad : Prop :=
  ∀ core id s o d p, s.findOp core id = some o → (s.group o.gid).core = core → opReady s o = true → o.kind = .slabld d p →
    let g := s.group o.gid
    let home := g.tid / 32
    let b := leBytes 64 ((laneVal (readAll s o).2 0).getD 0)
    let free (i : Nat) : Prop := i < 256 ∧ sfind (s.core home).slabs i = none
    let gives (t : State) (x : Word) (q : Bool) : Prop := Served s t o ∧ uget (t.group o.gid) d = x ∧ SameU g (t.group o.gid) (atReg d) ∧ SameV g (t.group o.gid) never ∧
      SameP g (t.group o.gid) never ∧ (t.group o.gid).uq = (qput g p.toNat q).uq ∧ ∀ k, k ≠ home → (t.core k).slabs = (s.core k).slabs
    (¬ Accepted b → g.frame = none → g.queue.length < 8 → Completes (.loadDataReturn core id) s fun t => ∃ f e, LoggedEntry s o f e ∧
      t = loggedFault (readAll s o).1 core o e ∧ f.code = 0x16 ∧ f.cause = 5 ∧ f.fmask = o.active ∧ f.lane = lowestLane o.active ∧ f.addr = BitVec.ofNat 64 (o.ea 0)) ∧
    (Accepted b → ∀ i, free i → (∀ j, j < i → ¬ free j) → Completes (.loadDataReturn core id) s fun t => gives t (BitVec.ofNat 32 i) true ∧
      (∃ e, sfind (t.core home).slabs i = some e ∧ e.tid = g.tid ∧ Describes b e) ∧ ∀ j, j ≠ i → sfind (t.core home).slabs j = sfind (s.core home).slabs j) ∧
    (Accepted b → (∀ i, ¬ free i) → Completes (.loadDataReturn core id) s fun t => gives t 0xFFFFFFFF false ∧ (t.core home).slabs = (s.core home).slabs)

/-- R279, R282, R283: SLABST waits while its entry is at work and, without KEEP, while a queued task names it; it then stores the entry as it stands when idle, through the
L1, in the window or at the home, and without KEEP frees it. That it completes without storing where an earlier SLABST freed the entry is the model's choice (log 68). -/
def slabsStore : Prop :=
  ∀ core id s o entry keep, s.findOp core id = some o → (s.group o.gid).core = core → o.kind = .slabst entry keep →
    let g := s.group o.gid
    let kept (t : State) : Prop := Served s t o ∧ RegsKept g (t.group o.gid) ∧ ∀ m, m ≠ entry → t.slabOf g.tid m = s.slabOf g.tid m
    (∀ e, s.slabOf g.tid entry = some e → e.state ≠ 0 ∨ (keep = false ∧ namesSlab s g.tid entry = true) → exec (.storePerformed core id) s = .next s) ∧
    (opReady s o = true → s.slabOf g.tid entry = none → Completes (.storePerformed core id) s fun t => kept t ∧ t.mem = s.mem ∧ t.teams = s.teams) ∧
    (∀ e h, opReady s o = true → s.slabOf g.tid entry = some e → o.hits = [[h]] → o.ea 0 % 64 = 0 →
      ((s.core (g.tid / 32)).slabs.map (·.1)).Pairwise (· < ·) → Completes (.storePerformed core id) s fun t => kept t ∧
      t.slabOf g.tid entry = (if keep then some e else none) ∧
      ∀ b, Describes b { e with obase := 0, ombase := 0, wmark := 0, moven := 0, state := 0 } →
        (h.attr = 1 ∨ h.attr = 2 → plainBytes s h.pa 64 → storedAt s t h.pa b) ∧
        (h.attr = 3 → Memory.wf (s.team g.tid).scratch → ∀ a, bget (t.team g.tid).scratch a =
          if h.pa ≤ a ∧ a < h.pa + 64 then b.getD (a - h.pa) 0 else bget (s.team g.tid).scratch a) ∧
        (h.attr = 0 → ∀ k, (l1Load t core (s.asid g.tid) (s.vmid g.tid) (s.partOf g.tid) (o.ea 0) 64 k).2 = leNat b))

/-- R275, R276, R279, R284: the writes of KVAPP for one token, from s to u, in the order of the rule: for a page's first token its record; the key and the value row; the bounds, of
the key as stored; the remap word with POS, LIVE, SINK and RECENT, and the mass; RECENT leaves the token RWIN before it, whose page's header is recomputed, as is
the token's own. -/
def Appended (s u : State) (o : LogOp) (e : Slab) (pos : Word) : Prop :=
  let f := e.fmt.toNat
  let rb := kvRow f
  let page := e.len / 64
  let t := e.len % 64
  let pd := (kvPage e e page).1
  let pm := (kvPage e e page).2
  let lanes (sh : Nat) : List FV := (List.range (kvD f)).map fun l => (fmtOf 8).value (o.value l / 2 ^ sh % 2 ^ 32)
  let key := packRow f (lanes 0)
  let record := leBytes 2 0 ++ leBytes 1 f ++ leBytes 1 0 ++ leBytes 2 e.gen.toNat ++ leBytes 2 0 ++ leBytes 4 e.sid.toNat ++ leBytes 4 page ++ List.replicate 432 0
  let bound (x : State) (at_ rnd : Nat) (beyond : FV → FV → Bool) : List Byte :=
    (List.range (kvD f)).flatMap fun d =>
      let new := (fpRound (fmtOf 10) ((rowValues f key).getD d (.nan false)) rnd false false).1
      let old := fieldAt (kvGet x o (pm + at_) (2 * kvD f)) (2 * d) 2
      leBytes 2 (if t ≠ 0 ∧ beyond ((fmtOf 10).value new) ((fmtOf 10).value old) = false then old else new)
  let flagged (words : List Nat) (bit : Nat) : Nat := if words.any fun w => w.testBit 24 && w.testBit bit then 1 else 0
  let header (x : State) (m : Nat) : State :=
    let words := (List.range 64).map fun i => fieldAt (kvGet x o (m + 0x40) 256) (4 * i) 4
    kvPut (kvPut x o m (leBytes 2 (words.countP fun w => w.testBit 24))) o (m + 3) (leBytes 1 (flagged words 25 + 2 * flagged words 26))
  let word := pos.toNat % 2 ^ 24 + 2 ^ 24 + (if pos.getLsbD 24 then 2 ^ 25 else 0) + (if 0 < e.rwin then 2 ^ 26 else 0)
  ∃ s0 s1 s2 s3 s4 s5,
    s0 = (if t = 0 then kvPut s o pm record else s) ∧
    s1 = kvPut (kvPut s0 o (pd + rb * t) key) o (pd + 64 * rb + rb * t) (packRow f (lanes 32)) ∧
    s2 = kvPut s1 o (pm + 0x1C0) (bound s1 0x1C0 2 fun new old => ltFV new old) ∧
    s3 = kvPut s2 o (pm + 0x3C0) (bound s2 0x3C0 3 fun new old => ltFV old new) ∧
    s4 = kvPut (kvPut s3 o (pm + 0x40 + 4 * t) (leBytes 4 word)) o (pm + 0x140 + 2 * t) (leBytes 2 0) ∧
    (e.rwin = 0 ∨ e.len < e.rwin → s5 = s4) ∧
    (0 < e.rwin → e.rwin ≤ e.len →
      let q := e.len - e.rwin
      let m := (kvPage e e (q / 64)).2
      let x := leNat (kvGet s4 o (m + 0x40 + 4 * (q % 64)) 4)
      s5 = header (kvPut s4 o (m + 0x40 + 4 * (q % 64)) (leBytes 4 (if x.testBit 26 then x - 2 ^ 26 else x))) m) ∧
    u = header s5 pm

/-- R284: KVAPP at its entry. At an entry that is full or being evicted it is false and writes nothing; while a page it writes is being moved it waits; else it writes its token and
the entry is one token longer. A write lands in the window's bytes or at the home's. That it is false where a SLABST has freed the entry is the model's choice (log 68). -/
def slabsAppend : Prop :=
  (∀ core id s o p entry pos, s.findOp core id = some o → (s.group o.gid).core = core → o.kind = .kvapp p entry pos →
    let g := s.group o.gid
    let gives (t : State) (q : Bool) : Prop := Served s t o ∧ SameV g (t.group o.gid) never ∧ SameU g (t.group o.gid) never ∧ SameP g (t.group o.gid) never ∧
      (t.group o.gid).uq = (qput g p.toNat q).uq ∧ ∀ m, m ≠ entry → t.slabOf g.tid m = s.slabOf g.tid m
    (∀ e, s.slabOf g.tid entry = some e → pageMoving s g.tid entry (e.len / 64) = true ∨
      (0 < e.rwin ∧ e.rwin ≤ e.len ∧ pageMoving s g.tid entry ((e.len - e.rwin) / 64) = true) → exec (.storePerformed core id) s = .next s) ∧
    (opReady s o = true → (s.slabOf g.tid entry = none ∨ ∃ e, s.slabOf g.tid entry = some e ∧ (e.state = 2 ∨ e.len = 64 * 2 ^ e.log2p)) →
      Completes (.storePerformed core id) s fun t => gives t false ∧ t.mem = s.mem ∧ t.teams = s.teams ∧ t.slabOf g.tid entry = s.slabOf g.tid entry) ∧
    (∀ e hits, opReady s o = true → s.slabOf g.tid entry = some e → e.state ≠ 2 → e.len ≠ 64 * 2 ^ e.log2p → walkOut o (walkAll s o).2 = .done hits →
      Completes (.storePerformed core id) s fun t => gives t true ∧ t.slabOf g.tid entry = some { e with len := e.len + 1 } ∧
        ∃ u, Appended (walkAll s o).1 u o e pos ∧ t.mem = u.mem ∧ t.teams = u.teams)) ∧
  (∀ s o va h (bs : List Byte), kvPlace s o va bs.length = [(va, bs.length, h)] →
    let g := s.group o.gid
    (h.attr ≠ 3 → plainBytes s h.pa bs.length → (s.core g.core).l1Find (s.asid g.tid) (s.vmid g.tid) (va / 128) = none → storedAt s (kvPut s o va bs) h.pa bs) ∧
    (h.attr = 3 → Memory.wf (s.team g.tid).scratch → (s.core g.core).l1Find (s.asid g.tid) (s.vmid g.tid) (va / 128) = none → ∀ a, bget ((kvPut s o va bs).team g.tid).scratch a =
      if h.pa ≤ a ∧ a < h.pa + bs.length then bs.getD (a - h.pa) 0 else bget (s.team g.tid).scratch a)) ∧
  (∀ f xs, packRow f xs = if f % 4 = 0 then xs.flatMap fun x => leBytes 2 (fpRound (fmtOf 10) x 0 false false).1
    else
      let w := if f % 4 = 1 then 7 else 4
      (List.range (xs.length / 16)).flatMap fun j => leBytes (if f % 4 = 1 then 18 else 12) (sxPack ((xs.drop (16 * j)).take 16) w 0))

end Sys2Proof.Machine

section
open Sys2Proof Sys2Proof.Machine

/-- Slabs: loaded, stored, appended to, grown and evicted. That an instruction waits for a SLABST of its entry that came earlier, the order at an entry, and the ADDR of a growth's
ALIGN through newRunCheck are the model's choices (log 40). -/
def Obligations.SlabGrowthAndEviction : Prop := slabPosts ∧ growthsMove ∧ evictionsRun ∧ slabsLoad ∧ slabsStore ∧ slabsAppend

end

namespace Sys2Proof.Machine

/-! ## Placement, migration and handover (11) -/

/-- Only the hub differs, with what is said of it. -/
structure HubOnly (s t : State) : Prop where
  mem : t.mem = s.mem
  groups : t.groups = s.groups
  teams : t.teams = s.teams
  cores : t.cores = s.cores
  dies : t.dies = s.dies
  homes : t.homes = s.homes
  referee : t.referee = s.referee

/-- R313, R314, R317, R318: the eight frame operations of a partition's control page: their statuses, and what each leaves in the frame's record and in the
count of pinned frames. A frame that is not the partition's own gives status 7. R388: a LOCAL frame is assigned only within the quota of its list, else status 3 (the
model's choice of status: log 55). R387: as part 12, ASSIGN is the referee's, which gives a frame to a partition's local list
up to its quota (that this input stands for it: log 67). -/
def frameOperations : Prop :=
  (∀ frame operand s,
    let f := s.recordFrame frame
    let r := s.frameRec f
    let part := operand % 16
    let list := homeOf (frame * 4096)
    let ok := list < 6 ∧ part < 12 ∧ s.owned frame = true ∧ (s.partRec part).valid = true ∧ localCount s part list < (s.partRec part).quota list ∧ r.alloc = false ∧
      r.engaged = false
    (¬ ok → exec (.assign 12 frame operand) s = .next s) ∧
    (ok → Completes (.assign 12 frame operand) s fun t => HubOnly s t ∧
      t.frameRec f = { r with alloc := true, part := BitVec.ofNat 4 part, acc := 0, share := 0, local_ := true } ∧ (∀ g, g ≠ f → t.frameRec g = s.frameRec g) ∧
      (t.regs part).lists = lset (s.regs part).lists list ((s.regs part).lists.getD list [] ++ [if (s.partRec part).vmid = 0 then frame else operand / 16]))) ∧
  ∀ part frame operand s,
    let f := s.recordFrame frame
    let r := s.frameRec f
    let used := (s.regs part).pinUsed
    let mine := homeOf (frame * 4096) < 6 ∧ s.owned frame = true ∧ r.part.toNat = part
    let gives (i : Instr) (st : Nat) (x : FrameRec) (n : Nat) : Prop := Completes i s fun t => HubOnly s t ∧ (t.ctl part).fops = BitVec.ofNat 4 st ∧
      (t.ctl part).fopa = BitVec.ofNat 64 (frame * 4096) ∧ t.frameRec f = x ∧ (∀ g, g ≠ f → t.frameRec g = s.frameRec g) ∧ (t.regs part).pinUsed = n
    (¬ mine → ∀ i ∈ [Instr.shareInc part frame, .shareDec part frame, .pinInc part frame, .pinDec part frame, .pinClr part frame, .accClr part frame,
      .free part frame], gives i 7 r used) ∧
    (¬ mine → part ≠ 12 → gives (.assign part frame operand) 7 r used) ∧
    (mine →
      (r.share = 0x7FFF → gives (.shareInc part frame) 1 r used) ∧ (r.share ≠ 0x7FFF → gives (.shareInc part frame) 0 { r with share := r.share + 1 } used) ∧
      (r.share = 0 → gives (.shareDec part frame) 2 r used) ∧ (r.share ≠ 0 → gives (.shareDec part frame) 0 { r with share := r.share - 1 } used) ∧
      (r.pinc = 0xFFF → gives (.pinInc part frame) 1 r used) ∧ (r.pinc ≠ 0xFFF → r.claim = true → gives (.pinInc part frame) 4 r used) ∧
      (r.claim = false → r.pinc = 0 → (s.partRec part).pinq ≤ used → gives (.pinInc part frame) 3 r used) ∧
      (r.claim = false → r.pinc = 0 → used < (s.partRec part).pinq → gives (.pinInc part frame) 0 { r with pinc := 1 } (used + 1)) ∧
      (r.claim = false → r.pinc ≠ 0 → r.pinc ≠ 0xFFF → gives (.pinInc part frame) 0 { r with pinc := r.pinc + 1 } used) ∧
      (r.pinc = 0 → gives (.pinDec part frame) 2 r used) ∧ (r.pinc = 1 → gives (.pinDec part frame) 0 { r with pinc := 0 } (used - 1)) ∧
      (r.pinc ≠ 0 → r.pinc ≠ 1 → gives (.pinDec part frame) 0 { r with pinc := r.pinc - 1 } used) ∧
      gives (.pinClr part frame) 0 { r with pinc := 0 } (if r.pinc = 0 then used else used - 1) ∧ gives (.accClr part frame) 0 { r with acc := 0 } used ∧
      (part ≠ 12 → r.alloc = true ∨ r.engaged = true → gives (.assign part frame operand) 5 r used) ∧
      (let full := r.local_ = true ∧ (s.partRec operand).quota (homeOf (frame * 4096)) ≤ localCount s operand (homeOf (frame * 4096))
       part ≠ 12 → r.alloc = false → r.engaged = false → (full → gives (.assign part frame operand) 3 r used) ∧
        (¬ full → gives (.assign part frame operand) 0 { r with alloc := true, part := BitVec.ofNat 4 operand, acc := 0, share := 0 } used)) ∧
      (r.pinc ≠ 0 ∨ r.share ≠ 0 ∨ r.engaged = true → gives (.free part frame) 5 r used) ∧
      (r.pinc = 0 → r.share = 0 → r.engaged = false → gives (.free part frame) 0 { r with alloc := false } used))

/-- An instruction that asks the homes or the hub and makes no access of its own has issued: its operation stands last in its core's log with nothing left to translate,
its slices count it until the replies have come, its gang goes on, and nothing else changes. -/
def RequestSays (i : Instr) (s : State) (c : Ctx) (k : MemKind) (addr : Nat → DWord) (data : Nat → BitVec 128) : Prop :=
  Completes i s fun t => ∃ o, Captures s c (encode i) k (runSet (s.group c.gid) c) addr data { o with walked := false } ∧ o.walked = true ∧ MemIssue s t c o false

/-- R319: PHINT never traps; it counts as a store until its homes have replied, writes HINT into the record of each page's frame, and skips a page of the window and one
whose translation faults. -/
def hints : Prop :=
  (∀ (h : BitVec 2) (a imm : BitVec 8) s c, issuer s = some c → issues (encode (.phint h a imm)) s = true →
    RequestSays (.phint h a imm) s c (.phint h imm.toNat) (fun _ => readU64 s (s.group c.gid) c a.toNat) fun _ => 0) ∧
  (∀ core id s o h n, s.findOp core id = some o → (s.group o.gid).core = core → o.kind = .phint h n →
    (hintPages s o h n = none → exec (.storePerformed core id) s = .next s) ∧
    (∀ u, opReady s o = true → hintPages s o h n = some u → Completes (.storePerformed core id) s fun t => Served s t o ∧ RegsKept (s.group o.gid) (t.group o.gid) ∧
      t.teams = s.teams ∧ t.hub = u.hub)) ∧
  (∀ s g priv hint va, ((s.team g.tid).offset (BitVec.ofNat 64 va)).isSome = true → hintPage s g priv hint va = some s) ∧
  (∀ s g priv hint va s1 code cause, (s.team g.tid).offset (BitVec.ofNat 64 va) = none → translate s (s.xctx g.tid g.core priv) va 0 = (s1, .trap code cause) →
    hintPage s g priv hint va = some s) ∧
  (∀ s g priv hint va s1 h, (s.team g.tid).offset (BitVec.ofNat 64 va) = none → translate s (s.xctx g.tid g.core priv) va 0 = (s1, .ok h) →
    homeError s1 (s.partOf g.tid) h.pa false = none → homeOf h.pa < 6 → ∃ u, hintPage s g priv hint va = some u ∧ u.mem = s1.mem ∧ u.groups = s.groups ∧
      u.frameRec (s1.recordFrame (h.pa / 4096)) = { s1.frameRec (s1.recordFrame (h.pa / 4096)) with hint := hint } ∧
      ∀ f, f ≠ s1.recordFrame (h.pa / 4096) → u.frameRec f = s1.frameRec f)

/-- R313, R317, R318, R320: PIN raises the count of its page's frame by one and sets PIN in the leaf PTE, unless the page is IO, the count is full, the frame is claimed or a
first pin finds the partition's quota used up; UNPIN lowers the count and, with the last pin, clears PIN and releases the quota. PCNT gives SHARED, PINNED, the tier and
ACC of its page's frame, 0 for a page of the window, a frame this package does not own or another partition's, and with CLR clears ACC. Under two stages the
leaf is the first stage's (the model's choice: log 68). -/
def pinsAndCounts : Prop :=
  (∀ core id s o d h, s.findOp core id = some o → (s.group o.gid).core = core → opReady s o = true → o.hits = [[h]] →
    let g := s.group o.gid
    let part := s.partOf g.tid
    let f := s.recordFrame (h.pa / 4096)
    let r := s.frameRec f
    let used := (s.regs part).pinUsed
    let gives (q : Bool) (t : State) : Prop := Served s t o ∧ t.teams = s.teams ∧ SameV g (t.group o.gid) never ∧ SameU g (t.group o.gid) never ∧
      SameP g (t.group o.gid) never ∧ (t.group o.gid).uq = (qput g d.toNat q).uq
    let counted (t : State) (n : BitVec 12) : Prop := (t.frameRec f).pinc = n ∧ ∀ k, k ≠ f → (t.frameRec k).pinc = (s.frameRec k).pinc
    (o.kind = .pin d →
      let refused := h.attr = 2 ∨ r.pinc = 0xFFF ∨ r.claim = true ∨ (r.pinc = 0 ∧ (s.partRec part).pinq ≤ used)
      (refused → Completes (.atomicReply core id) s fun t => gives false t ∧ t.mem = s.mem ∧ t.hub = s.hub) ∧
      (¬ refused → Completes (.atomicReply core id) s fun t => gives true t ∧ counted t (r.pinc + 1) ∧ (t.regs part).pinUsed = used + (if r.pinc = 0 then 1 else 0) ∧
        (plainBytes s h.pteAddr 8 → homeError (pinInc s part (h.pa / 4096)).1 part h.pteAddr true = none →
          storedAt s t h.pteAddr (leBytes 8 (s.pread h.pteAddr 8 ||| 2 ^ 56))))) ∧
    (o.kind = .unpin d →
      (r.pinc = 0 → Completes (.atomicReply core id) s fun t => gives false t ∧ t.mem = s.mem ∧ t.hub = s.hub) ∧
      (r.pinc ≠ 0 → Completes (.atomicReply core id) s fun t => gives true t ∧ counted t (r.pinc - 1) ∧ (t.regs part).pinUsed = used - (if r.pinc = 1 then 1 else 0) ∧
        (r.pinc ≠ 1 → t.mem = s.mem) ∧
        (r.pinc = 1 → plainBytes s h.pteAddr 8 → homeError (pinDec s part (h.pa / 4096)).1 part h.pteAddr true = none →
          let x := s.pread h.pteAddr 8
          storedAt s t h.pteAddr (leBytes 8 (if x.testBit 56 then x - 2 ^ 56 else x)))))) ∧
  (∀ core id s o d clr h l, s.findOp core id = some o → (s.group o.gid).core = core → opReady s o = true → o.kind = .pcnt d clr → o.hits = [[h]] → lanesOf o.active = [l] →
    let g := s.group o.gid
    let f := s.recordFrame (h.pa / 4096)
    let r := s.frameRec f
    let reported := h.attr ≠ 3 ∧ homeOf h.pa < 6 ∧ s.owned (h.pa / 4096) = true ∧ r.part.toNat = s.partOf g.tid
    let x := if reported then (if r.share ≠ 0 then 2 ^ 11 else 0) + (if r.pinc ≠ 0 then 2 ^ 10 else 0) + (tierOf (f * 4096) + 1) * 2 ^ 8 + r.acc.toNat else 0
    Completes (.loadDataReturn core id) s fun t => Served s t o ∧ t.mem = s.mem ∧ t.teams = s.teams ∧ SameU g (t.group o.gid) never ∧ SameP g (t.group o.gid) never ∧
      (∀ n k, k < 256 → vget (t.group o.gid) n k = if n = d ∧ k = l then BitVec.ofNat 32 x else vget g n k) ∧ (t.group o.gid).uq = g.uq ∧
      (∀ k, t.frameRec k = if k = f ∧ reported ∧ clr = true then { r with acc := 0 } else s.frameRec k))

/-- R322, R323, R327, R330: MIGR sends its two operands to the hub and counts as an atomic until the hub replies; the hub's reply is the status that each operation
gives, in the order of its checks. -/
def migrations : Prop :=
  (∀ (d a b : BitVec 8) s c, ∀ i ∈ [Instr.migrMove d a b, .migrRetire d a b, .migrClaim d a b],
    issuer s = some c → issues (encode i) s = true → uniformSplit (s.group c.gid) c = false →
    RequestSays i s c (.migr d.toNat) (fun _ => readU64 s (s.group c.gid) c a.toNat) fun _ => (readU64 s (s.group c.gid) c b.toNat).setWidth 128) ∧
  ∀ core id s op d, s.findOp core id = some op → (s.group op.gid).core = core → opReady s op = true → op.kind = .migr d →
    let g := s.group op.gid
    let x := op.ea 0
    let n := op.value 0
    let o := x / 4096 * 4096
    let big := x.testBit 0
    let size := if big then 0x200000 else 0x1000
    let gives (v : Nat) (p : State → Prop) : Prop := Completes (.atomicReply core id) s fun t => Served s t op ∧ t.mem = s.mem ∧ t.teams = s.teams ∧ t.dies = s.dies ∧
      t.homes = s.homes ∧ uget (t.group op.gid) d = BitVec.ofNat 32 v ∧ SameU g (t.group op.gid) (atReg d) ∧ SameV g (t.group op.gid) never ∧ SameP g (t.group op.gid) never ∧ p t
    let same (t : State) : Prop := t.hub = s.hub
    let reserved := 2 ^ 57 ≤ x ∨ x / 8 % 2 ^ 9 ≠ 0
    (x / 2 % 4 = 3 → gives (4 * 2 ^ 28) same) ∧
    (x / 2 % 4 = 0 →
      let old := runFrames o big; let new := runFrames n big
      let bad := reserved ∨ n % size ≠ 0 ∨ o % size ≠ 0 ∨ runInMemory o big = false ∨ runInMemory n big = false ∨ (o < n + size ∧ n < o + size)
      let unowned := ∃ f ∈ old ++ new, s.owned f = false
      let engaged := ∃ f ∈ old ++ new, (s.frameRec f).engaged = true
      let pinned := ∃ f ∈ old, (s.frameRec f).pinc ≠ 0
      let taken := ∃ f ∈ new, (s.frameRec f).alloc = true
      let full := freeMoveSlot s = none ∨ 64 ≤ (s.hub.moves.filter fun m => homeOf m.o == homeOf o).length
      (bad → gives (4 * 2 ^ 28) same) ∧ (¬ bad → unowned → gives (6 * 2 ^ 28) same) ∧ (¬ bad → ¬ unowned → engaged → gives (2 * 2 ^ 28) same) ∧
      (¬ bad → ¬ unowned → ¬ engaged → pinned → gives (3 * 2 ^ 28) same) ∧ (¬ bad → ¬ unowned → ¬ engaged → ¬ pinned → taken → gives (5 * 2 ^ 28) same) ∧
      (¬ bad → ¬ unowned → ¬ engaged → ¬ pinned → ¬ taken → full → gives (2 ^ 28) same) ∧
      (¬ bad → ¬ unowned → ¬ engaged → ¬ pinned → ¬ taken → ¬ full → ∃ k, freeMoveSlot s = some k ∧ gives k fun t =>
        t.hub.moves = s.hub.moves ++ [{ slot := some k, o := o, n := n, big := big, w := 0, stalled := [], subsLost := none }] ∧
        (∀ f ∈ old, t.frameRec f = { s.frameRec f with moving := true }) ∧
        (∀ j, j < old.length → let r := s.frameRec (o / 4096 + j)
          t.frameRec (n / 4096 + j) = { s.frameRec (n / 4096 + j) with owner := r.owner, share := r.share, acc := r.acc, part := r.part, hint := r.hint, alloc := true, moving := true }) ∧
        ∀ f, f ∉ old → f ∉ new → t.frameRec f = s.frameRec f)) ∧
    (x / 2 % 4 = 1 →
      let bad := reserved ∨ n ≠ 0 ∨ (big = true ∧ (o % 0x200000 ≠ 0 ∨ ∃ j y, j < 16 ∧ s.hub.claims.getD j none = some y ∧ y.frame = o / 4096))
      (bad → gives (4 * 2 ^ 28) same) ∧
      (∀ k y, ¬ bad → k < 16 → s.hub.claims.getD k none = some y → y.frame = o / 4096 → (∀ j z, j < k → s.hub.claims.getD j none = some z → z.frame ≠ o / 4096) →
        (y.failed = none → gives (2 * 2 ^ 28) same) ∧
        (y.failed ≠ none → (∀ m ∈ s.hub.moves, ¬ (m.o = o ∧ m.big = big)) → gives 0 fun t => t.hub = { s.hub with claims := lset s.hub.claims k none })) ∧
      (¬ bad → (∀ j y, j < 16 → s.hub.claims.getD j none = some y → y.frame ≠ o / 4096) → (∀ m ∈ s.hub.moves, ¬ (m.o = o ∧ m.big = big)) → gives (7 * 2 ^ 28) same) ∧
      (¬ bad → (∀ j y, j < 16 → s.hub.claims.getD j none = some y → y.frame ≠ o / 4096) → ∀ m, s.hub.moves.find? (fun m => m.o == o && m.big == big) = some m →
        (m.slot.isSome = true → gives (2 * 2 ^ 28) same) ∧
        (m.slot = none → gives 0 fun t => (∀ y, y ∈ t.hub.moves ↔ y ∈ s.hub.moves ∧ ¬ (y.o = o ∧ y.big = big)) ∧
          (∀ f ∈ runFrames o big, t.frameRec f = { s.frameRec f with fwd := false, alloc := false }) ∧ ∀ f, f ∉ runFrames o big → t.frameRec f = s.frameRec f))) ∧
    (x / 2 % 4 = 2 →
      let bad := reserved ∨ big = true ∨ tierOf o ≠ 2 ∨ inRecordArea o = true ∨ n % 8 ≠ 0 ∨ 6 ≤ homeOf n
      (bad → gives (4 * 2 ^ 28) same) ∧ (¬ bad → s.owned (o / 4096) = true → gives (8 * 2 ^ 28) same) ∧
      (¬ bad → s.owned (o / 4096) = false → freePlace s.hub.claims = none → gives (2 ^ 28) same) ∧
      (∀ k, ¬ bad → s.owned (o / 4096) = false → freePlace s.hub.claims = some k → gives k fun t => ∃ y, t.hub.claims = lset s.hub.claims k (some y) ∧
        y.frame = o / 4096 ∧ y.pte = n ∧ y.part = s.partOf g.tid ∧ y.failed = none ∧ y.granted = false))

/-- R324 to R326: a move copies its lines in order, each recalled from every cache; with the last one its source is forwarded and its slot is free. A write that found the
line's sixteen places taken is tried again. -/
def movesRun : Prop :=
  (∀ slot s m, s.findMove slot = some m → m.stalled = [] → Memory.wf s.mem →
    let src := m.o + 128 * m.w
    let dst := m.n + 128 * m.w
    (∀ i, i < 128 → s.route (dst + i) = dst + i ∧ regionOf (dst + i) ≠ .upstream ∧ inRecordArea (dst + i) = false) →
    (∀ i, i < 16 → ∀ e ∈ (s.home (homeOf (src + 8 * i))).subs, e.2.word ≠ src + 8 * i) → (∀ e ∈ (s.home (homeOf m.o)).subs, e.2.word / 128 ≠ src / 128) →
    Completes (.migrateLine slot) s fun t => t.groups = s.groups ∧ t.teams = s.teams ∧ t.cores = s.cores ∧ (∀ k, t.die k = { s.die k with l2 := (t.die k).l2 }) ∧
      t.referee = s.referee ∧
      (∀ p, bget t.mem p = if dst ≤ p ∧ p < dst + 128 then bget s.mem (src + (p - dst)) else bget s.mem p) ∧
      (m.w + 1 < m.size / 128 → t.findMove slot = some { m with w := m.w + 1, stalled := [] } ∧ t.hub.frames = s.hub.frames) ∧
      (m.size / 128 ≤ m.w + 1 → t.findMove slot = none ∧ (∀ f ∈ runFrames m.o m.big, (t.frameRec f).moving = false ∧ (t.frameRec f).fwd = true) ∧
        ∀ f ∈ runFrames m.n m.big, (t.frameRec f).moving = false)) ∧
  (∀ n s, retryReady s n = false → exec (.stalledWriteRetry n) s = .next s) ∧
  (∀ n s x, retryReady s n = true → s.hub.retries[n]? = some x →
    (∀ pa bs, x.cells = cellsOf pa bs → plainBytes s pa bs.length → Completes (.stalledWriteRetry n) s fun t => storedAt s t pa bs ∧ t.hub.retries = ldrop s.hub.retries n) ∧
    (∀ m, x.cells.findSome? (fun e => s.stallMove e.1) = some m → Completes (.stalledWriteRetry n) s fun t => HubOnly s t ∧ t.hub.retries = ldrop s.hub.retries n ∧
      ∃ y ∈ t.hub.moves, y.o = m.o ∧ y.slot = m.slot ∧ y.stalled = m.stalled ++ [x]))

/-- What a shootdown leaves (R310): no translation and no line that it matches, anywhere; the lines' dirty bytes are at the homes. -/
structure ShotDown (s t : State) (q : Shoot) : Prop where
  tlb : ∀ d, ∀ e ∈ (t.die d).tlb, q.tlb e = false
  walk : ∀ d, ∀ e ∈ (t.die d).walkCache, q.walk e = false
  lines : ∀ k, ∀ x ∈ (t.core k).l1, q.line x = false
  wf : Memory.wf s.mem → Memory.wf t.mem
  teams : t.teams = s.teams
  referee : t.referee = s.referee

/-- R310, R329 to R332: a shootdown of the CPU die; a claim of another package, its release and its refusal for a frame that stays pinned; the ends of a claim of
this package's own: refused or timed out while it is not granted; granted, with MIG cleared once that atomic can be made at its home. -/
def shootdownsAndClaims : Prop :=
  (∀ gstage asid vmid va s,
    let q : Shoot := { gstage := gstage, asid := asid, vmid := vmid, va := va }
    (shootReady s q = false → exec (.shootdown gstage asid vmid va) s = .next { s with hub := { s.hub with shoots := s.hub.shoots ++ [q] } } ∧
      ∀ s1, s1.hub.shoots = s.hub.shoots ++ [q] → shootReady s1 q = true → ∃ a ∈ internalEvents s1, ∃ t, a s1 = .next t ∧ ShotDown s1 t q) ∧
    (shootReady s q = true → Completes (.shootdown gstage asid vmid va) s fun t => ShotDown s t q ∧ t.groups = s.groups)) ∧
  (∀ frame claimant part s,
    let r := s.frameRec frame
    let ok := tierOf (frame * 4096) = 2 ∧ s.owned frame = true ∧ r.engaged = false ∧ claimant < 16 ∧ BitVec.ofNat 4 claimant ≠ Config.package
    (¬ ok → exec (.claimRequest frame claimant part) s = .next s) ∧
    (ok → Completes (.claimRequest frame claimant part) s fun t => HubOnly s t ∧ t.frameRec frame = { r with claim := true, claimant := BitVec.ofNat 4 claimant } ∧
      (∀ f, f ≠ frame → t.frameRec f = s.frameRec f) ∧ t.hub.ownClaims = s.hub.ownClaims ++ [(frame, part)])) ∧
  (∀ frame s, releaseReady s frame = true → Completes (.handoverRelease frame) s fun t =>
    (s.frameRec frame).pinc = 0 ∧ (t.frameRec frame).owner = (s.frameRec frame).claimant.setWidth 6 ∧ (t.frameRec frame).claim = false ∧ (t.frameRec frame).handoff = false ∧
    (t.frameRec frame).acc = 0 ∧ (∀ k, ∀ x ∈ (t.core k).l1, x.pline / 32 ≠ frame) ∧ (Memory.wf s.mem → Memory.wf t.mem) ∧ (∀ e ∈ t.hub.ownClaims, e.1 ≠ frame) ∧
    ((∀ e ∈ (s.home 5).subs, e.2.word / 4096 ≠ frame) → t.groups = s.groups ∧ t.teams = s.teams ∧
      t.referee = { s.referee with notices := s.referee.notices ++ [(0, frame)] })) ∧
  (∀ frame s, (s.frameRec frame).claim = true → (s.frameRec frame).pinc ≠ 0 → s.owned frame = true → tierOf (frame * 4096) = 2 →
    Completes (.holimExpiry frame) s fun t => HubOnly s t ∧ t.frameRec frame = { s.frameRec frame with claim := false, claimant := 0 } ∧ (∀ e ∈ t.hub.ownClaims, e.1 ≠ frame)) ∧
  (∀ entry owner s c, s.hub.claims.getD entry none = some c → c.failed = none →
    (c.granted = true → exec (.claimTimeout entry) s = .next s ∧ exec (.claimRefusal entry owner) s = .next s) ∧
    (c.granted = false → Completes (.claimTimeout entry) s fun t => HubOnly s t ∧ t.hub.claims = lset s.hub.claims entry (some { c with failed := some 3 })) ∧
    (c.granted = false → Completes (.claimRefusal entry owner) s fun t => HubOnly s t ∧ t.hub.claims = lset s.hub.claims entry (some { c with failed := some 1, owner := owner % 16 })) ∧
    let mine (t : State) : Prop :=
      t.frameRec c.frame = { s.frameRec c.frame with owner := Config.package.setWidth 6, part := BitVec.ofNat 4 c.part, acc := 0, handoff := false, claim := false, claimant := 0 }
    (s.lineHeld c.pte = true → Completes (.claimGrant entry) s fun t => t.hub.claims = lset s.hub.claims entry (some { c with granted := true }) ∧ t.mem = s.mem ∧
      t.groups = s.groups ∧ t.teams = s.teams ∧ (c.granted = false → mine t)) ∧
    (s.lineHeld c.pte = false → plainBytes s c.pte 8 → c.pte / 4096 ≠ c.frame → Completes (.claimGrant entry) s fun t =>
      storedAt s t c.pte (leBytes 8 (if (s.pread c.pte 8).testBit 58 then s.pread c.pte 8 - 2 ^ 58 else s.pread c.pte 8)) ∧ t.hub.claims = lset s.hub.claims entry none ∧
      (c.granted = false → mine t) ∧ t.groups = s.groups ∧ t.teams = s.teams ∧ ∀ k, t.die k = { s.die k with l2 := (t.die k).l2 }))

end Sys2Proof.Machine

section
open Sys2Proof Sys2Proof.Machine

/-- Frame operations, pins, counts and placement hints. -/
def Obligations.FramesAndHints : Prop := frameOperations ∧ hints ∧ pinsAndCounts

/-- Migration, shootdown and handover. (That a shootdown acts on all dies in one step is the model's: log 42; that a second claim of an engaged frame is not taken: log 43.) -/
def Obligations.MigrationAndHandover : Prop := migrations ∧ movesRun ∧ shootdownsAndClaims

end

namespace Sys2Proof.Machine

/-! ## The privileged subset (12) -/

/-- What a write of v leaves in the open frame's register n (R350, R351). -/
def frameAfter (n : Nat) (v : Word) (f : Frame) : Frame :=
  if 0x010 ≤ n ∧ n < 0x020 then { f with tfu := lset f.tfu (n - 0x010) v }
  else if n = 0x020 then { f with tfq := v.setWidth 3 }
  else if n = 0x021 then (if v.toNat < 256 ∧ f.fmask.getLsbD v.toNat = true then { f with tfcur := v.toNat } else f)
  else if n = 0x022 then { f with tfpc := pairOf v (hiHalf f.tfpc) &&& ~~~3#64 }
  else if n = 0x023 then { f with tfpc := pairOf (loHalf f.tfpc) v &&& ~~~3#64 }
  else f

/-- What a write of v leaves in a partition's register n that only holds what is written (R351). -/
def regsAfter (n : Nat) (v : Word) (r : PartRegs) : PartRegs :=
  if n = 0x048 then { r with fopa := pairOf v (hiHalf r.fopa) } else if n = 0x049 then { r with fopa := pairOf (loHalf r.fopa) v }
  else if n = 0x080 then { r with ring := pairOf v (hiHalf r.ring) } else if n = 0x081 then { r with ring := pairOf (loHalf r.ring) v }
  else if n = 0x082 then { r with ringSz := if 4 ≤ v.toNat ∧ v.toNat ≤ 12 then v.toNat else 4 } else if n = 0x083 then { r with ringHead := v.setWidth 16 } else r

/-- R346, R350, R351: CRD gives a control register; CWR, and the events TFCUR_WRITE and CONTROL_REG_WRITE, write one. GHANDLE keeps no reserved bit of a handle. R313: a
write to FOPC of a control page makes the frame operation that its code names. -/
def controlRegisters : Prop :=
  (∀ (d : BitVec 8) (imm : BitVec 16), Uni32Says (.crd d imm) d.toNat fun s g _ => controlReg s g imm.toNat) ∧
  (∀ s g (f : Frame), g.frame = some f →
    (∀ n, n < 8 → controlReg s g n = f.record.words.getD n 0) ∧ (∀ n, n < 8 → controlReg s g (8 + n) = (f.fmask >>> (32 * n)).setWidth 32) ∧
    (∀ n, n < 16 → controlReg s g (0x10 + n) = f.tfu.getD n 0) ∧ controlReg s g 0x20 = f.tfq.setWidth 32 ∧ controlReg s g 0x21 = BitVec.ofNat 32 f.tfcur ∧
    pairOf (controlReg s g 0x22) (controlReg s g 0x23) = f.tfpc) ∧
  (∀ s g, g.frame = none → ∀ n, n < 0x24 → controlReg s g n = 0) ∧
  (∀ s g, let r := s.regs (s.partOf g.tid)
    pairOf (controlReg s g 0x48) (controlReg s g 0x49) = r.fopa ∧ controlReg s g 0x4B = r.fops.setWidth 32 ∧ pairOf (controlReg s g 0x80) (controlReg s g 0x81) = r.ring ∧
    controlReg s g 0x83 = r.ringHead.setWidth 32 ∧ controlReg s g 0x84 = r.ringTail.setWidth 32) ∧
  (∀ (d : BitVec 8) (imm : BitVec 16) s c, issuer s = some c → issues (encode (.cwr d imm)) s = true →
    let g := s.group c.gid
    let n := imm.toNat
    let v := readU s g c d.toNat
    let part := s.partOf g.tid
    (n < 0x40 → Completes (.cwr d imm) s fun t => GroupKept { g with frame := (t.group c.gid).frame } (t.group c.gid) ∧ (t.group c.gid).frame = g.frame.map (frameAfter n v) ∧
      RegsKept g (t.group c.gid) ∧ BeyondKept s t c.gid ∧ ∀ i, i < g.slices.length → c.gang.getLsbD i = true → SliceLike (onward i (g.slice i)) ((t.group c.gid).slice i)) ∧
    (n ∈ [0x48, 0x49, 0x80, 0x81, 0x82, 0x83] → Completes (.cwr d imm) s fun t => GangFlow s t c onward ∧ RegsKept g (t.group c.gid) ∧ t.mem = s.mem ∧ t.teams = s.teams ∧
      t.dies = s.dies ∧ t.homes = s.homes ∧ t.referee = s.referee ∧ t.regs part = regsAfter n v (s.regs part) ∧ ∀ p, p ≠ part → t.regs p = s.regs p) ∧
    (n = 0x4A → Completes (.cwr d imm) s fun t =>
      let r := frameOp s part (v.toNat % 16) (v.toNat / 16 % 16) ((s.regs part).fopa.toNat / 4096)
      GangFlow s t c onward ∧ RegsKept g (t.group c.gid) ∧ t.mem = s.mem ∧ t.teams = s.teams ∧ t.dies = s.dies ∧ t.homes = s.homes ∧ t.hub.frames = r.1.hub.frames ∧
      (t.regs part).fops = BitVec.ofNat 4 r.2) ∧
    (n = 0x40 → ∀ u, exec (.leaseClr (dieOf g.core) part v) s = .next u → Completes (.cwr d imm) s fun t => GangFlow s t c onward ∧ RegsKept g (t.group c.gid) ∧
      t.mem = s.mem ∧ t.hub = u.hub ∧ t.dies = u.dies)) ∧
  (∀ gid v s, Completes (.tfcurWrite gid v) s fun t => t.hub = s.hub ∧ t.mem = s.mem ∧ t.teams = s.teams ∧ t.cores = s.cores ∧ t.dies = s.dies ∧ t.homes = s.homes ∧
    (∀ j, j ≠ gid → t.group j = s.group j) ∧ t.group gid = { s.group gid with frame := (s.group gid).frame.map (frameAfter 0x21 v) }) ∧
  (∀ gid n (v : DWord) s, n ∈ [0x48, 0x49, 0x80, 0x81, 0x82, 0x83] → Completes (.controlRegWrite 0 gid n v) s fun t =>
    HubOnly s t ∧ t.regs (s.partOf (s.group gid).tid) = regsAfter n (v.setWidth 32) (s.regs (s.partOf (s.group gid).tid))) ∧
  (∀ gid n (v : DWord) s, n < 0x40 → n ≠ 0x21 → Completes (.controlRegWrite 0 gid n v) s fun t => t.hub = s.hub ∧ t.mem = s.mem ∧ t.teams = s.teams ∧ t.cores = s.cores ∧
    t.dies = s.dies ∧ t.homes = s.homes ∧ (∀ j, j ≠ gid → t.group j = s.group j) ∧
    t.group gid = { s.group gid with frame := (s.group gid).frame.map (frameAfter n (v.setWidth 32)) }) ∧
  (∀ part (v : DWord) s, part < 12 → Completes (.controlRegWrite 1 part 0x008 v) s fun t => HubOnly s t ∧
    let r := frameOp s part (v.toNat % 16) (v.toNat / 16 % 16) ((s.ctl part).fopa.toNat / 4096)
    t.hub.frames = r.1.hub.frames ∧ (t.ctl part).fops = BitVec.ofNat 4 r.2) ∧
  (∀ vf (v : DWord) s, vf < 140 → Completes (.controlRegWrite 2 vf 0x090 v) s fun t => HubOnly s t ∧
    t.page vf = { s.page vf with rspSz := if 4 ≤ (v.setWidth 32).toNat ∧ (v.setWidth 32).toNat ≤ 12 then (v.setWidth 32).toNat else 4 }) ∧
  (∀ part off (v : DWord) s, part < 12 → off ≠ 0x008 → Completes (.controlRegWrite 1 part off v) s fun t => HubOnly s t ∧ (∀ p, p ≠ part → t.ctl p = s.ctl p) ∧
    let x := s.ctl part
    t.ctl part = (if off = 0x000 then { x with fopa := v } else if off = 0x020 then { x with ghandle := v &&& 0x0000FFFF0007FFFF } else if off = 0x040 then { x with rring := v }
      else if off = 0x048 then { x with rrSz := if 4 ≤ (v.setWidth 32).toNat ∧ (v.setWidth 32).toNat ≤ 12 then (v.setWidth 32).toNat else 4 }
      else if off = 0x04C then { x with rrHead := v.setWidth 16 } else if off = 0x058 then { x with rrMsia := v } else if off = 0x060 then { x with rrMsid := v.setWidth 32 } else x))

/-- R344, R348: SOLO turns the handler slices that run a lane into one gang of a single lane; UNSOLO gives every handler slice its lanes of FMASK that live. -/
def soloMode : Prop :=
  (∀ s c, issuer s = some c → issues (encode .solo) s = true →
    let g := s.group c.gid
    let head := g.slice (lowestSlice c.gang)
    Completes .solo s fun t => BeyondKept s t c.gid ∧ GroupKept { g with solo := true } (t.group c.gid) ∧ RegsKept g (t.group c.gid) ∧ ∀ i, i < g.slices.length →
      let x := g.slice i; let y := (t.group c.gid).slice i
      if x.handler.isSome = true ∧ x.live ≠ 0 ∧ x.run ≠ 0 then SliceLike { x with pc := head.pc + 4 } y ∧ y.gang = head.gang else SliceLike x y ∧ y.gang = x.gang) ∧
  (∀ s c f, issuer s = some c → issues (encode .unsolo) s = true → (s.group c.gid).frame = some f →
    let g := s.group c.gid
    let head := g.slice (lowestSlice c.gang)
    Completes .unsolo s fun t => BeyondKept s t c.gid ∧ GroupKept { g with solo := false } (t.group c.gid) ∧ RegsKept g (t.group c.gid) ∧ ∀ i, i < g.slices.length →
      let x := g.slice i; let y := (t.group c.gid).slice i
      let m := (f.fmask >>> (4 * i)).setWidth 4 &&& x.live
      if x.handler.isSome = true then (if m = 0 then SliceLike { x with run := 0 } y else SliceLike { x with run := m, pc := head.pc + 4 } y ∧ y.gang = head.gang) else SliceLike x y)

/-- What closing a frame does (R349), for slices that wait for no SREL: handler slices resume where the frame says, in the state that delivery saved; s112 to
s127 and q0 to q2 come back; the logged instruction is reissued, in an entry of the operand log (R339) or, with the log full, once it has one, or with skip is discarded. -/
structure FrameClosed (s t : State) (gid : Nat) (f : Frame) (skip : Bool) : Prop where
  frame : (t.group gid).frame = none
  parked : (t.group gid).parked = false
  solo : (t.group gid).solo = false
  uq : (t.group gid).uq = f.tfq
  saved : ∀ i, i < 16 → uget (t.group gid) (112 + i) = f.tfu.getD i 0
  uregs : ∀ n, (n < 112 ∨ 128 ≤ n) → uget (t.group gid) n = uget (s.group gid) n
  vregs : SameV (s.group gid) (t.group gid) never
  preds : SameP (s.group gid) (t.group gid) never
  queue : (t.group gid).queue = (s.group gid).queue
  mem : t.mem = s.mem
  teams : t.teams = s.teams
  handlers : ∀ i v, i < (s.group gid).slices.length → ((s.group gid).slice i).handler = some v → (∀ a b, v.wait ≠ .srel a b) → v.run &&& ((s.group gid).slice i).live ≠ 0 →
    let y := (t.group gid).slice i
    y.pc = (if f.log = none ∧ skip = true ∧ f.atIssue = true ∧ f.record.code ≠ 0x15 then f.tfpc + 4 else f.tfpc) &&& ~~~3#64 ∧ y.mode = v.mode ∧ y.depth = v.depth ∧ y.wait = v.wait.stamp y.issues ∧
    y.run = v.run &&& ((s.group gid).slice i).live ∧ y.live = ((s.group gid).slice i).live ∧ y.handler = none
  others : ∀ i, i < (s.group gid).slices.length → ((s.group gid).slice i).handler = none → (∀ a b, ((s.group gid).slice i).wait ≠ .srel a b) →
    ((t.group gid).slice i).pc = ((s.group gid).slice i).pc ∧ ((t.group gid).slice i).run = ((s.group gid).slice i).run ∧ ((t.group gid).slice i).mode = ((s.group gid).slice i).mode
  discarded : (f.log = none ∨ skip = true) → (t.core (s.group gid).core).log = (s.core (s.group gid).core).log ∧ (t.group gid).withdrawn = (s.group gid).withdrawn
  reissued : ∀ o, f.log = some o → skip = false → logRoom s (s.group gid) = true →
    (t.core (s.group gid).core).log = (s.core (s.group gid).core).log ++ [{ o with walked := false, hits := [], id := (s.core (s.group gid).core).nextId }] ∧
    (t.group gid).withdrawn = (s.group gid).withdrawn
  waits : ∀ o, f.log = some o → skip = false → logRoom s (s.group gid) = false → (t.core (s.group gid).core).log = (s.core (s.group gid).core).log ∧
    (t.group gid).withdrawn = insertOp { o with walked := false, hits := [] } (s.group gid).withdrawn

/-- R346, R349, R357: TRET closes the frame of its own group; GRES closes, and GKILL discards, that of a parked group of the caller's partition whose serial the
handle names; the statuses that they give otherwise. -/
def returns : Prop :=
  (∀ (k : BitVec 1) s c f, issuer s = some c → issues (encode (.tret k)) s = true → (s.group c.gid).frame = some f →
    Completes (.tret k) s fun t => FrameClosed s t c.gid f (k == 1) ∧ (∀ j, j ≠ c.gid → t.group j = s.group j) ∧ t.homes = s.homes ∧ t.hub = s.hub) ∧
  (∀ (d a : BitVec 8) (k : BitVec 1) s c, issuer s = some c → uniformSplit (s.group c.gid) c = false →
    let g := s.group c.gid
    let h := readU64 s g c a.toNat
    let gives (i : Instr) (v : Word) (p : State → Prop) : Prop := Completes i s fun t => uget (t.group c.gid) d.toNat = v ∧ SameU g (t.group c.gid) (atReg d.toNat) ∧
      SameV g (t.group c.gid) never ∧ SameP g (t.group c.gid) never ∧ t.mem = s.mem ∧ t.teams = s.teams ∧ p t
    let still (t : State) : Prop := GangFlow s t c onward ∧ t.hub = s.hub ∧ t.dies = s.dies ∧ t.homes = s.homes ∧ t.referee = s.referee
    ∀ i ∈ [Instr.gres d a k, .gkill d a], issues (encode i) s = true →
      (handleGroup s h = none → gives i 2 still) ∧
      (∀ gid, handleGroup s h = some gid → s.partOf (s.group gid).tid ≠ s.partOf g.tid → gives i 2 still) ∧
      (∀ gid, handleGroup s h = some gid → s.partOf (s.group gid).tid = s.partOf g.tid → ((s.group gid).parked = false ∨ (s.group gid).parkSerial ≠ (h >>> 32).setWidth 16) →
        gives i 1 still) ∧
      (∀ gid f, handleGroup s h = some gid → gid ≠ c.gid → s.partOf (s.group gid).tid = s.partOf g.tid → (s.group gid).parked = true → (s.group gid).parkSerial = (h >>> 32).setWidth 16 →
        (s.group gid).frame = some f →
        (i = .gres d a k → gives i 0 fun t => FrameClosed s t gid f (k == 1)) ∧
        (i = .gkill d a → gives i 0 fun t => (t.group gid).frame = none ∧ (t.group gid).queue = [] ∧ (t.group gid).parked = false ∧ (t.group gid).withdrawn = [] ∧
          (∀ j, j < (t.group gid).slices.length → ((t.group gid).slice j).live = 0) ∧ (∀ o ∈ (t.core (s.group gid).core).log, o.gid = gid → o.walked = true) ∧
          ∀ x ∈ (t.core (s.group gid).core).held ++ (t.core (s.group gid).core).retry, x.gid ≠ gid)))

/-- R352 to R354: the TLBI forms shoot a translation down everywhere, the G-stage forms only for a team without a G-stage; PTST gives what a translation finds and
sets neither A nor D; IFENCE cleans the L1 and empties the instruction cache. -/
def translationMaintenance : Prop :=
  (∀ (a b : BitVec 8) s c, issuer s = some c →
    let g := s.group c.gid
    let id := (readU s g c b.toNat).toNat % 2 ^ 16
    let va := (readU64 s g c a.toNat).toNat
    let shoots (i : Instr) (q : Shoot) : Prop := issues (encode i) s = true →
      (q.gstage = true → s.bindField g.tid 0x38 8 ≠ 0 → Raises i s c (gangTrap g c 3 0 0)) ∧
      ((q.gstage = true → s.bindField g.tid 0x38 8 = 0) → (shootReady s q = false → exec i s = .next s) ∧
        (shootReady s q = true → Completes i s fun t => ShotDown s t q ∧ GangFlow s t c onward ∧ RegsKept g (t.group c.gid)))
    shoots (.tlbiVa a b) { gstage := false, asid := id, vmid := s.vmid g.tid, va := some va } ∧ shoots (.tlbiAsid b) { gstage := false, asid := id, vmid := s.vmid g.tid, va := none } ∧
    shoots (.tlbiGva a b) { gstage := true, asid := 0, vmid := id % 2 ^ 14, va := some va } ∧ shoots (.tlbiVmid b) { gstage := true, asid := 0, vmid := id % 2 ^ 14, va := none }) ∧
  (∀ (d a : BitVec 8) (acc : BitVec 2) s c s1, issuer s = some c → issues (encode (.ptst d a acc)) s = true → uniformSplit (s.group c.gid) c = false →
    let g := s.group c.gid
    let x := { s.xctx g.tid g.core true with noAD := true }
    let va := (readU64 s g c a.toNat).toNat
    let gives (v : DWord) : Prop := Completes (.ptst d a acc) s fun t => GangFlow s t c onward ∧ t.mem = s.mem ∧ t.teams = s.teams ∧ uget (t.group c.gid) d.toNat = loHalf v ∧
      uget (t.group c.gid) (d.toNat + 1) = hiHalf v ∧ SameU g (t.group c.gid) (atPair d.toNat) ∧ SameV g (t.group c.gid) never ∧ SameP g (t.group c.gid) never
    (∀ h, translate (countIssue s c) x va acc.toNat = (s1, .ok h) → gives (BitVec.ofNat 64 (h.pa / 4096 * 4096 + h.level * 2 ^ 4 + tierOf h.pa))) ∧
    (∀ code cause, code = 0x0A ∨ code = 0x0B → translate (countIssue s c) x va acc.toNat = (s1, .trap code cause) →
      gives (BitVec.ofNat 64 (cause / 2 ^ 12 * 2 ^ 8 + cause / 2 ^ 4 % 16 * 2 ^ 4 + (if code = 0x0A then 1 else 2) * 2 ^ 2 + 3)))) ∧
  (∀ s c, issuer s = some c → issues (encode .ifence) s = true →
    let g := s.group c.gid
    let p := ofAsid (s.asid g.tid) (s.vmid g.tid)
    (storesDone g c = false ∨ cleanReady s g.core p = false → exec .ifence s = .next s) ∧
    (storesDone g c = true → cleanReady s g.core p = true → Completes .ifence s fun t => GangFlow s t c onward ∧ RegsKept g (t.group c.gid) ∧ t.teams = s.teams ∧
      (t.core g.core).icache = [] ∧ (∀ y ∈ (t.core g.core).l1, p y = true → y.dirty = 0) ∧ (Memory.wf s.mem → Memory.wf t.mem)))

/-- R355, R356, R388: FTMAP gives a first-touch page a zeroed frame of the partition's lists, none from a list whose quota is below the frames given, or a status; RINGP writes the open frame's record into the partition's
fault ring and parks the group, or gives a status. -/
def firstTouchAndRing : Prop :=
  (∀ (d a : BitVec 8) s c, issuer s = some c → issues (encode (.ftmap d a)) s = true → uniformSplit (s.group c.gid) c = false →
    let g := s.group c.gid
    let x := s.xctx g.tid g.core true
    let va := (readU64 s g c a.toNat).toNat
    let gives (v : Word) (p : State → Prop) : Prop := Completes (.ftmap d a) s fun t => GangFlow s t c onward ∧ t.teams = s.teams ∧ t.referee = s.referee ∧
      uget (t.group c.gid) d.toNat = v ∧ SameU g (t.group c.gid) (atReg d.toNat) ∧ SameV g (t.group c.gid) never ∧ SameP g (t.group c.gid) never ∧ p t
    let w := touchWalk x va 4 (countIssue s c) x.root
    let fixed (t : State) : Prop := t.hub.regs = s.hub.regs ∧ (∀ f, { t.frameRec f with acc := 0 } = { s.frameRec f with acc := 0 }) ∧ (x.groot = none → t.mem = s.mem)
    (w.2 = .wait → exec (.ftmap d a) s = .next s) ∧
    (∀ k, w.2 = .status k → gives (BitVec.ofNat 32 k) fixed) ∧
    let gone (i : Nat) : Bool := ((s.regs x.part).lists.getD i []).isEmpty || decide ((s.partRec x.part).quota i < localCount s x.part i)
    (∀ addr pte, w.2 = .leaf addr pte → (∀ i ∈ touchLists x.die (pte / 2 ^ 54 % 4), gone i = true) → gives 3 fixed) ∧
    (∀ addr pte i f rest, w.2 = .leaf addr pte → (touchLists x.die (pte / 2 ^ 54 % 4)).find? (fun i => !gone i) = some i →
      (s.regs x.part).lists.getD i [] = f :: rest → x.groot = none → plainBytes s (f * 4096) 4096 → plainBytes s addr 8 → (addr + 8 ≤ f * 4096 ∨ f * 4096 + 4096 ≤ addr) →
      gives 0 fun t => (t.regs x.part).lists.getD i [] = rest ∧
        ∀ p, bget t.mem p = if addr ≤ p ∧ p < addr + 8 then
            (leBytes 8 ((pte % 2 ^ 10 + pte / 2 ^ 54 * 2 ^ 54 - 2 ^ 57) ||| (f % 2 ^ 44 * 2 ^ 10) ||| 0xC1)).getD (p - addr) 0
          else if f * 4096 ≤ p ∧ p < f * 4096 + 4096 then 0 else bget s.mem p)) ∧
  (∀ (d : BitVec 8) s c, issuer s = some c → issues (encode (.ringp d)) s = true → uniformSplit (s.group c.gid) c = false →
    let g := s.group c.gid
    let part := s.partOf g.tid
    let r := s.regs part
    (2 ^ r.ringSz ≤ (r.ringTail - r.ringHead).toNat → Completes (.ringp d) s fun t => GangFlow s t c onward ∧ uget (t.group c.gid) d.toNat = 1 ∧ t.mem = s.mem ∧ t.hub = s.hub) ∧
    (∀ s2, (r.ringTail - r.ringHead).toNat < 2 ^ r.ringSz → ringPlace (countIssue s c) g.tid g.core = (s2, .fails) →
      Completes (.ringp d) s fun t => GangFlow s t c onward ∧ uget (t.group c.gid) d.toNat = 2 ∧ t.hub.regs = s.hub.regs ∧ (Memory.wf s.mem → Memory.wf t.mem)) ∧
    ((r.ringTail - r.ringHead).toNat < 2 ^ r.ringSz → (ringPlace (countIssue s c) g.tid g.core).2 = .wait → exec (.ringp d) s = .next s) ∧
    (∀ s2 pa f, (r.ringTail - r.ringHead).toNat < 2 ^ r.ringSz → ringPlace (countIssue s c) g.tid g.core = (s2, .at pa) → g.frame = some f → quiet g c true = true →
      s2.linePending pa = false → plainBytes s2 pa 64 → Completes (.ringp d) s fun t =>
        storedAt s2 t pa (f.record.bytes ++ leBytes 8 (groupHandle g (g.parkSerial + 1)).toNat ++ leBytes 2 (s.asid g.tid) ++ leBytes 2 r.ringTail.toNat ++ leBytes 20 0) ∧
        uget (t.group c.gid) d.toNat = 0 ∧ (t.group c.gid).parked = true ∧ (t.group c.gid).parkSerial = g.parkSerial + 1 ∧ (t.group c.gid).frame = some f ∧
        (t.regs part).ringTail = r.ringTail + 1 ∧ (∀ j, j ≠ c.gid → t.group j = s.group j)))

/-- R34, R35, R427: in every gang whose live slices are not in SOLO mode, a word of the privileged subset raises ILLEGAL with cause 2, once the registers and the room
that it waits for are there; a word whose opcode no row holds raises ILLEGAL with cause 1. -/
def illegalWords : Prop :=
  (∀ (a b d : BitVec 8) (k : BitVec 1) (acc : BitVec 2) (imm : BitVec 16) s c, issuer s = some c → c.solo = none →
    ∀ i ∈ [Instr.crd d imm, .cwr d imm, .tlbiVa a b, .tlbiAsid b, .tlbiGva a b, .tlbiVmid b, .ptst d a acc, .ifence, .ftmap d a, .migrMove d a b, .migrRetire d a b,
      .migrClaim d a b, .snap d imm, .ringp d, .gres d a k, .gkill d a],
      (wordReady s (s.group c.gid) c (encode i) = false → exec i s = .next s) ∧
      (wordReady s (s.group c.gid) c (encode i) = true → Raises i s c (gangTrap (s.group c.gid) c 1 2 0))) ∧
  (∀ (w : Word) s c, issuer s = some c → opcodeUsed (wOp w) = false →
    exec (.reservedOpcode w) s = .next (raiseTrap (countIssue s c) c w (gangTrap (s.group c.gid) c 1 1 0)))

/-- The slices for which a word's decode checks are made: the gang's, or in SOLO mode that of the SOLO lane. -/
def checked (c : Ctx) (i : Nat) : Bool := match c.solo with | some l => i == l / 4 | none => decide (i < 64) && c.gang.getLsbD i

/-- The trap of a decode check that some slices fail (R35): FMASK holds their running lanes, and LANE is the lowest of these. -/
def checkTrap (g : Group) (c : Ctx) (cause : Nat) (bad : Slice → Bool) : TrapInfo :=
  let m := laneSet fun l => checked c (l / 4) && bad (g.slice (l / 4)) && runs g c l
  { code := 1, cause := cause, fmask := m, lane := lowestLane m, addr := 0, opw := 0 }

/-- R19, R21, R32, R34, R35: the decode checks. The first that fails raises its trap, and the instruction has no other effect: a reserved opcode; a privileged word outside
SOLO mode; a word that SOLO mode refuses (ILLEGAL_SOLO); SOLO and TRET without a handler (PRIV); reserved bits, operands, fields. Spelled out, with their order, for ADD, UADD, RET,
UCMP, SETMODE, FENCE and WAITC. -/
def decodeChecks : Prop :=
  (∀ i s c x, i.isWord = true → i.wellFormed = true → issuer s = some c → wordReady s (s.group c.gid) c (encode i) = true →
    decodeCheck (s.group c.gid) c (encode i) = some x → Raises i s c x) ∧
  (∀ (g : Group) (c : Ctx) (w : Word), let op := w.toNat / 2 ^ 24
    (opcodeUsed op = false → decodeCheck g c w = some (gangTrap g c 1 1 0)) ∧
    (opcodeUsed op = true → 0xF0 ≤ op → op ≤ 0xFB → c.solo = none → decodeCheck g c w = some (gangTrap g c 1 2 0)) ∧
    (opcodeUsed op = true → c.solo.isSome = true → ((0x50 ≤ op ∧ op ≤ 0x56) ∨ (0x84 ≤ op ∧ op ≤ 0x89) ∨ (0x9C ≤ op ∧ op ≤ 0xA0) ∨ (0xA9 ≤ op ∧ op ≤ 0xAB) ∨
      (0xB0 ≤ op ∧ op ≤ 0xB3) ∨ (0xB6 ≤ op ∧ op ≤ 0xD6)) → decodeCheck g c w = some (gangTrap g c 2 0 0)) ∧
    ((op = 0xD5 ∨ op = 0xD6) → c.solo = none → g.frame = none → decodeCheck g c w = some (gangTrap g c 3 0 0)) ∧
    (op = 0x83 → w.toNat % 2 ^ 24 ≠ 0 → decodeCheck g c w = some (gangTrap g c 1 3 0)) ∧
    (op = 0x8C → w.toNat / 2 ^ 16 % 2 ^ 8 ≠ 0 → decodeCheck g c w = some (gangTrap g c 1 3 0))) ∧
  (∀ (g : Group) (c : Ctx) (d a b : BitVec 8),
    let fails (bad : Slice → Bool) : Bool := (List.range 64).any fun i => checked c i && bad (g.slice i)
    let wide (x : Slice) : Bool := mEtype x.mode == 6 || mEtype x.mode == 7 || mEtype x.mode == 11
    let odd (x : Slice) : Bool := wide x && [d, a, b].any fun r => r.toNat % 2 == 1
    let beyond (x : Slice) : Bool := [d, a, b].any fun r => decide (r.toNat < 128) && decide (g.budget < r.toNat + if wide x then 2 else 1)
    let other (x : Slice) : Bool := decide (7 < mEtype x.mode)
    decodeCheck g c (encode (.add d a b)) = if 128 ≤ d.toNat then some (gangTrap g c 1 4 0) else if fails odd then some (checkTrap g c 5 odd)
      else if fails beyond then some (checkTrap g c 6 beyond) else if fails other then some (checkTrap g c 9 other) else none) ∧
  (∀ (g : Group) (c : Ctx) (d a b : BitVec 8) i, checked c i = true → i < 64 →
    let odd := uWide g && [d, a, b].any fun r => r.toNat % 2 == 1
    let special (r : BitVec 8) : Bool := r == 0xC0 || r == 0xC1 || r == 0xD0 || r == 0xD3 || r == 0xD7 || decide (0xDC ≤ r.toNat)
    decodeCheck g c (encode (.uadd d a b)) = if 160 ≤ d.toNat then some (gangTrap g c 1 4 0) else if odd then some (checkTrap g c 5 fun _ => true)
      else if special a || special b then some (gangTrap g c 1 7 0) else none) ∧
  (∀ (g : Group) (c : Ctx) (cond p : BitVec 4), 4 ≤ p.toNat % 8 → decodeCheck g c (encode (.ucmp cond p 0 0)) = some (gangTrap g c 1 8 0)) ∧
  (∀ (g : Group) (c : Ctx) (imm : BitVec 16), decodeCheck g c (encode (.setmode imm)) =
    if imm.toNat / 2 ^ 4 % 16 = 15 ∨ 5 ≤ imm.toNat / 2 ^ 8 % 8 ∨ imm.toNat / 2 ^ 13 % 4 = 3 then some (gangTrap g c 1 9 0) else none) ∧
  (∀ (g : Group) (c : Ctx) (x y : BitVec 1) (sc : BitVec 3) (t : BitVec 8) (m : BitVec 4) i, checked c i = true → i < 64 →
    decodeCheck g c (encode (.fence x y sc)) = (if 6 ≤ sc.toNat then some (gangTrap g c 1 8 0) else if x = 0 ∧ y = 0 then some (checkTrap g c 10 fun _ => true) else none) ∧
    decodeCheck g c (encode (.waitc t m)) = if m = 0 then some (checkTrap g c 10 fun _ => true) else none)

end Sys2Proof.Machine

section
open Sys2Proof Sys2Proof.Machine

/-- Control registers, SOLO mode, and words that a gang may not issue. -/
def Obligations.ControlRegistersAndSolo : Prop := controlRegisters ∧ soloMode ∧ illegalWords ∧ decodeChecks

/-- Returns from handlers. (That TRET leaves the next delivery to TRAP_DELIVERY, that a retired handle gives status 2 and that a reissue waits while the log is full are the
model's: logs 45, 46, 47.) -/
def Obligations.ReturnsAndParkedGroups : Prop := returns

/-- Translation caches, first touch and the fault ring. (The one-step shootdown, the wait of FTMAP and RINGP on a line held at a move and the VMID operand of TLBI.GVA and
TLBI.VMID are the model's: logs 42, 44, 32.) -/
def Obligations.SupervisorServices : Prop := translationMaintenance ∧ firstTouchAndRing

end

namespace Sys2Proof.Machine

/-! ## Traps (12) and the fault queue (14) -/

/-- R336, R337, R342: raising a trap. In an open frame it is nested: the group parks and the referee gets the record. Else the entry enters the queue behind every
entry with a key as low, unless the queue holds eight, and then the instruction has not issued. -/
def raising : Prop :=
  (∀ s c w (x : TrapInfo),
    let g := s.group c.gid
    let u := raiseTrap s c w x
    let pc := (g.slice (lowestSlice c.gang)).pc
    let rec_ : Record := { cause := BitVec.ofNat 16 x.cause, nested := false, logged := false, async := false, code := BitVec.ofNat 8 x.code, qleft := 0, lane := BitVec.ofNat 8 x.lane,
                           addr := x.addr, pc := pc, opword := x.opw ++ w }
    let e : TrapEntry := { record := rec_, fmask := x.fmask, gang := c.gang, key := g.issueNo, log := none, atIssue := true, resume := if x.code = 0x15 then pc + 4 else pc, engine := .none }
    u.mem = s.mem ∧ u.teams = s.teams ∧ u.dies = s.dies ∧ u.homes = s.homes ∧ u.hub = s.hub ∧ (∀ j, j ≠ c.gid → u.group j = s.group j) ∧
    (∀ f, g.frame = some f → (u.group c.gid).parked = true ∧ (u.group c.gid).parkSerial = g.parkSerial + 1 ∧ (u.group c.gid).frame = some f ∧ (u.group c.gid).queue = g.queue ∧
      ∃ p, u.referee = { s.referee with postings := s.referee.postings ++ [p] } ∧ p.record = { rec_ with nested := true } ∧ p.part = s.partOf g.tid) ∧
    (g.frame = none → 8 ≤ g.queue.length → (u.group c.gid).queue = g.queue ∧ (u.group c.gid).issueNo = g.issueNo - 1 ∧ u.referee = s.referee) ∧
    (g.frame = none → g.queue.length < 8 → (∃ i, i < 64 ∧ (g.slice i).live ≠ 0 ∧ c.gang.getLsbD i = false ∧ g.stopped i = false ∧ (g.slice i).wait.free = true) →
      u = s.setGroup c.gid { g with queue := enqueue e g.queue }) ∧
    (g.frame = none → g.queue.length < 8 → (∀ i, i < 64 → (g.slice i).live = 0 ∨ c.gang.getLsbD i = true ∨ g.stopped i = true ∨ (g.slice i).wait.free = false) →
      u = tryDeliver (s.setGroup c.gid { g with queue := enqueue e g.queue }) c.gid)) ∧
  (∀ (e : TrapEntry) q, ∃ a b, q = a ++ b ∧ enqueue e q = a ++ e :: b ∧ (∀ x ∈ a, x.key ≤ e.key) ∧ ∀ x, b.head? = some x → e.key < x.key)

/-- R340: delivery opens the handler frame. fm: the lanes that the frame names. -/
structure FrameOpened (s t : State) (gid : Nat) (e : TrapEntry) (left : Nat) (fm : LaneMask) : Prop where
  others : ∀ i, i < (s.group gid).slices.length → fm &&& (0xF#256 <<< (4 * i)) = 0 →
    let x := (s.group gid).slice i; let y := (t.group gid).slice i
    y.pc = x.pc ∧ y.run = x.run ∧ y.live = x.live ∧ y.mode = x.mode ∧ y.wait = x.wait ∧ y.handler = x.handler
  handlers : ∀ i, i < (s.group gid).slices.length → fm &&& (0xF#256 <<< (4 * i)) ≠ 0 →
    let x := (s.group gid).slice i; let y := (t.group gid).slice i
    y.pc = BitVec.ofNat 64 (s.tvec (s.group gid).tid + 0x40 * e.record.code.toNat) &&& ~~~3#64 ∧ y.run = (fm >>> (4 * i)).setWidth 4 ∧ y.live = x.live ∧ y.mode = 0x87 ∧ y.wait = .none ∧
    y.stack = x.stack ∧ y.depth = x.depth ∧ y.handler = some { mode := x.mode, run := x.run, depth := x.depth, gang := x.gang, wait := x.wait.at x.issues }
  frame : ∃ f, (t.group gid).frame = some f ∧ f.fmask = fm ∧ f.log = e.log ∧ f.tfcur = lowestLane fm ∧ f.tfq = (s.group gid).uq ∧ f.engine = e.engine ∧ f.atIssue = e.atIssue ∧
    (∀ i, i < 16 → f.tfu.getD i 0 = uget (s.group gid) (112 + i)) ∧ f.record.qleft = left ∧ f.record.logged = e.log.isSome ∧ f.record.code = e.record.code ∧
    f.record.cause = e.record.cause ∧ f.record.addr = e.record.addr ∧ f.record.opword = e.record.opword ∧
    (e.record.async = false → f.tfpc = e.resume) ∧
    uget (t.group gid) 112 = loHalf (s.ssa (s.group gid)) ∧ uget (t.group gid) 113 = hiHalf (s.ssa (s.group gid)) ∧ (∀ i, i < 6 → uget (t.group gid) (114 + i) = 0) ∧
    ∀ i, i < 8 → uget (t.group gid) (120 + i) = f.record.words.getD i 0
  uregs : ∀ n, (n < 112 ∨ 128 ≤ n) → uget (t.group gid) n = uget (s.group gid) n
  vregs : SameV (s.group gid) (t.group gid) never
  preds : SameP (s.group gid) (t.group gid) never
  solo : (t.group gid).solo = false

/-- R337, R340, R345: TRAP_DELIVERY delivers the first entry of a group's queue; for a class that the referee serves, or where no handler can run, the group
parks with its frame open and the referee gets the record. -/
def delivering : Prop :=
  (∀ gid s, deliverReady s gid = false → exec (.trapDelivery gid) s = .next s) ∧
  (∀ gid s e rest, deliverReady s gid = true → (s.group gid).queue = e :: rest → (e.record.async = true → (s.group gid).liveSlices ≠ 0) →
    let g := s.group gid
    let fm : LaneMask := if e.record.async then 1#256 <<< lowestLane (laneSet fun l => (g.slice (l / 4)).live.getLsbD (l % 4)) else e.fmask
    let served := s.tvec g.tid ≠ 0 ∧ refereeClass e.record = false ∧ ∃ i, i < 64 ∧ fm &&& (0xF#256 <<< (4 * i)) ≠ 0 ∧ (g.slice i).live ≠ 0 ∧ i < g.slices.length
    (∀ i, i < g.slices.length → (g.slice i).handler = none) →
    Completes (.trapDelivery gid) s fun t => t.mem = s.mem ∧ t.teams = s.teams ∧ t.dies = s.dies ∧ t.homes = s.homes ∧ t.hub = s.hub ∧ (∀ j, j ≠ gid → t.group j = s.group j) ∧
      FrameOpened s t gid e rest.length fm ∧ (t.group gid).queue = rest ∧
      (served → (t.group gid).parked = g.parked ∧ t.referee = s.referee) ∧
      (¬ served → (t.group gid).parked = true ∧ (t.group gid).parkSerial = g.parkSerial + 1 ∧
        ∃ p, t.referee = { s.referee with postings := s.referee.postings ++ [p] } ∧ p.part = s.partOf g.tid ∧ p.asid = s.asid g.tid ∧
          (t.group gid).frame.map (·.record) = some p.record))

/-- R337, R428: a held asynchronous trap enters the queue of its group, or of the lowest live group of its team, when that has room; a source that found the
buffer full offers its trap again, and enters no queue before the traps that wait for it in the buffer. With no live group of the team the referee gets the record, and the
engine operation that the trap stopped is cancelled. -/
def heldTraps : Prop :=
  (∀ core s, heldReady s core = none → exec (.heldTrapEnter core) s = .next s) ∧
  (∀ core s h n, heldReady s core = some h → s.asyncTarget h.gid = some n → Completes (.heldTrapEnter core) s fun t => t.mem = s.mem ∧ t.teams = s.teams ∧ t.dies = s.dies ∧
    t.homes = s.homes ∧ (t.core core).held = dropHeld h (s.core core).held ∧ (∀ k, (t.core k).retry = (s.core k).retry) ∧
    (s.group n).queue.length < 8 ∧ ∀ j, j ≠ n → t.group j = s.group j) ∧
  (∀ core s h, heldReady s core = some h → s.asyncTarget h.gid = none → Completes (.heldTrapEnter core) s fun t =>
    let u := s.modCore core fun k => { k with held := dropHeld h k.held }
    t = cancelEngine (u.post (s.group h.gid) h.record) h.engine ∧
    (h.engine = .none → t.groups = s.groups ∧ t.mem = s.mem ∧ ∃ p, t.referee = { s.referee with postings := s.referee.postings ++ [p] } ∧ p.record = h.record)) ∧
  (∀ core s h rest, (s.core core).retry = h :: rest → 64 ≤ (s.core core).held.length → exec (.heldTrapRetry core) s = .next s) ∧
  (∀ core s h rest, (s.core core).retry = h :: rest → (s.core core).held.length < 64 → s.asyncTarget h.gid = none → Completes (.heldTrapRetry core) s fun t =>
    t = cancelEngine ((s.modCore core fun k => { k with retry := rest }).post (s.group h.gid) h.record) h.engine) ∧
  (∀ core s h rest n, (s.core core).retry = h :: rest → s.asyncTarget h.gid = some n →
    ((s.core core).held.length < 64 → asyncRoom s n = true → Completes (.heldTrapRetry core) s fun t => t.mem = s.mem ∧ (t.core core).retry = rest ∧
      (t.core core).held = (s.core core).held ∧ ∀ j, j ≠ n → t.group j = s.group j) ∧
    ((s.core core).held.length < 64 → asyncRoom s n = false → (s.group n).core = core → Completes (.heldTrapRetry core) s fun t => t.mem = s.mem ∧ (t.core core).retry = rest ∧
      (t.core core).held = (s.core core).held ++ [h] ∧ t.groups = s.groups)) ∧
  (∀ s n, asyncRoom s n = true ↔ (s.group n).queue.length < 8 ∧ ∀ x ∈ (s.core (s.group n).core).held, s.asyncTarget x.gid ≠ some n)

/-- R399, R400: the oldest posting enters the fault queue; an entry is forwarded to the ring of its partition when that has room and its line takes a write now, and
removed; or the referee serves it itself, by GRES, GRES with SKIP or GKILL (that this input stands for it: log 67). -/
def faultQueue : Prop :=
  (∀ s p rest, s.referee.postings = p :: rest → ∀ i ∈ [Instr.faultQueuePost, .faultQueueRetry],
    (1024 ≤ s.referee.faultQ.length → exec i s = .next s) ∧
    (s.referee.faultQ.length < 1024 → Completes i s fun t => t.mem = s.mem ∧ t.groups = s.groups ∧ t.teams = s.teams ∧ t.cores = s.cores ∧ t.dies = s.dies ∧ t.homes = s.homes ∧
      t.hub = s.hub ∧ t.referee.postings = rest ∧ t.referee.faultQ = s.referee.faultQ ++ [p])) ∧
  (∀ s n p, s.referee.faultQ[n]? = some p →
    let c := s.ctl p.part
    let at_ := c.rring.toNat + 64 * (c.rrTail.toNat % 2 ^ c.rrSz)
    let room := (c.rrTail - c.rrHead).toNat < 2 ^ c.rrSz ∧ s.lineHeld at_ = false
    let forwarded (t : State) : Prop := t.groups = s.groups ∧ t.teams = s.teams ∧ t.cores = s.cores ∧ (∀ k, t.die k = { s.die k with l2 := (t.die k).l2 }) ∧ t.referee.faultQ = ldrop s.referee.faultQ n ∧
      t.ctl p.part = { c with rrTail := c.rrTail + 1 } ∧
      storedAt s t at_ (p.record.bytes ++ leBytes 8 p.handle.toNat ++ leBytes 2 p.asid ++ leBytes 2 c.rrTail.toNat ++ leBytes 20 0) ∧
      t.referee.msi = if c.rrMsia = 0 then s.referee.msi else s.referee.msi ++ [(c.rrMsia, c.rrMsid)]
    (¬ room → exec (.refereeRingRetry n) s = .next s) ∧
    (room → plainBytes s at_ 64 → (c.rrMsia = 0 ∨ 6 ≤ homeOf c.rrMsia.toNat) → Completes (.refereeRingRetry n) s forwarded) ∧
    (room → plainBytes s at_ 64 → (c.rrMsia = 0 ∨ 6 ≤ homeOf c.rrMsia.toNat) → (∀ k q, k < n → s.referee.faultQ[k]? = some q → forwardable s q = false) →
      Completes .refereeForward s forwarded)) ∧
  (∀ s n code v, s.referee.faultQ[n]? = none → exec (.controlRegWrite 3 n code v) s = .next s) ∧
  (∀ s n v (p : Posting), s.referee.faultQ[n]? = some p →
    (∀ code, code < 3 → handleGroup s p.handle = none → Completes (.controlRegWrite 3 n code v) s fun t => t.groups = s.groups ∧ t.mem = s.mem ∧ t.hub = s.hub ∧
      t.referee = { s.referee with faultQ := ldrop s.referee.faultQ n }) ∧
    (∀ gid f, handleGroup s p.handle = some gid → s.partOf (s.group gid).tid = p.part → (s.group gid).parked = true → (s.group gid).parkSerial = (p.handle >>> 32).setWidth 16 →
      (s.group gid).frame = some f →
      (∀ code, code < 2 → Completes (.controlRegWrite 3 n code v) s fun t => FrameClosed s t gid f (code == 1) ∧ t.referee.faultQ = ldrop s.referee.faultQ n) ∧
      Completes (.controlRegWrite 3 n 2 v) s fun t => (t.group gid).frame = none ∧ (t.group gid).queue = [] ∧ (t.group gid).parked = false ∧
        (∀ j, j < (t.group gid).slices.length → ((t.group gid).slice j).live = 0) ∧ t.referee.faultQ = ldrop s.referee.faultQ n))

end Sys2Proof.Machine

section
open Sys2Proof Sys2Proof.Machine

/-- Traps: raised, queued, delivered, held back, posted. (That a quiet group takes a trap at once, and that the referee takes it when every slice of the handler is dead,
are the model's: logs 5, 16.) -/
def Obligations.TrapsRaisedAndDelivered : Prop := raising ∧ delivering

/-- Held traps and the referee's fault queue. -/
def Obligations.HeldTrapsAndFaultQueue : Prop := heldTraps ∧ faultQueue

end

namespace Sys2Proof.Machine

/-! ## Teams (02, 12, 13) -/

/-- R43, R75, R374: a group whose slices are all dead and whose counters are zero retires (an open frame and a logged BIND or UNBIND hold it: log 16): its registers return to
the partition; with the last group of its team the slot passes to DRAIN and its grid has one team fewer (R377). -/
def retirement : Prop :=
  (∀ gid s, retireReady s gid = false → exec (.groupRetire gid) s = .next s) ∧
  (∀ gid s, retireReady s gid = true → (s.group gid).queue = [] →
    let g := s.group gid
    let tid := g.tid
    Completes (.groupRetire gid) s fun t => t.mem = s.mem ∧ t.teams = s.teams ∧ t.dies = s.dies ∧ t.homes = s.homes ∧ t.referee = s.referee ∧
      (∀ j, j ≠ gid → t.group j = s.group j) ∧ t.group gid = { g with retired := true, parked := false, vregs := [], preds := [], uregs := [], uq := 0 } ∧
      ((∃ i ∈ s.teamGids tid, i ≠ gid ∧ (s.group i).retired = false) → t.cores = s.cores ∧ t.hub = s.hub) ∧
      ((∀ i ∈ s.teamGids tid, i ≠ gid → (s.group i).retired = true) → s.bindField tid 0 1 = 2 → t.bindField tid 0 1 = 4 ∧
        t.hub = { s.hub with grids := s.hub.grids.map fun x => if x.id = s.gridOf tid then { x with live := x.live - 1 } else x })) ∧
  (∀ core slot s, slot < 32 → drainReady s core slot = false → exec (.teamRelease core slot) s = .next s) ∧
  (∀ core slot s, slot < 32 → drainReady s core slot = true →
    let tid := core * 32 + slot
    Completes (.teamRelease core slot) s fun t => t.slotState core slot = 0 ∧ (∀ e ∈ (t.core core).slabs, e.2.tid ≠ tid) ∧ (∀ d ∈ (t.core core).directory, d.tid ≠ tid) ∧
      (∀ i, i < 64 → (t.core core).slots.getD i .free ≠ .held tid) ∧ (∀ a ∈ t.hub.arrivals, a.tid ≠ tid) ∧ (Memory.wf s.mem → Memory.wf t.mem))

/-- R367, R371: what the pacer writes into a slot, and what it reads of the pending queue. -/
def pacerAccess : Prop :=
  (∀ core slot bytes s, core < 160 → slot < 32 →
    (s.slotState core slot = 0 → bytes.length = 256 → recField bytes 0 1 = 1 → Completes (.pacerRecordWrite core slot bytes) s fun t => t.mem = s.mem ∧ t.groups = s.groups ∧
      t.teams = s.teams ∧ t.dies = s.dies ∧ t.homes = s.homes ∧ t.hub = s.hub ∧ t.slotRec core slot = bytes ∧ ∀ i, i ≠ slot → t.slotRec core i = s.slotRec core i) ∧
    (0x80 ≤ s.slotState core slot → Completes (.pacerRecordWrite core slot [0]) s fun t => t.mem = s.mem ∧ t.groups = s.groups ∧ t.slotState core slot = 0 ∧
      (t.slotRec core slot).drop 1 = (s.slotRec core slot).drop 1) ∧
    (¬ (s.slotState core slot = 0 ∧ bytes.length = 256 ∧ recField bytes 0 1 = 1) → ¬ (0x80 ≤ s.slotState core slot ∧ bytes = [0]) →
      exec (.pacerRecordWrite core slot bytes) s = .next s)) ∧
  (∀ die s, let d := s.die die
    Completes (.pqpop die) s fun t => t.mem = s.mem ∧ t.groups = s.groups ∧ t.cores = s.cores ∧ t.hub = s.hub ∧
      (∀ p r, d.pendingQ = p :: r →
        let entry := leBytes 8 p.grid.toNat ++ leBytes 4 p.team.toNat ++ leBytes 1 p.prio ++ leBytes 1 p.part ++ leBytes 1 p.restore.toNat ++ [0] ++ leBytes 8 p.save.toNat ++
          List.replicate 8 0
        t.die die = { d with pendingQ := r, pqe := entry, pqRet := BitVec.ofNat 32 r.length }) ∧
      (d.pendingQ = [] → t.die die = { d with pqRet := 0xFFFFFFFF }))

/-- R369 to R371, R377: COMMIT checks a bound record: a refused one says why in STATE; an accepted fresh team runs, every slice of its groups at ENTRY with four
live lanes, given its room at once unless a bank change is under way on its home core (log 70). What an ignored COMMIT does, and that a commit is under way while the save
area of its record cannot be read, are the model's choice (log 49). -/
def commits : Prop :=
  (∀ die (v : Word) s, (40 ≤ v.toNat % 64 ∨ (s.die die).down = true ∨ (s.die die).committing ≠ none) → exec (.commit die v) s = .next s) ∧
  (∀ die (v : Word) s, v.toNat % 64 < 40 → (s.die die).down = false → (s.die die).committing = none →
    let tid := (die * 40 + v.toNat % 64) * 32 + v.toNat / 64 % 32
    (s.bindField tid 0 1 ≠ 1 → Completes (.commit die v) s fun t => t.mem = s.mem ∧ t.groups = s.groups ∧ t.teams = s.teams ∧ t.cores = s.cores ∧ t.hub = s.hub ∧
      (t.die die).commitSt = BitVec.ofNat 32 (s.bindField tid 0 1)) ∧
    (s.bindField tid 0 1 = 1 → areaWaits s tid = true → Completes (.commit die v) s fun t => t.mem = s.mem ∧ t.groups = s.groups ∧ t.teams = s.teams ∧ t.cores = s.cores ∧
      t.hub = s.hub ∧ t.die die = { s.die die with commitSt := 0x80000001, committing := some tid }) ∧
    (∀ k, s.bindField tid 0 1 = 1 → areaWaits s tid = false → dispatchCode s tid none = some k → k < 128 → Completes (.commit die v) s fun t => t.mem = s.mem ∧ t.groups = s.groups ∧ t.teams = s.teams ∧
      t.hub = s.hub ∧ t.bindField tid 0 1 = 0x80 + k ∧ (t.die die).commitSt = BitVec.ofNat 32 (0x80 + k)) ∧
    (s.bindField tid 0 1 = 1 → dispatchCode s tid none = none → s.isRestore tid = false → Completes (.commit die v) s fun t => t.bindField tid 0 1 = 2 ∧
      (t.die die).commitSt = 2 ∧ (t.team tid).filling = !roomReady (placeTeam s tid) tid ∧ (t.team tid).room = roomReady (placeTeam s tid) tid ∧ (Memory.wf s.mem → Memory.wf t.mem) ∧
      ∀ g, g < s.bindField tid 4 2 → t.group (tid * 64 + g) = freshGroup (t.bindRec tid) tid g)) ∧
  (∀ b tid g i, i < 64 → let x := (freshGroup b tid g).slice i
    x.pc = BitVec.ofNat 64 (recField b 0x20 8) &&& ~~~3#64 ∧ x.live = 15 ∧ x.run = 15 ∧ x.mode = 0x87 ∧ x.depth = 0 ∧ x.loads = 0 ∧ x.stores = 0 ∧ x.atomics = 0 ∧ x.posts = 0) ∧
  (∀ b tid g i, i < 4 → uget (freshGroup b tid g) i = BitVec.ofNat 32 (recField b (0x60 + 4 * i) 4))

/-- R358, R371: PREEMPT takes a running team with a save area and a bound one; SWAP first brings the bound one's registers and slice records into the shadow register files
of its cores, then stops the one and places the other. -/
def preemptions : Prop :=
  (∀ die (v : Word) s,
    let core := die * 40 + v.toNat % 64
    let out := core * 32 + v.toNat / 64 % 32
    let inn := core * 32 + v.toNat / 2048 % 32
    let taken := v.toNat % 64 < 40 ∧ (s.die die).down = false ∧ (s.die die).preempting = none ∧ s.bindField out 0 1 = 2 ∧ s.isHomeSlot core (out % 32) = true ∧
      s.bindField inn 0 1 = 1
    (¬ taken → exec (.preempt die v) s = .next s) ∧
    (taken → s.saveBase out = 0 → Completes (.preempt die v) s fun t => t.mem = s.mem ∧ t.groups = s.groups ∧ t.cores = s.cores ∧ t.hub = s.hub ∧
      t.die die = { s.die die with preemptSt := 1 }) ∧
    (∀ k, taken → s.saveBase out ≠ 0 → areaWaits s inn = false → dispatchCode s inn (some out) = some k → k < 128 → Completes (.preempt die v) s fun t => t.mem = s.mem ∧ t.groups = s.groups ∧ t.hub = s.hub ∧
      t.bindField inn 0 1 = 0x80 + k ∧ t.die die = { s.die die with preemptSt := 2 }) ∧
    (taken → s.saveBase out ≠ 0 → areaWaits s inn = true ∨ dispatchCode s inn (some out) = none → Completes (.preempt die v) s fun t => t.mem = s.mem ∧ t.groups = s.groups ∧ t.cores = s.cores ∧ t.hub = s.hub ∧
      t.die die = { s.die die with preemptSt := 0x80000000, preempting := some (core, out % 32, inn % 32), loaded := false })) ∧
  (∀ die s, (s.die die).preempting = none → exec (.swap die) s = .next s) ∧
  (∀ die s core o i, (s.die die).preempting = some (core, o, i) → o < 32 → i < 32 →
    let out := core * 32 + o
    let inn := core * 32 + i
    (s.bindField inn 0 1 ≠ 1 ∨ areaWaits s inn = true → exec (.swap die) s = .next s) ∧
    (∀ k, s.bindField inn 0 1 = 1 → areaWaits s inn = false → k < 128 → dispatchCode s inn (if s.bindField out 0 1 = 2 then some out else none) = some k → Completes (.swap die) s fun t => t.mem = s.mem ∧
      t.groups = s.groups ∧ t.bindField inn 0 1 = 0x80 + k ∧ (t.die die).preemptSt = 2 ∧ (t.die die).preempting = none) ∧
    (∀ n, s.bindField inn 0 1 = 1 → areaWaits s inn = false → dispatchCode s inn (if s.bindField out 0 1 = 2 then some out else none) = none → (s.die die).loaded = false →
      n < s.bindField inn 4 2 → Completes (.swap die) s fun t => t.groups = s.groups ∧ t.teams = s.teams ∧ (Memory.wf s.mem → Memory.wf t.mem) ∧ (t.die die).loaded = true ∧
        let g := (placeTeam s inn).group (inn * 64 + n)
        sfind (t.core g.core).shadow (inn * 64 + n) = some g) ∧
    (s.bindField inn 0 1 = 1 → areaWaits s inn = false → s.bindField out 0 1 = 2 → dispatchCode s inn (some out) = none → (s.die die).loaded = true → Completes (.swap die) s fun t =>
      t.bindField out 0 1 = 3 ∧ t.bindField inn 0 1 = 2 ∧ (Memory.wf s.mem → Memory.wf t.mem)))

/-- R361, R362: SPILL drains an outgoing team, then writes its context; SPILL_COMPLETE frees its slot and queues it again with RESTORE; RESTORE_FILL gives a
placed team its room and lets it issue; it also goes on with a commit that waits for its save area, and reissues an operation that waits for a log entry (R339; log 47). -/
def spills : Prop :=
  (∀ core slot s, slot < 32 →
    let tid := core * 32 + slot
    (s.bindField tid 0 1 ≠ 3 ∨ s.isHomeSlot core slot = false → exec (.spill core slot) s = .next s ∧ exec (.spillComplete core slot) s = .next s) ∧
    (∀ s1 ps, s.bindField tid 0 1 = 3 → s.isHomeSlot core slot = true → saveReady s tid = true → savePlaces (cleanTeam s tid false) tid = (s1, .ok ps) → Completes (.spill core slot) s fun t =>
      t.hub.saved = s.hub.saved ++ [keepSaved s tid] ∧ (Memory.wf s.mem → Memory.wf t.mem) ∧ t.groups = s.groups ∧ (∀ d ∈ (t.core core).directory, d.tid ≠ tid)) ∧
    ((s.core core).bankChange ≠ [] → exec (.spillComplete core slot) s = .next s) ∧
    (s.bindField tid 0 1 = 3 → s.isHomeSlot core slot = true → (s.findSaved tid).isSome = true → (s.core core).bankChange = [] → Completes (.spillComplete core slot) s fun t =>
      t.mem = s.mem ∧ t.bindField tid 0 1 = 0 ∧ (t.die (dieOf core)).preemptSt = 0 ∧ (t.die (dieOf core)).preempting = none ∧
      let p : Pending := { grid := s.gridOf tid, team := BitVec.ofNat 32 (s.bindField tid 0x18 4), prio := s.grantedPrio tid, part := s.partOf tid, restore := true, save := BitVec.ofNat 64 (s.saveBase tid) }
      (t.die (dieOf core)).pendingQ = (s.die (dieOf core)).pendingQ ++ [p]) ∧
    ((s.die (dieOf core)).committing = some tid → s.bindField tid 0 1 = 1 →
      (areaWaits s tid = true → Completes (.restoreFill core slot) s fun t => t.mem = s.mem ∧ t.groups = s.groups ∧ t.teams = s.teams ∧ t.cores = s.cores ∧ t.hub = s.hub ∧
        (t.die (dieOf core)).committing = some tid) ∧
      (∀ k, areaWaits s tid = false → dispatchCode s tid none = some k → k < 128 → Completes (.restoreFill core slot) s fun t => t.groups = s.groups ∧
        t.bindField tid 0 1 = 0x80 + k ∧ (t.die (dieOf core)).committing = none)) ∧
    ((s.die (dieOf core)).committing ≠ some tid → (s.team tid).filling = false →
      (s.bindField tid 0 1 ≠ 2 ∨ s.isHomeSlot core slot = false ∨ relogNext s tid = none → exec (.restoreFill core slot) s = .next s) ∧
      (∀ gid o, s.bindField tid 0 1 = 2 → s.isHomeSlot core slot = true → relogNext s tid = some (gid, o) → Completes (.restoreFill core slot) s fun t => t.mem = s.mem ∧
        (t.group gid).withdrawn = (s.group gid).withdrawn.drop 1 ∧ (∀ j, j ≠ gid → t.group j = s.group j) ∧
        let k := (s.group gid).core
        (t.core k).log = (s.core k).log ++ [{ o with id := (s.core k).nextId, gid := gid }])) ∧
    ((s.die (dieOf core)).committing ≠ some tid → (s.team tid).filling = true → (s.bindField tid 0 1 = 2 ∨ s.bindField tid 0 1 = 3) → s.isHomeSlot core slot = true →
      ((s.team tid).room = false → roomReady s tid = false → exec (.restoreFill core slot) s = .next s) ∧
      ((s.team tid).room = false → roomReady s tid = true → Completes (.restoreFill core slot) s fun t => (t.team tid).room = true ∧ t.groups = s.groups ∧
        (Memory.wf s.mem → Memory.wf t.mem)) ∧
      ((s.team tid).room = true → s.isRestore tid = false → Completes (.restoreFill core slot) s fun t => t.mem = s.mem ∧ t.groups = s.groups ∧ t.cores = s.cores ∧
        t.team tid = { s.team tid with filling := false })))

end Sys2Proof.Machine

section
open Sys2Proof Sys2Proof.Machine

/-- Teams: retirement, the pacer's accesses, dispatch. -/
def Obligations.TeamsAndDispatch : Prop := retirement ∧ pacerAccess ∧ commits

/-- Pre-emption. (The two turns of SWAP, the mark of what is loaded and the second look at the conditions are the model's: log 49.) -/
def Obligations.Preemption : Prop := preemptions ∧ spills

end

namespace Sys2Proof.Machine

/-! ## Grids and the launch port (13, 14) -/

/-- R389 to R392: what enters the port: a page's packet buffer, discarded while the page is busy, and a frame that carries a packet; what the readers of the rings
write. -/
def portInputs : Prop :=
  (∀ page pkt s, ¬ (page < 140 ∧ pkt.length = 128) → exec (.submit page pkt) s = .next s) ∧
  (∀ page pkt s, page < 140 → pkt.length = 128 →
    ((s.page page).busyNow = true → Completes (.submit page pkt) s fun t => HubOnly s t ∧ t.page page = { s.page page with pkt := pkt } ∧ t.hub.packets = s.hub.packets) ∧
    ((s.page page).busyNow = false → Completes (.submit page pkt) s fun t => HubOnly s t ∧ t.page page = { s.page page with pkt := pkt, busy := true } ∧
      t.hub.packets = s.hub.packets ++ [{ src := page, mac := [], bytes := pkt }])) ∧
  (∀ port frame s, exec (.fabricFrameRx port frame false) s = .next s) ∧
  (∀ port frame ok s, puwieg frame = none → exec (.fabricFrameRx port frame ok) s = .next s) ∧
  (∀ port frame mac pkt s, port < 8 → puwieg frame = some (mac, pkt) → Completes (.fabricFrameRx port frame true) s fun t => HubOnly s t ∧
    t.hub.packets = s.hub.packets ++ [{ src := 140 + port, mac := mac, bytes := pkt }]) ∧
  (∀ page (v : Word) s, Completes (.rspheadWrite page v) s fun t => HubOnly s t ∧ t.page page = { s.page page with rspHead := v.setWidth 16 } ∧ ∀ q, q ≠ page → t.page q = s.page q) ∧
  (∀ page (v : DWord) s, Completes (.rspbaseWrite page v) s fun t => HubOnly s t ∧ t.page page = { s.page page with rspBase := v, discard := false } ∧
    ∀ q, q ≠ page → t.page q = s.page q) ∧
  (∀ page r rest s, (s.page page).held = r :: rest → page < 140 →
    let p := s.page page
    let at_ := p.rspBase.toNat + 32 * (p.rspTail.toNat % 2 ^ p.rspSz)
    (2 ^ p.rspSz ≤ (p.rspTail - p.rspHead).toNat → exec (.responseWrite page) s = .next s) ∧
    ((p.rspTail - p.rspHead).toNat < 2 ^ p.rspSz →
      (page < 128 → Completes (.responseWrite page) s fun t => HubOnly s t ∧ t.page page = { p with held := rest, rspTail := p.rspTail + 1 } ∧
        t.hub.upstream = s.hub.upstream ++ [{ requester := some page, addr := BitVec.ofNat 64 at_, data := some r }]) ∧
      (128 ≤ page → s.lineHeld at_ = true → exec (.responseWrite page) s = .next s) ∧
      (128 ≤ page → s.lineHeld at_ = false → plainBytes s at_ r.length → Completes (.responseWrite page) s fun t => storedAt s t at_ r ∧ t.page page = { p with held := rest, rspTail := p.rspTail + 1 } ∧
        t.groups = s.groups ∧ t.cores = s.cores)))

/-- R379, R380, R392: the checks of a packet from a launch page, in their order, those of a fabric packet's tag and sequence number, and the packet's end: refused with its
status, or a grid of its own. -/
def packetsServed : Prop :=
  (∀ s p, p.src < 140 →
    let b := p.bytes
    let tenant := recField b 0 2
    let e := s.tenant tenant
    let valid := tenant < 4096 ∧ (recField e 0 1).testBit 0 = true
    let allowed := (recField e 2 2).testBit (recField b 3 1) = true
    let zero := recField b 4 4 = 0 ∧ recField b 0x28 56 = 0 ∧ recField b 0x6C 4 = 0 ∧ recField b 8 8 = 0 ∧ recField b 0x60 12 = 0 ∧ recField b 0x70 16 = 0
    packetChecks s p = (s, if ¬ valid then 1 else if sourceBad s e p.src then 2 else if ¬ allowed then 5 else if recField e 1 1 % 16 < recField b 2 1 then 6
      else if ¬ zero then 8 else 0)) ∧
  (∀ s p, 140 ≤ p.src →
    let b := p.bytes
    let e := s.tenant (recField b 0 2)
    recField b 0 2 < 4096 → (recField e 0 1).testBit 0 = true → sourceBad s e p.src = false →
    (gmac (part e 0x50 16) (part b 0x60 12) (part b 0 0x70) ≠ part b 0x70 16 → packetChecks s p = (s, 3)) ∧
    (gmac (part e 0x50 16) (part b 0x60 12) (part b 0 0x70) = part b 0x70 16 → recField b 8 8 ≤ recField e 0x60 8 → packetChecks s p = (s, 4))) ∧
  (∀ s, nextPacket s = none ∨ s.launchOpen = false → exec .launchPacket s = .next s) ∧
  (∀ s n p s1 st, nextPacket s = some (n, p) → s.launchOpen = true → packetChecks (takePacket s (n, p)) p = (s1, st) → st ≠ 0 → p.src < 140 → (s.page p.src).discard = false →
    Completes .launchPacket s fun t => HubOnly s t ∧ t.hub.packets = ldrop s.hub.packets n ∧ t.hub.refused = s.hub.refused + 1 ∧ t.hub.grids = s.hub.grids ∧
      (t.page p.src).busy = false ∧ (t.page p.src).held = (s.page p.src).held ++ [leBytes 8 (recField p.bytes 0x20 8) ++ leBytes 8 0 ++ leBytes 1 0 ++ leBytes 1 st ++ List.replicate 14 0]) ∧
  (∀ s n p s1 s2 r, nextPacket s = some (n, p) → s.launchOpen = true → packetChecks (takePacket s (n, p)) p = (s1, 0) → p.src < 140 → (s.page p.src).discard = false →
    let b := p.bytes
    let tenant := recField b 0 2
    let satp := recField b 0x10 8
    launchChecks s1 satp (recField (s1.tenant tenant) 8 8) (recField b 3 1) tenant (recField b 0x18 8) (fun x => x == 0 || x == satp) = (s2, .ok r) →
    let id : DWord := (s.hub.serial.setWidth 64 <<< 32) ||| BitVec.ofNat 64 tenant
    Completes .launchPacket s fun t => t.groups = s.groups ∧ t.teams = s.teams ∧ t.hub.accepted = s.hub.accepted + 1 ∧ t.hub.packets = ldrop s.hub.packets n ∧
      t.hub.serial = (if s.hub.serial + 1 = 0 then 1 else s.hub.serial + 1) ∧
      (∃ x, t.hub.grids = s.hub.grids ++ [x] ∧ x.id = id ∧ x.record = r ∧ x.prio = recField b 2 1 ∧ x.part = recField b 3 1 ∧ x.dealt = 0 ∧ x.live = recField r 0x10 4 + 1 ∧ x.src = p.src) ∧
      (t.page p.src).held = (s.page p.src).held ++ [leBytes 8 (recField b 0x20 8) ++ leBytes 8 id.toNat ++ leBytes 1 0 ++ leBytes 1 0 ++ List.replicate 14 0])

/-- R382, R383: LAUNCH posts the record's address; the port answers the oldest request, and the reply writes the pair. -/
def launches : Prop :=
  (∀ (d a : BitVec 8) s c, issuer s = some c → issues (encode (.launch d a)) s = true →
    let i := Instr.launch d a
    let g := s.group c.gid
    let ra := readU64 s g c a.toNat
    (uniformSplit g c = true → Raises i s c (gangTrap g c 4 d.toNat 0)) ∧
    (uniformSplit g c = false → ra.toNat % 256 ≠ 0 → Raises i s c (gangTrap g c 8 1 ra)) ∧
    (uniformSplit g c = false → ra.toNat % 256 = 0 → ((s.team g.tid).offset ra).isSome = true → Raises i s c (gangTrap g c 8 3 ra)) ∧
    (uniformSplit g c = false → ra.toNat % 256 = 0 → (s.team g.tid).offset ra = none → Completes i s fun t =>
      PostIssue s t c (.launch c.gid d.toNat ra) ∧ NoBatch g (t.group c.gid))) ∧
  (∀ s q rest s1 v, s.hub.launchReqs = q :: rest → serveLaunch s q = some (s1, v) → Completes .launchRequest s fun t =>
    t.hub.launchReqs = rest ∧ t.hub.launchReplies = s.hub.launchReplies ++ [{ gid := q.gid, d := q.d, value := v }] ∧ t.teams = s.teams ∧ (∀ j, j ≠ q.gid → t.group j = s.group j) ∧
    t.hub.grids = s1.hub.grids ∧ ∀ i, i < (s.group q.gid).slices.length →
      (t.group q.gid).slice i = let x := (s.group q.gid).slice i; if q.gang.getLsbD i then { x with posts := x.posts - 1 } else x) ∧
  (∀ s q, serveLaunch s q = none → s.hub.launchReqs.head? = some q → exec .launchRequest s = .next s) ∧
  (∀ n s x, s.hub.launchReplies[n]? = some x → (s.group x.gid).retired = false → Completes (.launchReply n) s fun t =>
    t.hub = { s.hub with launchReplies := ldrop s.hub.launchReplies n } ∧ t.mem = s.mem ∧ t.cores = s.cores ∧ (∀ j, j ≠ x.gid → t.group j = s.group j) ∧
    (t.group x.gid).uregs = (uput64 (s.group x.gid) x.d x.value).uregs ∧ (t.group x.gid).slices = (s.group x.gid).slices)

/-- R377: a grid's teams are dealt one at a time to the dies that have clusters of its partition, once no predecessor of it is in the table; a grid whose teams have
all ended stores DONE, sends its response and leaves the table. -/
def gridsRun : Prop :=
  (∀ grid s x d, s.findGrid grid = some x → dealReady s x = true → dealDie s x = some d → Completes (.gridDeal grid) s fun t => t.mem = s.mem ∧ t.groups = s.groups ∧
    t.cores = s.cores ∧ (t.die d).pendingQ = (s.die d).pendingQ ++ [{ grid := grid, team := BitVec.ofNat 32 x.dealt, prio := x.prio, part := x.part, restore := false, save := 0 }] ∧
    (∀ k, k ≠ d → t.die k = s.die k) ∧ t.findGrid grid = some { x with dealt := x.dealt + 1, nextDie := (d + 1) % 4 }) ∧
  (∀ s x, dealReady s x = true → (∀ p ∈ recordPreds x.record, s.findGrid p = none) ∧ x.dealt ≤ recField x.record 0x10 4) ∧
  (∀ s x d, dealDie s x = some d → d < 4 ∧ (s.die d).partmap.getD x.part 0 ≠ 0 ∧ (s.die d).pendingQ.length < 1024) ∧
  (∀ grid s x, s.findGrid grid = some x → (dealReady s x = false → exec (.gridDeal grid) s = .next s) ∧ (completeReady s x = false → exec (.gridComplete grid) s = .next s)) ∧
  (∀ grid s x s1 st, s.findGrid grid = some x → completeReady s x = true →
    storeDone (x.coreList.foldl (fun t c => cleanLines t c x.lines false) s) x = some (s1, st) → x.src < 140 → (s.page x.src).discard = false →
    Completes (.gridComplete grid) s fun t => t.groups = s.groups ∧ t.teams = s.teams ∧ t.findGrid grid = none ∧ (Memory.wf s.mem → Memory.wf t.mem) ∧
      (t.page x.src).held = (s.page x.src).held ++ [leBytes 8 x.cookie.toNat ++ leBytes 8 grid.toNat ++ leBytes 1 1 ++ leBytes 1 st ++ List.replicate 14 0])

end Sys2Proof.Machine

section
open Sys2Proof Sys2Proof.Machine

/-- Grids and the launch port. (That a packet is taken at stage 8 only and not in minimal mode, and the page that waits, are the model's: log 50.) -/
def Obligations.LaunchPort : Prop := portInputs ∧ packetsServed

/-- Launches and grids. (The path of a packet and the turn by which a grid's teams are dealt to dies are the model's: logs 50, 51.) -/
def Obligations.LaunchesAndGrids : Prop := launches ∧ gridsRun

end

namespace Sys2Proof.Machine

/-! ## Management (14) -/

/-- The referee has appended an entry to its log (R408): TIME, EVENT, DETAIL, PART and 16 bytes of DATA, in the ring of 4,096. -/
def LogsEntry (s : State) (r u : Referee) (event detail part : Nat) : Prop :=
  let e := leBytes 8 (s.time - r.coldAt) ++ leBytes 2 event ++ leBytes 2 detail ++ leBytes 4 part ++ List.replicate 16 0
  u.log = (if r.logNext < r.log.length then lset r.log r.logNext e else r.log ++ [e]) ∧ u.logNext = (r.logNext + 1) % 4096

/-- The mailbox's registers after a command (R407): its argument and then its result in MBDATA, their lengths, the status. -/
def answered (r : Referee) (arg : List Byte) (st : Nat) (result : List Byte) : Referee :=
  { r with mbAlen := BitVec.ofNat 32 arg.length, mbData := bputs (bputs r.mbData 0 arg) 0 result, mbStatus := st, mbResult := result }

/-- The mailbox has answered, and nothing but the referee's record of the answer has changed. -/
def Answers (i : List Byte → Instr) (arg : List Byte) (s : State) (st : Nat) (result : List Byte) : Prop :=
  exec (i arg) s = .next { s with referee := answered s.referee arg st result }

/-- The mailbox takes a command from a source (R407): it is not busy, the command runs in the present mode, the source may give it. -/
def Takes (s : State) (src : Nat) (owner minimal : Bool) : Prop :=
  s.referee.mbStatus < 2 ^ 31 ∧ (s.referee.minimal = true → minimal = true) ∧ (owner = true → src = s.referee.owner)

/-- R407, R408: a command is discarded while BUSY is set; status 7 in minimal mode, 4 from a source that is not the owner, 2 for a wrong length. -/
def mailboxChecks : Prop :=
  let table : List ((Nat → List Byte → Instr) × Bool × Bool × Nat × Nat) :=
    [(.getBootStatus, false, true, 0, 0), (.setOwner, true, false, 4, 4), (.imageBegin, true, true, 8, 8), (.imageData, true, true, 8, 4096),
     (.imageEnd, true, true, 0, 0), (.commitSvn, true, false, 0, 0), (.setPartition, true, false, 68, 68), (.getPartition, false, false, 4, 4),
     (.setTenant, true, false, 132, 132), (.getTenant, true, false, 4, 4), (.tearDown, true, false, 8, 8), (.dieReset, true, false, 4, 4),
     (.snapMailbox, true, false, 4, 4), (.setHolim, true, false, 4, 4), (.readLog, false, true, 4, 4), (.readSensors, false, true, 0, 0), (.spdm, false, true, 1, 4096)]
  ∀ c ∈ table, ∀ src arg s, src < 2 → let (cmd, owner, minimal, lo, hi) := c
    (2 ^ 31 ≤ s.referee.mbStatus → exec (cmd src arg) s = .next s) ∧
    (s.referee.mbStatus < 2 ^ 31 → s.referee.minimal = true → minimal = false → Answers (cmd src) arg s 7 []) ∧
    (s.referee.mbStatus < 2 ^ 31 → (s.referee.minimal = true → minimal = true) → owner = true → src ≠ s.referee.owner → Answers (cmd src) arg s 4 []) ∧
    (Takes s src owner minimal → (arg.length < lo ∨ hi < arg.length) → Answers (cmd src) arg s 2 [])

/-- R401, R403, R408: BOOT_STATUS, the owner, and the images. -/
def imageCommands : Prop :=
  (∀ src s, Takes s src false true → Answers (.getBootStatus src) [] s 0 (leBytes 4 s.referee.bootStatus.toNat)) ∧
  (∀ r : Referee, r.reason < 8 → r.stage < 16 → r.failcnt < 4 → r.slot < 2 →
    r.bootStatus.toNat = (if r.minimal then 2 ^ 31 else 0) + r.reason * 2 ^ 24 + r.stage * 2 ^ 20 + r.failcnt * 2 ^ 16 + r.slot * 2 ^ 8) ∧
  (∀ src arg s, Takes s src true false → arg.length = 4 →
    (1 < leNat arg → Answers (.setOwner src) arg s 3 []) ∧
    (leNat arg ≤ 1 → exec (.setOwner src arg) s = .next { s with referee := answered { s.referee with owner := leNat arg } arg 0 [] })) ∧
  (∀ src arg s, Takes s src true true →
    let r := s.referee
    let n := 1 - r.slot
    let x := r.images.getD n .reset
    let off := leNat (arg.take 8)
    let data := arg.drop 8
    let why := if Config.ed25519Ok x.size x.bytes = false then 1 else if Config.mldsaOk x.size x.bytes = false then 2 else if Config.imageSvn x.size x.bytes < r.svnCount then 3 else 0
    (arg.length = 8 → exec (.imageBegin src arg) s =
      .next { s with referee := answered { r with images := lset r.images n { bytes := [], size := leNat arg, opened := true, bootable := false } } arg 0 [] }) ∧
    (8 ≤ arg.length → arg.length ≤ 4096 →
      (x.opened = false → Answers (.imageData src) arg s 5 []) ∧
      (x.opened = true → x.size < off + data.length → Answers (.imageData src) arg s 3 []) ∧
      (x.opened = true → off + data.length ≤ x.size → ∃ bs, exec (.imageData src arg) s =
          .next { s with referee := answered { r with images := lset r.images n { x with bytes := bs } } arg 0 [] } ∧
        ∀ a, sget 0 bs a = if off ≤ a ∧ a < off + data.length then data.getD (a - off) 0 else sget 0 x.bytes a)) ∧
    (x.opened = false → Answers (.imageEnd src) [] s 5 []) ∧
    (x.opened = true → why ≠ 0 → exec (.imageEnd src []) s =
      .next { s with referee := answered { r with images := lset r.images n { x with opened := false } } [] 6 (leBytes 4 why) }) ∧
    (x.opened = true → why = 0 → Completes (.imageEnd src []) s fun t => ∃ u : Referee, t = { s with referee := u } ∧ LogsEntry s r u 5 n 0xFFFFFFFF ∧
      u = { answered { r with images := lset r.images n { x with opened := false, bootable := true }, verified := true } [] 0 [0, 0, 0, 0] with log := u.log, logNext := u.logNext })) ∧
  (∀ src s, Takes s src true false →
    let n := max s.referee.svnCount s.referee.runSvn
    (s.referee.stage ≠ 8 → Answers (.commitSvn src) [] s 5 []) ∧
    (s.referee.stage = 8 → exec (.commitSvn src []) s = .next { s with referee := answered { s.referee with svnCount := n } [] 0 (leBytes 4 n) }))

/-- R386 to R388: a partition record is written unless its fields break their limits, it overlaps another valid one, or a cluster that it gains holds a team; while a
cluster that it loses still holds a team that is to be saved, RESETTING is set and the command is busy, until the last such team has gone; PARTMAP of every die follows. What was
written reads back. -/
def partitionCommands : Prop :=
  (∀ src arg s, Takes s src true false → arg.length = 68 →
    let i := leNat (arg.take 4)
    let b := arg.drop 4
    let new := { PartRec.ofBytes b with resetting := false }
    let old := s.partRec i
    let bad := partOverlaps s i new = true ∨ teamsIn s (new.given &&& ~~~old.given) ≠ []
    let leave := (teamsIn s (old.given &&& ~~~new.given)).filter fun t => s.partOf t == i
    ((12 ≤ i ∨ partRecordOk b = false) → Answers (.setPartition src) arg s 3 []) ∧
    (i < 12 → partRecordOk b = true →
      (bad → Answers (.setPartition src) arg s 5 []) ∧
      (¬ bad → leave = [] → Completes (.setPartition src arg) s fun t => t.mem = s.mem ∧ t.groups = s.groups ∧ t.teams = s.teams ∧ t.cores = s.cores ∧ t.hub = s.hub ∧
        t.referee = answered { s.referee with parts := t.referee.parts } arg 0 [] ∧ t.partRec i = new ∧ (∀ j, j ≠ i → t.partRec j = s.partRec j) ∧
        ∀ d p, d < 4 → p < 12 → (t.die d).partmap.getD p 0 = ((t.partRec p).given >>> (5 * d)).setWidth 5) ∧
      (¬ bad → leave ≠ [] → (∀ t ∈ leave, s.saveBase t ≠ 0) → Completes (.setPartition src arg) s fun t => t.groups = s.groups ∧ t.teams = s.teams ∧
        t.dies = s.dies ∧ t.hub = s.hub ∧ t.partRec i = { old with resetting := true } ∧ t.referee.mbStatus = 2 ^ 31 ∧ t.referee.changing = some (i, new)))) ∧
  (∀ s i r, s.referee.changing = some (i, r) →
    let leave := (teamsIn s ((s.partRec i).given &&& ~~~r.given)).filter fun t => s.partOf t == i
    (leave ≠ [] → (∀ t ∈ leave, s.saveBase t ≠ 0) → execChange s = .next s) ∧
    (leave = [] → ∃ t, execChange s = .next t ∧ t.mem = s.mem ∧ t.groups = s.groups ∧ t.teams = s.teams ∧ t.cores = s.cores ∧ t.hub = s.hub ∧ t.partRec i = r ∧
      (∀ j, j ≠ i → t.partRec j = s.partRec j) ∧ t.referee.changing = none ∧ t.referee.mbStatus = 0 ∧
      ∀ d p, d < 4 → p < 12 → (t.die d).partmap.getD p 0 = ((t.partRec p).given >>> (5 * d)).setWidth 5)) ∧
  (∀ src arg s, Takes s src false false → arg.length = 4 →
    (12 ≤ leNat arg → Answers (.getPartition src) arg s 3 []) ∧ (leNat arg < 12 → Answers (.getPartition src) arg s 0 (s.partRec (leNat arg)).bytes)) ∧
  (∀ b, b.length = 64 → ∀ k, (PartRec.ofBytes b).bytes.getD k 0 = b.getD k 0 &&&
    (if k = 2 then 0x0F else if k = 3 ∨ 0x34 ≤ k then 0 else if k = 0x32 then 7 else if k = 0x33 then 3 else 0xFF))

/-- R328, R379, R394, R398, R408: the tenants; a grid torn down; a die's warm reset, and its readmission, which clears MOVING where no move runs any more. -/
def tenantCommands : Prop :=
  (∀ src arg s, Takes s src true false → arg.length = 132 →
    let i := leNat (arg.take 4)
    let b := arg.drop 4
    let old := s.tenant i
    ((4096 ≤ i ∨ tenantOk b = false) → Answers (.setTenant src) arg s 3 []) ∧
    (i < 4096 → tenantOk b = true →
      ((recField b 0 1).testBit 0 = false ∧ recField old 0x68 2 ≠ 0 → Answers (.setTenant src) arg s 5 []) ∧
      (((recField b 0 1).testBit 0 = true ∨ recField old 0x68 2 = 0) → old.length = 128 → Completes (.setTenant src arg) s fun t => t.mem = s.mem ∧ t.groups = s.groups ∧ t.cores = s.cores ∧
        t.dies = s.dies ∧ t.referee = answered s.referee arg 0 [] ∧ (∀ j, j ≠ i → t.tenant j = s.tenant j) ∧
        ∀ k, (t.tenant i).getD k 0 = if 0x60 ≤ k ∧ k < 0x6A then old.getD k 0 else b.getD k 0 &&& tenantMask k))) ∧
  (∀ src arg s, Takes s src true false → arg.length = 4 →
    (4096 ≤ leNat arg → Answers (.getTenant src) arg s 3 []) ∧
    (leNat arg < 4096 → (s.tenant (leNat arg)).length = 128 → ∃ r, Answers (.getTenant src) arg s 0 r ∧ r.length = 128 ∧
      ∀ k, r.getD k 0 = if 0x50 ≤ k ∧ k < 0x60 then 0 else (s.tenant (leNat arg)).getD k 0)) ∧
  (∀ src arg s, Takes s src true false → arg.length = 8 →
    let id := BitVec.ofNat 64 (leNat arg)
    (s.findGrid id = none → Answers (.tearDown src) arg s 3 []) ∧
    (∀ x, s.findGrid id = some x → Completes (.tearDown src arg) s fun t => t.referee.mbStatus = 0 ∧ t.findGrid id = none ∧ (Memory.wf s.mem → Memory.wf t.mem) ∧
      (∀ d, d < 4 → ∀ p ∈ (t.die d).pendingQ, p.grid ≠ id) ∧ (∀ v ∈ t.hub.saved, v.grid ≠ id) ∧
      (x.src < 140 → (s.page x.src).discard = false → (t.page x.src).held = (s.page x.src).held ++ [responseBytes x.cookie id 2 0]) ∧
      LogsEntry s s.referee t.referee 4 0 x.part)) ∧
  (∀ src arg s, Takes s src true false → arg.length = 4 →
    let d := leNat arg
    (4 ≤ d → Answers (.dieReset src) arg s 3 []) ∧
    (d < 4 → Completes (.dieReset src arg) s fun t => t.referee.mbStatus = 2 ^ 31 ∧ (t.die d).down = true ∧ (∀ e ∈ t.cores, dieOf e.1 ≠ d) ∧ (t.die d).locks = [] ∧ (t.die d).tlb = [] ∧
      (∀ x ∈ s.hub.grids, (∃ k ∈ gridTeams s x.id, dieOf (k / 32) = d) → t.findGrid x.id = none) ∧ (∀ e ∈ t.hub.sync, ∀ y ∈ e.dirty, dieOf y.core ≠ d) ∧
      LogsEntry s s.referee t.referee 4 d 0xFFFFFFFF)) ∧
  (∀ d s, ((s.die d).down = false → exec (.dieReadmit d) s = .next s) ∧
    ((s.die d).down = true → Completes (.dieReadmit d) s fun t => t.mem = s.mem ∧ t.groups = s.groups ∧ t.cores = s.cores ∧ t.hub = { s.hub with frames := t.hub.frames } ∧
      (∀ f, let moves := ∃ m ∈ s.hub.moves, m.slot.isSome = true ∧ ((m.o ≤ f * 4096 ∧ f * 4096 < m.o + m.size) ∨ (m.n ≤ f * 4096 ∧ f * 4096 < m.n + m.size))
        (moves → t.frameRec f = s.frameRec f) ∧ (¬ moves → t.frameRec f = { s.frameRec f with moving := false })) ∧
      t.die d = { s.die d with down := false, released := s.time } ∧ (∀ k, k ≠ d → t.die k = s.die k) ∧
      t.referee = if s.referee.mbStatus = 2 ^ 31 ∧ s.referee.changing = none then { s.referee with mbStatus := 0, mbResult := [] } else s.referee))

/-- R331, R401, R408: the handover limit, the log, the sensors and attestation, whose measurements carry both signatures, by mailbox or by PCIe DOE (which request code asks
for measurements: log 25). -/
def readingCommands : Prop :=
  (∀ src arg s, Takes s src true false → arg.length = 4 →
    exec (.setHolim src arg) s = .next { s with hub := { s.hub with holim := BitVec.ofNat 32 (leNat arg) }, referee := answered s.referee arg 0 [] }) ∧
  (∀ src arg s, Takes s src false true → arg.length = 4 →
    let newest := (s.referee.logNext + 4095) % 4096
    let first := leNat arg % 4096
    ∃ es : List (List Byte), Answers (.readLog src) arg s 0 (leBytes 4 newest ++ es.flatten) ∧ es.length ≤ 127 ∧
      (s.referee.logNext < 4096 → s.referee.log.length = 4096 → es.length = min 127 ((newest + 4096 - first) % 4096 + 1) ∧
        ∀ j, j < es.length → es[j]? = s.referee.log[(first + j) % 4096]?)) ∧
  (∀ src s, Takes s src false true → Answers (.readSensors src) [] s 0 (leBytes 4 Config.sensorCount ++ (sensorEntries s).flatMap fun x => leBytes 8 x.toNat)) ∧
  (∀ src arg s,
    let r := Config.spdmResponse arg s.time
    let reply := if (arg.getD 1 0).toNat = 0xE0 then r ++ Config.ed25519Sign r ++ Config.mldsaSign r else r
    (src < 2 → Takes s src false true → 1 ≤ arg.length → arg.length ≤ 4096 → Answers (.spdm src) arg s 0 reply) ∧
    exec (.spdm 2 arg) s = .next { s with referee := { s.referee with doe := reply } }) ∧
  (∀ sensor s, Completes (.sensorBeyondLimit sensor) s fun t => LogsEntry s s.referee t.referee 6 sensor 0xFFFFFFFF ∧
    t = { s with referee := { s.referee with log := t.referee.log, logNext := t.referee.logNext } })

/-- A trigger with number n has gone out to every block (R404). -/
def triggered (s : State) (n : BitVec 16) : Hub := { s.hub with snapNum := n, snapFlight := true, snapWait := List.range 236 }

/-- R404 to R406: a trigger is sent unless one is in flight; SNAP counts as an atomic until the hub's reply writes d; each block latches once; the trigger completes when
every block has. -/
def snapshots : Prop :=
  (∀ n s, (s.hub.snapFlight = true → exec (.snaptrig n) s = .next s) ∧ (s.hub.snapFlight = false → exec (.snaptrig n) s = .next { s with hub := triggered s n })) ∧
  (∀ src arg s, Takes s src true false → arg.length = 4 →
    (s.hub.snapFlight = true → Answers (.snapMailbox src) arg s 0 [1, 0, 0, 0]) ∧
    (s.hub.snapFlight = false → exec (.snapMailbox src arg) s =
      .next { s with hub := triggered s (BitVec.ofNat 16 (leNat arg)), referee := answered s.referee arg 0 [0, 0, 0, 0] })) ∧
  (∀ (d : BitVec 8) (n : BitVec 16) s c, issuer s = some c → issues (encode (.snap d n)) s = true → uniformSplit (s.group c.gid) c = false →
    RequestSays (.snap d n) s c (.snap d.toNat n) (fun _ => 0) fun _ => 0) ∧
  (∀ core id s o d n, s.findOp core id = some o → (s.group o.gid).core = core → opReady s o = true → o.kind = .snap d n →
    Completes (.atomicReply core id) s fun t => Served s t o ∧ SameV (s.group o.gid) (t.group o.gid) never ∧ SameP (s.group o.gid) (t.group o.gid) never ∧
      SameU (s.group o.gid) (t.group o.gid) (atReg d) ∧ t.mem = s.mem ∧ t.teams = s.teams ∧ t.dies = s.dies ∧ t.homes = s.homes ∧
      uget (t.group o.gid) d = (if s.hub.snapFlight then 1 else 0) ∧ t.hub = if s.hub.snapFlight then s.hub else triggered s n) ∧
  (∀ b s, (s.hub.snapFlight = false ∨ b ∉ s.hub.snapWait → exec (.snapshotLatch b) s = .next s) ∧
    (s.hub.snapFlight = true → b ∈ s.hub.snapWait → Completes (.snapshotLatch b) s fun t => HubOnly s t ∧ (∀ x, x ∈ t.hub.snapWait ↔ x ∈ s.hub.snapWait ∧ x ≠ b) ∧
      sfind t.hub.snaps b = some { num := s.hub.snapNum, counters := snapCounters s b } ∧ ∀ k, k ≠ b → sfind t.hub.snaps k = sfind s.hub.snaps k)) ∧
  (∀ s b h, b < 160 → s.core b = h → snapCounters s b = cycleCount s b :: (h.issued.map (fun n => BitVec.ofNat 64 (n % 2 ^ 48))) ++
    [BitVec.ofNat 64 h.l1Hits, BitVec.ofNat 64 h.l1Misses, BitVec.ofNat 64 h.delivered]) ∧
  (∀ s b d, b < 4 → s.die b = d → snapCounters s (160 + b) = [d.l2Hits, d.l2Misses, d.tlbMisses, d.locks.length, d.relayBytes].map (BitVec.ofNat 64)) ∧
  (∀ s, (s.hub.snapFlight = true ∧ s.hub.snapWait = [] → exec .snapshotComplete s = .next { s with hub := { s.hub with snapFlight := false } }) ∧
    (s.hub.snapFlight = false ∨ s.hub.snapWait ≠ [] → exec .snapshotComplete s = .next s))

/-- R402, R403: a cold start, the stages of a start, and what a failed one leads to. -/
def starts : Prop :=
  (∀ s, s.referee.minimal = true → s.referee.verified = false → exec .coldStart s = .next s) ∧
  (∀ s, (s.referee.minimal = false ∨ s.referee.verified = true) → Completes .coldStart s fun t => let r := s.referee; let u := t.referee
    t.mem = [] ∧ t.groups = [] ∧ t.teams = [] ∧ t.cores = [] ∧ t.homes = [] ∧ t.hub = { Hub.reset with fabricIv := s.hub.fabricIv } ∧ t.hub.holim = 1000000 ∧
    (∀ d, d < 4 → t.die d = { Die.reset with released := s.time }) ∧ u.owner = 0 ∧ u.mbStatus = 0 ∧ u.faultQ = [] ∧ u.postings = [] ∧ u.parts = [] ∧ u.stage = 0 ∧ u.minimal = false ∧
    u.boot = some 0 ∧ u.slot = (if r.verified then 1 - r.slot else r.slot) ∧ u.images = r.images ∧ u.svnCount = r.svnCount ∧ u.failcnt = r.failcnt ∧ u.log = r.log ∧
    u.logNext = r.logNext ∧ u.coldAt = s.time ∧ t.time = s.time ∧ t.inputs = s.inputs) ∧
  (∀ reason s, s.referee.boot = none → exec (.bootStage reason) s = .next s ∧ exec .bootStageTimeout s = .next s) ∧
  (∀ reason s k, s.referee.boot = some k →
    let r := s.referee
    let x := r.images.getD r.slot .reset
    let bad := if k + 1 = 2 then (if Config.ed25519Ok x.size x.bytes = false then 1 else if Config.mldsaOk x.size x.bytes = false then 2
      else if Config.imageSvn x.size x.bytes < r.svnCount then 3 else 0) else 0
    let fails (i : Instr) (why : Nat) : Prop :=
      (r.failcnt < 2 → Completes i s fun t => LogsEntry s r t.referee 2 ((k + 1) * 16 + why) 0xFFFFFFFF ∧
        let u := { r with stage := k + 1, reason := why, failcnt := r.failcnt + 1, boot := some 0, slot := 1 - r.slot }
        t = { s with referee := { u with log := t.referee.log, logNext := t.referee.logNext } }) ∧
      (2 ≤ r.failcnt → Completes i s fun t => (∃ u, LogsEntry s r u 2 ((k + 1) * 16 + why) 0xFFFFFFFF ∧ u.coldAt = r.coldAt ∧ LogsEntry s u t.referee 7 0 0xFFFFFFFF) ∧
        let u := { r with stage := k + 1, reason := why, failcnt := 3, boot := none, minimal := true }
        t = { s with referee := { u with log := t.referee.log, logNext := t.referee.logNext } })
    fails .bootStageTimeout 4 ∧
    (bad ≠ 0 → fails (.bootStage reason) bad) ∧
    (bad = 0 → (reason = 5 ∨ reason = 6) → fails (.bootStage reason) reason) ∧
    (bad = 0 → reason ≠ 5 → reason ≠ 6 → k + 1 ≠ 8 → exec (.bootStage reason) s = .next { s with referee := { r with stage := k + 1, boot := some (k + 1) } }) ∧
    (bad = 0 → reason ≠ 5 → reason ≠ 6 → k + 1 = 8 → Completes (.bootStage reason) s fun t => LogsEntry s r t.referee 1 0 0xFFFFFFFF ∧
      t = { s with referee := { r with stage := 8, boot := none, failcnt := 0, runSvn := Config.imageSvn x.size x.bytes, log := t.referee.log, logNext := t.referee.logNext } }))

/-- R395, R396: a function-level reset tears down the grids of one virtual function and resets its page; in self-hosted mode RSTDONE waits for the operating system's answer
to the notice (that this input stands for the answer: log 67); a hot reset resets every page, and tears down the grids of the
functions whose partition is not self-hosted. -/
def functionResets : Prop :=
  (∀ vf s, 128 ≤ vf → exec (.functionLevelReset vf) s = .next s) ∧
  (∀ vf s, vf < 128 → Completes (.functionLevelReset vf) s fun t => (∀ x ∈ t.hub.grids, x.src ≠ vf) ∧
    (∀ x ∈ s.hub.grids, x.src ≠ vf → (∀ y ∈ s.hub.grids, y.src = vf → y.id ≠ x.id) → x ∈ t.hub.grids) ∧
    t.hub.packets = s.hub.packets.filter (fun p => p.src ≠ vf) ∧ (∀ p, s.vfPart vf = some p → t.page vf = { LaunchPage.reset with rstDone := !(s.partRec p).self }) ∧
    (s.vfPart vf = none → t.page vf = { LaunchPage.reset with rstDone := true }) ∧ (∀ p, p ≠ vf → t.page p = s.page p) ∧
    (∀ p, s.vfPart vf = some p → LogsEntry s s.referee t.referee 4 (vf + 0x100) p ∧
      t.referee.notices = if (s.partRec p).self then s.referee.notices ++ [(vf, p)] else s.referee.notices) ∧
    (s.vfPart vf = none → LogsEntry s s.referee t.referee 4 (vf + 0x100) 0xFFFFFFFF ∧ t.referee.notices = s.referee.notices)) ∧
  (∀ vf off v s,
    let mine (e : Nat × Nat) : Prop := e.1 = vf ∧ e.2 < 12
    ((∀ e ∈ s.referee.notices, ¬ mine e) → exec (.controlRegWrite 4 vf off v) s = .next s) ∧
    ((∃ e ∈ s.referee.notices, mine e) → Completes (.controlRegWrite 4 vf off v) s fun t => HubOnly { s with referee := t.referee } t ∧
      t.page vf = { s.page vf with rstDone := true } ∧ (∀ p, p ≠ vf → t.page p = s.page p) ∧ ∀ e, e ∈ t.referee.notices ↔ e ∈ s.referee.notices ∧ ¬ mine e)) ∧
  (∀ s, let kept (vf : Nat) : Prop := ∃ p, s.vfPart vf = some p ∧ (s.partRec p).self = true
    Completes .hotReset s fun t =>
      (∀ vf, vf < 128 → (kept vf → t.page vf = { LaunchPage.reset with discard := true }) ∧ (¬ kept vf → t.page vf = LaunchPage.reset ∧ ∀ x ∈ t.hub.grids, x.src ≠ vf)) ∧
      (∀ p, 128 ≤ p → t.page p = s.page p) ∧ t.hub.packets = s.hub.packets.filter (fun p => decide (128 ≤ p.src)) ∧
      (∀ x ∈ s.hub.grids, (128 ≤ x.src ∨ kept x.src) → (∀ y ∈ s.hub.grids, y.id = x.id → 128 ≤ y.src ∨ kept y.src) → x ∈ t.hub.grids) ∧
      LogsEntry s s.referee t.referee 4 0 0xFFFFFFFF)

/-- R357, R393, R406: the commands of a control page act on the group that GHANDLE names, and leave their status in GST; a read or an atomic in the upstream window
that the host does not complete is a PAGE_S2 with REASON 5, over the lanes that access its page; one of a copy is the second-stage fault of the copy. -/
def controlCommands : Prop :=
  (∀ part s,
    let h := (s.ctl part).ghandle
    let cmds := [Instr.gcmdGres part, .gcmdGresSkip part, .gcmdGkill part]
    let gives (i : Instr) (st : Nat) (p : State → Prop) : Prop := Completes i s fun t => t.ctl part = { s.ctl part with gst := st } ∧ t.mem = s.mem ∧ t.teams = s.teams ∧ p t
    let still (t : State) : Prop := t.groups = s.groups ∧ t.cores = s.cores ∧ t.dies = s.dies ∧ t.homes = s.homes ∧ t.referee = s.referee
    (handleGroup s h = none → ∀ i ∈ cmds, gives i 2 still) ∧
    (∀ gid, handleGroup s h = some gid → s.partOf (s.group gid).tid ≠ part → ∀ i ∈ cmds, gives i 2 still) ∧
    (∀ gid, handleGroup s h = some gid → s.partOf (s.group gid).tid = part → ((s.group gid).parked = false ∨ (s.group gid).parkSerial ≠ (h >>> 32).setWidth 16) →
      ∀ i ∈ cmds, gives i 1 still) ∧
    (∀ gid f, handleGroup s h = some gid → s.partOf (s.group gid).tid = part → (s.group gid).parked = true → (s.group gid).parkSerial = (h >>> 32).setWidth 16 →
      (s.group gid).frame = some f →
      gives (.gcmdGres part) 0 (fun t => FrameClosed s t gid f false) ∧ gives (.gcmdGresSkip part) 0 (fun t => FrameClosed s t gid f true) ∧
      gives (.gcmdGkill part) 0 fun t => (t.group gid).frame = none ∧ (t.group gid).queue = [] ∧ (t.group gid).parked = false ∧
        ∀ j, j < (t.group gid).slices.length → ((t.group gid).slice j).live = 0)) ∧
  (∀ core id s o a hs, s.findOp core id = some o → (s.group o.gid).core = core → o.walked = true → o.kind.counter ≠ 1 → (s.group o.gid).frame = none → (s.group o.gid).queue.length < 8 →
    (s.placed o).find? (fun p => upstreamHit p.2) = some (a, hs) →
    Completes (.completionTimeout core id) s fun t => ∃ f e, LoggedEntry s o f e ∧ t = loggedFault s core o e ∧ f.code = 0x0B ∧
      f.cause = 5 * 2 ^ 12 + (if o.kind.writes then 2 ^ 8 else 0) ∧ f.addr = BitVec.ofNat 64 a.va ∧ f.lane = lowestLane f.fmask ∧
      ∀ l, l < 256 → (f.fmask.getLsbD l = true ↔ ∃ p ∈ s.placed o, o.accLane p.1 l = true ∧ upstreamHit p.2 = true ∧ p.1.va / 4096 = a.va / 4096)) ∧
  (∀ core id s o, s.findOp core id = some o → o.walked = false ∨ o.kind.counter = 1 → exec (.completionTimeout core id) s = .next s) ∧
  (∀ core id s c, s.findOp core id = none → s.findCopy core id = some c →
    (c.phase ≠ .running ∨ c.fault ≠ none → exec (.completionTimeout core id) s = .next s) ∧
    (∀ k va, c.phase = .running → c.fault = none → upstreamRead s (s.group c.gid).tid core (copyReads s c) = some (k, va) → Completes (.completionTimeout core id) s fun t =>
      t.mem = s.mem ∧ t.groups = s.groups ∧ t.teams = s.teams ∧ t.dies = s.dies ∧ t.homes = s.homes ∧ t.hub = s.hub ∧ t.referee = s.referee ∧
      t.findCopy core id = some { c with fault := some (.stage2, 0, pageOf va) })) ∧
  (∀ core id s, s.findOp core id = none → s.findCopy core id = none → s.findTask core id = none → s.findEvict (dieOf core) id = none →
    exec (.completionTimeout core id) s = .next s)

/-- R407, R408: the mailbox registers, at the CPU die's mirror and, for a write by the host, in BAR0 of physical function 0. A write to MBCMD gives the command of its
code with the bytes of MBDATA that MBALEN counts; any other code gives status 1, or nothing while BUSY is set. MBALEN and MBDATA are written and read back; MBST,
MBRLEN, BOOT_STATUS and OWNER are read, and a write to them is ignored. -/
def mailboxRegisters : Prop :=
  let codes : List (Nat × (Nat → List Byte → Instr)) :=
    [(0x01, .getBootStatus), (0x02, .setOwner), (0x10, .imageBegin), (0x11, .imageData), (0x12, .imageEnd), (0x13, .commitSvn), (0x20, .setPartition), (0x21, .getPartition),
     (0x30, .setTenant), (0x31, .getTenant), (0x40, .tearDown), (0x41, .dieReset), (0x50, .snapMailbox), (0x51, .setHolim), (0x60, .readLog), (0x61, .readSensors), (0x70, .spdm)]
  ∀ src (v : DWord) s,
    let r := s.referee
    let n := r.mbAlen.toNat
    let write (off : Nat) : Instr := .controlRegWrite 5 src (0x30000 + off) v
    let code := v.toNat % 2 ^ 16
    (∀ off, off < 0x2000 → exec (.controlRegWrite 7 0 off v) s = exec (.controlRegWrite 5 0 (0x30000 + off) v) s) ∧
    (∀ c ∈ codes, code = c.1 → (n ≤ 4096 → exec (write 0) s = exec (c.2 src (bgets r.mbData 0 n)) s) ∧
      (4096 < n → ∃ a, 4096 < a.length ∧ exec (write 0) s = exec (c.2 src a) s)) ∧
    ((∀ c ∈ codes, code ≠ c.1) → (2 ^ 31 ≤ r.mbStatus → exec (write 0) s = .next s) ∧
      (r.mbStatus < 2 ^ 31 → exec (write 0) s = .next { s with referee := { r with mbStatus := 1, mbResult := [] } })) ∧
    exec (write 4) s = .next { s with referee := { r with mbAlen := v.setWidth 32 } } ∧ deviceRead s 4 0x30004 = r.mbAlen.setWidth 64 ∧
    (∀ k, k < 1024 → exec (write (0x1000 + 4 * k)) s = .next { s with referee := { r with mbData := bputs r.mbData (4 * k) (leBytes 4 (v.toNat % 2 ^ 32)) } } ∧
      deviceRead s 4 (0x31000 + 4 * k) = BitVec.ofNat 64 (leNat (bgets r.mbData (4 * k) 4))) ∧
    (∀ off, off < 0x1000 → off ≠ 0 → off ≠ 4 → exec (write off) s = .next s) ∧
    deviceRead s 4 0x30008 = (BitVec.ofNat 32 r.mbStatus).setWidth 64 ∧ deviceRead s 4 0x3000C = (BitVec.ofNat 32 r.mbResult.length).setWidth 64 ∧
    deviceRead s 4 0x30010 = r.bootStatus.setWidth 64 ∧ deviceRead s 4 0x30014 = (BitVec.ofNat 32 r.owner).setWidth 64

/-- R389, R406: the registers of device-register space. An access that is not of 4 or 8 bytes, naturally aligned, reads 0 and is ignored; one of 8 bytes is its two
halves. The blocks stand where the rule puts them: the launch pages, the control pages with FOPA to PARTREC, the hub page (which only the referee writes), and
the read-only snapshot blocks. The registers of a function's page are reached through its own BAR as well. -/
def deviceRegisters : Prop :=
  ∀ s : State,
    let zx (w : Word) : DWord := w.setWidth 64
    (∀ n a, (n ≠ 4 ∧ n ≠ 8) ∨ a % n ≠ 0 → deviceRead s n a = 0) ∧
    (∀ src a v, (a % 4 ≠ 0 → exec (.controlRegWrite 5 src a v) s = .next s) ∧ (a % 8 ≠ 0 → exec (.controlRegWrite 6 src a v) s = .next s)) ∧
    (∀ a, a % 8 = 0 → (deviceRead s 8 a).toNat = (deviceRead s 4 a).toNat + 2 ^ 32 * (deviceRead s 4 (a + 4)).toNat) ∧
    (∀ n a, 0x32000 ≤ a → a < 0x1000000 → deviceRead s n a = 0) ∧
    (∀ part, part < 12 →
      let base := 0x10000 + 0x1000 * part
      let c := s.ctl part
      let read (n off : Nat) : DWord := deviceRead s n (base + off)
      read 8 0x000 = c.fopa ∧ read 4 0x00C = c.fops.setWidth 64 ∧ read 8 0x020 = c.ghandle ∧ read 4 0x02C = zx (BitVec.ofNat 32 c.gst) ∧ read 8 0x040 = c.rring ∧
      read 4 0x048 = zx (BitVec.ofNat 32 c.rrSz) ∧ read 4 0x04C = c.rrHead.setWidth 64 ∧ read 4 0x050 = c.rrTail.setWidth 64 ∧ read 8 0x058 = c.rrMsia ∧
      read 4 0x060 = zx c.rrMsid ∧ (∀ k, k < 16 → read 4 (0x080 + 4 * k) = zx (w32 (s.partRec part).bytes (4 * k))) ∧ (∀ off, 0x0C0 ≤ off → off < 0x1000 → read 4 off = 0) ∧
      (∀ src v, (∀ off ∈ [0x008, 0x048, 0x04C, 0x060], exec (.controlRegWrite 5 src (base + off) v) s = exec (.controlRegWrite 1 part off v) s) ∧
        (let x := v.toNat % 2 ^ 32
         exec (.controlRegWrite 5 src (base + 0x028) v) s =
          if x = 0 then exec (.gcmdGres part) s else if x = 1 then exec (.gcmdGresSkip part) s else if x = 2 then exec (.gcmdGkill part) s else .next s) ∧
        (∀ off ∈ [0x000, 0x020, 0x040, 0x058], Completes (.controlRegWrite 6 src (base + off) v) s fun t => HubOnly s t ∧ (∀ p, p ≠ part → t.ctl p = s.ctl p) ∧
          t.ctl part = if off = 0x000 then { c with fopa := v } else if off = 0x020 then { c with ghandle := v &&& 0x0000FFFF0007FFFF }
            else if off = 0x040 then { c with rring := v } else { c with rrMsia := v }) ∧
        (∀ off ∈ [0x00C, 0x02C, 0x050, 0x080, 0x0BC], Completes (.controlRegWrite 5 src (base + off) v) s fun t => HubOnly s t ∧ ∀ p, t.ctl p = s.ctl p))) ∧
    (deviceRead s 4 0x20000 = zx s.hub.holim ∧ deviceRead s 4 0x20014 = zx (BitVec.ofNat 32 ((if s.hub.snapFlight then 2 ^ 31 else 0) + s.hub.snapNum.toNat)) ∧
      ∀ (v : DWord), exec (.controlRegWrite 5 2 0x20000 v) s = .next { s with hub := { s.hub with holim := v.setWidth 32 } } ∧
        exec (.controlRegWrite 5 2 0x20010 v) s = exec (.snaptrig (v.setWidth 16)) s ∧
        ∀ src off, src ≠ 2 → off < 0x1000 → exec (.controlRegWrite 5 src (0x20000 + off) v) s = .next s) ∧
    (∀ e ∈ [(0x1000000, 0, 160), (0x1100000, 160, 4), (0x1110000, 164, 6), (0x1120000, 170, 1), (0x1130000, 171, 64), (0x1140000, 235, 1)], ∀ k, k < e.2.2 →
      let block := sfind s.hub.snaps (e.2.1 + k)
      deviceRead s 4 (e.1 + 0x400 * k) = (match block with | some b => b.num.setWidth 64 | none => 0) ∧
      (∀ i, i < 127 → deviceRead s 8 (e.1 + 0x400 * k + 8 + 8 * i) = (match block with | some b => b.counters.getD i 0 | none => 0)) ∧
      ∀ src v off, off < 0x400 → exec (.controlRegWrite 5 src (e.1 + 0x400 * k + off) v) s = .next s) ∧
    (∀ p, p < 12 →
      let x := s.page (128 + p)
      let read (n off : Nat) : DWord := deviceRead s n (0x1000 * p + off)
      read 4 0x084 = zx (BitVec.ofNat 32 ((if x.busyNow then 1 else 0) + if x.rstDone then 2 else 0)) ∧ read 8 0x088 = x.rspBase ∧ read 4 0x090 = zx (BitVec.ofNat 32 x.rspSz) ∧
      read 4 0x094 = x.rspHead.setWidth 64 ∧ read 4 0x098 = x.rspTail.setWidth 64 ∧ ∀ off, 0x09C ≤ off → off < 0x1000 → read 4 off = 0) ∧
    (∀ vf (v : DWord), vf < 128 →
      let x := s.page vf
      exec (.controlRegWrite 9 vf 0x080 v) s = exec (.submit vf x.pkt) s ∧ exec (.controlRegWrite 9 vf 0x090 v) s = exec (.controlRegWrite 2 vf 0x090 v) s ∧
      (∀ off, off < 0x080 → off % 4 = 0 → Completes (.controlRegWrite 9 vf off v) s fun t => HubOnly s t ∧
        t.page vf = { x with pkt := setField x.pkt off 4 (v.toNat % 2 ^ 32) }) ∧
      (Completes (.controlRegWrite 10 vf 0x088 v) s fun t => HubOnly s t ∧ t.page vf = { x with rspBase := v, discard := false }) ∧
      (Completes (.controlRegWrite 9 vf 0x094 v) s fun t => HubOnly s t ∧ t.page vf = { x with rspHead := v.setWidth 16 }))

end Sys2Proof.Machine

section
open Sys2Proof Sys2Proof.Machine

/-- The mailbox and its registers. The order of its checks is the model's choice (log 54), as are what a change of a partition or a tenant does with what is under way, and the
statuses it gives there (log 55), and what a reset keeps (log 53). -/
def Obligations.Mailbox : Prop := mailboxChecks ∧ imageCommands ∧ partitionCommands ∧ tenantCommands ∧ readingCommands ∧ mailboxRegisters

/-- Starts, resets, snapshots, the control pages and the registers of device-register space. What a boot, a reset and a snapshot keep and when they are taken are the
model's choices (log 53), as is which accesses a completion timeout meets (log 56). -/
def Obligations.ResetsAndSnapshots : Prop := snapshots ∧ starts ∧ functionResets ∧ controlCommands ∧ deviceRegisters

end

namespace Sys2Proof.Machine

/-! ## Encoding -/

/-! ## The step -/

/-- What a step does after its choice: no gang issues any more, the count of steps advances, and every gang that waits after a YIELD forgets those that have issued
or are ready no longer (R54). -/
def afterStep (s : State) : State :=
  let owed (e : Nat × Nat × Nat) : Bool := let x := (s.group e.1).slice e.2.1; x.issues == e.2.2 && gangReady s e.1 ((s.group e.1).gangSlices x.gang)
  let noted : Wait → Wait | .yield l => .yield (l.filter owed) | w => w
  { s with cur := none, time := s.time + 1, groups := s.groups.map fun e => (e.1, { e.2 with slices := e.2.slices.map fun x => { x with wait := noted x.wait } }) }

/-! ## Sync objects performed (07) -/

/-- R198, R205: a ceiling of a dirty place at core c covers an agent. -/
def ceilingCovers (c ceiling : Nat) : Agent → Prop
  | .core n => n = c ∨ (ceiling = 1 ∧ clusterOf n = clusterOf c) ∨ (ceiling = 3 ∧ dieOf n = dieOf c) ∨ 4 ≤ ceiling
  | .hart => 4 ≤ ceiling
  | .pkg _ => 5 ≤ ceiling

/-- The agent exists. -/
def Agent.exists : Agent → Prop
  | .core n => n < 160
  | .hart => True
  | .pkg p => p < 16

/-- R203, R205: an agent that has joined an object, or joins an address that is none, changes nothing. A new agent is added, and no other; the dirty places whose
ceiling covers it are cleaned (no line of the bound regions in the place's core is dirty any more) and cleared; the other places stay. -/
def joins : Prop :=
  ∀ s obj (a : Agent),
    (s.syncFind obj = none → syncJoin s obj a = s) ∧
    (∀ e, s.syncFind obj = some e → e.has a = true → syncJoin s obj a = s) ∧
    (∀ e, s.syncFind obj = some e → e.has a = false →
      let t := syncJoin s obj a
      t.groups = s.groups ∧ t.teams = s.teams ∧ (Memory.wf s.mem → Memory.wf t.mem) ∧
      (∀ d ∈ e.dirty, ceilingCovers d.core d.ceiling a → ∀ y ∈ (t.core d.core).l1, y.asid = e.asid → y.inRanges e.asid y.vmid e.regions = true → y.dirty = 0) ∧
      (∃ f, t.syncFind obj = some f ∧ f.obj = obj ∧ f.asid = e.asid ∧ f.regions = e.regions ∧ f.dirty.Sublist e.dirty ∧
        (∀ d, d ∈ f.dirty ↔ d ∈ e.dirty ∧ ¬ ceilingCovers d.core d.ceiling a) ∧ (a.exists → ∀ b, f.has b = true ↔ e.has b = true ∨ b = a)))

/-- R208, R210, R211: a BIND writes its region into the object's entry and answers true; with no entry it makes one, unless the table is full; another address
space's entry, and a full table, answer false. An UNBIND frees the entry of its own address space. Nothing else changes. -/
def bindings : Prop :=
  ∀ core id s o, s.findOp core id = some o → (s.group o.gid).core = core → opReady s o = true →
    let asid := s.asid (s.group o.gid).tid
    let gives (p : BitVec 4) (q : Bool) (table : List SyncEntry) : Prop := Completes (.atomicReply core id) s fun t =>
      Served s t o ∧ t.mem = s.mem ∧ t.teams = s.teams ∧ t.dies = s.dies ∧ t.homes = s.homes ∧ t.hub = { s.hub with sync := table } ∧
      SameV (s.group o.gid) (t.group o.gid) never ∧ SameU (s.group o.gid) (t.group o.gid) never ∧ SameP (s.group o.gid) (t.group o.gid) never ∧
      (t.group o.gid).uq = (qput (s.group o.gid) p.toNat q).uq
    (∀ p r base len, o.kind = .bind p r base len →
      let bound (e : SyncEntry) : SyncEntry := { e with regions := lset e.regions r (base, len.toNat) }
      (∀ e, s.syncFind (s.opPa o) = some e → e.asid = asid → gives p true (s.hub.sync.map fun x => if x.obj = s.opPa o then bound e else x)) ∧
      (∀ e, s.syncFind (s.opPa o) = some e → e.asid ≠ asid → gives p false s.hub.sync) ∧
      (s.syncFind (s.opPa o) = none → 16384 ≤ s.hub.sync.length → gives p false s.hub.sync) ∧
      (s.syncFind (s.opPa o) = none → s.hub.sync.length < 16384 →
        gives p true (s.hub.sync ++ [bound { obj := s.opPa o, asid := asid, regions := List.replicate 4 (0, 0), cores := 0, pkgs := 0, hosts := false, dirty := [] }]))) ∧
    (∀ p, o.kind = .unbind p →
      (∀ e, s.syncFind (s.opPa o) = some e → e.asid = asid → gives p true (s.hub.sync.filter fun x => x.obj ≠ s.opPa o)) ∧
      ((s.syncFind (s.opPa o) = none ∨ ∃ e, s.syncFind (s.opPa o) = some e ∧ e.asid ≠ asid) → gives p false s.hub.sync))

/-- An operation that waits in a core's log, ready, with one active lane and one access; its object is not at a move. -/
def OneLane (s : State) (core id : Nat) (o : LogOp) (h : Hit) (l : Nat) : Prop :=
  s.findOp core id = some o ∧ (s.group o.gid).core = core ∧ core < 160 ∧ opReady s o = true ∧ o.hits = [[h]] ∧ lanesOf o.active = [l] ∧ s.hub.moves = []

/-- Once the core has joined, it is the only participant. -/
def aloneAfter (e : SyncEntry) (core : Nat) : Prop := e.cores ||| (1#160 <<< core) = 1#160 <<< core ∧ e.pkgs = 0 ∧ e.hosts = false

/-- R203, R206, R212: an ACQ by one lane reads the object at its home. Unbound, it invalidates nothing. Bound, its core joins; it then drops the lines of the bound
regions from the core's L1 (every line of its own address space, where the entry is another's), unless the core is the only participant. -/
def acquires : Prop :=
  ∀ core id s o d sc h l, OneLane s core id o h l → o.kind = .acq d sc → unheld s core o l → (s.home (homeOf h.pa)).relayMarks.contains h.pa = false →
    let g := s.group o.gid
    let reads (t : State) : Prop := Served s t o ∧ t.teams = s.teams ∧ SameU g (t.group o.gid) never ∧ SameP g (t.group o.gid) never ∧ (t.group o.gid).uq = g.uq ∧
      ∀ n k, k < 256 → vget (t.group o.gid) n k =
        if d ≤ n ∧ n < d + 2 ∧ k = l then BitVec.ofNat 32 (s.pread h.pa 8 / 2 ^ (32 * (n - d))) else vget g n k
    (s.syncFind h.pa = none → Completes (.loadDataReturn core id) s fun t => reads t ∧ t.mem = s.mem ∧ (t.core core).l1 = (s.core core).l1 ∧ t.hub.sync = s.hub.sync) ∧
    (∀ e, s.syncFind h.pa = some e → e.dirty = [] → Completes (.loadDataReturn core id) s fun t => reads t ∧
      (∃ f, t.syncFind h.pa = some f ∧ f.has (.core core) = true ∧ f.asid = e.asid ∧ f.regions = e.regions ∧ f.dirty = []) ∧
      (aloneAfter e core → t.mem = s.mem ∧ (t.core core).l1 = (s.core core).l1) ∧
      (¬ aloneAfter e core →
        let gone (x : L1Line) : Bool := if e.asid = s.asid g.tid then x.inRanges (s.asid g.tid) (s.vmid g.tid) e.regions else ownLine s g x
        (t.core core).l1 = (s.core core).l1.filter fun x => !gone x))

/-- R204: how wide a scope code is as a ceiling, and the wider of two; of GROUP and CORE, CORE is kept. -/
def width (c : Nat) : Nat := [0, 1, 0, 2, 3].getD c 4

def WiderOf (a b c : Nat) : Prop := width c = max (width a) (width b) ∧ c ≠ 0 ∧ (c = a ∨ c = b ∨ c = 2)

/-- R203, R204, R213: a REL by one lane stores its value, or adds it, at the object's home. Unbound, it cleans nothing. Bound, its core joins; where the core is the
only participant and has a dirty place or finds one free, the place records the scope and the writes stay in the L1; otherwise the lines of the bound
regions are clean afterwards (every line of its own address space, where the entry is another's). It waits while an earlier access of its gang is
outstanding. -/
def releases : Prop :=
  ∀ core id s o add sc, o.kind = .rel add sc →
    (∀ p, s.findOp core id = some o → (s.group o.gid).core = core → p ∈ (s.core core).log → p.gid = o.gid → p.id ≠ o.id → p.key < o.key → p.gang &&& o.gang ≠ 0 →
      p.kind.counter < 3 → (s.group o.gid).frameOp = [] → exec (.storePerformed core id) s = .next s) ∧
    (∀ h l, OneLane s core id o h l → unheld s core o l → (∀ x ∈ (s.core core).l1, x.pline ≠ h.pa / 128) → h.pa % 8 = 0 → plainBytes s h.pa 8 →
      let g := s.group o.gid
      let value := leBytes 8 (if add then (s.pread h.pa 8 + o.value l) % 2 ^ 64 else o.value l)
      let kept (t : State) : Prop := Served s t o ∧ t.teams = s.teams ∧ RegsKept g (t.group o.gid)
      let inL1 (t : State) : Prop := storedAt s t h.pa value ∧ (t.core core).l1 = (s.core core).l1
      (s.syncFind h.pa = none → Completes (.storePerformed core id) s fun t => kept t ∧ inL1 t ∧ t.hub.sync = s.hub.sync) ∧
      (∀ e, s.syncFind h.pa = some e → (e.has (.core core) = true ∨ e.dirty = []) →
        let placed := e.dirty.any fun x => x.core == core
        let skips := e.asid = s.asid g.tid ∧ aloneAfter e core ∧ (placed = true ∨ e.dirty.length < 8)
        Completes (.storePerformed core id) s fun t => kept t ∧ bgets t.mem h.pa 8 = value ∧
          (∃ f, t.syncFind h.pa = some f ∧ f.has (.core core) = true ∧ f.asid = e.asid ∧ f.regions = e.regions ∧ (¬ skips → f.dirty = e.dirty) ∧
            (skips → ∃ k : Nat → Nat, (∀ a, WiderOf a sc (k a)) ∧
              f.dirty = if placed then e.dirty.map fun x => if x.core = core then { x with ceiling := k x.ceiling } else x
                else e.dirty ++ [{ core := core, ceiling := k sc }])) ∧
          (skips → inL1 t) ∧
          (¬ skips → ∀ x ∈ (t.core core).l1,
            (if e.asid = s.asid g.tid then x.inRanges (s.asid g.tid) (s.vmid g.tid) e.regions else ownLine s g x) = true → x.dirty = 0)))

end Sys2Proof.Machine

section
open Sys2Proof Sys2Proof.Machine

/-- R16, R31, R34: every well-formed instruction word decodes to its row; every word that decodes is the word of what it decodes to, so no bit of it is dropped; and a
word with a reserved opcode, 0x00 and 0xFF among them, is the row of reserved words. (The rows of MIGR share an opcode, so that the decoder gives its first row for each of them: the model's, log 59.) -/
def Obligations.EveryWordDecodesBack : Prop :=
  (∀ i : Instr, i.isWord = true → i.wellFormed = true → decodeWord (encode i).toNat = some i.decoded ∧ decodeBytes (wordBytes (encode i).toNat) = some i.decoded) ∧
  (∀ w i, w < 2 ^ 32 → decodeWord w = some i → (encode i).toNat = w ∧ i.isWord = true ∧ i.wellFormed = true ∧ i.decoded = i) ∧
  (∀ w, w < 2 ^ 32 → opcodeUsed (w / 2 ^ 24) = false → decodeWord w = some (.reservedOpcode (BitVec.ofNat 32 w))) ∧
  opcodeUsed 0x00 = false ∧ opcodeUsed 0xFF = false

/-- Words that the spec writes out in full (R40, R98, R104, R129, R133, R157, R160, R161, R164, R166, R184, R185, R216, R234, R240, R243, R252, R261, R282, R284, R285,
R316, R322, R347, R383, R405) decode to the instructions that they stand for. -/
def Obligations.WordsOfTheSpecDecode : Prop :=
  ∀ x ∈ ([(0x01050382, .add 0x05 0x03 0x82), (0x1D04FFFD, .movi 0x04 0xFFFD), (0x8C000187, .setmode 0x0187), (0x54070808, .scan 0x07 0x08 1 0), (0x52040A02, .voteBal 0x04 0x0A),
      (0x6C2104A7, .ucmp 2 1 0x04 0xA7), (0x700404F8, .uaddi 0x04 0x04 0xF8), (0x7214C000, .getsr 0x14 0xC0), (0x33080283, .ffma 0x08 0x02 0x83), (0x386A0404, .fcmp 6 10 0x04 0x04),
      (0x4403041A, .cvt 0x03 0x04 1 10), (0x45080920, .cvtr 0x08 0x09 1 0 0), (0x80020003, .bra 2 3), (0x920A0803, .ldw 0x0A 0x08 0x03), (0x98840800, .std 0x84 0x08 0x00),
      (0x9A148202, .ldu 0x14 0x82 0x02), (0x9F720C00, .lds 3 1 2 0x0C 0x00), (0xA0030A02, .unsub 3 0x0A 0x02), (0xA8040608, .acas 0x04 0x06 0x08), (0xAA01282A, .faopen 0x01 0x28 0x2A),
      (0xA901060A, .faadd 0x01 0x06 0x0A), (0xAB000012, .bankcfgFifo 0 2), (0xB021282C, .bind 2 1 0x28 0x2C), (0xB386080C, .relAdd 0x86 0x08 4), (0xB400001C, .fence 1 1 4),
      (0xB5040008, .waitc 0x04 0x8), (0xBB128220, .cpy 1 2 0x82 0x20), (0xB7001400, .waitb 0x14), (0xB91EA111, .bara 0x1E 0xA1 1 1), (0xC01E0104, .sclaim 0x1E 1 0x04),
      (0xC2001407, .tpost 0x14 0x07), (0xC8464801, .slabst 0x46 0x48 1), (0xC4012832, .kvapp 1 0x28 0x32), (0xC6133C40, .kvevict 1 3 0x3C 0x40), (0xD2012810, .phint 1 0x28 0x10),
      (0xF614282A, .migrMove 0x14 0x28 0x2A), (0xF201A02A, .tlbiAsid 0x2A), (0xFA142801, .gres 0x14 0x28 1), (0xD4040200, .launch 0x04 0x02), (0xF7140042, .snap 0x14 0x0042)] : List (Nat × Instr)),
    decodeBytes (wordBytes x.1) = some x.2

/-- R15, R41 and the model's way of interleaving (log 3): a step takes an input of the outside world that is due; else one of the gangs that may issue, which fetches
the word at its PC and runs the instruction that the word decodes to; else one of the events that are due; else time passes. -/
def Obligations.StepRunsTheDecodedInstruction : Prop :=
  (∀ s i r t, dueInput s.time s.inputs = some (i, r) → isExternal i = true → exec i { s with inputs := r } = .next t → step s = .next (afterStep t)) ∧
  (∀ s i r, dueInput s.time s.inputs = some (i, r) → isExternal i = false → step s = .next (afterStep { s with inputs := r })) ∧
  (∀ s n u s1 w i t, dueInput s.time s.inputs = none → (readyGangs s)[n]? = some u → Config.pick s.time % (choices s).length = n →
    fetch s u.gid ((s.group u.gid).slice (lowestSlice u.gang)).pc = (s1, .word w) → decodeWord w.toNat = some i →
    exec i { s1 with cur := some u } = .next t → step s = .next (afterStep t)) ∧
  (∀ s n u s1 w g c, dueInput s.time s.inputs = none → (readyGangs s)[n]? = some u → Config.pick s.time % (choices s).length = n →
    fetch s u.gid ((s.group u.gid).slice (lowestSlice u.gang)).pc = (s1, .word w) → decodeWord w.toNat = none → g = s1.group u.gid →
    c = { gid := u.gid, gang := u.gang, solo := g.soloLane } → wordReady s1 g c w = true →
    ∃ x, decodeCheck g c w = some x ∧ step s = .next (afterStep (raiseTrap (countIssue { s1 with cur := some u } c) c w x))) ∧
  (∀ s n a t, dueInput s.time s.inputs = none → (internalEvents s)[n]? = some a → Config.pick s.time % (choices s).length = (readyGangs s).length + n → a s = .next t →
    step s = .next (afterStep t)) ∧
  (∀ s, dueInput s.time s.inputs = none → readyGangs s = [] → internalEvents s = [] → step s = .next (afterStep s))

/-- R34, R35 and the model's choice that a step which cannot act now leaves the machine as it is (log 1): in every state the package goes on, whatever words its memory
holds and whatever inputs come. -/
def Obligations.NoStepStops : Prop := ∀ s, ∃ t, step s = .next t

/-- The invariant: every step keeps the canonical form of memory, which is the model's own (logs 2 and 58). -/
def Obligations.StepsKeepMemoryCanonical : Prop := ∀ s t, Machine.Inv s → step s = .next t → Machine.Inv t

/-- Reset: HOLIM (R331) and the owner (R408) are the spec's; the size codes of 4, the other registers' zeros and the empty tables are the model's (log 7), the empty memory
as well (log 2); the invariant holds. -/
def Obligations.ResetState : Prop :=
  Machine.Inv State.reset ∧ (∀ a, bget State.reset.mem a = 0) ∧ (∀ gid, (State.reset.group gid).retired = true) ∧ (∀ core slot, State.reset.slotState core slot = 0) ∧
  State.reset.hub.grids = [] ∧ State.reset.hub.holim = 1000000 ∧ State.reset.referee.owner = 0 ∧ State.reset.referee.minimal = false ∧
  (∀ p, (State.reset.ctl p).rrSz = 4 ∧ (State.reset.regs p).ringSz = 4) ∧ (∀ t, (State.reset.tenant t).getD 0 0 = 0)

/-- Sync objects when they are joined, bound, unbound, acquired and released. A request whose cleans could not be acknowledged at once is not ready (opReady) and waits; that
an object is keyed where its word is served is the model's choice (log 65). -/
def Obligations.SynchronisationPerforms : Prop := joins ∧ bindings ∧ acquires ∧ releases

end
end

