-- ==== Sys2Proof/Laws/State.lean ====
section
/-! SUPPORT. What the updates of the state do to its fields, each true by definition, and what a table reads after a write. -/
namespace Sys2Proof.Machine

/-! ## Tables -/

@[simp] theorem sget_nil {α : Type} (d : α) (i : Nat) : sget d [] i = d := rfl

/-- What a table holds after a write: the new entry at its key, the old entries elsewhere. -/
theorem sget_sput {α : Type} (d : α) (m : Sparse α) (i j : Nat) (x : α) :
    sget d (sput m i x) j = if i = j then x else sget d m j := by
  induction m with
  | nil => rfl
  | cons e r ih =>
    obtain ⟨k, v⟩ := e
    simp only [sput]
    split
    · rfl
    · split
      · subst_vars; simp only [sget]; split <;> rfl
      · simp only [sget, ih]
        split
        · subst_vars; rw [if_neg (by omega)]
        · rfl

@[simp] theorem sget_sput_self {α : Type} (d : α) (m : Sparse α) (i : Nat) (x : α) : sget d (sput m i x) i = x := by
  rw [sget_sput, if_pos rfl]

theorem sget_sput_ne {α : Type} (d : α) (m : Sparse α) {i j : Nat} (x : α) (h : i ≠ j) : sget d (sput m i x) j = sget d m j := by
  rw [sget_sput, if_neg h]

/-! ## Fields after an update -/

@[simp] theorem setGroup_mem (s : State) (gid : Nat) (g : Group) : (s.setGroup gid g).mem = s.mem := rfl
@[simp] theorem setGroup_groups (s : State) (gid : Nat) (g : Group) : (s.setGroup gid g).groups = sput s.groups gid g := rfl
@[simp] theorem setGroup_teams (s : State) (gid : Nat) (g : Group) : (s.setGroup gid g).teams = s.teams := rfl
@[simp] theorem setGroup_cores (s : State) (gid : Nat) (g : Group) : (s.setGroup gid g).cores = s.cores := rfl
@[simp] theorem setGroup_dies (s : State) (gid : Nat) (g : Group) : (s.setGroup gid g).dies = s.dies := rfl
@[simp] theorem setGroup_homes (s : State) (gid : Nat) (g : Group) : (s.setGroup gid g).homes = s.homes := rfl
@[simp] theorem setGroup_hub (s : State) (gid : Nat) (g : Group) : (s.setGroup gid g).hub = s.hub := rfl
@[simp] theorem setGroup_referee (s : State) (gid : Nat) (g : Group) : (s.setGroup gid g).referee = s.referee := rfl
@[simp] theorem setGroup_cur (s : State) (gid : Nat) (g : Group) : (s.setGroup gid g).cur = s.cur := rfl
@[simp] theorem setGroup_inputs (s : State) (gid : Nat) (g : Group) : (s.setGroup gid g).inputs = s.inputs := rfl
@[simp] theorem setGroup_time (s : State) (gid : Nat) (g : Group) : (s.setGroup gid g).time = s.time := rfl

@[simp] theorem setTeam_mem (s : State) (tid : Nat) (t : Team) : (s.setTeam tid t).mem = s.mem := rfl
@[simp] theorem setTeam_groups (s : State) (tid : Nat) (t : Team) : (s.setTeam tid t).groups = s.groups := rfl
@[simp] theorem setTeam_teams (s : State) (tid : Nat) (t : Team) : (s.setTeam tid t).teams = sput s.teams tid t := rfl
@[simp] theorem setTeam_cores (s : State) (tid : Nat) (t : Team) : (s.setTeam tid t).cores = s.cores := rfl
@[simp] theorem setTeam_dies (s : State) (tid : Nat) (t : Team) : (s.setTeam tid t).dies = s.dies := rfl
@[simp] theorem setTeam_homes (s : State) (tid : Nat) (t : Team) : (s.setTeam tid t).homes = s.homes := rfl
@[simp] theorem setTeam_hub (s : State) (tid : Nat) (t : Team) : (s.setTeam tid t).hub = s.hub := rfl
@[simp] theorem setTeam_referee (s : State) (tid : Nat) (t : Team) : (s.setTeam tid t).referee = s.referee := rfl
@[simp] theorem setTeam_cur (s : State) (tid : Nat) (t : Team) : (s.setTeam tid t).cur = s.cur := rfl
@[simp] theorem setTeam_inputs (s : State) (tid : Nat) (t : Team) : (s.setTeam tid t).inputs = s.inputs := rfl
@[simp] theorem setTeam_time (s : State) (tid : Nat) (t : Team) : (s.setTeam tid t).time = s.time := rfl

@[simp] theorem setCore_mem (s : State) (c : Nat) (k : Core) : (s.setCore c k).mem = s.mem := rfl
@[simp] theorem setCore_groups (s : State) (c : Nat) (k : Core) : (s.setCore c k).groups = s.groups := rfl
@[simp] theorem setCore_teams (s : State) (c : Nat) (k : Core) : (s.setCore c k).teams = s.teams := rfl
@[simp] theorem setCore_cores (s : State) (c : Nat) (k : Core) : (s.setCore c k).cores = sput s.cores c k := rfl
@[simp] theorem setCore_dies (s : State) (c : Nat) (k : Core) : (s.setCore c k).dies = s.dies := rfl
@[simp] theorem setCore_homes (s : State) (c : Nat) (k : Core) : (s.setCore c k).homes = s.homes := rfl
@[simp] theorem setCore_hub (s : State) (c : Nat) (k : Core) : (s.setCore c k).hub = s.hub := rfl
@[simp] theorem setCore_referee (s : State) (c : Nat) (k : Core) : (s.setCore c k).referee = s.referee := rfl
@[simp] theorem setCore_cur (s : State) (c : Nat) (k : Core) : (s.setCore c k).cur = s.cur := rfl
@[simp] theorem setCore_inputs (s : State) (c : Nat) (k : Core) : (s.setCore c k).inputs = s.inputs := rfl
@[simp] theorem setCore_time (s : State) (c : Nat) (k : Core) : (s.setCore c k).time = s.time := rfl

@[simp] theorem setDie_mem (s : State) (d : Nat) (k : Die) : (s.setDie d k).mem = s.mem := rfl
@[simp] theorem setDie_groups (s : State) (d : Nat) (k : Die) : (s.setDie d k).groups = s.groups := rfl
@[simp] theorem setDie_teams (s : State) (d : Nat) (k : Die) : (s.setDie d k).teams = s.teams := rfl
@[simp] theorem setDie_cores (s : State) (d : Nat) (k : Die) : (s.setDie d k).cores = s.cores := rfl
@[simp] theorem setDie_dies (s : State) (d : Nat) (k : Die) : (s.setDie d k).dies = sput s.dies d k := rfl
@[simp] theorem setDie_homes (s : State) (d : Nat) (k : Die) : (s.setDie d k).homes = s.homes := rfl
@[simp] theorem setDie_hub (s : State) (d : Nat) (k : Die) : (s.setDie d k).hub = s.hub := rfl
@[simp] theorem setDie_referee (s : State) (d : Nat) (k : Die) : (s.setDie d k).referee = s.referee := rfl
@[simp] theorem setDie_cur (s : State) (d : Nat) (k : Die) : (s.setDie d k).cur = s.cur := rfl
@[simp] theorem setDie_inputs (s : State) (d : Nat) (k : Die) : (s.setDie d k).inputs = s.inputs := rfl
@[simp] theorem setDie_time (s : State) (d : Nat) (k : Die) : (s.setDie d k).time = s.time := rfl

@[simp] theorem setHome_mem (s : State) (h : Nat) (k : Home) : (s.setHome h k).mem = s.mem := rfl
@[simp] theorem setHome_groups (s : State) (h : Nat) (k : Home) : (s.setHome h k).groups = s.groups := rfl
@[simp] theorem setHome_teams (s : State) (h : Nat) (k : Home) : (s.setHome h k).teams = s.teams := rfl
@[simp] theorem setHome_cores (s : State) (h : Nat) (k : Home) : (s.setHome h k).cores = s.cores := rfl
@[simp] theorem setHome_dies (s : State) (h : Nat) (k : Home) : (s.setHome h k).dies = s.dies := rfl
@[simp] theorem setHome_homes (s : State) (h : Nat) (k : Home) : (s.setHome h k).homes = sput s.homes h k := rfl
@[simp] theorem setHome_hub (s : State) (h : Nat) (k : Home) : (s.setHome h k).hub = s.hub := rfl
@[simp] theorem setHome_referee (s : State) (h : Nat) (k : Home) : (s.setHome h k).referee = s.referee := rfl
@[simp] theorem setHome_cur (s : State) (h : Nat) (k : Home) : (s.setHome h k).cur = s.cur := rfl
@[simp] theorem setHome_inputs (s : State) (h : Nat) (k : Home) : (s.setHome h k).inputs = s.inputs := rfl
@[simp] theorem setHome_time (s : State) (h : Nat) (k : Home) : (s.setHome h k).time = s.time := rfl

@[simp] theorem modGroup_mem (s : State) (gid : Nat) (f : Group → Group) : (s.modGroup gid f).mem = s.mem := rfl
@[simp] theorem modGroup_groups (s : State) (gid : Nat) (f : Group → Group) : (s.modGroup gid f).groups = sput s.groups gid (f (s.group gid)) := rfl
@[simp] theorem modGroup_teams (s : State) (gid : Nat) (f : Group → Group) : (s.modGroup gid f).teams = s.teams := rfl
@[simp] theorem modGroup_cores (s : State) (gid : Nat) (f : Group → Group) : (s.modGroup gid f).cores = s.cores := rfl
@[simp] theorem modGroup_dies (s : State) (gid : Nat) (f : Group → Group) : (s.modGroup gid f).dies = s.dies := rfl
@[simp] theorem modGroup_homes (s : State) (gid : Nat) (f : Group → Group) : (s.modGroup gid f).homes = s.homes := rfl
@[simp] theorem modGroup_hub (s : State) (gid : Nat) (f : Group → Group) : (s.modGroup gid f).hub = s.hub := rfl
@[simp] theorem modGroup_referee (s : State) (gid : Nat) (f : Group → Group) : (s.modGroup gid f).referee = s.referee := rfl
@[simp] theorem modGroup_cur (s : State) (gid : Nat) (f : Group → Group) : (s.modGroup gid f).cur = s.cur := rfl
@[simp] theorem modGroup_inputs (s : State) (gid : Nat) (f : Group → Group) : (s.modGroup gid f).inputs = s.inputs := rfl
@[simp] theorem modGroup_time (s : State) (gid : Nat) (f : Group → Group) : (s.modGroup gid f).time = s.time := rfl

@[simp] theorem modTeam_mem (s : State) (tid : Nat) (f : Team → Team) : (s.modTeam tid f).mem = s.mem := rfl
@[simp] theorem modTeam_groups (s : State) (tid : Nat) (f : Team → Team) : (s.modTeam tid f).groups = s.groups := rfl
@[simp] theorem modTeam_teams (s : State) (tid : Nat) (f : Team → Team) : (s.modTeam tid f).teams = sput s.teams tid (f (s.team tid)) := rfl
@[simp] theorem modTeam_cores (s : State) (tid : Nat) (f : Team → Team) : (s.modTeam tid f).cores = s.cores := rfl
@[simp] theorem modTeam_dies (s : State) (tid : Nat) (f : Team → Team) : (s.modTeam tid f).dies = s.dies := rfl
@[simp] theorem modTeam_homes (s : State) (tid : Nat) (f : Team → Team) : (s.modTeam tid f).homes = s.homes := rfl
@[simp] theorem modTeam_hub (s : State) (tid : Nat) (f : Team → Team) : (s.modTeam tid f).hub = s.hub := rfl
@[simp] theorem modTeam_referee (s : State) (tid : Nat) (f : Team → Team) : (s.modTeam tid f).referee = s.referee := rfl
@[simp] theorem modTeam_cur (s : State) (tid : Nat) (f : Team → Team) : (s.modTeam tid f).cur = s.cur := rfl
@[simp] theorem modTeam_inputs (s : State) (tid : Nat) (f : Team → Team) : (s.modTeam tid f).inputs = s.inputs := rfl
@[simp] theorem modTeam_time (s : State) (tid : Nat) (f : Team → Team) : (s.modTeam tid f).time = s.time := rfl

@[simp] theorem modCore_mem (s : State) (c : Nat) (f : Core → Core) : (s.modCore c f).mem = s.mem := rfl
@[simp] theorem modCore_groups (s : State) (c : Nat) (f : Core → Core) : (s.modCore c f).groups = s.groups := rfl
@[simp] theorem modCore_teams (s : State) (c : Nat) (f : Core → Core) : (s.modCore c f).teams = s.teams := rfl
@[simp] theorem modCore_cores (s : State) (c : Nat) (f : Core → Core) : (s.modCore c f).cores = sput s.cores c (f (s.core c)) := rfl
@[simp] theorem modCore_dies (s : State) (c : Nat) (f : Core → Core) : (s.modCore c f).dies = s.dies := rfl
@[simp] theorem modCore_homes (s : State) (c : Nat) (f : Core → Core) : (s.modCore c f).homes = s.homes := rfl
@[simp] theorem modCore_hub (s : State) (c : Nat) (f : Core → Core) : (s.modCore c f).hub = s.hub := rfl
@[simp] theorem modCore_referee (s : State) (c : Nat) (f : Core → Core) : (s.modCore c f).referee = s.referee := rfl
@[simp] theorem modCore_cur (s : State) (c : Nat) (f : Core → Core) : (s.modCore c f).cur = s.cur := rfl
@[simp] theorem modCore_inputs (s : State) (c : Nat) (f : Core → Core) : (s.modCore c f).inputs = s.inputs := rfl
@[simp] theorem modCore_time (s : State) (c : Nat) (f : Core → Core) : (s.modCore c f).time = s.time := rfl

@[simp] theorem modDie_mem (s : State) (d : Nat) (f : Die → Die) : (s.modDie d f).mem = s.mem := rfl
@[simp] theorem modDie_groups (s : State) (d : Nat) (f : Die → Die) : (s.modDie d f).groups = s.groups := rfl
@[simp] theorem modDie_teams (s : State) (d : Nat) (f : Die → Die) : (s.modDie d f).teams = s.teams := rfl
@[simp] theorem modDie_cores (s : State) (d : Nat) (f : Die → Die) : (s.modDie d f).cores = s.cores := rfl
@[simp] theorem modDie_dies (s : State) (d : Nat) (f : Die → Die) : (s.modDie d f).dies = sput s.dies d (f (s.die d)) := rfl
@[simp] theorem modDie_homes (s : State) (d : Nat) (f : Die → Die) : (s.modDie d f).homes = s.homes := rfl
@[simp] theorem modDie_hub (s : State) (d : Nat) (f : Die → Die) : (s.modDie d f).hub = s.hub := rfl
@[simp] theorem modDie_referee (s : State) (d : Nat) (f : Die → Die) : (s.modDie d f).referee = s.referee := rfl
@[simp] theorem modDie_cur (s : State) (d : Nat) (f : Die → Die) : (s.modDie d f).cur = s.cur := rfl
@[simp] theorem modDie_inputs (s : State) (d : Nat) (f : Die → Die) : (s.modDie d f).inputs = s.inputs := rfl
@[simp] theorem modDie_time (s : State) (d : Nat) (f : Die → Die) : (s.modDie d f).time = s.time := rfl

@[simp] theorem modHome_mem (s : State) (h : Nat) (f : Home → Home) : (s.modHome h f).mem = s.mem := rfl
@[simp] theorem modHome_groups (s : State) (h : Nat) (f : Home → Home) : (s.modHome h f).groups = s.groups := rfl
@[simp] theorem modHome_teams (s : State) (h : Nat) (f : Home → Home) : (s.modHome h f).teams = s.teams := rfl
@[simp] theorem modHome_cores (s : State) (h : Nat) (f : Home → Home) : (s.modHome h f).cores = s.cores := rfl
@[simp] theorem modHome_dies (s : State) (h : Nat) (f : Home → Home) : (s.modHome h f).dies = s.dies := rfl
@[simp] theorem modHome_homes (s : State) (h : Nat) (f : Home → Home) : (s.modHome h f).homes = sput s.homes h (f (s.home h)) := rfl
@[simp] theorem modHome_hub (s : State) (h : Nat) (f : Home → Home) : (s.modHome h f).hub = s.hub := rfl
@[simp] theorem modHome_referee (s : State) (h : Nat) (f : Home → Home) : (s.modHome h f).referee = s.referee := rfl
@[simp] theorem modHome_cur (s : State) (h : Nat) (f : Home → Home) : (s.modHome h f).cur = s.cur := rfl
@[simp] theorem modHome_inputs (s : State) (h : Nat) (f : Home → Home) : (s.modHome h f).inputs = s.inputs := rfl
@[simp] theorem modHome_time (s : State) (h : Nat) (f : Home → Home) : (s.modHome h f).time = s.time := rfl

@[simp] theorem modHub_mem (s : State) (f : Hub → Hub) : (s.modHub f).mem = s.mem := rfl
@[simp] theorem modHub_groups (s : State) (f : Hub → Hub) : (s.modHub f).groups = s.groups := rfl
@[simp] theorem modHub_teams (s : State) (f : Hub → Hub) : (s.modHub f).teams = s.teams := rfl
@[simp] theorem modHub_cores (s : State) (f : Hub → Hub) : (s.modHub f).cores = s.cores := rfl
@[simp] theorem modHub_dies (s : State) (f : Hub → Hub) : (s.modHub f).dies = s.dies := rfl
@[simp] theorem modHub_homes (s : State) (f : Hub → Hub) : (s.modHub f).homes = s.homes := rfl
@[simp] theorem modHub_hub (s : State) (f : Hub → Hub) : (s.modHub f).hub = f s.hub := rfl
@[simp] theorem modHub_referee (s : State) (f : Hub → Hub) : (s.modHub f).referee = s.referee := rfl
@[simp] theorem modHub_cur (s : State) (f : Hub → Hub) : (s.modHub f).cur = s.cur := rfl
@[simp] theorem modHub_inputs (s : State) (f : Hub → Hub) : (s.modHub f).inputs = s.inputs := rfl
@[simp] theorem modHub_time (s : State) (f : Hub → Hub) : (s.modHub f).time = s.time := rfl

@[simp] theorem modReferee_mem (s : State) (f : Referee → Referee) : (s.modReferee f).mem = s.mem := rfl
@[simp] theorem modReferee_groups (s : State) (f : Referee → Referee) : (s.modReferee f).groups = s.groups := rfl
@[simp] theorem modReferee_teams (s : State) (f : Referee → Referee) : (s.modReferee f).teams = s.teams := rfl
@[simp] theorem modReferee_cores (s : State) (f : Referee → Referee) : (s.modReferee f).cores = s.cores := rfl
@[simp] theorem modReferee_dies (s : State) (f : Referee → Referee) : (s.modReferee f).dies = s.dies := rfl
@[simp] theorem modReferee_homes (s : State) (f : Referee → Referee) : (s.modReferee f).homes = s.homes := rfl
@[simp] theorem modReferee_hub (s : State) (f : Referee → Referee) : (s.modReferee f).hub = s.hub := rfl
@[simp] theorem modReferee_referee (s : State) (f : Referee → Referee) : (s.modReferee f).referee = f s.referee := rfl
@[simp] theorem modReferee_cur (s : State) (f : Referee → Referee) : (s.modReferee f).cur = s.cur := rfl
@[simp] theorem modReferee_inputs (s : State) (f : Referee → Referee) : (s.modReferee f).inputs = s.inputs := rfl
@[simp] theorem modReferee_time (s : State) (f : Referee → Referee) : (s.modReferee f).time = s.time := rfl

/-! ## Parts after an update -/

@[simp] theorem group_setGroup (s : State) (gid : Nat) (g : Group) : (s.setGroup gid g).group gid = g := sget_sput_self _ _ _ _
theorem group_setGroup_ne (s : State) (gid : Nat) (g : Group) (j : Nat) (h : gid ≠ j) : (s.setGroup gid g).group j = s.group j := sget_sput_ne _ _ _ h
@[simp] theorem group_modGroup (s : State) (i : Nat) (f : Group → Group) : (s.modGroup i f).group i = f (s.group i) := sget_sput_self _ _ _ _
theorem group_modGroup_ne (s : State) (i j : Nat) (f : Group → Group) (hj : i ≠ j) : (s.modGroup i f).group j = s.group j := sget_sput_ne _ _ _ hj
@[simp] theorem group_setTeam (s : State) (tid : Nat) (t : Team) (i : Nat) : (s.setTeam tid t).group i = s.group i := rfl
@[simp] theorem group_modTeam (s : State) (j : Nat) (f : Team → Team) (i : Nat) : (s.modTeam j f).group i = s.group i := rfl
@[simp] theorem group_setCore (s : State) (c : Nat) (k : Core) (i : Nat) : (s.setCore c k).group i = s.group i := rfl
@[simp] theorem group_modCore (s : State) (j : Nat) (f : Core → Core) (i : Nat) : (s.modCore j f).group i = s.group i := rfl
@[simp] theorem group_setDie (s : State) (d : Nat) (k : Die) (i : Nat) : (s.setDie d k).group i = s.group i := rfl
@[simp] theorem group_modDie (s : State) (j : Nat) (f : Die → Die) (i : Nat) : (s.modDie j f).group i = s.group i := rfl
@[simp] theorem group_setHome (s : State) (h : Nat) (k : Home) (i : Nat) : (s.setHome h k).group i = s.group i := rfl
@[simp] theorem group_modHome (s : State) (j : Nat) (f : Home → Home) (i : Nat) : (s.modHome j f).group i = s.group i := rfl
@[simp] theorem group_modHub (s : State) (f : Hub → Hub) (i : Nat) : (s.modHub f).group i = s.group i := rfl
@[simp] theorem group_modReferee (s : State) (f : Referee → Referee) (i : Nat) : (s.modReferee f).group i = s.group i := rfl

@[simp] theorem team_setTeam (s : State) (tid : Nat) (t : Team) : (s.setTeam tid t).team tid = t := sget_sput_self _ _ _ _
theorem team_setTeam_ne (s : State) (tid : Nat) (t : Team) (j : Nat) (h : tid ≠ j) : (s.setTeam tid t).team j = s.team j := sget_sput_ne _ _ _ h
@[simp] theorem team_modTeam (s : State) (i : Nat) (f : Team → Team) : (s.modTeam i f).team i = f (s.team i) := sget_sput_self _ _ _ _
theorem team_modTeam_ne (s : State) (i j : Nat) (f : Team → Team) (hj : i ≠ j) : (s.modTeam i f).team j = s.team j := sget_sput_ne _ _ _ hj
@[simp] theorem team_setGroup (s : State) (gid : Nat) (g : Group) (i : Nat) : (s.setGroup gid g).team i = s.team i := rfl
@[simp] theorem team_modGroup (s : State) (j : Nat) (f : Group → Group) (i : Nat) : (s.modGroup j f).team i = s.team i := rfl
@[simp] theorem team_setCore (s : State) (c : Nat) (k : Core) (i : Nat) : (s.setCore c k).team i = s.team i := rfl
@[simp] theorem team_modCore (s : State) (j : Nat) (f : Core → Core) (i : Nat) : (s.modCore j f).team i = s.team i := rfl
@[simp] theorem team_setDie (s : State) (d : Nat) (k : Die) (i : Nat) : (s.setDie d k).team i = s.team i := rfl
@[simp] theorem team_modDie (s : State) (j : Nat) (f : Die → Die) (i : Nat) : (s.modDie j f).team i = s.team i := rfl
@[simp] theorem team_setHome (s : State) (h : Nat) (k : Home) (i : Nat) : (s.setHome h k).team i = s.team i := rfl
@[simp] theorem team_modHome (s : State) (j : Nat) (f : Home → Home) (i : Nat) : (s.modHome j f).team i = s.team i := rfl
@[simp] theorem team_modHub (s : State) (f : Hub → Hub) (i : Nat) : (s.modHub f).team i = s.team i := rfl
@[simp] theorem team_modReferee (s : State) (f : Referee → Referee) (i : Nat) : (s.modReferee f).team i = s.team i := rfl

@[simp] theorem core_setCore (s : State) (c : Nat) (k : Core) : (s.setCore c k).core c = k := sget_sput_self _ _ _ _
theorem core_setCore_ne (s : State) (c : Nat) (k : Core) (j : Nat) (h : c ≠ j) : (s.setCore c k).core j = s.core j := sget_sput_ne _ _ _ h
@[simp] theorem core_modCore (s : State) (i : Nat) (f : Core → Core) : (s.modCore i f).core i = f (s.core i) := sget_sput_self _ _ _ _
theorem core_modCore_ne (s : State) (i j : Nat) (f : Core → Core) (hj : i ≠ j) : (s.modCore i f).core j = s.core j := sget_sput_ne _ _ _ hj
@[simp] theorem core_setGroup (s : State) (gid : Nat) (g : Group) (i : Nat) : (s.setGroup gid g).core i = s.core i := rfl
@[simp] theorem core_modGroup (s : State) (j : Nat) (f : Group → Group) (i : Nat) : (s.modGroup j f).core i = s.core i := rfl
@[simp] theorem core_setTeam (s : State) (tid : Nat) (t : Team) (i : Nat) : (s.setTeam tid t).core i = s.core i := rfl
@[simp] theorem core_modTeam (s : State) (j : Nat) (f : Team → Team) (i : Nat) : (s.modTeam j f).core i = s.core i := rfl
@[simp] theorem core_setDie (s : State) (d : Nat) (k : Die) (i : Nat) : (s.setDie d k).core i = s.core i := rfl
@[simp] theorem core_modDie (s : State) (j : Nat) (f : Die → Die) (i : Nat) : (s.modDie j f).core i = s.core i := rfl
@[simp] theorem core_setHome (s : State) (h : Nat) (k : Home) (i : Nat) : (s.setHome h k).core i = s.core i := rfl
@[simp] theorem core_modHome (s : State) (j : Nat) (f : Home → Home) (i : Nat) : (s.modHome j f).core i = s.core i := rfl
@[simp] theorem core_modHub (s : State) (f : Hub → Hub) (i : Nat) : (s.modHub f).core i = s.core i := rfl
@[simp] theorem core_modReferee (s : State) (f : Referee → Referee) (i : Nat) : (s.modReferee f).core i = s.core i := rfl

@[simp] theorem die_setDie (s : State) (d : Nat) (k : Die) : (s.setDie d k).die d = k := sget_sput_self _ _ _ _
theorem die_setDie_ne (s : State) (d : Nat) (k : Die) (j : Nat) (h : d ≠ j) : (s.setDie d k).die j = s.die j := sget_sput_ne _ _ _ h
@[simp] theorem die_modDie (s : State) (i : Nat) (f : Die → Die) : (s.modDie i f).die i = f (s.die i) := sget_sput_self _ _ _ _
theorem die_modDie_ne (s : State) (i j : Nat) (f : Die → Die) (hj : i ≠ j) : (s.modDie i f).die j = s.die j := sget_sput_ne _ _ _ hj
@[simp] theorem die_setGroup (s : State) (gid : Nat) (g : Group) (i : Nat) : (s.setGroup gid g).die i = s.die i := rfl
@[simp] theorem die_modGroup (s : State) (j : Nat) (f : Group → Group) (i : Nat) : (s.modGroup j f).die i = s.die i := rfl
@[simp] theorem die_setTeam (s : State) (tid : Nat) (t : Team) (i : Nat) : (s.setTeam tid t).die i = s.die i := rfl
@[simp] theorem die_modTeam (s : State) (j : Nat) (f : Team → Team) (i : Nat) : (s.modTeam j f).die i = s.die i := rfl
@[simp] theorem die_setCore (s : State) (c : Nat) (k : Core) (i : Nat) : (s.setCore c k).die i = s.die i := rfl
@[simp] theorem die_modCore (s : State) (j : Nat) (f : Core → Core) (i : Nat) : (s.modCore j f).die i = s.die i := rfl
@[simp] theorem die_setHome (s : State) (h : Nat) (k : Home) (i : Nat) : (s.setHome h k).die i = s.die i := rfl
@[simp] theorem die_modHome (s : State) (j : Nat) (f : Home → Home) (i : Nat) : (s.modHome j f).die i = s.die i := rfl
@[simp] theorem die_modHub (s : State) (f : Hub → Hub) (i : Nat) : (s.modHub f).die i = s.die i := rfl
@[simp] theorem die_modReferee (s : State) (f : Referee → Referee) (i : Nat) : (s.modReferee f).die i = s.die i := rfl

@[simp] theorem home_setHome (s : State) (h : Nat) (k : Home) : (s.setHome h k).home h = k := sget_sput_self _ _ _ _
theorem home_setHome_ne (s : State) (h : Nat) (k : Home) (j : Nat) (hj : h ≠ j) : (s.setHome h k).home j = s.home j := sget_sput_ne _ _ _ hj
@[simp] theorem home_modHome (s : State) (i : Nat) (f : Home → Home) : (s.modHome i f).home i = f (s.home i) := sget_sput_self _ _ _ _
theorem home_modHome_ne (s : State) (i j : Nat) (f : Home → Home) (hj : i ≠ j) : (s.modHome i f).home j = s.home j := sget_sput_ne _ _ _ hj
@[simp] theorem home_setGroup (s : State) (gid : Nat) (g : Group) (i : Nat) : (s.setGroup gid g).home i = s.home i := rfl
@[simp] theorem home_modGroup (s : State) (j : Nat) (f : Group → Group) (i : Nat) : (s.modGroup j f).home i = s.home i := rfl
@[simp] theorem home_setTeam (s : State) (tid : Nat) (t : Team) (i : Nat) : (s.setTeam tid t).home i = s.home i := rfl
@[simp] theorem home_modTeam (s : State) (j : Nat) (f : Team → Team) (i : Nat) : (s.modTeam j f).home i = s.home i := rfl
@[simp] theorem home_setCore (s : State) (c : Nat) (k : Core) (i : Nat) : (s.setCore c k).home i = s.home i := rfl
@[simp] theorem home_modCore (s : State) (j : Nat) (f : Core → Core) (i : Nat) : (s.modCore j f).home i = s.home i := rfl
@[simp] theorem home_setDie (s : State) (d : Nat) (k : Die) (i : Nat) : (s.setDie d k).home i = s.home i := rfl
@[simp] theorem home_modDie (s : State) (j : Nat) (f : Die → Die) (i : Nat) : (s.modDie j f).home i = s.home i := rfl
@[simp] theorem home_modHub (s : State) (f : Hub → Hub) (i : Nat) : (s.modHub f).home i = s.home i := rfl
@[simp] theorem home_modReferee (s : State) (f : Referee → Referee) (i : Nat) : (s.modReferee f).home i = s.home i := rfl

end Sys2Proof.Machine
end

