-- ==== Sys2Proof/Laws/Issue.lean ====
section
/-! SUPPORT. What issuing a word does: one lemma per shared operation. -/
namespace Sys2Proof.Machine

/-! ## Slices of a group -/

theorem getD_mapIdx {α : Type} (l : List α) (f : Nat → α → α) (i : Nat) (d : α) :
    (l.mapIdx f).getD i d = if i < l.length then f i (l.getD i d) else l.getD i d := by
  simp only [List.getD_eq_getElem?_getD, List.getElem?_mapIdx]
  split
  · rename_i h; simp [h]
  · rename_i h; simp [List.getElem?_eq_none (Nat.le_of_not_lt h)]

theorem getD_lset {α : Type} (l : List α) (n i : Nat) (x d : α) :
    (lset l n x).getD i d = if i = n ∧ n < l.length then x else l.getD i d := by
  induction l generalizing n i with
  | nil => simp [lset]
  | cons y r ih =>
    cases n with
    | zero => cases i <;> simp [lset]
    | succ n =>
      cases i with
      | zero => simp [lset]
      | succ i => simpa [lset] using ih n i

theorem length_lset {α : Type} (l : List α) (n : Nat) (x : α) : (lset l n x).length = l.length := by
  induction l generalizing n with
  | nil => rfl
  | cons y r ih => cases n <;> simp [lset, ih]

/-- A slice after a change of a set of slices. -/
theorem slice_mapSlices (g : Group) (m : SliceMask) (f : Nat → Slice → Slice) (i : Nat) :
    (g.mapSlices m f).slice i = if i < g.slices.length ∧ m.getLsbD i = true then f i (g.slice i) else g.slice i := by
  simp only [Group.slice, Group.mapSlices, getD_mapIdx]
  by_cases h : i < g.slices.length <;> by_cases h2 : m.getLsbD i = true <;> simp [h, h2]

theorem slice_setSlice (g : Group) (n i : Nat) (x : Slice) :
    (g.setSlice n x).slice i = if i = n ∧ n < g.slices.length then x else g.slice i := getD_lset _ _ _ _ _

/-- Splitting the gangs of a group changes nothing but gang numbers. -/
theorem regroupFrom_group (l : List Nat) : ∀ (g : Group) (seen : List (Nat × DWord × Nat)) (used : List Nat),
    ∃ ss, regroupFrom g seen used l = { g with slices := ss } ∧ ss.length = g.slices.length ∧
      ∀ i, ∃ n, ss.getD i .dead = { g.slice i with gang := n } := by
  induction l with
  | nil => exact fun g _ _ => ⟨g.slices, rfl, rfl, fun i => ⟨(g.slice i).gang, rfl⟩⟩
  | cons j r ih =>
    intro g seen used
    have put : ∀ (n : Nat) (sn : List (Nat × DWord × Nat)) (us : List Nat),
        ∃ ss, regroupFrom (g.setSlice j { g.slice j with gang := n }) sn us r = { g with slices := ss } ∧ ss.length = g.slices.length ∧
          ∀ i, ∃ n, ss.getD i .dead = { g.slice i with gang := n } := by
      intro n sn us
      obtain ⟨ss, h1, h2, h3⟩ := ih (g.setSlice j { g.slice j with gang := n }) sn us
      refine ⟨ss, h1, h2.trans (length_lset _ _ _), fun i => ?_⟩
      obtain ⟨k, hk⟩ := h3 i
      refine ⟨k, hk.trans ?_⟩
      rw [slice_setSlice]
      split
      · rename_i h; rw [h.1]
      · rfl
    simp only [regroupFrom]
    split
    · exact ih g seen used
    · split
      · exact put _ _ _
      · split
        · exact put _ _ _
        · exact ih g _ used

theorem ite_spin (p : Prop) [Decidable p] (x : Slice) : ∃ sp, (if p then { x with spin := .no } else x) = { x with spin := sp } := by
  split
  · exact ⟨.no, rfl⟩
  · exact ⟨x.spin, rfl⟩

/-- Splitting by next PC changes only gang numbers and spinning. -/
theorem regroup_group (g : Group) : ∃ ss, g.regroup = { g with slices := ss } ∧ ss.length = g.slices.length ∧
    ∀ i, ∃ n sp, ss.getD i .dead = { g.slice i with gang := n, spin := sp } := by
  unfold Group.regroup
  obtain ⟨ss, h1, h2, h3⟩ := regroupFrom_group ((List.range 64).filter fun i => g.frame.isNone || (g.slice i).handler.isSome)
    (g.splitStops fun i => g.frame.isNone || (g.slice i).handler.isSome) []
    (((List.range 64).filter fun i => g.frame.isNone || (g.slice i).handler.isSome).filterMap fun i => let x := g.slice i
      if x.isDead then none else some x.gang)
  refine ⟨ss, h1, h2.trans (by simp [Group.splitStops]), fun i => ?_⟩
  obtain ⟨n, hn⟩ := h3 i
  have : ∃ sp, (g.splitStops fun i => g.frame.isNone || (g.slice i).handler.isSome).slice i = { g.slice i with spin := sp } := by
    simp only [Group.slice, Group.splitStops, getD_mapIdx]
    split
    · exact ite_spin _ _
    · exact ⟨_, rfl⟩
  obtain ⟨sp, hs⟩ := this
  exact ⟨n, sp, by rw [hn, hs]⟩

theorem settle_group (c : Ctx) (g : Group) : ∃ ss, settle c g = { g with slices := ss } ∧ ss.length = g.slices.length ∧
    ∀ i, ∃ n sp, ss.getD i .dead = { g.slice i with gang := n, spin := sp } := by
  unfold settle
  simp only []
  split
  · exact ⟨g.slices, rfl, rfl, fun i => ⟨_, _, rfl⟩⟩
  · exact regroup_group g

/-- Every field of a group but its slices is as it was before a split. -/
theorem settle_eq (c : Ctx) (g : Group) : settle c g = { g with slices := (settle c g).slices } := by
  obtain ⟨ss, h, -, -⟩ := settle_group c g
  rw [h]

/-- A slice after a split. -/
theorem settle_slice (c : Ctx) (g : Group) (i : Nat) : ∃ n sp, (settle c g).slice i = { g.slice i with gang := n, spin := sp } := by
  obtain ⟨ss, h, -, h3⟩ := settle_group c g
  rw [h]
  exact h3 i

theorem spinCheck_eq (x : Slice) : ∃ sp, x.spinCheck = { x with spin := sp } := by
  unfold Slice.spinCheck
  split
  · split
    · exact ⟨_, rfl⟩
    · exact ⟨.no, rfl⟩
  · exact ⟨_, rfl⟩

theorem advance_eq (c : Ctx) (g : Group) : advance c g = { g with slices := (advance c g).slices } := rfl

/-- A slice after the gang has gone on. -/
theorem advance_slice (c : Ctx) (g : Group) (i : Nat) :
    ∃ sp pr, (advance c g).slice i =
      { g.slice i with pc := if i < g.slices.length ∧ c.gang.getLsbD i = true then (g.slice i).pc + 4 else (g.slice i).pc, spin := sp, promoted := pr } := by
  unfold advance
  rw [slice_mapSlices]
  split
  · obtain ⟨sp, h⟩ := spinCheck_eq { g.slice i with pc := (g.slice i).pc + 4, promoted := false }
    exact ⟨sp, false, h⟩
  · exact ⟨_, _, rfl⟩

/-- A slice after a register instruction retires. -/
theorem retired_slice (c : Ctx) (g : Group) (i : Nat) :
    ∃ n sp pr, (settle c (advance c g)).slice i =
      { g.slice i with pc := if i < g.slices.length ∧ c.gang.getLsbD i = true then (g.slice i).pc + 4 else (g.slice i).pc,
                       gang := n, spin := sp, promoted := pr } := by
  obtain ⟨n, sp, h⟩ := settle_slice c (advance c g) i
  obtain ⟨sp2, pr, h2⟩ := advance_slice c g i
  exact ⟨n, sp, pr, by rw [h, h2]⟩

/-- Every field of the group but its slices is what the instruction made it. -/
theorem retired_eq (c : Ctx) (g : Group) : settle c (advance c g) = { g with slices := (settle c (advance c g)).slices } := by
  rw [settle_eq c (advance c g), advance_eq]

/-! ## Issuing -/

theorem countIssue_group (s : State) (c : Ctx) : (countIssue s c).group c.gid = counted (s.group c.gid) c := by
  simp [countIssue, counted]

theorem counted_slice (g : Group) (c : Ctx) (i : Nat) : ∃ n, (counted g c).slice i = { g.slice i with issues := n } := by
  have : (counted g c).slice i = (g.mapSlices c.gang fun _ x => { x with issues := x.issues + 1 }).slice i := rfl
  rw [this, slice_mapSlices]
  split
  · exact ⟨_, rfl⟩
  · exact ⟨_, rfl⟩

theorem counted_length (g : Group) (c : Ctx) : (counted g c).slices.length = g.slices.length := by simp [counted, Group.mapSlices]

/-- Nothing beyond the group changes when the issue number advances, but for the core's count. -/
theorem countIssue_beyond (s : State) (c : Ctx) (k : Group) : BeyondKept s ((countIssue s c).setGroup c.gid k) c.gid where
  mem := rfl
  bytes _ := rfl
  teams := rfl
  dies := rfl
  homes := rfl
  hub := rfl
  referee := rfl
  cur := rfl
  inputs := rfl
  time := rfl
  groups j h := by
    rw [group_setGroup_ne _ _ _ _ (Ne.symm h)]
    simp only [countIssue]
    rw [group_modCore, group_setGroup_ne _ _ _ _ (Ne.symm h)]
  cores i := by
    simp only [countIssue, core_setGroup]
    by_cases h : (s.group c.gid).core = i
    · subst h; simp
    · rw [core_modCore_ne _ _ _ _ h]; simp

/-- A word that issues normally runs its body after the issue number has advanced. -/
theorem issue_body {w : Word} {s : State} {c : Ctx} (body : Ctx → Group → State → Result) (hc : issuer s = some c) (hi : issues w s = true) :
    issue w s body = body c (counted (s.group c.gid) c) (countIssue s c) := by
  have hi' := hi
  simp only [issues, hc, Bool.and_eq_true, Option.isNone_iff_eq_none] at hi'
  unfold issuer at hc
  split at hc
  · cases hc
  · rename_i u hu
    split at hc
    · rename_i hl
      cases hc
      simp only [issue, withGang, hu, hl, if_true, hi'.1, hi'.2, Bool.not_true, Bool.false_eq_true, if_false]
      exact congrArg (fun x => body _ x _) (countIssue_group s _)
    · cases hc

/-- The frame of a register instruction, whatever it does to the registers. -/
theorem retire_frame (s : State) (c : Ctx) (h : Group) (vs : Sparse (List Word)) (ps : List LaneMask) (us : Sparse Word) (q : BitVec 3)
    (hh : h = { counted (s.group c.gid) c with vregs := vs, preds := ps, uregs := us, uq := q }) :
    RegFrame s (retire (countIssue s c) c h) c := by
  have he := retired_eq c h
  have hs : ∀ i, ∃ n sp pr k, (settle c (advance c h)).slice i =
      { (s.group c.gid).slice i with
          pc := if i < (s.group c.gid).slices.length ∧ c.gang.getLsbD i = true then ((s.group c.gid).slice i).pc + 4 else ((s.group c.gid).slice i).pc,
          gang := n, spin := sp, promoted := pr, issues := k } := by
    intro i
    obtain ⟨n, sp, pr, h1⟩ := retired_slice c h i
    have h2 : h.slice i = (counted (s.group c.gid) c).slice i := by rw [hh]; rfl
    have h3 : h.slices.length = (s.group c.gid).slices.length := by rw [hh]; exact counted_length _ _
    obtain ⟨k, h4⟩ := counted_slice (s.group c.gid) c i
    exact ⟨n, sp, pr, k, by rw [h1, h2, h3, h4]⟩
  have hg : (retire (countIssue s c) c h).group c.gid = settle c (advance c h) := group_setGroup _ _ _
  refine ⟨countIssue_beyond s c _, ?_, ?_, ?_, ?_, ?_⟩
  · rw [hg, he, hh]; exact ⟨rfl, rfl, rfl, rfl, rfl, rfl, rfl, rfl, rfl, rfl, rfl, rfl, rfl, rfl, rfl, rfl, rfl, rfl⟩
  · rw [hg, he, hh]; rfl
  · intro i; rw [hg]; obtain ⟨n, sp, pr, k, h1⟩ := hs i; rw [h1]; exact ⟨rfl, rfl, rfl, rfl, rfl, rfl, rfl, rfl, rfl, rfl, rfl, rfl⟩
  · intro i hl hb; rw [hg]; obtain ⟨n, sp, pr, k, h1⟩ := hs i; rw [h1]; simp [hl, hb]
  · intro i hb; rw [hg]; obtain ⟨n, sp, pr, k, h1⟩ := hs i; rw [h1]; simp [hb]

end Sys2Proof.Machine
end

