-- ==== Sys2Proof/Laws/Registers.lean ====
section
/-! SUPPORT. What register instructions write: one law per shared operation, and the small laws of reading and writing registers. -/
namespace Sys2Proof.Machine

/-! ## Sets of lanes -/

theorem foldl_or_bit (p : Nat → Bool) : ∀ (l : List Nat) (m : LaneMask) (i : Nat),
    (l.foldl (fun m i => if p i then m ||| (1#256 <<< i) else m) m).getLsbD i = (m.getLsbD i || (decide (i < 256) && l.contains i && p i)) := by
  intro l
  induction l with
  | nil => intro m i; simp
  | cons a r ih =>
    intro m i
    simp only [List.foldl_cons, ih]
    by_cases h : p a = true
    · rw [if_pos h, BitVec.getLsbD_or]
      by_cases ha : i = a
      · subst ha
        by_cases hi : i < 256 <;> simp [h, hi]
      · have : (1#256 <<< a).getLsbD i = false := by
          simp only [BitVec.getLsbD_shiftLeft, BitVec.getLsbD_one]
          by_cases h1 : i < 256 <;> by_cases h2 : i < a <;> simp [h1, h2]
          omega
        simp [this, ha]
    · rw [if_neg h]
      by_cases ha : i = a
      · subst ha; simp at h; simp [h]
      · simp [ha]

/-- Lane l is in the set of the lanes that satisfy a condition just when it satisfies it. -/
@[simp] theorem laneSet_bit (p : Nat → Bool) (l : Nat) (h : l < 256) : (laneSet p).getLsbD l = p l := by
  unfold laneSet
  rw [foldl_or_bit]
  simp [h]

/-! ## Writing registers -/

theorem vget_vput (g : Group) (n m l : Nat) (f : Nat → Option Word) (h : l < 256) :
    vget (vput g n f) m l = if n = m then (f l).getD (vget g n l) else vget g m l := by
  unfold vget vput
  simp only [sget_sput]
  split
  · subst_vars
    simp [List.getD_eq_getElem?_getD, h, vget]
  · rfl

theorem vget_vput_ne (g : Group) (n m l : Nat) (f : Nat → Option Word) (h : n ≠ m) : vget (vput g n f) m l = vget g m l := by
  unfold vget vput
  simp only [sget_sput_ne _ _ _ h]

@[simp] theorem uget_uput_self (g : Group) (n : Nat) (x : Word) : uget (uput g n x) n = x := sget_sput_self _ _ _ _
theorem uget_uput_ne (g : Group) (n m : Nat) (x : Word) (h : n ≠ m) : uget (uput g n x) m = uget g m := sget_sput_ne _ _ _ h

/-- What vput leaves of a group. -/
theorem vput_eq (g : Group) (n : Nat) (f : Nat → Option Word) : vput g n f = { g with vregs := (vput g n f).vregs } := rfl

/-- What vwrite leaves of a group. -/
theorem vwrite_eq (g : Group) (c : Ctx) (d : Nat) (lanes wide : Nat → Bool) (f : Nat → Nat) :
    vwrite g c d lanes wide f = { g with vregs := (vwrite g c d lanes wide f).vregs } := by
  unfold vwrite
  simp only []
  split <;> rfl

/-- What pput leaves of a group. -/
theorem pput_eq (g : Group) (p : Nat) (f : Nat → Option Bool) : pput g p f = { g with preds := (pput g p f).preds } := by
  unfold pput
  split <;> rfl

theorem pput_preds_ne (g : Group) (p n : Nat) (f : Nat → Option Bool) (h : n ≠ p % 8) : (pput g p f).preds.getD n 0 = g.preds.getD n 0 := by
  unfold pput
  split
  · rfl
  · simp only []
    rw [getD_lset, if_neg (by omega)]
    simp only [List.getD_eq_getElem?_getD, List.getElem?_append]
    split
    · rfl
    · rename_i h1
      rw [List.getElem?_eq_none (Nat.le_of_not_lt h1)]
      simp

theorem pput_bit (g : Group) (p l : Nat) (f : Nat → Option Bool) (h7 : p % 8 ≠ 7) (h : l < 256) :
    ((pput g p f).preds.getD (p % 8) 0).getLsbD l = ((f l).map (· ^^ decide (8 ≤ p % 16))).getD ((g.preds.getD (p % 8) 0).getLsbD l) := by
  unfold pput
  rw [if_neg h7]
  simp only []
  rw [getD_lset, if_pos ⟨rfl, by simp; omega⟩, laneSet_bit _ _ h]

/-! ## The group in which the issue number has advanced reads as before -/

@[simp] theorem counted_vget (g : Group) (c : Ctx) (n l : Nat) : vget (counted g c) n l = vget g n l := rfl
@[simp] theorem counted_uget (g : Group) (c : Ctx) (n : Nat) : uget (counted g c) n = uget g n := rfl
@[simp] theorem counted_readV (g : Group) (c : Ctx) (n l : Nat) : readV (counted g c) n l = readV g n l := rfl
@[simp] theorem counted_readV64 (g : Group) (c : Ctx) (n l : Nat) : readV64 (counted g c) n l = readV64 g n l := rfl
@[simp] theorem counted_readN (g : Group) (c : Ctx) (n l : Nat) (w : Bool) : readN (counted g c) n w l = readN g n w l := rfl
@[simp] theorem counted_readP (g : Group) (c : Ctx) (p l : Nat) : readP (counted g c) p l = readP g p l := rfl
@[simp] theorem counted_readQ (g : Group) (c : Ctx) (q : Nat) : readQ (counted g c) q = readQ g q := rfl
@[simp] theorem counted_preds (g : Group) (c : Ctx) : (counted g c).preds = g.preds := rfl
@[simp] theorem counted_uq (g : Group) (c : Ctx) : (counted g c).uq = g.uq := rfl
@[simp] theorem counted_laneMode (g : Group) (c : Ctx) (l : Nat) : laneMode (counted g c) l = laneMode g l := by
  obtain ⟨n, h⟩ := counted_slice g c (l / 4)
  simp only [laneMode, h]
@[simp] theorem counted_laneWide (g : Group) (c : Ctx) (l : Nat) : laneWide (counted g c) l = laneWide g l := by simp only [laneWide, counted_laneMode]
@[simp] theorem counted_runs (g : Group) (c k : Ctx) (l : Nat) : runs (counted g c) k l = runs g k l := by
  obtain ⟨n, h⟩ := counted_slice g c (l / 4)
  simp only [runs, h]
@[simp] theorem counted_guardTrue (g : Group) (c : Ctx) (l : Nat) : guardTrue (counted g c) l = guardTrue g l := by
  obtain ⟨n, h⟩ := counted_slice g c (l / 4)
  simp only [guardTrue, h, counted_readP]
@[simp] theorem counted_isActive (g : Group) (c k : Ctx) (l : Nat) : isActive (counted g c) k l = isActive g k l := by
  simp only [isActive, counted_runs, counted_guardTrue]

/-! ## Shared operations -/

/-- A register instruction completes, and its group is what it made it. -/
theorem issueRegs_completes {w : Word} {s : State} {c : Ctx} (f : Ctx → Group → State → Group) (hc : issuer s = some c) (hi : issues w s = true) :
    issueRegs w s f = .next (retire (countIssue s c) c (f c (counted (s.group c.gid) c) (countIssue s c))) := by
  unfold issueRegs
  rw [issue_body _ hc hi]

/-- The group after a register instruction, as far as its registers go. -/
theorem retire_regs (s1 : State) (c : Ctx) (h : Group) :
    ((retire s1 c h).group c.gid).vregs = h.vregs ∧ ((retire s1 c h).group c.gid).preds = h.preds ∧
    ((retire s1 c h).group c.gid).uregs = h.uregs ∧ ((retire s1 c h).group c.gid).uq = h.uq := by
  have : (retire s1 c h).group c.gid = settle c (advance c h) := group_setGroup _ _ _
  rw [this, retired_eq]
  exact ⟨rfl, rfl, rfl, rfl⟩

theorem vget_congr {g h : Group} (e : h.vregs = g.vregs) (n l : Nat) : vget h n l = vget g n l := by simp only [vget, e]
theorem uget_congr {g h : Group} (e : h.uregs = g.uregs) (n : Nat) : uget h n = uget g n := by simp only [uget, e]

/-- A vector result written by vwrite. -/
theorem vwrite_result (s : State) (c : Ctx) (d : Nat) (lanes wide : Nat → Bool) (f : Nat → Nat)
    (hw : ∀ l, l < 256 → lanes l = true → wide l = true → (ctxSlices c).any (fun i => wide (4 * i)) = true) :
    VecResult s (retire (countIssue s c) c (vwrite (counted (s.group c.gid) c) c d lanes wide f)) c d lanes wide f := by
  have hr := retire_regs (countIssue s c) c (vwrite (counted (s.group c.gid) c) c d lanes wide f)
  have hv := fun n l => vget_congr hr.1 n l
  have ho : ∀ n l, n ≠ d → n ≠ d + 1 → vget (vwrite (counted (s.group c.gid) c) c d lanes wide f) n l = vget (s.group c.gid) n l := by
    intro n l h1 h2
    unfold vwrite
    simp only []
    split
    · rw [vget_vput_ne _ _ _ _ _ (Ne.symm h2), vget_vput_ne _ _ _ _ _ (Ne.symm h1)]; rfl
    · rw [vget_vput_ne _ _ _ _ _ (Ne.symm h1)]; rfl
  have hlow : ∀ l, l < 256 → vget (vwrite (counted (s.group c.gid) c) c d lanes wide f) d l =
      if lanes l = true then BitVec.ofNat 32 (f l) else vget (s.group c.gid) d l := by
    intro l hl
    unfold vwrite
    simp only []
    split
    · rw [vget_vput_ne _ _ _ _ _ (by omega), vget_vput _ _ _ _ _ hl, if_pos rfl]; cases lanes l <;> rfl
    · rw [vget_vput _ _ _ _ _ hl, if_pos rfl]; cases lanes l <;> rfl
  have hhigh : ∀ l, l < 256 → vget (vwrite (counted (s.group c.gid) c) c d lanes wide f) (d + 1) l =
      if (lanes l && wide l) = true then BitVec.ofNat 32 (f l / 2 ^ 32) else vget (s.group c.gid) (d + 1) l := by
    intro l hl
    unfold vwrite
    simp only []
    split
    · rw [vget_vput _ _ _ _ _ hl, if_pos rfl, vget_vput_ne _ _ _ _ _ (by omega)]; cases lanes l <;> cases wide l <;> rfl
    · rename_i hn
      rw [vget_vput_ne _ _ _ _ _ (by omega)]
      split
      · rename_i h
        simp only [Bool.and_eq_true] at h
        exact absurd (hw l hl h.1 h.2) hn
      · rfl
  refine ⟨⟨retire_frame s c _ (vwrite (counted (s.group c.gid) c) c d lanes wide f).vregs (s.group c.gid).preds (s.group c.gid).uregs (s.group c.gid).uq
    (vwrite_eq _ _ _ _ _ _), ?_, ?_, ?_, ?_⟩, ?_, ?_, ?_, ?_⟩
  · intro n l h
    simp only [atPair, Bool.or_eq_false_iff, beq_eq_false_iff_ne] at h
    rw [hv, ho n l h.1 h.2]
  · intro n _; rw [hr.2.1, vwrite_eq]; rfl
  · intro n _; rw [uget_congr hr.2.2.1, vwrite_eq]; rfl
  · intro n _; rw [hr.2.2.2, vwrite_eq]; rfl
  · intro l hl h; rw [hv, hlow l hl, if_pos h]
  · intro l hl h h2; rw [hv, hhigh l hl, if_pos (by simp [h, h2])]
  · intro l hl h; rw [hv, hlow l hl, if_neg (by simp [h])]
  · intro l hl h; rw [hv, hhigh l hl, if_neg (by simp [h])]

/-- Active and running lanes belong to slices that the context looks at. -/
theorem runs_ctxSlices {g : Group} {c : Ctx} {l : Nat} (hl : l < 256) (h : runs g c l = true) : (ctxSlices c).contains (l / 4) = true := by
  unfold runs at h
  unfold ctxSlices
  split at h
  · rename_i t ht
    simp only [beq_iff_eq] at h
    subst h
    simp [ht]
  · rename_i ht
    simp only [Bool.and_eq_true] at h
    simp [ht, slicesOf, h.1]
    omega

theorem wide_ctxSlices {g : Group} {c : Ctx} {l : Nat} (hl : l < 256) (h : runs g c l = true) (w : laneWide g l = true) :
    (ctxSlices c).any (fun i => laneWide g (4 * i)) = true := by
  have := runs_ctxSlices hl h
  simp only [List.contains_iff_mem] at this
  rw [List.any_eq_true]
  refine ⟨l / 4, this, ?_⟩
  have : 4 * (l / 4) / 4 = l / 4 := by omega
  simpa [laneWide, laneMode, this] using w

/-- An instruction of the shape vecOp completes with its value in the active lanes. -/
theorem vecOp_result {w : Word} {s : State} {c : Ctx} (d : Nat) (f : Group → Word → Nat → Nat) (hc : issuer s = some c) (hi : issues w s = true) :
    ∃ t, vecOp w d f s = .next t ∧
      VecResult s t c d (isActive (s.group c.gid) c) (laneWide (s.group c.gid))
        fun l => f (counted (s.group c.gid) c) (laneMode (s.group c.gid) l) l := by
  refine ⟨_, issueRegs_completes _ hc hi, ?_⟩
  have e1 : isActive (counted (s.group c.gid) c) c = isActive (s.group c.gid) c := funext fun l => counted_isActive _ _ _ _
  have e2 : laneWide (counted (s.group c.gid) c) = laneWide (s.group c.gid) := funext fun l => counted_laneWide _ _ _
  have e3 : laneMode (counted (s.group c.gid) c) = laneMode (s.group c.gid) := funext fun l => counted_laneMode _ _ _
  rw [e1, e2, e3]
  refine vwrite_result s c d _ _ _ fun l hl ha hw => ?_
  simp only [isActive, Bool.and_eq_true] at ha
  exact wide_ctxSlices hl ha.1 hw

/-- A one-register result written by vput. -/
theorem vput_result (s : State) (c : Ctx) (d : Nat) (lanes : Nat → Bool) (f : Nat → Word) :
    LaneResult s (retire (countIssue s c) c (vput (counted (s.group c.gid) c) d fun l => if lanes l then some (f l) else none)) c d lanes f := by
  have hr := retire_regs (countIssue s c) c (vput (counted (s.group c.gid) c) d fun l => if lanes l then some (f l) else none)
  refine ⟨⟨retire_frame s c _ _ (s.group c.gid).preds (s.group c.gid).uregs (s.group c.gid).uq (vput_eq _ _ _), ?_, ?_, ?_, ?_⟩, ?_, ?_⟩
  · intro n l h
    simp only [atReg, beq_eq_false_iff_ne] at h
    rw [vget_congr hr.1, vget_vput_ne _ _ _ _ _ (Ne.symm h)]; rfl
  · intro n _; rw [hr.2.1]; rfl
  · intro n _; rw [uget_congr hr.2.2.1]; rfl
  · intro n _; rw [hr.2.2.2]; rfl
  · intro l hl h; rw [vget_congr hr.1, vget_vput _ _ _ _ _ hl, if_pos rfl, if_pos h]; rfl
  · intro l hl h; rw [vget_congr hr.1, vget_vput _ _ _ _ _ hl, if_pos rfl, if_neg (by simp [h])]; rfl

/-- A vector-predicate result written by pput. -/
theorem pput_result (s : State) (c : Ctx) (p : Nat) (lanes : Nat → Bool) (f : Nat → Bool) :
    PredResult s (retire (countIssue s c) c (pput (counted (s.group c.gid) c) p fun l => if lanes l then some (f l) else none)) c p lanes f := by
  have hr := retire_regs (countIssue s c) c (pput (counted (s.group c.gid) c) p fun l => if lanes l then some (f l) else none)
  have he := pput_eq (counted (s.group c.gid) c) p fun l => if lanes l then some (f l) else none
  refine ⟨⟨retire_frame s c _ (s.group c.gid).vregs _ (s.group c.gid).uregs (s.group c.gid).uq he, ?_, ?_, ?_, ?_⟩, ?_, ?_, ?_⟩
  · intro n l _; rw [vget_congr hr.1, he]; rfl
  · intro n h
    simp only [atReg, beq_eq_false_iff_ne] at h
    rw [hr.2.1, pput_preds_ne _ _ _ _ h]; rfl
  · intro n _; rw [uget_congr hr.2.2.1, he]; rfl
  · intro n _; rw [hr.2.2.2, he]; rfl
  · intro h; rw [hr.2.1]; unfold pput; rw [if_pos h]; rfl
  · intro h l hl ha; rw [hr.2.1, pput_bit _ _ _ _ h hl, if_pos ha]; rfl
  · intro h l hl ha; rw [hr.2.1, pput_bit _ _ _ _ h hl, if_neg (by simp [ha])]; rfl

/-! ## What the decode checks leave -/

theorem foldl_or_slice (p : Nat → Bool) : ∀ (l : List Nat) (m : SliceMask) (i : Nat),
    (l.foldl (fun m i => if p i then m ||| (1#64 <<< i) else m) m).getLsbD i = (m.getLsbD i || (decide (i < 64) && l.contains i && p i)) := by
  intro l
  induction l with
  | nil => intro m i; simp
  | cons a r ih =>
    intro m i
    simp only [List.foldl_cons, ih]
    by_cases h : p a = true
    · rw [if_pos h, BitVec.getLsbD_or]
      by_cases ha : i = a
      · subst ha
        by_cases hi : i < 64 <;> simp [h, hi]
      · have : (1#64 <<< a).getLsbD i = false := by
          simp only [BitVec.getLsbD_shiftLeft, BitVec.getLsbD_one]
          by_cases h1 : i < 64 <;> by_cases h2 : i < a <;> simp [h1, h2]
          omega
        simp [this, ha]
    · rw [if_neg h]
      by_cases ha : i = a
      · subst ha; simp at h; simp [h]
      · simp [ha]

/-- Slice i is in the set of the slices that satisfy a condition just when it satisfies it. -/
@[simp] theorem sliceSet_bit (p : Nat → Bool) (i : Nat) (h : i < 64) : (sliceSet p).getLsbD i = p i := by
  unfold sliceSet
  rw [foldl_or_slice]
  simp [h]

theorem ite_none {α : Type} {p : Prop} [Decidable p] {x : α} {y : Option α} (h : (if p then some x else y) = none) : ¬p ∧ y = none := by
  split at h
  · cases h
  · exact ⟨‹_›, h⟩

theorem orElse_none {α : Type} {x : Option α} {y : Unit → Option α} (h : x.orElse y = none) : x = none ∧ y () = none := by
  cases x with
  | none => exact ⟨rfl, h⟩
  | some a => cases h

/-- A lane that runs in a word that issues has an element type that its instruction accepts (01 R35, check 11). -/
theorem issues_etype {w : Word} {s : State} {c : Ctx} (hc : issuer s = some c) (hi : issues w s = true) {l : Nat} (hl : l < 256)
    (hr : runs (s.group c.gid) c l = true) : etypeOk (wOp w) (laneEt (s.group c.gid) l) = true := by
  simp only [issues, hc, Bool.and_eq_true, Option.isNone_iff_eq_none] at hi
  have hd := hi.1
  have hm := runs_ctxSlices hl hr
  unfold decodeCheck at hd
  simp only [] at hd
  by_contra hn
  have hz : ∀ p : Nat → Bool, p (l / 4) = true → sliceSet p ≠ 0 := by
    intro p hp h0
    have := sliceSet_bit p (l / 4) (by omega)
    rw [h0, hp] at this
    simp at this
  have hb : (sliceSet fun i => (ctxSlices c).contains i && !etypeOk (wOp w) (mEtype ((s.group c.gid).slice i).mode)) ≠ 0 := by
    refine hz _ ?_
    simp only [hm, Bool.true_and, Bool.not_eq_true']
    simpa [laneEt, laneMode] using hn
  have hd := (ite_none (ite_none (ite_none (ite_none (ite_none (ite_none hd).2).2).2).2).2).2
  have h3 := (orElse_none (ite_none (ite_none (ite_none (ite_none (orElse_none (orElse_none hd).2).2).2).2).2).2).1
  rw [if_neg hb] at h3
  cases h3

/-! ## Elements of an operand (03 R82) -/

theorem packElems_lt (w : Nat) (es : List Nat) : packElems w es < 2 ^ (w * es.length) := by
  induction es with
  | nil => simp [packElems]
  | cons e r ih =>
    simp only [packElems, List.length_cons, Nat.mul_succ, Nat.pow_add]
    have h : e % 2 ^ w < 2 ^ w := Nat.mod_lt _ (Nat.two_pow_pos w)
    calc e % 2 ^ w + 2 ^ w * packElems w r < 2 ^ w + 2 ^ w * packElems w r := by omega
      _ = 2 ^ w * (packElems w r + 1) := by ring
      _ ≤ 2 ^ w * 2 ^ (w * r.length) := Nat.mul_le_mul_left _ ih
      _ = 2 ^ (w * r.length) * 2 ^ w := Nat.mul_comm _ _

/-- Element i of a packed list is its entry i, as w bits. -/
theorem elem_packElems (w : Nat) (es : List Nat) : ∀ i, i < es.length → elem (packElems w es) w i = es.getD i 0 % 2 ^ w := by
  induction es with
  | nil => intro i h; simp at h
  | cons e r ih =>
    intro i h
    cases i with
    | zero => simp [elem, packElems, Nat.add_mul_mod_self_left]
    | succ i =>
      have h1 : e % 2 ^ w < 2 ^ w := Nat.mod_lt _ (Nat.two_pow_pos w)
      have h2 : (e % 2 ^ w + 2 ^ w * packElems w r) / 2 ^ (w * (i + 1)) = packElems w r / 2 ^ (w * i) := by
        rw [Nat.mul_succ, Nat.add_comm (w * i) w, Nat.pow_add, ← Nat.div_div_eq_div_mul, Nat.add_mul_div_left _ _ (Nat.two_pow_pos w), Nat.div_eq_of_lt h1, Nat.zero_add]
      have h3 := ih i (by simpa using h)
      simp only [elem] at h3 ⊢
      simp only [packElems, h2, h3, List.getD_cons_succ]

theorem et_bits (et : Nat) : etWidth et * etCount et = if etWide et then 64 else 32 := by
  unfold etCount
  have : etWidth et = 64 ∧ etWide et = true ∨ etWide et = false ∧ (etWidth et = 16 ∨ etWidth et = 8 ∨ etWidth et = 32) := by
    unfold etWidth
    split
    · right; rename_i h; refine ⟨?_, .inl rfl⟩; simp [etWide]; simp at h; omega
    · split
      · right; rename_i h; refine ⟨?_, .inr (.inl rfl)⟩; simp [etWide]; simp at h; omega
      · split
        · left; rename_i h; exact ⟨rfl, h⟩
        · right; rename_i h; exact ⟨by simpa using h, .inr (.inr rfl)⟩
  rcases this with ⟨h, h2⟩ | ⟨h2, h | h | h⟩ <;> simp [h, h2]

/-- Elementwise work: a value of the operand's width, each of whose elements is what the function gives for the elements of the operands. -/
theorem mapElems_elem (m : Word) (x y z : Nat) (f : Nat → Nat → Nat → Nat) :
    mapElems m x y z f < 2 ^ (if etWide (mEtype m) then 64 else 32) ∧
    ∀ e, e < etCount (mEtype m) →
      elem (mapElems m x y z f) (etWidth (mEtype m)) e =
        f (elem x (etWidth (mEtype m)) e) (elem y (etWidth (mEtype m)) e) (elem z (etWidth (mEtype m)) e) % 2 ^ etWidth (mEtype m) := by
  constructor
  · have := packElems_lt (etWidth (mEtype m)) ((List.range (etCount (mEtype m))).map fun i =>
      f (elem x (etWidth (mEtype m)) i) (elem y (etWidth (mEtype m)) i) (elem z (etWidth (mEtype m)) i))
    simpa [mapElems, et_bits] using this
  · intro e he
    unfold mapElems
    rw [elem_packElems _ _ _ (by simpa using he)]
    simp [List.getD_eq_getElem?_getD, he]

theorem fit_lt (v : Int) (w : Nat) (sg sat : Bool) : fit v w sg sat < 2 ^ w := by
  unfold fit
  have h : (0 : Int) < 2 ^ w := by positivity
  have h1 := Int.emod_lt_of_pos (if sat = true then min (max v (loEnd w sg)) (hiEnd w sg) else v) h
  have h2 := Int.emod_nonneg (if sat = true then min (max v (loEnd w sg)) (hiEnd w sg) else v) (ne_of_gt h)
  have h3 : (((2 : Nat) ^ w : Nat) : Int) = (2 : Int) ^ w := by simp
  omega

/-! ## What the state gives to the reading of operands -/

/-- The issue changes nothing of a core but a count. -/
theorem countIssue_core (s : State) (c : Ctx) (k : Nat) : (countIssue s c).core k = { s.core k with issued := ((countIssue s c).core k).issued } := by
  have h := (countIssue_beyond s c ((countIssue s c).group c.gid)).cores k
  simpa using h

@[simp] theorem countIssue_bindRec (s : State) (c : Ctx) (tid : Nat) : (countIssue s c).bindRec tid = s.bindRec tid := by
  unfold State.bindRec
  rw [countIssue_core]

@[simp] theorem countIssue_bindField (s : State) (c : Ctx) (tid off n : Nat) : (countIssue s c).bindField tid off n = s.bindField tid off n := by
  unfold State.bindField
  rw [countIssue_bindRec]

@[simp] theorem countIssue_team (s : State) (c : Ctx) (tid : Nat) : (countIssue s c).team tid = s.team tid := by
  simp [countIssue]

theorem counted_fields (g : Group) (c : Ctx) : (counted g c).tid = g.tid ∧ (counted g c).num = g.num ∧ (counted g c).core = g.core ∧
    (counted g c).part = g.part ∧ (counted g c).role = g.role ∧ (counted g c).frame = g.frame := ⟨rfl, rfl, rfl, rfl, rfl, rfl⟩

/-- Special registers read the same after the issue number has advanced. -/
theorem countIssue_specialReg (s : State) (g : Group) (c k : Ctx) (code : Nat) :
    specialReg (countIssue s c) (counted g c) k code = specialReg s g k code := by
  have ht : (countIssue s c).time = s.time := by simp [countIssue]
  have hd : ∀ d, (countIssue s c).die d = s.die d := fun d => by simp [countIssue]
  unfold specialReg
  simp only [countIssue_team, countIssue_bindField, counted_fields, cycleCount, ht, hd, State.asid, Group.priv]
  rfl

@[simp] theorem countIssue_readU (s : State) (g : Group) (c k : Ctx) (code : Nat) : readU (countIssue s c) (counted g c) k code = readU s g k code := by
  unfold readU
  rw [countIssue_specialReg, counted_uget]

@[simp] theorem countIssue_readU64 (s : State) (g : Group) (c k : Ctx) (code : Nat) : readU64 (countIssue s c) (counted g c) k code = readU64 s g k code := by
  unfold readU64
  rw [countIssue_readU, countIssue_readU]

theorem slice_lt_live {g : Group} {c : Ctx} (i : Nat) : ((counted g c).slice i).isDead = (g.slice i).isDead ∧ ((counted g c).slice i).mode = (g.slice i).mode := by
  obtain ⟨n, h⟩ := counted_slice g c i
  rw [h]
  exact ⟨rfl, rfl⟩

@[simp] theorem counted_liveSlices (g : Group) (c : Ctx) : (counted g c).liveSlices = g.liveSlices := by
  unfold Group.liveSlices
  congr 1
  funext i
  rw [(slice_lt_live i).1]

@[simp] theorem counted_uniformEt (g : Group) (c : Ctx) : uniformEt (counted g c) = uniformEt g := by
  unfold uniformEt Group.lowestLive
  rw [counted_liveSlices, (slice_lt_live _).2]

@[simp] theorem counted_uWide (g : Group) (c : Ctx) : uWide (counted g c) = uWide g := by unfold uWide; rw [counted_uniformEt]
@[simp] theorem counted_uSigned (g : Group) (c : Ctx) : uSigned (counted g c) = uSigned g := by unfold uSigned; rw [counted_uniformEt]
@[simp] theorem counted_uBits (g : Group) (c : Ctx) : uBits (counted g c) = uBits g := by unfold uBits; rw [counted_uWide]
@[simp] theorem countIssue_readUN (s : State) (g : Group) (c k : Ctx) (code : Nat) : readUN (countIssue s c) (counted g c) k code = readUN s g k code := by
  unfold readUN
  rw [counted_uWide, countIssue_readU, countIssue_readU64]
@[simp] theorem counted_uniformSplit (g : Group) (c k : Ctx) : uniformSplit (counted g c) k = uniformSplit g k := by unfold uniformSplit; rw [counted_liveSlices]
@[simp] theorem counted_runSet (g : Group) (c k : Ctx) : runSet (counted g c) k = runSet g k := by
  unfold runSet
  congr 1
  funext l
  rw [counted_runs]
@[simp] theorem counted_activeSet (g : Group) (c k : Ctx) : activeSet (counted g c) k = activeSet g k := by
  unfold activeSet
  congr 1
  funext l
  rw [counted_isActive]

/-- A uniform instruction of a gang that holds every live slice runs its body. -/
theorem issueUniform_body {w : Word} {s : State} {c : Ctx} (code : Nat) (body : Ctx → Group → State → Result) (hc : issuer s = some c)
    (hi : issues w s = true) (hu : uniformSplit (s.group c.gid) c = false) :
    issueUniform w code s body = body c (counted (s.group c.gid) c) (countIssue s c) := by
  unfold issueUniform
  rw [issue_body _ hc hi, counted_uniformSplit, hu]
  rfl

/-- A uniform instruction of a gang that lacks a live slice raises UNIFORM_SPLIT. -/
theorem issueUniform_split {w : Word} {s : State} {c : Ctx} (code : Nat) (body : Ctx → Group → State → Result) (hc : issuer s = some c)
    (hi : issues w s = true) (hu : uniformSplit (s.group c.gid) c = true) :
    issueUniform w code s body = .next (raiseTrap (countIssue s c) c w (gangTrap (s.group c.gid) c 4 code 0)) := by
  unfold issueUniform
  rw [issue_body _ hc hi, counted_uniformSplit, hu]
  simp only [if_true, trapAt, gangTrap, counted_runSet]

/-- A uniform value of the width of the class. -/
theorem writeUN_result (s : State) (c : Ctx) (d x : Nat) :
    UniResult s (retire (countIssue s c) c (writeUN (counted (s.group c.gid) c) d x)) c d (uWide (s.group c.gid)) x := by
  have hr := retire_regs (countIssue s c) c (writeUN (counted (s.group c.gid) c) d x)
  have he : writeUN (counted (s.group c.gid) c) d x = { counted (s.group c.gid) c with uregs := (writeUN (counted (s.group c.gid) c) d x).uregs } := by
    unfold writeUN; split <;> rfl
  refine ⟨⟨retire_frame s c _ (s.group c.gid).vregs (s.group c.gid).preds _ (s.group c.gid).uq he, ?_, ?_, ?_, ?_⟩, ?_, ?_⟩
  · intro n l _; rw [vget_congr hr.1, he]; rfl
  · intro n _; rw [hr.2.1, he]; rfl
  · intro n h
    rw [uget_congr hr.2.2.1]
    unfold writeUN
    rw [counted_uWide]
    split at h
    · rename_i hw
      simp only [atPair, Bool.or_eq_false_iff, beq_eq_false_iff_ne] at h
      rw [if_pos hw, uput64, uget_uput_ne _ _ _ _ (Ne.symm h.2), uget_uput_ne _ _ _ _ (Ne.symm h.1)]; rfl
    · rename_i hw
      simp only [atReg, beq_eq_false_iff_ne] at h
      rw [if_neg hw, uget_uput_ne _ _ _ _ (Ne.symm h)]; rfl
  · intro n _; rw [hr.2.2.2, he]; rfl
  · rw [uget_congr hr.2.2.1]
    unfold writeUN
    rw [counted_uWide]
    split
    · rw [uput64, uget_uput_ne _ _ _ _ (by omega), uget_uput_self]
      apply BitVec.eq_of_toNat_eq
      simp only [loHalf, BitVec.toNat_setWidth, BitVec.toNat_ofNat]
      omega
    · rw [uget_uput_self]
  · intro hw
    rw [uget_congr hr.2.2.1]
    unfold writeUN
    rw [counted_uWide, if_pos hw, uput64, uget_uput_self]
    apply BitVec.eq_of_toNat_eq
    simp only [hiHalf, BitVec.toNat_setWidth, BitVec.toNat_ofNat, BitVec.toNat_ushiftRight, Nat.shiftRight_eq_div_pow]
    omega

end Sys2Proof.Machine
end

