-- ==== Sys2Proof/Laws/Control.lean ====
section
/-! SUPPORT. What a control instruction does to the slices of its gang. -/
namespace Sys2Proof.Machine

theorem SliceLike.refl (x : Slice) : SliceLike x x := ⟨⟨rfl, rfl, rfl, rfl, rfl, rfl, rfl, rfl, rfl, rfl, rfl, rfl⟩, rfl⟩

/-- Being alike does not look at gang number, spinning, promotion and the count of issues. -/
theorem SliceLike.of {x y : Slice} (h : SliceLike x y) (n k : Nat) (sp : Spin) (pr : Bool) :
    SliceLike x { y with gang := n, spin := sp, promoted := pr, issues := k } :=
  ⟨⟨h.live, h.run, h.stack, h.depth, h.mode, h.loads, h.stores, h.atomics, h.posts, h.wait, h.handler, h.lastBack⟩, h.pc⟩

/-- Replacing the slices of the gang and settling is a flow. -/
theorem slices_flow (s : State) (c : Ctx) (ss : List Slice) (f : Nat → Slice → Slice)
    (hin : ∀ i, i < (s.group c.gid).slices.length → c.gang.getLsbD i = true → SliceLike (f i ((s.group c.gid).slice i)) (ss.getD i .dead))
    (hout : ∀ i, c.gang.getLsbD i = false → SliceLike ((s.group c.gid).slice i) (ss.getD i .dead)) :
    Flow s ((countIssue s c).setGroup c.gid { counted (s.group c.gid) c with slices := ss }) c f where
  beyond := countIssue_beyond s c _
  group := by rw [group_setGroup]; exact ⟨rfl, rfl, rfl, rfl, rfl, rfl, rfl, rfl, rfl, rfl, rfl, rfl, rfl, rfl, rfl, rfl, rfl, rfl⟩
  regs := by rw [group_setGroup]; exact ⟨fun _ _ _ => rfl, fun _ _ => rfl, fun _ _ => rfl, rfl⟩
  issueNo := by rw [group_setGroup]; rfl
  slices i hl hb := by rw [group_setGroup]; exact hin i hl hb
  others i hb := by rw [group_setGroup]; exact hout i hb

/-- The slices of a gang changed one by one, and the gang split by next PC (02 R44). -/
theorem settleAt_flow (s : State) (c : Ctx) (k : Nat → Slice → Slice) (f : Nat → Slice → Slice)
    (h : ∀ i n, SliceLike (f i ((s.group c.gid).slice i)) (k i { (s.group c.gid).slice i with issues := n })) :
    Flow s (settleAt (countIssue s c) c ((counted (s.group c.gid) c).mapSlices c.gang k)) c f := by
  obtain ⟨ss, h1, h2, h3⟩ := settle_group c ((counted (s.group c.gid) c).mapSlices c.gang k)
  have e : settleAt (countIssue s c) c ((counted (s.group c.gid) c).mapSlices c.gang k) =
      (countIssue s c).setGroup c.gid { counted (s.group c.gid) c with slices := ss } := by
    unfold settleAt; rw [h1]; rfl
  rw [e]
  refine slices_flow s c ss f (fun i hl hb => ?_) (fun i hb => ?_)
  · obtain ⟨n, sp, hs⟩ := h3 i
    rw [hs, slice_mapSlices, counted_length, if_pos ⟨hl, hb⟩]
    obtain ⟨m, hm⟩ := counted_slice (s.group c.gid) c i
    rw [hm]
    exact (h i m).of n _ sp _
  · obtain ⟨n, sp, hs⟩ := h3 i
    rw [hs, slice_mapSlices, if_neg (by simp [hb])]
    obtain ⟨m, hm⟩ := counted_slice (s.group c.gid) c i
    rw [hm]
    exact (SliceLike.refl _).of n m sp _

/-- The slices of a gang changed one by one, with no split. -/
theorem mapSlices_flow (s : State) (c : Ctx) (k : Nat → Slice → Slice) (f : Nat → Slice → Slice)
    (h : ∀ i n, SliceLike (f i ((s.group c.gid).slice i)) (k i { (s.group c.gid).slice i with issues := n })) :
    Flow s ((countIssue s c).setGroup c.gid ((counted (s.group c.gid) c).mapSlices c.gang k)) c f := by
  refine slices_flow s c _ f (fun i hl hb => ?_) (fun i hb => ?_)
  · show SliceLike _ (((counted (s.group c.gid) c).mapSlices c.gang k).slice i)
    rw [slice_mapSlices, counted_length, if_pos ⟨hl, hb⟩]
    obtain ⟨m, hm⟩ := counted_slice (s.group c.gid) c i
    rw [hm]
    exact h i m
  · show SliceLike _ (((counted (s.group c.gid) c).mapSlices c.gang k).slice i)
    rw [slice_mapSlices, if_neg (by simp [hb])]
    obtain ⟨m, hm⟩ := counted_slice (s.group c.gid) c i
    rw [hm]
    exact (SliceLike.refl _).of _ m _ _

/-- Retiring after the slices of the gang were changed one by one: they also go on to the next word. -/
theorem retire_flow (s : State) (c : Ctx) (k : Nat → Slice → Slice) (f : Nat → Slice → Slice)
    (h : ∀ i n, SliceLike (f i ((s.group c.gid).slice i))
      { k i { (s.group c.gid).slice i with issues := n } with pc := (k i { (s.group c.gid).slice i with issues := n }).pc + 4 }) :
    Flow s (retire (countIssue s c) c ((counted (s.group c.gid) c).mapSlices c.gang k)) c f := by
  have e : retire (countIssue s c) c ((counted (s.group c.gid) c).mapSlices c.gang k) =
      settleAt (countIssue s c) c ((counted (s.group c.gid) c).mapSlices c.gang fun i x => ({ k i x with pc := (k i x).pc + 4, promoted := false } : Slice).spinCheck) := by
    unfold retire settleAt advance
    congr 2
    simp only [Group.mapSlices, List.mapIdx_mapIdx]
    congr 1
    apply List.mapIdx_eq_mapIdx_iff.mpr
    intro i hi
    simp only [Function.comp]
    split <;> rfl
  rw [e]
  refine settleAt_flow s c _ f fun i n => ?_
  obtain ⟨sp, hs⟩ := spinCheck_eq ({ k i { (s.group c.gid).slice i with issues := n } with pc := (k i { (s.group c.gid).slice i with issues := n }).pc + 4, promoted := false } : Slice)
  rw [hs]
  exact (h i n).of _ _ sp false

/-- An event that changes slices of a group one by one. -/
theorem modGroup_sliceEvent (s : State) (gid : Nat) (m : SliceMask) (f : Nat → Slice → Slice) :
    SliceEvent s (s.modGroup gid fun g => g.mapSlices m f) gid m f where
  beyond :=
    { mem := rfl, bytes := fun _ => rfl, teams := rfl, dies := rfl, homes := rfl, hub := rfl, referee := rfl, cur := rfl, inputs := rfl, time := rfl,
      groups := fun j h => group_modGroup_ne _ _ _ _ (Ne.symm h), cores := fun _ => rfl }
  cores := rfl
  group := by rw [group_modGroup]; exact ⟨rfl, rfl, rfl, rfl, rfl, rfl, rfl, rfl, rfl, rfl, rfl, rfl, rfl, rfl, rfl, rfl, rfl, rfl⟩
  regs := by rw [group_modGroup]; exact ⟨fun _ _ _ => rfl, fun _ _ => rfl, fun _ _ => rfl, rfl⟩
  issueNo := by rw [group_modGroup]; rfl
  slices i hl hb := by rw [group_modGroup, slice_mapSlices, if_pos ⟨hl, hb⟩]
  others i hb := by rw [group_modGroup, slice_mapSlices, if_neg (by simp [hb])]

end Sys2Proof.Machine
end

