-- ==== Sys2Proof/Laws/MemIssue.lean ====
section
/-! SUPPORT. What issuing a memory instruction does: its operation stands in the log, or nothing is left to do. -/
namespace Sys2Proof.Machine

theorem getD_map_range {α : Type} (n l : Nat) (f : Nat → α) (d : α) (h : l < n) : ((List.range n).map f).getD l d = f l := by
  simp [List.getD_eq_getElem?_getD, h]

@[simp] theorem counted_frame (g : Group) (c : Ctx) : (counted g c).frame = g.frame := rfl
@[simp] theorem counted_part (g : Group) (c : Ctx) : (counted g c).part = g.part := rfl
@[simp] theorem counted_core (g : Group) (c : Ctx) : (counted g c).core = g.core := rfl
@[simp] theorem counted_tid (g : Group) (c : Ctx) : (counted g c).tid = g.tid := rfl

theorem count_issues (x : Slice) (n k : Nat) : ({ x with issues := n } : Slice).count k = x.count k := by
  unfold Slice.count; split <;> rfl

/-- The operation that a plan makes captures what the rules name. -/
theorem mkOp_captures (s : State) (c : Ctx) (w : Word) (p : LogPlan) :
    Captures s c w p.kind p.active p.addr p.data (mkOp (countIssue s c) c (counted (s.group c.gid) c) w p) where
  gid := rfl
  id := by
    show ((countIssue s c).core (s.group c.gid).core).nextId = _
    rw [countIssue_core]
  key := rfl
  word := rfl
  kind := rfl
  pc := by
    obtain ⟨n, h⟩ := counted_slice (s.group c.gid) c (lowestSlice c.gang)
    show ((counted (s.group c.gid) c).slice (lowestSlice c.gang)).pc = _
    rw [h]
  gang := rfl
  active := rfl
  left := rfl
  addr l hl hu := by
    show (((List.range (if p.kind.isUniform then 1 else 256)).map p.addr).getD l 0).toNat = _
    by_cases h : p.kind.isUniform = true
    · simp [h, hu h]
    · rw [getD_map_range _ _ _ _ (by simp [h, hl])]
  data l hl := by
    show (((List.range 256).map p.data).getD l 0).toNat = _
    rw [getD_map_range _ _ _ _ hl]
  mode l hl := by
    show ((List.range 64).map fun i => ((counted (s.group c.gid) c).slice i).mode).getD (l / 4) 0 = _
    rw [getD_map_range _ _ _ _ (by omega), ← counted_laneMode (s.group c.gid) c l]
    rfl
  walked := rfl
  hits := rfl
  priv := rfl

theorem length_mapSlices (g : Group) (m : SliceMask) (f : Nat → Slice → Slice) : (g.mapSlices m f).slices.length = g.slices.length := by
  simp [Group.mapSlices]

theorem core_counted {k k' : Core} {n : List Nat} (h : k = { k' with issued := n }) (lg : List LogOp) (i : Nat) :
    { k with log := lg, nextId := i } = { k' with issued := k.issued, log := lg, nextId := i } := by
  subst h; rfl

/-- What retiring does to a group whose slices were changed. -/
theorem retire_slice (s : State) (c : Ctx) (g : Group) (i : Nat) :
    ∃ n sp pr, ((retire s c g).group c.gid).slice i = { g.slice i with
      pc := if i < g.slices.length ∧ c.gang.getLsbD i = true then (g.slice i).pc + 4 else (g.slice i).pc, gang := n, spin := sp, promoted := pr } := by
  unfold retire; rw [group_setGroup]; exact retired_slice c g i

/-- A memory instruction that is ready and meets no trap stands in the log; without an active lane its gang goes on. -/
theorem issueMemWhen_completes {w : Word} {s : State} {c : Ctx} (uniform : Option Nat) (store : Bool) (plan : Ctx → Group → State → LogPlan)
    (pre : Ctx → Group → State → LogOp → Option TrapInfo) (hold : Ctx → Group → State → Bool) (hc : issuer s = some c) (hi : issues w s = true) (p : LogPlan)
    (hp : plan c (counted (s.group c.gid) c) (countIssue s c) = p)
    (hsplit : ∀ code, uniform = some code → uniformSplit (s.group c.gid) c = false)
    (hpre : ∀ o, Captures s c w p.kind p.active p.addr p.data o → pre c (counted (s.group c.gid) c) (countIssue s c) o = none)
    (hhold : hold c (counted (s.group c.gid) c) (countIssue s c) = false) :
    (p.active ≠ 0 → ∃ t, issueMemWhen w uniform store s plan pre hold = .next t ∧
      ∃ o, Captures s c w p.kind p.active p.addr p.data o ∧ MemIssue s t c o store) ∧
    (p.active = 0 → ∃ t, issueMemWhen w uniform store s plan pre hold = .next t ∧ IdleIssue s t c store) := by
  have hcap := mkOp_captures s c w p
  have e : issueMemWhen w uniform store s plan pre hold =
      if p.active = 0 then Host.Outcome.next (retire (countIssue s c) c (if store then storeClass c (counted (s.group c.gid) c) else counted (s.group c.gid) c))
      else .next ((retire (countIssue s c) c (countOp (if store then storeClass c (counted (s.group c.gid) c) else counted (s.group c.gid) c)
          p.kind (opGang c) p.active)).modCore (s.group c.gid).core
        fun k => { k with log := k.log ++ [mkOp (countIssue s c) c (counted (s.group c.gid) c) w p], nextId := k.nextId + 1 }) := by
    unfold issueMemWhen
    rw [issue_body _ hc hi]
    simp only [hp]
    cases uniform with
    | none =>
      simp only [hpre _ hcap, hhold, Bool.false_eq_true, if_false, Option.orElse_none]
      rfl
    | some code =>
      simp only [counted_uniformSplit, hsplit code rfl, hpre _ hcap, hhold, Bool.false_eq_true, if_false, Option.orElse_none]
      rfl
  have keep : ∀ g1 : Group, g1 = (if store then storeClass c (counted (s.group c.gid) c) else counted (s.group c.gid) c) →
      ∃ k : Nat → Slice → Slice, g1 = (counted (s.group c.gid) c).mapSlices c.gang k ∧
        ∀ i x, ∃ sp, k i x = { x with spin := sp, lastBack := if store then none else x.lastBack } := by
    intro g1 h
    cases store with
    | true => exact ⟨_, h, fun i x => ⟨_, rfl⟩⟩
    | false =>
      refine ⟨fun _ x => x, h.trans ?_, fun i x => ⟨x.spin, rfl⟩⟩
      have : ∀ g : Group, g = g.mapSlices c.gang fun _ x => x := by
        intro g
        have : g.slices.mapIdx (fun i x => if c.gang.getLsbD i then x else x) = g.slices := by
          apply List.ext_getElem <;> simp
        show g = { g with slices := _ }
        rw [this]
      exact this _
  obtain ⟨k, hk, hk2⟩ := keep _ rfl
  refine ⟨fun ha => ?_, fun ha => ?_⟩
  · rw [if_neg ha] at e
    refine ⟨_, e, mkOp (countIssue s c) c (counted (s.group c.gid) c) w p, hcap, ?_⟩
    · have hs : ∀ i, ∃ n sp pr j lb v, ((retire (countIssue s c) c (countOp (if store then storeClass c (counted (s.group c.gid) c) else counted (s.group c.gid) c)
          p.kind (opGang c) p.active)).group c.gid).slice i = { (((s.group c.gid).slice i).setCount p.kind.counter v) with
            pc := if i < (s.group c.gid).slices.length ∧ c.gang.getLsbD i = true then ((s.group c.gid).slice i).pc + 4 else ((s.group c.gid).slice i).pc,
            lastBack := lb, gang := n, spin := sp, promoted := pr, issues := j } ∧
          lb = (if i < (s.group c.gid).slices.length ∧ c.gang.getLsbD i = true then (if store then none else ((s.group c.gid).slice i).lastBack)
            else ((s.group c.gid).slice i).lastBack) ∧
          v = ((s.group c.gid).slice i).count p.kind.counter + (if i < (s.group c.gid).slices.length ∧ (opGang c).getLsbD i = true then p.kind.weight p.active i else 0) := by
        intro i
        obtain ⟨n, sp, pr, h1⟩ := retire_slice (countIssue s c) c (countOp (if store then storeClass c (counted (s.group c.gid) c) else counted (s.group c.gid) c)
          p.kind (opGang c) p.active) i
        have hl : (countOp (if store then storeClass c (counted (s.group c.gid) c) else counted (s.group c.gid) c) p.kind (opGang c) p.active).slices.length =
            (s.group c.gid).slices.length := by
          rw [hk]
          exact (length_mapSlices _ _ _).trans ((length_mapSlices _ _ _).trans (counted_length _ _))
        obtain ⟨m, hm⟩ := counted_slice (s.group c.gid) c i
        obtain ⟨sq, hq⟩ := hk2 i ((counted (s.group c.gid) c).slice i)
        have hx : (countOp (if store then storeClass c (counted (s.group c.gid) c) else counted (s.group c.gid) c) p.kind (opGang c) p.active).slice i =
            let y : Slice := if i < (s.group c.gid).slices.length ∧ c.gang.getLsbD i = true then
              { (s.group c.gid).slice i with issues := m, spin := sq, lastBack := if store then none else ((s.group c.gid).slice i).lastBack }
              else { (s.group c.gid).slice i with issues := m }
            if i < (s.group c.gid).slices.length ∧ (opGang c).getLsbD i = true then y.setCount p.kind.counter (y.count p.kind.counter + p.kind.weight p.active i) else y := by
          rw [countOp, slice_mapSlices, hk, slice_mapSlices, counted_length]
          rw [length_mapSlices, counted_length, hq, hm]
        rw [h1, hl, hx]
        have sc : ∀ (x : Slice) (a b : Nat) (d : Spin) (lb : Option DWord), (({ x with issues := a, spin := d, lastBack := lb } : Slice).setCount p.kind.counter b) =
            { x.setCount p.kind.counter b with issues := a, spin := d, lastBack := lb } := by
          intro x a b d lb; unfold Slice.setCount; split <;> rfl
        have cc : ∀ (x : Slice) (a : Nat) (d : Spin) (lb : Option DWord), (({ x with issues := a, spin := d, lastBack := lb } : Slice).count p.kind.counter) = x.count p.kind.counter := by
          intro x a d lb; unfold Slice.count; split <;> rfl
        have self : ∀ x : Slice, x.setCount p.kind.counter (x.count p.kind.counter + 0) = x := by
          intro x; unfold Slice.setCount Slice.count; split <;> rfl
        have pcs : ∀ (x : Slice) (v : Nat), (x.setCount p.kind.counter v).pc = x.pc := by
          intro x v; unfold Slice.setCount; split <;> rfl
        have all : ∀ x : Slice, ({ x with issues := m } : Slice) = { x with issues := m, spin := x.spin, lastBack := x.lastBack } := fun _ => rfl
        by_cases hA : i < (s.group c.gid).slices.length ∧ c.gang.getLsbD i = true <;>
          by_cases hB : i < (s.group c.gid).slices.length ∧ (opGang c).getLsbD i = true
        · simp only [hA, hB, and_self, if_true]
          exact ⟨n, sp, pr, m, _, _, by rw [cc, sc, pcs], rfl, rfl⟩
        · simp only [if_pos hA, if_neg hB]
          refine ⟨n, sp, pr, m, _, _, ?_, rfl, rfl⟩
          rw [self]
        · simp only [if_neg hA, if_pos hB]
          rw [all, cc, sc]
          exact ⟨n, sp, pr, m, _, _, by rw [pcs], rfl, rfl⟩
        · simp only [if_neg hA, if_neg hB]
          refine ⟨n, sp, pr, m, _, _, ?_, rfl, rfl⟩
          rw [self]
      have hg : ∃ ss, (retire (countIssue s c) c (countOp (if store then storeClass c (counted (s.group c.gid) c) else counted (s.group c.gid) c)
          p.kind (opGang c) p.active)).group c.gid = { counted (s.group c.gid) c with slices := ss } := by
        unfold retire
        rw [group_setGroup, retired_eq, hk]
        exact ⟨_, rfl⟩
      obtain ⟨ss, hg⟩ := hg
      refine { mem := rfl, bytes := fun _ => rfl, teams := rfl, dies := rfl, homes := rfl, hub := rfl, referee := rfl, groups := ?_, log := ?_, logs := ?_, cores := ?_,
               group := ?_, regs := ?_, slices := ?_, others := ?_ }
      · intro j h
        rw [group_modCore]
        exact (countIssue_beyond s c _).groups j h
      · rw [core_modCore]
        show ((countIssue s c).core (s.group c.gid).core).log ++ _ = _
        rw [countIssue_core]
      · intro j h
        rw [core_modCore_ne _ _ _ _ (Ne.symm h)]
        show ((countIssue s c).core j).log = _
        rw [countIssue_core]
      · intro j
        by_cases h : (s.group c.gid).core = j
        · subst h
          rw [core_modCore]
          exact core_counted (countIssue_core s c (s.group c.gid).core) _ _
        · rw [core_modCore_ne _ _ _ _ h]
          exact core_counted (countIssue_core s c j) ((countIssue s c).core j).log ((countIssue s c).core j).nextId
      · rw [group_modCore]
        show GroupKept _ ((retire (countIssue s c) c (countOp (if store then storeClass c (counted (s.group c.gid) c) else counted (s.group c.gid) c)
          p.kind (opGang c) p.active)).group c.gid)
        rw [hg]
        exact ⟨rfl, rfl, rfl, rfl, rfl, rfl, rfl, rfl, rfl, rfl, rfl, rfl, rfl, rfl, rfl, rfl, rfl, rfl⟩
      · rw [group_modCore]
        show RegsKept _ ((retire (countIssue s c) c (countOp (if store then storeClass c (counted (s.group c.gid) c) else counted (s.group c.gid) c)
          p.kind (opGang c) p.active)).group c.gid)
        rw [hg]
        exact ⟨fun _ _ _ => rfl, fun _ _ => rfl, fun _ _ => rfl, rfl⟩
      · intro i hl hb
        rw [group_modCore]
        obtain ⟨n, sp, pr, j, lb, v, h1, h2, h3⟩ := hs i
        have p1 : i < (s.group c.gid).slices.length ∧ c.gang.getLsbD i = true := ⟨hl, hb⟩
        rw [if_pos p1] at h2
        show SliceLike _ (((retire (countIssue s c) c (countOp (if store then storeClass c (counted (s.group c.gid) c) else counted (s.group c.gid) c)
          p.kind (opGang c) p.active)).group c.gid).slice i)
        rw [h1, h2, h3, if_pos p1]
        have : (if i < (s.group c.gid).slices.length ∧ (opGang c).getLsbD i = true then p.kind.weight p.active i else 0) =
            (if (opGang c).getLsbD i = true then p.kind.weight p.active i else 0) := by simp [hl]
        rw [this]
        cases store <;> exact (SliceLike.refl _).of n j sp pr
      · intro i hb ho
        rw [group_modCore]
        obtain ⟨n, sp, pr, j, lb, v, h1, h2, h3⟩ := hs i
        have ho' : (opGang c).getLsbD i = false := ho
        have p1 : ¬(i < (s.group c.gid).slices.length ∧ c.gang.getLsbD i = true) := by simp [hb]
        have p2 : ¬(i < (s.group c.gid).slices.length ∧ (opGang c).getLsbD i = true) := by simp [ho']
        rw [if_neg p1] at h2
        show SliceLike _ (((retire (countIssue s c) c (countOp (if store then storeClass c (counted (s.group c.gid) c) else counted (s.group c.gid) c)
          p.kind (opGang c) p.active)).group c.gid).slice i)
        rw [h1, h2, h3, if_neg p1, if_neg p2]
        have self : ∀ x : Slice, x.setCount p.kind.counter (x.count p.kind.counter + 0) = x := by
          intro x; unfold Slice.setCount Slice.count; split <;> rfl
        rw [self]
        exact (SliceLike.refl _).of n j sp pr
  · rw [if_pos ha, hk] at e
    refine ⟨_, e, ?_⟩
    · refine retire_flow s c k _ fun i n => ?_
      obtain ⟨sp, h⟩ := hk2 i { (s.group c.gid).slice i with issues := n }
      rw [h]
      exact (SliceLike.refl _).of _ n sp _

end Sys2Proof.Machine
end

