-- ==== Sys2Proof/Laws/Captured.lean ====
section
/-! SUPPORT. The checks of a memory instruction look at no more of its logged operation than what the rules say it captures. -/
namespace Sys2Proof.Machine

/-- Two operations agree in what a check may look at. -/
structure SameOp (o p : LogOp) : Prop where
  gid : o.gid = p.gid
  kind : o.kind = p.kind
  active : o.active = p.active
  ea : ∀ l, l < 256 → (o.kind.isUniform = true → l = 0) → o.ea l = p.ea l
  value : ∀ l, l < 256 → o.value l = p.value l
  mode : ∀ l, l < 256 → o.mode l = p.mode l

/-- Two operations that capture the same agree. -/
theorem Captures.same {s : State} {c : Ctx} {w : Word} {k : MemKind} {act : LaneMask} {adr : Nat → DWord} {dat : Nat → BitVec 128} {o p : LogOp}
    (h : Captures s c w k act adr dat o) (h' : Captures s c w k act adr dat p) : SameOp o p where
  gid := h.gid.trans h'.gid.symm
  kind := h.kind.trans h'.kind.symm
  active := h.active.trans h'.active.symm
  ea l hl hu := (h.addr l hl (h.kind ▸ hu)).trans (h'.addr l hl (h.kind ▸ hu)).symm
  value l hl := (h.data l hl).trans (h'.data l hl).symm
  mode l hl := (h.mode l hl).trans (h'.mode l hl).symm

theorem lt_of_mem_lanesOf {m : LaneMask} {l : Nat} (h : l ∈ lanesOf m) : l < 256 := by
  simpa using List.mem_range.1 (List.mem_filter.1 h).1

theorem SameOp.accesses {o p : LogOp} (h : SameOp o p) (s : State) : s.accesses o = s.accesses p := by
  have each (n n' : Nat → Nat) (hu : o.kind.isUniform = false) (hn : ∀ l, l < 256 → n l = n' l) :
      ((lanesOf o.active).map fun l => (⟨l, o.ea l, n l⟩ : Acc)) = (lanesOf p.active).map fun l => ⟨l, p.ea l, n' l⟩ := by
    rw [← h.active]
    refine List.map_congr_left fun l hl => ?_
    have hl := lt_of_mem_lanesOf hl
    rw [h.ea l hl (by simp [hu]), hn l hl]
  have one (n : Nat) : [(⟨0, o.ea 0, n⟩ : Acc)] = [⟨0, p.ea 0, n⟩] := by rw [h.ea 0 (by omega) fun _ => rfl]
  have sx (l : Nat) (hl : l < 256) : o.sx l = p.sx l := by unfold LogOp.sx; rw [h.mode l hl]
  have wide (l : Nat) (hl : l < 256) : o.wide l = p.wide l := by unfold LogOp.wide; rw [h.mode l hl]
  have hk := h.kind
  unfold State.accesses
  rw [← hk]
  cases e : o.kind <;> simp only <;> try first
    | exact one _
    | exact each _ _ (by rw [e]; rfl) fun l hl => by first | rfl | rw [sx l hl] | rw [wide l hl]
  · have hu : o.kind.isUniform = false := by rw [e]; rfl
    rw [h.active]
    refine List.filterMap_congr fun m hm => ?_
    split
    · rename_i j hj
      have : 16 * m + j < 256 := by
        have h1 := List.mem_range.1 hm
        have h2 := List.mem_range.1 (List.mem_of_find?_eq_some hj)
        omega
      rw [h.ea _ this (by simp [hu]), sx _ this]
    · rfl
  · rw [h.gid]

theorem SameOp.accTrap {o p : LogOp} (h : SameOp o p) : accTrap o = accTrap p := by
  have : o.accLane = p.accLane := by funext a l; unfold LogOp.accLane; rw [h.active, h.kind]
  unfold Machine.accTrap
  rw [this]

theorem SameOp.memCheck {o p : LogOp} (h : SameOp o p) (s : State) (g : Group) (k : CheckSpec) : memCheck s g o k = memCheck s g p k := by
  unfold Machine.memCheck
  rw [h.accesses, h.kind, h.accTrap]

theorem SameOp.slotCheck {o p : LogOp} (h : SameOp o p) (s : State) (g : Group) : slotCheck s g o = slotCheck s g p := by
  have : ((lanesOf o.active).map fun l => (⟨l, o.value l % 2 ^ 64, 16⟩ : Acc)) = (lanesOf p.active).map fun l => ⟨l, p.value l % 2 ^ 64, 16⟩ := by
    rw [← h.active]
    exact List.map_congr_left fun l hl => by rw [h.value l (lt_of_mem_lanesOf hl)]
  unfold Machine.slotCheck
  rw [this, h.accTrap]

theorem SameOp.sxVote {o p : LogOp} (h : SameOp o p) (g : Group) (a : BitVec 8) : sxVote g o a = sxVote g p a := by
  unfold Machine.sxVote
  rw [h.active]

end Sys2Proof.Machine
end

