-- ==== Sys2Proof/Laws/Memory.lean ====
section
/-! SUPPORT. The laws of the bytes: a byte reads as what was last written to it, and every write keeps the canonical form. -/
namespace Sys2Proof.Machine

/-! ## Reading after writing -/

theorem sget_of_lt {α : Type} (d : α) (m : Sparse α) (a : Nat) (h : ∀ e ∈ m, a < e.1) : sget d m a = d := by
  induction m with
  | nil => rfl
  | cons e r ih =>
    obtain ⟨k, v⟩ := e
    have := h (k, v) (by simp)
    simp only [sget]
    rw [if_neg (by simp at this; omega)]
    exact ih fun e he => h e (by simp [he])

/-- In the canonical form every later address is greater than the first. -/
theorem rising_lt : ∀ (m : List Host.Cell) (a : Nat) (b : Byte), Memory.rising ((a, b) :: m) = true → ∀ e ∈ m, a < e.1
  | [], _, _, _ => by simp
  | (k, v) :: r, a, b, h => by
    simp only [Memory.rising, Bool.and_eq_true, decide_eq_true_eq] at h
    intro e he
    rcases List.mem_cons.mp he with rfl | he
    · exact h.1.2
    · have := rising_lt r k v (by simp only [Memory.rising, Bool.and_eq_true, decide_eq_true_eq]; exact h.2) e he
      omega

theorem rising_tail {m : List Host.Cell} {e : Host.Cell} (h : Memory.rising (e :: m) = true) : Memory.rising m = true := by
  obtain ⟨a, b⟩ := e
  simp only [Memory.rising, Bool.and_eq_true] at h
  exact h.2

/-- Removing an entry leaves its key unlisted and every other key as it was. -/
theorem sget_sdel (m : List Host.Cell) (a x : Nat) (h : Memory.wf m) :
    sget unwritten (sdel m a) x = if a = x then unwritten else sget unwritten m x := by
  induction m with
  | nil => simp [sdel, sget]
  | cons e r ih =>
    obtain ⟨k, v⟩ := e
    have hl := rising_lt r k v h
    simp only [sdel]
    split
    · rename_i hk
      by_cases hx : a = x
      · rw [if_pos hx, sget_of_lt]
        intro e he
        rcases List.mem_cons.mp he with rfl | he
        · subst hx; exact hk
        · have := hl e he; subst hx; omega
      · rw [if_neg hx]
    · split
      · rename_i hk
        subst hk
        by_cases hx : a = x
        · subst hx; rw [if_pos rfl, sget_of_lt _ _ _ hl]
        · rw [if_neg hx]; simp [sget, hx]
      · rename_i h1 h2
        simp only [sget, ih (rising_tail h)]
        by_cases hx : a = x
        · subst hx; simp [Ne.symm h2]
        · simp [hx]

/-- A byte reads as what was written to it; every other byte as before. -/
theorem bget_bput (m : List Host.Cell) (a x : Nat) (b : Byte) (h : Memory.wf m) :
    bget (bput m a b) x = if a = x then b else bget m x := by
  unfold bget bput
  split
  · subst_vars; exact sget_sdel m a x h
  · exact sget_sput _ _ _ _ _

/-! ## The canonical form -/

theorem rising_cons (a : Nat) (b : Byte) (m : List Host.Cell) (hb : b ≠ 0) (hl : ∀ e ∈ m, a < e.1) (h : Memory.wf m) :
    Memory.wf ((a, b) :: m) := by
  cases m with
  | nil => simpa [Memory.wf, Memory.rising] using hb
  | cons e r =>
    obtain ⟨k, v⟩ := e
    have := hl (k, v) (by simp)
    simp only [Memory.wf, Memory.rising, Bool.and_eq_true, decide_eq_true_eq] at h ⊢
    exact ⟨⟨hb, this⟩, h⟩

theorem mem_sput (m : List Host.Cell) (a : Nat) (b : Byte) : ∀ e ∈ sput m a b, e.1 = a ∨ e ∈ m := by
  induction m with
  | nil => simp [sput]
  | cons x r ih =>
    obtain ⟨k, v⟩ := x
    intro e he
    simp only [sput] at he
    split at he
    · rcases List.mem_cons.mp he with rfl | he
      · exact .inl rfl
      · exact .inr he
    · split at he
      · rcases List.mem_cons.mp he with rfl | he
        · exact .inl rfl
        · exact .inr (by simp [he])
      · rcases List.mem_cons.mp he with rfl | he
        · exact .inr (by simp)
        · rcases ih e he with h | h
          · exact .inl h
          · exact .inr (by simp [h])

theorem wf_sput (m : List Host.Cell) (a : Nat) (b : Byte) (hb : b ≠ 0) (h : Memory.wf m) : Memory.wf (sput m a b) := by
  induction m with
  | nil => simpa [sput, Memory.wf, Memory.rising] using hb
  | cons x r ih =>
    obtain ⟨k, v⟩ := x
    have hl := rising_lt r k v h
    have hv : v ≠ 0 := by
      simp only [Memory.wf, Memory.rising, Bool.and_eq_true, decide_eq_true_eq] at h
      exact h.1.1
    simp only [sput]
    split
    · rename_i hk
      refine rising_cons a b _ hb ?_ h
      intro e he
      rcases List.mem_cons.mp he with rfl | he
      · exact hk
      · have := hl e he; omega
    · split
      · rename_i hk
        subst hk
        exact rising_cons a b r hb hl (rising_tail h)
      · rename_i h1 h2
        refine rising_cons k v _ hv ?_ (ih (rising_tail h))
        intro e he
        rcases mem_sput r a b e he with h3 | h3
        · omega
        · exact hl e h3

theorem mem_sdel (m : List Host.Cell) (a : Nat) : ∀ e ∈ sdel m a, e ∈ m := by
  induction m with
  | nil => simp [sdel]
  | cons x r ih =>
    obtain ⟨k, v⟩ := x
    intro e he
    simp only [sdel] at he
    split at he
    · exact he
    · split at he
      · simp [he]
      · rcases List.mem_cons.mp he with rfl | he
        · simp
        · simp [ih e he]

theorem wf_sdel (m : List Host.Cell) (a : Nat) (h : Memory.wf m) : Memory.wf (sdel m a) := by
  induction m with
  | nil => exact h
  | cons x r ih =>
    obtain ⟨k, v⟩ := x
    have hl := rising_lt r k v h
    have hv : v ≠ 0 := by
      simp only [Memory.wf, Memory.rising, Bool.and_eq_true, decide_eq_true_eq] at h
      exact h.1.1
    simp only [sdel]
    split
    · exact h
    · split
      · exact rising_tail h
      · exact rising_cons k v _ hv (fun e he => hl e (mem_sdel r a e he)) (ih (rising_tail h))

/-- Writing a byte keeps the canonical form. -/
theorem wf_bput (m : List Host.Cell) (a : Nat) (b : Byte) (h : Memory.wf m) : Memory.wf (bput m a b) := by
  unfold bput
  split
  · exact wf_sdel m a h
  · rename_i hb; exact wf_sput m a b hb h

/-- Writing bytes keeps the canonical form. -/
theorem wf_bputs (bs : List Byte) : ∀ (m : List Host.Cell) (a : Nat), Memory.wf m → Memory.wf (bputs m a bs) := by
  induction bs with
  | nil => exact fun _ _ h => h
  | cons b r ih => exact fun m a h => ih _ _ (wf_bput m a b h)

/-- Reading a byte after bytes were written: one of them within their range, the old byte outside it. -/
theorem bget_bputs (bs : List Byte) : ∀ (m : List Host.Cell) (a x : Nat), Memory.wf m →
    bget (bputs m a bs) x = if a ≤ x ∧ x < a + bs.length then bs.getD (x - a) 0 else bget m x := by
  induction bs with
  | nil => intro m a x _; simp only [bputs, List.length_nil]; rw [if_neg (by omega)]
  | cons b r ih =>
    intro m a x h
    simp only [bputs]
    rw [ih _ _ _ (wf_bput m a b h), bget_bput m a x b h, List.length_cons]
    by_cases h1 : a = x
    · subst h1
      rw [if_neg (by omega), if_pos rfl, if_pos (by omega), Nat.sub_self]
      rfl
    · rw [if_neg h1]
      by_cases h2 : a + 1 ≤ x ∧ x < a + 1 + r.length
      · rw [if_pos h2, if_pos (by omega)]
        obtain ⟨n, rfl⟩ : ∃ n, x = a + 1 + n := ⟨x - (a + 1), by omega⟩
        rw [show a + 1 + n - (a + 1) = n from by omega, show a + 1 + n - a = n + 1 from by omega]
        rfl
      · rw [if_neg h2, if_neg (by omega)]

/-- Memory after reset is canonical. -/
theorem wf_reset : Memory.wf State.reset.mem := rfl

end Sys2Proof.Machine
end

