-- ==== Sys2Proof/Laws/PerInstr.lean ====
section
/-! SUPPORT. What is said of every instruction, one lemma per constructor. WordFits: the word of an instruction, as the encoding tables lay it out, has 32 bits. -/
namespace Sys2Proof.Laws

/-- The word of an instruction is a number of 32 bits. -/
def WordFits.Statement (i : Instr) : Prop := ∀ n, encodeNat i = some n → n < 2 ^ 32

/-- A sum of fixed bits and fields that stays below 2^32. -/
theorem wordFits_of_sum {i : Instr} {base : Nat} {fs : List Nat} (h : encodeNat i = asm base fs) (hb : base + fs.sum < 2 ^ 32) : WordFits.Statement i := by
  intro n hn
  rw [h, asm, Option.some.injEq] at hn
  exact hn ▸ hb
/-- What a list of fields adds up to, one field at a time. -/
theorem fields_le {n : Nat} (x : BitVec n) (lo : Nat) {fs : List Nat} {m : Nat} (h : fs.sum ≤ m) : (put x lo :: fs).sum ≤ (2 ^ n - 1) * 2 ^ lo + m := by
  rw [List.sum_cons]
  exact Nat.add_le_add (Nat.mul_le_mul_right _ (Nat.le_sub_one_of_lt x.isLt)) h
/-- The same for a row of some fixed bits. -/
theorem wordFits_of_le {i : Instr} {base m : Nat} {fs : List Nat} (h : encodeNat i = asm base fs) (hf : fs.sum ≤ m) (hm : base + m < 2 ^ 32) : WordFits.Statement i :=
  wordFits_of_sum h (Nat.lt_of_le_of_lt (Nat.add_le_add_left hf base) hm)
/-- A row that has no word. -/
theorem wordFits_of_none {i : Instr} (h : encodeNat i = none) : WordFits.Statement i := by
  intro n hn
  rw [h] at hn
  exact absurd hn nofun

theorem WordFits.add (d : BitVec 8) (a : BitVec 8) (b : BitVec 8) : WordFits.Statement (.add d a b) := wordFits_of_le rfl (fields_le d 16 (fields_le a 8 (fields_le b 0 (Nat.le_refl 0)))) (by decide)
theorem WordFits.sub (d : BitVec 8) (a : BitVec 8) (b : BitVec 8) : WordFits.Statement (.sub d a b) := wordFits_of_le rfl (fields_le d 16 (fields_le a 8 (fields_le b 0 (Nat.le_refl 0)))) (by decide)
theorem WordFits.mul (d : BitVec 8) (a : BitVec 8) (b : BitVec 8) : WordFits.Statement (.mul d a b) := wordFits_of_le rfl (fields_le d 16 (fields_le a 8 (fields_le b 0 (Nat.le_refl 0)))) (by decide)
theorem WordFits.mulh (d : BitVec 8) (a : BitVec 8) (b : BitVec 8) : WordFits.Statement (.mulh d a b) := wordFits_of_le rfl (fields_le d 16 (fields_le a 8 (fields_le b 0 (Nat.le_refl 0)))) (by decide)
theorem WordFits.mad (d : BitVec 8) (a : BitVec 8) (b : BitVec 8) : WordFits.Statement (.mad d a b) := wordFits_of_le rfl (fields_le d 16 (fields_le a 8 (fields_le b 0 (Nat.le_refl 0)))) (by decide)
theorem WordFits.min (d : BitVec 8) (a : BitVec 8) (b : BitVec 8) : WordFits.Statement (.min d a b) := wordFits_of_le rfl (fields_le d 16 (fields_le a 8 (fields_le b 0 (Nat.le_refl 0)))) (by decide)
theorem WordFits.max (d : BitVec 8) (a : BitVec 8) (b : BitVec 8) : WordFits.Statement (.max d a b) := wordFits_of_le rfl (fields_le d 16 (fields_le a 8 (fields_le b 0 (Nat.le_refl 0)))) (by decide)
theorem WordFits.abs (d : BitVec 8) (a : BitVec 8) : WordFits.Statement (.abs d a) := wordFits_of_le rfl (fields_le d 16 (fields_le a 8 (Nat.le_refl 0))) (by decide)
theorem WordFits.neg (d : BitVec 8) (a : BitVec 8) : WordFits.Statement (.neg d a) := wordFits_of_le rfl (fields_le d 16 (fields_le a 8 (Nat.le_refl 0))) (by decide)
theorem WordFits.and (d : BitVec 8) (a : BitVec 8) (b : BitVec 8) : WordFits.Statement (.and d a b) := wordFits_of_le rfl (fields_le d 16 (fields_le a 8 (fields_le b 0 (Nat.le_refl 0)))) (by decide)
theorem WordFits.or (d : BitVec 8) (a : BitVec 8) (b : BitVec 8) : WordFits.Statement (.or d a b) := wordFits_of_le rfl (fields_le d 16 (fields_le a 8 (fields_le b 0 (Nat.le_refl 0)))) (by decide)
theorem WordFits.xor (d : BitVec 8) (a : BitVec 8) (b : BitVec 8) : WordFits.Statement (.xor d a b) := wordFits_of_le rfl (fields_le d 16 (fields_le a 8 (fields_le b 0 (Nat.le_refl 0)))) (by decide)
theorem WordFits.andn (d : BitVec 8) (a : BitVec 8) (b : BitVec 8) : WordFits.Statement (.andn d a b) := wordFits_of_le rfl (fields_le d 16 (fields_le a 8 (fields_le b 0 (Nat.le_refl 0)))) (by decide)
theorem WordFits.not (d : BitVec 8) (a : BitVec 8) : WordFits.Statement (.not d a) := wordFits_of_le rfl (fields_le d 16 (fields_le a 8 (Nat.le_refl 0))) (by decide)
theorem WordFits.shl (d : BitVec 8) (a : BitVec 8) (b : BitVec 8) : WordFits.Statement (.shl d a b) := wordFits_of_le rfl (fields_le d 16 (fields_le a 8 (fields_le b 0 (Nat.le_refl 0)))) (by decide)
theorem WordFits.shr (d : BitVec 8) (a : BitVec 8) (b : BitVec 8) : WordFits.Statement (.shr d a b) := wordFits_of_le rfl (fields_le d 16 (fields_le a 8 (fields_le b 0 (Nat.le_refl 0)))) (by decide)
theorem WordFits.sar (d : BitVec 8) (a : BitVec 8) (b : BitVec 8) : WordFits.Statement (.sar d a b) := wordFits_of_le rfl (fields_le d 16 (fields_le a 8 (fields_le b 0 (Nat.le_refl 0)))) (by decide)
theorem WordFits.rol (d : BitVec 8) (a : BitVec 8) (b : BitVec 8) : WordFits.Statement (.rol d a b) := wordFits_of_le rfl (fields_le d 16 (fields_le a 8 (fields_le b 0 (Nat.le_refl 0)))) (by decide)
theorem WordFits.popc (d : BitVec 8) (a : BitVec 8) : WordFits.Statement (.popc d a) := wordFits_of_le rfl (fields_le d 16 (fields_le a 8 (Nat.le_refl 0))) (by decide)
theorem WordFits.clz (d : BitVec 8) (a : BitVec 8) : WordFits.Statement (.clz d a) := wordFits_of_le rfl (fields_le d 16 (fields_le a 8 (Nat.le_refl 0))) (by decide)
theorem WordFits.brev (d : BitVec 8) (a : BitVec 8) : WordFits.Statement (.brev d a) := wordFits_of_le rfl (fields_le d 16 (fields_le a 8 (Nat.le_refl 0))) (by decide)
theorem WordFits.bfe (d : BitVec 8) (a : BitVec 8) (b : BitVec 8) : WordFits.Statement (.bfe d a b) := wordFits_of_le rfl (fields_le d 16 (fields_le a 8 (fields_le b 0 (Nat.le_refl 0)))) (by decide)
theorem WordFits.bfi (d : BitVec 8) (a : BitVec 8) (b : BitVec 8) : WordFits.Statement (.bfi d a b) := wordFits_of_le rfl (fields_le d 16 (fields_le a 8 (fields_le b 0 (Nat.le_refl 0)))) (by decide)
theorem WordFits.sel (d : BitVec 8) (a : BitVec 8) (b : BitVec 8) : WordFits.Statement (.sel d a b) := wordFits_of_le rfl (fields_le d 16 (fields_le a 8 (fields_le b 0 (Nat.le_refl 0)))) (by decide)
theorem WordFits.cmp (c : BitVec 4) (p : BitVec 4) (a : BitVec 8) (b : BitVec 8) : WordFits.Statement (.cmp c p a b) := wordFits_of_le rfl (fields_le c 20 (fields_le p 16 (fields_le a 8 (fields_le b 0 (Nat.le_refl 0))))) (by decide)
theorem WordFits.mov (d : BitVec 8) (a : BitVec 8) : WordFits.Statement (.mov d a) := wordFits_of_le rfl (fields_le d 16 (fields_le a 8 (Nat.le_refl 0))) (by decide)
theorem WordFits.plog (c : BitVec 4) (p : BitVec 4) (q : BitVec 4) (r : BitVec 4) : WordFits.Statement (.plog c p q r) := wordFits_of_le rfl (fields_le c 20 (fields_le p 16 (fields_le q 8 (fields_le r 0 (Nat.le_refl 0))))) (by decide)
theorem WordFits.addi (d : BitVec 8) (a : BitVec 8) (imm : BitVec 8) : WordFits.Statement (.addi d a imm) := wordFits_of_le rfl (fields_le d 16 (fields_le a 8 (fields_le imm 0 (Nat.le_refl 0)))) (by decide)
theorem WordFits.movi (d : BitVec 8) (imm : BitVec 16) : WordFits.Statement (.movi d imm) := wordFits_of_le rfl (fields_le d 16 (fields_le imm 0 (Nat.le_refl 0))) (by decide)
theorem WordFits.movhi (d : BitVec 8) (imm : BitVec 16) : WordFits.Statement (.movhi d imm) := wordFits_of_le rfl (fields_le d 16 (fields_le imm 0 (Nat.le_refl 0))) (by decide)
theorem WordFits.shli (d : BitVec 8) (a : BitVec 8) (imm : BitVec 8) : WordFits.Statement (.shli d a imm) := wordFits_of_le rfl (fields_le d 16 (fields_le a 8 (fields_le imm 0 (Nat.le_refl 0)))) (by decide)
theorem WordFits.shri (d : BitVec 8) (a : BitVec 8) (imm : BitVec 8) : WordFits.Statement (.shri d a imm) := wordFits_of_le rfl (fields_le d 16 (fields_le a 8 (fields_le imm 0 (Nat.le_refl 0)))) (by decide)
theorem WordFits.sari (d : BitVec 8) (a : BitVec 8) (imm : BitVec 8) : WordFits.Statement (.sari d a imm) := wordFits_of_le rfl (fields_le d 16 (fields_le a 8 (fields_le imm 0 (Nat.le_refl 0)))) (by decide)
theorem WordFits.andi (d : BitVec 8) (a : BitVec 8) (imm : BitVec 8) : WordFits.Statement (.andi d a imm) := wordFits_of_le rfl (fields_le d 16 (fields_le a 8 (fields_le imm 0 (Nat.le_refl 0)))) (by decide)
theorem WordFits.ori (d : BitVec 8) (a : BitVec 8) (imm : BitVec 8) : WordFits.Statement (.ori d a imm) := wordFits_of_le rfl (fields_le d 16 (fields_le a 8 (fields_le imm 0 (Nat.le_refl 0)))) (by decide)
theorem WordFits.fadd (d : BitVec 8) (a : BitVec 8) (b : BitVec 8) : WordFits.Statement (.fadd d a b) := wordFits_of_le rfl (fields_le d 16 (fields_le a 8 (fields_le b 0 (Nat.le_refl 0)))) (by decide)
theorem WordFits.fsub (d : BitVec 8) (a : BitVec 8) (b : BitVec 8) : WordFits.Statement (.fsub d a b) := wordFits_of_le rfl (fields_le d 16 (fields_le a 8 (fields_le b 0 (Nat.le_refl 0)))) (by decide)
theorem WordFits.fmul (d : BitVec 8) (a : BitVec 8) (b : BitVec 8) : WordFits.Statement (.fmul d a b) := wordFits_of_le rfl (fields_le d 16 (fields_le a 8 (fields_le b 0 (Nat.le_refl 0)))) (by decide)
theorem WordFits.ffma (d : BitVec 8) (a : BitVec 8) (b : BitVec 8) : WordFits.Statement (.ffma d a b) := wordFits_of_le rfl (fields_le d 16 (fields_le a 8 (fields_le b 0 (Nat.le_refl 0)))) (by decide)
theorem WordFits.fmin (d : BitVec 8) (a : BitVec 8) (b : BitVec 8) : WordFits.Statement (.fmin d a b) := wordFits_of_le rfl (fields_le d 16 (fields_le a 8 (fields_le b 0 (Nat.le_refl 0)))) (by decide)
theorem WordFits.fmax (d : BitVec 8) (a : BitVec 8) (b : BitVec 8) : WordFits.Statement (.fmax d a b) := wordFits_of_le rfl (fields_le d 16 (fields_le a 8 (fields_le b 0 (Nat.le_refl 0)))) (by decide)
theorem WordFits.fabs (d : BitVec 8) (a : BitVec 8) : WordFits.Statement (.fabs d a) := wordFits_of_le rfl (fields_le d 16 (fields_le a 8 (Nat.le_refl 0))) (by decide)
theorem WordFits.fneg (d : BitVec 8) (a : BitVec 8) : WordFits.Statement (.fneg d a) := wordFits_of_le rfl (fields_le d 16 (fields_le a 8 (Nat.le_refl 0))) (by decide)
theorem WordFits.fcmp (c : BitVec 4) (p : BitVec 4) (a : BitVec 8) (b : BitVec 8) : WordFits.Statement (.fcmp c p a b) := wordFits_of_le rfl (fields_le c 20 (fields_le p 16 (fields_le a 8 (fields_le b 0 (Nat.le_refl 0))))) (by decide)
theorem WordFits.fclass (d : BitVec 8) (a : BitVec 8) : WordFits.Statement (.fclass d a) := wordFits_of_le rfl (fields_le d 16 (fields_le a 8 (Nat.le_refl 0))) (by decide)
theorem WordFits.frcp (d : BitVec 8) (a : BitVec 8) : WordFits.Statement (.frcp d a) := wordFits_of_le rfl (fields_le d 16 (fields_le a 8 (Nat.le_refl 0))) (by decide)
theorem WordFits.frsq (d : BitVec 8) (a : BitVec 8) : WordFits.Statement (.frsq d a) := wordFits_of_le rfl (fields_le d 16 (fields_le a 8 (Nat.le_refl 0))) (by decide)
theorem WordFits.fsqrt (d : BitVec 8) (a : BitVec 8) : WordFits.Statement (.fsqrt d a) := wordFits_of_le rfl (fields_le d 16 (fields_le a 8 (Nat.le_refl 0))) (by decide)
theorem WordFits.fexp2 (d : BitVec 8) (a : BitVec 8) : WordFits.Statement (.fexp2 d a) := wordFits_of_le rfl (fields_le d 16 (fields_le a 8 (Nat.le_refl 0))) (by decide)
theorem WordFits.flog2 (d : BitVec 8) (a : BitVec 8) : WordFits.Statement (.flog2 d a) := wordFits_of_le rfl (fields_le d 16 (fields_le a 8 (Nat.le_refl 0))) (by decide)
theorem WordFits.fsin (d : BitVec 8) (a : BitVec 8) : WordFits.Statement (.fsin d a) := wordFits_of_le rfl (fields_le d 16 (fields_le a 8 (Nat.le_refl 0))) (by decide)
theorem WordFits.fcos (d : BitVec 8) (a : BitVec 8) : WordFits.Statement (.fcos d a) := wordFits_of_le rfl (fields_le d 16 (fields_le a 8 (Nat.le_refl 0))) (by decide)
theorem WordFits.ftanh (d : BitVec 8) (a : BitVec 8) : WordFits.Statement (.ftanh d a) := wordFits_of_le rfl (fields_le d 16 (fields_le a 8 (Nat.le_refl 0))) (by decide)
theorem WordFits.fdot2 (d : BitVec 8) (a : BitVec 8) (b : BitVec 8) : WordFits.Statement (.fdot2 d a b) := wordFits_of_le rfl (fields_le d 16 (fields_le a 8 (fields_le b 0 (Nat.le_refl 0)))) (by decide)
theorem WordFits.fscale (d : BitVec 8) (a : BitVec 8) (b : BitVec 8) : WordFits.Statement (.fscale d a b) := wordFits_of_le rfl (fields_le d 16 (fields_le a 8 (fields_le b 0 (Nat.le_refl 0)))) (by decide)
theorem WordFits.cvt (d : BitVec 8) (a : BitVec 8) (p : BitVec 2) (t : BitVec 4) : WordFits.Statement (.cvt d a p t) := wordFits_of_le rfl (fields_le d 16 (fields_le a 8 (fields_le p 4 (fields_le t 0 (Nat.le_refl 0))))) (by decide)
theorem WordFits.cvtr (d : BitVec 8) (a : BitVec 8) (m : BitVec 3) (p : BitVec 1) (t : BitVec 4) : WordFits.Statement (.cvtr d a m p t) := wordFits_of_le rfl (fields_le d 16 (fields_le a 8 (fields_le m 5 (fields_le p 4 (fields_le t 0 (Nat.le_refl 0)))))) (by decide)
theorem WordFits.rndint (d : BitVec 8) (a : BitVec 8) : WordFits.Statement (.rndint d a) := wordFits_of_le rfl (fields_le d 16 (fields_le a 8 (Nat.le_refl 0))) (by decide)
theorem WordFits.shfl (d : BitVec 8) (a : BitVec 8) (b : BitVec 8) : WordFits.Statement (.shfl d a b) := wordFits_of_le rfl (fields_le d 16 (fields_le a 8 (fields_le b 0 (Nat.le_refl 0)))) (by decide)
theorem WordFits.shflx (d : BitVec 8) (a : BitVec 8) (imm : BitVec 8) : WordFits.Statement (.shflx d a imm) := wordFits_of_le rfl (fields_le d 16 (fields_le a 8 (fields_le imm 0 (Nat.le_refl 0)))) (by decide)
theorem WordFits.voteAny (d : BitVec 8) (a : BitVec 8) : WordFits.Statement (.voteAny d a) := wordFits_of_le rfl (fields_le d 16 (fields_le a 8 (Nat.le_refl 0))) (by decide)
theorem WordFits.voteAll (d : BitVec 8) (a : BitVec 8) : WordFits.Statement (.voteAll d a) := wordFits_of_le rfl (fields_le d 16 (fields_le a 8 (Nat.le_refl 0))) (by decide)
theorem WordFits.voteBal (d : BitVec 8) (a : BitVec 8) : WordFits.Statement (.voteBal d a) := wordFits_of_le rfl (fields_le d 16 (fields_le a 8 (Nat.le_refl 0))) (by decide)
theorem WordFits.redu (d : BitVec 8) (a : BitVec 8) (o : BitVec 3) : WordFits.Statement (.redu d a o) := wordFits_of_le rfl (fields_le d 16 (fields_le a 8 (fields_le o 0 (Nat.le_refl 0)))) (by decide)
theorem WordFits.scan (d : BitVec 8) (a : BitVec 8) (e : BitVec 1) (o : BitVec 3) : WordFits.Statement (.scan d a e o) := wordFits_of_le rfl (fields_le d 16 (fields_le a 8 (fields_le e 3 (fields_le o 0 (Nat.le_refl 0))))) (by decide)
theorem WordFits.laneMatch (d : BitVec 8) (a : BitVec 8) : WordFits.Statement (.laneMatch d a) := wordFits_of_le rfl (fields_le d 16 (fields_le a 8 (Nat.le_refl 0))) (by decide)
theorem WordFits.bcast (d : BitVec 8) (a : BitVec 8) (imm : BitVec 8) : WordFits.Statement (.bcast d a imm) := wordFits_of_le rfl (fields_le d 16 (fields_le a 8 (fields_le imm 0 (Nat.le_refl 0)))) (by decide)
theorem WordFits.uadd (d : BitVec 8) (a : BitVec 8) (b : BitVec 8) : WordFits.Statement (.uadd d a b) := wordFits_of_le rfl (fields_le d 16 (fields_le a 8 (fields_le b 0 (Nat.le_refl 0)))) (by decide)
theorem WordFits.usub (d : BitVec 8) (a : BitVec 8) (b : BitVec 8) : WordFits.Statement (.usub d a b) := wordFits_of_le rfl (fields_le d 16 (fields_le a 8 (fields_le b 0 (Nat.le_refl 0)))) (by decide)
theorem WordFits.umul (d : BitVec 8) (a : BitVec 8) (b : BitVec 8) : WordFits.Statement (.umul d a b) := wordFits_of_le rfl (fields_le d 16 (fields_le a 8 (fields_le b 0 (Nat.le_refl 0)))) (by decide)
theorem WordFits.umad (d : BitVec 8) (a : BitVec 8) (b : BitVec 8) : WordFits.Statement (.umad d a b) := wordFits_of_le rfl (fields_le d 16 (fields_le a 8 (fields_le b 0 (Nat.le_refl 0)))) (by decide)
theorem WordFits.uand (d : BitVec 8) (a : BitVec 8) (b : BitVec 8) : WordFits.Statement (.uand d a b) := wordFits_of_le rfl (fields_le d 16 (fields_le a 8 (fields_le b 0 (Nat.le_refl 0)))) (by decide)
theorem WordFits.uor (d : BitVec 8) (a : BitVec 8) (b : BitVec 8) : WordFits.Statement (.uor d a b) := wordFits_of_le rfl (fields_le d 16 (fields_le a 8 (fields_le b 0 (Nat.le_refl 0)))) (by decide)
theorem WordFits.uxor (d : BitVec 8) (a : BitVec 8) (b : BitVec 8) : WordFits.Statement (.uxor d a b) := wordFits_of_le rfl (fields_le d 16 (fields_le a 8 (fields_le b 0 (Nat.le_refl 0)))) (by decide)
theorem WordFits.ushl (d : BitVec 8) (a : BitVec 8) (b : BitVec 8) : WordFits.Statement (.ushl d a b) := wordFits_of_le rfl (fields_le d 16 (fields_le a 8 (fields_le b 0 (Nat.le_refl 0)))) (by decide)
theorem WordFits.ushr (d : BitVec 8) (a : BitVec 8) (b : BitVec 8) : WordFits.Statement (.ushr d a b) := wordFits_of_le rfl (fields_le d 16 (fields_le a 8 (fields_le b 0 (Nat.le_refl 0)))) (by decide)
theorem WordFits.usar (d : BitVec 8) (a : BitVec 8) (b : BitVec 8) : WordFits.Statement (.usar d a b) := wordFits_of_le rfl (fields_le d 16 (fields_le a 8 (fields_le b 0 (Nat.le_refl 0)))) (by decide)
theorem WordFits.umin (d : BitVec 8) (a : BitVec 8) (b : BitVec 8) : WordFits.Statement (.umin d a b) := wordFits_of_le rfl (fields_le d 16 (fields_le a 8 (fields_le b 0 (Nat.le_refl 0)))) (by decide)
theorem WordFits.umax (d : BitVec 8) (a : BitVec 8) (b : BitVec 8) : WordFits.Statement (.umax d a b) := wordFits_of_le rfl (fields_le d 16 (fields_le a 8 (fields_le b 0 (Nat.le_refl 0)))) (by decide)
theorem WordFits.ucmp (c : BitVec 4) (p : BitVec 4) (a : BitVec 8) (b : BitVec 8) : WordFits.Statement (.ucmp c p a b) := wordFits_of_le rfl (fields_le c 20 (fields_le p 16 (fields_le a 8 (fields_le b 0 (Nat.le_refl 0))))) (by decide)
theorem WordFits.usel (d : BitVec 8) (a : BitVec 8) (b : BitVec 8) : WordFits.Statement (.usel d a b) := wordFits_of_le rfl (fields_le d 16 (fields_le a 8 (fields_le b 0 (Nat.le_refl 0)))) (by decide)
theorem WordFits.umovi (d : BitVec 8) (imm : BitVec 16) : WordFits.Statement (.umovi d imm) := wordFits_of_le rfl (fields_le d 16 (fields_le imm 0 (Nat.le_refl 0))) (by decide)
theorem WordFits.umovhi (d : BitVec 8) (imm : BitVec 16) : WordFits.Statement (.umovhi d imm) := wordFits_of_le rfl (fields_le d 16 (fields_le imm 0 (Nat.le_refl 0))) (by decide)
theorem WordFits.uaddi (d : BitVec 8) (a : BitVec 8) (imm : BitVec 8) : WordFits.Statement (.uaddi d a imm) := wordFits_of_le rfl (fields_le d 16 (fields_le a 8 (fields_le imm 0 (Nat.le_refl 0)))) (by decide)
theorem WordFits.umov (d : BitVec 8) (a : BitVec 8) : WordFits.Statement (.umov d a) := wordFits_of_le rfl (fields_le d 16 (fields_le a 8 (Nat.le_refl 0))) (by decide)
theorem WordFits.getsr (d : BitVec 8) (a : BitVec 8) : WordFits.Statement (.getsr d a) := wordFits_of_le rfl (fields_le d 16 (fields_le a 8 (Nat.le_refl 0))) (by decide)
theorem WordFits.bra (p : BitVec 4) (imm : BitVec 16) : WordFits.Statement (.bra p imm) := wordFits_of_le rfl (fields_le p 16 (fields_le imm 0 (Nat.le_refl 0))) (by decide)
theorem WordFits.braq (p : BitVec 4) (imm : BitVec 16) : WordFits.Statement (.braq p imm) := wordFits_of_le rfl (fields_le p 16 (fields_le imm 0 (Nat.le_refl 0))) (by decide)
theorem WordFits.call (imm : BitVec 24) : WordFits.Statement (.call imm) := wordFits_of_le rfl (fields_le imm 0 (Nat.le_refl 0)) (by decide)
theorem WordFits.ret : WordFits.Statement (.ret) := wordFits_of_sum rfl (by decide)
theorem WordFits.mark (imm : BitVec 16) : WordFits.Statement (.mark imm) := wordFits_of_le rfl (fields_le imm 0 (Nat.le_refl 0)) (by decide)
theorem WordFits.join : WordFits.Statement (.join) := wordFits_of_sum rfl (by decide)
theorem WordFits.regang (imm : BitVec 16) : WordFits.Statement (.regang imm) := wordFits_of_le rfl (fields_le imm 0 (Nat.le_refl 0)) (by decide)
theorem WordFits.exit : WordFits.Statement (.exit) := wordFits_of_sum rfl (by decide)
theorem WordFits.yield : WordFits.Statement (.yield) := wordFits_of_sum rfl (by decide)
theorem WordFits.spinw : WordFits.Statement (.spinw) := wordFits_of_sum rfl (by decide)
theorem WordFits.trap (imm : BitVec 16) : WordFits.Statement (.trap imm) := wordFits_of_le rfl (fields_le imm 0 (Nat.le_refl 0)) (by decide)
theorem WordFits.nop : WordFits.Statement (.nop) := wordFits_of_sum rfl (by decide)
theorem WordFits.setmode (imm : BitVec 16) : WordFits.Statement (.setmode imm) := wordFits_of_le rfl (fields_le imm 0 (Nat.le_refl 0)) (by decide)
theorem WordFits.setgrd (g : BitVec 4) : WordFits.Statement (.setgrd g) := wordFits_of_le rfl (fields_le g 0 (Nat.le_refl 0)) (by decide)
theorem WordFits.ldb (d : BitVec 8) (a : BitVec 8) (imm : BitVec 8) : WordFits.Statement (.ldb d a imm) := wordFits_of_le rfl (fields_le d 16 (fields_le a 8 (fields_le imm 0 (Nat.le_refl 0)))) (by decide)
theorem WordFits.ldh (d : BitVec 8) (a : BitVec 8) (imm : BitVec 8) : WordFits.Statement (.ldh d a imm) := wordFits_of_le rfl (fields_le d 16 (fields_le a 8 (fields_le imm 0 (Nat.le_refl 0)))) (by decide)
theorem WordFits.ldw (d : BitVec 8) (a : BitVec 8) (imm : BitVec 8) : WordFits.Statement (.ldw d a imm) := wordFits_of_le rfl (fields_le d 16 (fields_le a 8 (fields_le imm 0 (Nat.le_refl 0)))) (by decide)
theorem WordFits.ldd (d : BitVec 8) (a : BitVec 8) (imm : BitVec 8) : WordFits.Statement (.ldd d a imm) := wordFits_of_le rfl (fields_le d 16 (fields_le a 8 (fields_le imm 0 (Nat.le_refl 0)))) (by decide)
theorem WordFits.ldq (d : BitVec 8) (a : BitVec 8) (imm : BitVec 8) : WordFits.Statement (.ldq d a imm) := wordFits_of_le rfl (fields_le d 16 (fields_le a 8 (fields_le imm 0 (Nat.le_refl 0)))) (by decide)
theorem WordFits.stb (d : BitVec 8) (a : BitVec 8) (imm : BitVec 8) : WordFits.Statement (.stb d a imm) := wordFits_of_le rfl (fields_le d 16 (fields_le a 8 (fields_le imm 0 (Nat.le_refl 0)))) (by decide)
theorem WordFits.sth (d : BitVec 8) (a : BitVec 8) (imm : BitVec 8) : WordFits.Statement (.sth d a imm) := wordFits_of_le rfl (fields_le d 16 (fields_le a 8 (fields_le imm 0 (Nat.le_refl 0)))) (by decide)
theorem WordFits.stw (d : BitVec 8) (a : BitVec 8) (imm : BitVec 8) : WordFits.Statement (.stw d a imm) := wordFits_of_le rfl (fields_le d 16 (fields_le a 8 (fields_le imm 0 (Nat.le_refl 0)))) (by decide)
theorem WordFits.std (d : BitVec 8) (a : BitVec 8) (imm : BitVec 8) : WordFits.Statement (.std d a imm) := wordFits_of_le rfl (fields_le d 16 (fields_le a 8 (fields_le imm 0 (Nat.le_refl 0)))) (by decide)
theorem WordFits.stq (d : BitVec 8) (a : BitVec 8) (imm : BitVec 8) : WordFits.Statement (.stq d a imm) := wordFits_of_le rfl (fields_le d 16 (fields_le a 8 (fields_le imm 0 (Nat.le_refl 0)))) (by decide)
theorem WordFits.ldu (d : BitVec 8) (a : BitVec 8) (imm : BitVec 8) : WordFits.Statement (.ldu d a imm) := wordFits_of_le rfl (fields_le d 16 (fields_le a 8 (fields_le imm 0 (Nat.le_refl 0)))) (by decide)
theorem WordFits.stu (d : BitVec 8) (a : BitVec 8) (imm : BitVec 8) : WordFits.Statement (.stu d a imm) := wordFits_of_le rfl (fields_le d 16 (fields_le a 8 (fields_le imm 0 (Nat.le_refl 0)))) (by decide)
theorem WordFits.sxld (d : BitVec 8) (a : BitVec 8) (imm : BitVec 8) : WordFits.Statement (.sxld d a imm) := wordFits_of_le rfl (fields_le d 16 (fields_le a 8 (fields_le imm 0 (Nat.le_refl 0)))) (by decide)
theorem WordFits.sxst (d : BitVec 8) (a : BitVec 8) (imm : BitVec 8) : WordFits.Statement (.sxst d a imm) := wordFits_of_le rfl (fields_le d 16 (fields_le a 8 (fields_le imm 0 (Nat.le_refl 0)))) (by decide)
theorem WordFits.pref (t : BitVec 2) (a : BitVec 8) (imm : BitVec 8) : WordFits.Statement (.pref t a imm) := wordFits_of_le rfl (fields_le t 16 (fields_le a 8 (fields_le imm 0 (Nat.le_refl 0)))) (by decide)
theorem WordFits.lds (sc : BitVec 3) (q : BitVec 1) (p : BitVec 4) (a : BitVec 8) (imm : BitVec 8) : WordFits.Statement (.lds sc q p a imm) := wordFits_of_le rfl (fields_le sc 21 (fields_le q 20 (fields_le p 16 (fields_le a 8 (fields_le imm 0 (Nat.le_refl 0)))))) (by decide)
theorem WordFits.unsub (p : BitVec 4) (a : BitVec 8) (imm : BitVec 8) : WordFits.Statement (.unsub p a imm) := wordFits_of_le rfl (fields_le p 16 (fields_le a 8 (fields_le imm 0 (Nat.le_refl 0)))) (by decide)
theorem WordFits.aadd (d : BitVec 8) (a : BitVec 8) (b : BitVec 8) : WordFits.Statement (.aadd d a b) := wordFits_of_le rfl (fields_le d 16 (fields_le a 8 (fields_le b 0 (Nat.le_refl 0)))) (by decide)
theorem WordFits.amin (d : BitVec 8) (a : BitVec 8) (b : BitVec 8) : WordFits.Statement (.amin d a b) := wordFits_of_le rfl (fields_le d 16 (fields_le a 8 (fields_le b 0 (Nat.le_refl 0)))) (by decide)
theorem WordFits.amax (d : BitVec 8) (a : BitVec 8) (b : BitVec 8) : WordFits.Statement (.amax d a b) := wordFits_of_le rfl (fields_le d 16 (fields_le a 8 (fields_le b 0 (Nat.le_refl 0)))) (by decide)
theorem WordFits.aand (d : BitVec 8) (a : BitVec 8) (b : BitVec 8) : WordFits.Statement (.aand d a b) := wordFits_of_le rfl (fields_le d 16 (fields_le a 8 (fields_le b 0 (Nat.le_refl 0)))) (by decide)
theorem WordFits.aor (d : BitVec 8) (a : BitVec 8) (b : BitVec 8) : WordFits.Statement (.aor d a b) := wordFits_of_le rfl (fields_le d 16 (fields_le a 8 (fields_le b 0 (Nat.le_refl 0)))) (by decide)
theorem WordFits.axor (d : BitVec 8) (a : BitVec 8) (b : BitVec 8) : WordFits.Statement (.axor d a b) := wordFits_of_le rfl (fields_le d 16 (fields_le a 8 (fields_le b 0 (Nat.le_refl 0)))) (by decide)
theorem WordFits.axch (d : BitVec 8) (a : BitVec 8) (b : BitVec 8) : WordFits.Statement (.axch d a b) := wordFits_of_le rfl (fields_le d 16 (fields_le a 8 (fields_le b 0 (Nat.le_refl 0)))) (by decide)
theorem WordFits.acas (d : BitVec 8) (a : BitVec 8) (b : BitVec 8) : WordFits.Statement (.acas d a b) := wordFits_of_le rfl (fields_le d 16 (fields_le a 8 (fields_le b 0 (Nat.le_refl 0)))) (by decide)
theorem WordFits.faadd (d : BitVec 8) (a : BitVec 8) (b : BitVec 8) : WordFits.Statement (.faadd d a b) := wordFits_of_le rfl (fields_le d 16 (fields_le a 8 (fields_le b 0 (Nat.le_refl 0)))) (by decide)
theorem WordFits.faopen (d : BitVec 8) (a : BitVec 8) (b : BitVec 8) : WordFits.Statement (.faopen d a b) := wordFits_of_le rfl (fields_le d 16 (fields_le a 8 (fields_le b 0 (Nat.le_refl 0)))) (by decide)
theorem WordFits.bankcfgGrow (p : BitVec 4) : WordFits.Statement (.bankcfgGrow p) := wordFits_of_le rfl (fields_le p 16 (Nat.le_refl 0)) (by decide)
theorem WordFits.bankcfgShrink (p : BitVec 4) : WordFits.Statement (.bankcfgShrink p) := wordFits_of_le rfl (fields_le p 16 (Nat.le_refl 0)) (by decide)
theorem WordFits.bankcfgFifo (p : BitVec 4) (f : BitVec 2) : WordFits.Statement (.bankcfgFifo p f) := wordFits_of_le rfl (fields_le p 16 (fields_le f 3 (Nat.le_refl 0))) (by decide)
theorem WordFits.bankcfgUnfifo (p : BitVec 4) (f : BitVec 2) : WordFits.Statement (.bankcfgUnfifo p f) := wordFits_of_le rfl (fields_le p 16 (fields_le f 3 (Nat.le_refl 0))) (by decide)
theorem WordFits.bind (r : BitVec 2) (p : BitVec 4) (a : BitVec 8) (b : BitVec 8) : WordFits.Statement (.bind r p a b) := wordFits_of_le rfl (fields_le r 20 (fields_le p 16 (fields_le a 8 (fields_le b 0 (Nat.le_refl 0))))) (by decide)
theorem WordFits.unbind (p : BitVec 4) (a : BitVec 8) : WordFits.Statement (.unbind p a) := wordFits_of_le rfl (fields_le p 16 (fields_le a 8 (Nat.le_refl 0))) (by decide)
theorem WordFits.acq (d : BitVec 8) (a : BitVec 8) (sc : BitVec 3) : WordFits.Statement (.acq d a sc) := wordFits_of_le rfl (fields_le d 16 (fields_le a 8 (fields_le sc 0 (Nat.le_refl 0)))) (by decide)
theorem WordFits.relSt (d : BitVec 8) (a : BitVec 8) (sc : BitVec 3) : WordFits.Statement (.relSt d a sc) := wordFits_of_le rfl (fields_le d 16 (fields_le a 8 (fields_le sc 0 (Nat.le_refl 0)))) (by decide)
theorem WordFits.relAdd (d : BitVec 8) (a : BitVec 8) (sc : BitVec 3) : WordFits.Statement (.relAdd d a sc) := wordFits_of_le rfl (fields_le d 16 (fields_le a 8 (fields_le sc 0 (Nat.le_refl 0)))) (by decide)
theorem WordFits.fence (n : BitVec 1) (c : BitVec 1) (sc : BitVec 3) : WordFits.Statement (.fence n c sc) := wordFits_of_le rfl (fields_le n 4 (fields_le c 3 (fields_le sc 0 (Nat.le_refl 0)))) (by decide)
theorem WordFits.waitc (t : BitVec 8) (m : BitVec 4) : WordFits.Statement (.waitc t m) := wordFits_of_le rfl (fields_le t 16 (fields_le m 0 (Nat.le_refl 0))) (by decide)
theorem WordFits.batch (d : BitVec 8) : WordFits.Statement (.batch d) := wordFits_of_le rfl (fields_le d 16 (Nat.le_refl 0)) (by decide)
theorem WordFits.waitb (a : BitVec 8) : WordFits.Statement (.waitb a) := wordFits_of_le rfl (fields_le a 8 (Nat.le_refl 0)) (by decide)
theorem WordFits.barinit (a : BitVec 8) (b : BitVec 4) : WordFits.Statement (.barinit a b) := wordFits_of_le rfl (fields_le a 8 (fields_le b 0 (Nat.le_refl 0))) (by decide)
theorem WordFits.bara (d : BitVec 8) (a : BitVec 8) (r : BitVec 1) (b : BitVec 4) : WordFits.Statement (.bara d a r b) := wordFits_of_le rfl (fields_le d 16 (fields_le a 8 (fields_le r 4 (fields_le b 0 (Nat.le_refl 0))))) (by decide)
theorem WordFits.barw (a : BitVec 8) (q : BitVec 1) (b : BitVec 4) : WordFits.Statement (.barw a q b) := wordFits_of_le rfl (fields_le a 8 (fields_le q 4 (fields_le b 0 (Nat.le_refl 0)))) (by decide)
theorem WordFits.cpy (r : BitVec 1) (b : BitVec 4) (a : BitVec 8) (imm : BitVec 8) : WordFits.Statement (.cpy r b a imm) := wordFits_of_le rfl (fields_le r 20 (fields_le b 16 (fields_le a 8 (fields_le imm 0 (Nat.le_refl 0))))) (by decide)
theorem WordFits.cpyx (r : BitVec 1) (b : BitVec 4) (a : BitVec 8) (imm : BitVec 8) : WordFits.Statement (.cpyx r b a imm) := wordFits_of_le rfl (fields_le r 20 (fields_le b 16 (fields_le a 8 (fields_le imm 0 (Nat.le_refl 0))))) (by decide)
theorem WordFits.cpys (r : BitVec 1) (b : BitVec 4) (a : BitVec 8) (imm : BitVec 8) : WordFits.Statement (.cpys r b a imm) := wordFits_of_le rfl (fields_le r 20 (fields_le b 16 (fields_le a 8 (fields_le imm 0 (Nat.le_refl 0))))) (by decide)
theorem WordFits.sclaim (d : BitVec 8) (p : BitVec 4) (imm : BitVec 8) : WordFits.Statement (.sclaim d p imm) := wordFits_of_le rfl (fields_le d 16 (fields_le p 8 (fields_le imm 0 (Nat.le_refl 0)))) (by decide)
theorem WordFits.srel (a : BitVec 8) (imm : BitVec 8) : WordFits.Statement (.srel a imm) := wordFits_of_le rfl (fields_le a 8 (fields_le imm 0 (Nat.le_refl 0))) (by decide)
theorem WordFits.tpost (a : BitVec 8) (b : BitVec 8) : WordFits.Statement (.tpost a b) := wordFits_of_le rfl (fields_le a 8 (fields_le b 0 (Nat.le_refl 0))) (by decide)
theorem WordFits.tqry (d : BitVec 8) (a : BitVec 8) : WordFits.Statement (.tqry d a) := wordFits_of_le rfl (fields_le d 16 (fields_le a 8 (Nat.le_refl 0))) (by decide)
theorem WordFits.kvapp (p : BitVec 4) (a : BitVec 8) (b : BitVec 8) : WordFits.Statement (.kvapp p a b) := wordFits_of_le rfl (fields_le p 16 (fields_le a 8 (fields_le b 0 (Nat.le_refl 0)))) (by decide)
theorem WordFits.kvgrow (r : BitVec 1) (c : BitVec 4) (a : BitVec 8) (b : BitVec 8) : WordFits.Statement (.kvgrow r c a b) := wordFits_of_le rfl (fields_le r 20 (fields_le c 16 (fields_le a 8 (fields_le b 0 (Nat.le_refl 0))))) (by decide)
theorem WordFits.kvevict (r : BitVec 1) (c : BitVec 4) (a : BitVec 8) (b : BitVec 8) : WordFits.Statement (.kvevict r c a b) := wordFits_of_le rfl (fields_le r 20 (fields_le c 16 (fields_le a 8 (fields_le b 0 (Nat.le_refl 0))))) (by decide)
theorem WordFits.slabld (d : BitVec 8) (a : BitVec 8) (p : BitVec 4) : WordFits.Statement (.slabld d a p) := wordFits_of_le rfl (fields_le d 16 (fields_le a 8 (fields_le p 0 (Nat.le_refl 0)))) (by decide)
theorem WordFits.slabst (d : BitVec 8) (a : BitVec 8) (k : BitVec 1) : WordFits.Statement (.slabst d a k) := wordFits_of_le rfl (fields_le d 16 (fields_le a 8 (fields_le k 0 (Nat.le_refl 0)))) (by decide)
theorem WordFits.pin (p : BitVec 4) (a : BitVec 8) : WordFits.Statement (.pin p a) := wordFits_of_le rfl (fields_le p 16 (fields_le a 8 (Nat.le_refl 0))) (by decide)
theorem WordFits.unpin (p : BitVec 4) (a : BitVec 8) : WordFits.Statement (.unpin p a) := wordFits_of_le rfl (fields_le p 16 (fields_le a 8 (Nat.le_refl 0))) (by decide)
theorem WordFits.phint (h : BitVec 2) (a : BitVec 8) (imm : BitVec 8) : WordFits.Statement (.phint h a imm) := wordFits_of_le rfl (fields_le h 16 (fields_le a 8 (fields_le imm 0 (Nat.le_refl 0)))) (by decide)
theorem WordFits.pcnt (d : BitVec 8) (a : BitVec 8) (c : BitVec 1) : WordFits.Statement (.pcnt d a c) := wordFits_of_le rfl (fields_le d 16 (fields_le a 8 (fields_le c 0 (Nat.le_refl 0)))) (by decide)
theorem WordFits.launch (d : BitVec 8) (a : BitVec 8) : WordFits.Statement (.launch d a) := wordFits_of_le rfl (fields_le d 16 (fields_le a 8 (Nat.le_refl 0))) (by decide)
theorem WordFits.solo : WordFits.Statement (.solo) := wordFits_of_sum rfl (by decide)
theorem WordFits.tret (k : BitVec 1) : WordFits.Statement (.tret k) := wordFits_of_le rfl (fields_le k 0 (Nat.le_refl 0)) (by decide)
theorem WordFits.crd (d : BitVec 8) (imm : BitVec 16) : WordFits.Statement (.crd d imm) := wordFits_of_le rfl (fields_le d 16 (fields_le imm 0 (Nat.le_refl 0))) (by decide)
theorem WordFits.cwr (d : BitVec 8) (imm : BitVec 16) : WordFits.Statement (.cwr d imm) := wordFits_of_le rfl (fields_le d 16 (fields_le imm 0 (Nat.le_refl 0))) (by decide)
theorem WordFits.tlbiVa (a : BitVec 8) (b : BitVec 8) : WordFits.Statement (.tlbiVa a b) := wordFits_of_le rfl (fields_le a 8 (fields_le b 0 (Nat.le_refl 0))) (by decide)
theorem WordFits.tlbiAsid (b : BitVec 8) : WordFits.Statement (.tlbiAsid b) := wordFits_of_le rfl (fields_le b 0 (Nat.le_refl 0)) (by decide)
theorem WordFits.tlbiGva (a : BitVec 8) (b : BitVec 8) : WordFits.Statement (.tlbiGva a b) := wordFits_of_le rfl (fields_le a 8 (fields_le b 0 (Nat.le_refl 0))) (by decide)
theorem WordFits.tlbiVmid (b : BitVec 8) : WordFits.Statement (.tlbiVmid b) := wordFits_of_le rfl (fields_le b 0 (Nat.le_refl 0)) (by decide)
theorem WordFits.ptst (d : BitVec 8) (a : BitVec 8) (c : BitVec 2) : WordFits.Statement (.ptst d a c) := wordFits_of_le rfl (fields_le d 16 (fields_le a 8 (fields_le c 0 (Nat.le_refl 0)))) (by decide)
theorem WordFits.ifence : WordFits.Statement (.ifence) := wordFits_of_sum rfl (by decide)
theorem WordFits.unsolo : WordFits.Statement (.unsolo) := wordFits_of_sum rfl (by decide)
theorem WordFits.migrMove (d : BitVec 8) (a : BitVec 8) (b : BitVec 8) : WordFits.Statement (.migrMove d a b) := wordFits_of_le rfl (fields_le d 16 (fields_le a 8 (fields_le b 0 (Nat.le_refl 0)))) (by decide)
theorem WordFits.migrRetire (d : BitVec 8) (a : BitVec 8) (b : BitVec 8) : WordFits.Statement (.migrRetire d a b) := wordFits_of_le rfl (fields_le d 16 (fields_le a 8 (fields_le b 0 (Nat.le_refl 0)))) (by decide)
theorem WordFits.migrClaim (d : BitVec 8) (a : BitVec 8) (b : BitVec 8) : WordFits.Statement (.migrClaim d a b) := wordFits_of_le rfl (fields_le d 16 (fields_le a 8 (fields_le b 0 (Nat.le_refl 0)))) (by decide)
theorem WordFits.snap (d : BitVec 8) (imm : BitVec 16) : WordFits.Statement (.snap d imm) := wordFits_of_le rfl (fields_le d 16 (fields_le imm 0 (Nat.le_refl 0))) (by decide)
theorem WordFits.ftmap (d : BitVec 8) (a : BitVec 8) : WordFits.Statement (.ftmap d a) := wordFits_of_le rfl (fields_le d 16 (fields_le a 8 (Nat.le_refl 0))) (by decide)
theorem WordFits.ringp (d : BitVec 8) : WordFits.Statement (.ringp d) := wordFits_of_le rfl (fields_le d 16 (Nat.le_refl 0)) (by decide)
theorem WordFits.gres (d : BitVec 8) (a : BitVec 8) (k : BitVec 1) : WordFits.Statement (.gres d a k) := wordFits_of_le rfl (fields_le d 16 (fields_le a 8 (fields_le k 0 (Nat.le_refl 0)))) (by decide)
theorem WordFits.gkill (d : BitVec 8) (a : BitVec 8) : WordFits.Statement (.gkill d a) := wordFits_of_le rfl (fields_le d 16 (fields_le a 8 (Nat.le_refl 0))) (by decide)
theorem WordFits.reservedOpcode (w : BitVec 32) : WordFits.Statement (.reservedOpcode w) := fun _ h => Option.some.inj h ▸ w.isLt
theorem WordFits.regangMerge (gid : Nat) : WordFits.Statement (.regangMerge gid) := wordFits_of_none rfl
theorem WordFits.yieldRelease (gid : Nat) (gang : Nat) : WordFits.Statement (.yieldRelease gid gang) := wordFits_of_none rfl
theorem WordFits.spinAgePromote (gid : Nat) (gang : Nat) : WordFits.Statement (.spinAgePromote gid gang) := wordFits_of_none rfl
theorem WordFits.postTaken (core : Nat) (part : Nat) : WordFits.Statement (.postTaken core part) := wordFits_of_none rfl
theorem WordFits.loadDataReturn (core : Nat) (id : Nat) : WordFits.Statement (.loadDataReturn core id) := wordFits_of_none rfl
theorem WordFits.storePerformed (core : Nat) (id : Nat) : WordFits.Statement (.storePerformed core id) := wordFits_of_none rfl
theorem WordFits.atomicReply (core : Nat) (id : Nat) : WordFits.Statement (.atomicReply core id) := wordFits_of_none rfl
theorem WordFits.groupRetire (gid : Nat) : WordFits.Statement (.groupRetire gid) := wordFits_of_none rfl
theorem WordFits.waitcPass (gid : Nat) (gang : Nat) : WordFits.Statement (.waitcPass gid gang) := wordFits_of_none rfl
theorem WordFits.waitbPass (gid : Nat) (gang : Nat) : WordFits.Statement (.waitbPass gid gang) := wordFits_of_none rfl
theorem WordFits.barwPass (gid : Nat) (gang : Nat) : WordFits.Statement (.barwPass gid gang) := wordFits_of_none rfl
theorem WordFits.translationWalk (core : Nat) (id : Nat) : WordFits.Statement (.translationWalk core id) := wordFits_of_none rfl
theorem WordFits.bankModeChange (core : Nat) : WordFits.Statement (.bankModeChange core) := wordFits_of_none rfl
theorem WordFits.fifoPushComplete (core : Nat) (id : Nat) : WordFits.Statement (.fifoPushComplete core id) := wordFits_of_none rfl
theorem WordFits.fifoPopComplete (core : Nat) (id : Nat) : WordFits.Statement (.fifoPopComplete core id) := wordFits_of_none rfl
theorem WordFits.orderedAddApply (n : Nat) : WordFits.Statement (.orderedAddApply n) := wordFits_of_none rfl
theorem WordFits.homeStoreApply (pa : Nat) (bytes : List (BitVec 8)) : WordFits.Statement (.homeStoreApply pa bytes) := wordFits_of_none rfl
theorem WordFits.pushArrival (n : Nat) : WordFits.Statement (.pushArrival n) := wordFits_of_none rfl
theorem WordFits.refusedPushReturn (n : Nat) : WordFits.Statement (.refusedPushReturn n) := wordFits_of_none rfl
theorem WordFits.inboxDelivery (core : Nat) : WordFits.Statement (.inboxDelivery core) := wordFits_of_none rfl
theorem WordFits.inboxSignal (core : Nat) : WordFits.Statement (.inboxSignal core) := wordFits_of_none rfl
theorem WordFits.redelivery (home : Nat) (core : Nat) : WordFits.Statement (.redelivery home core) := wordFits_of_none rfl
theorem WordFits.redeliveryAccept (n : Nat) : WordFits.Statement (.redeliveryAccept n) := wordFits_of_none rfl
theorem WordFits.subRemove (n : Nat) : WordFits.Statement (.subRemove n) := wordFits_of_none rfl
theorem WordFits.unsubComplete (n : Nat) : WordFits.Statement (.unsubComplete n) := wordFits_of_none rfl
theorem WordFits.subLoss (home : Nat) (idx : Nat) (cause : Nat) : WordFits.Statement (.subLoss home idx cause) := wordFits_of_none rfl
theorem WordFits.subPark (n : Nat) : WordFits.Statement (.subPark n) := wordFits_of_none rfl
theorem WordFits.subRepoint (n : Nat) : WordFits.Statement (.subRepoint n) := wordFits_of_none rfl
theorem WordFits.leaseRenew (home : Nat) (agent : Nat) : WordFits.Statement (.leaseRenew home agent) := wordFits_of_none rfl
theorem WordFits.leaseRelease (home : Nat) (agent : Nat) (region : Nat) : WordFits.Statement (.leaseRelease home agent region) := wordFits_of_none rfl
theorem WordFits.leaseExpiry (home : Nat) (agent : Nat) (region : Nat) : WordFits.Statement (.leaseExpiry home agent region) := wordFits_of_none rfl
theorem WordFits.rangeLockStart (die : Nat) (n : Nat) : WordFits.Statement (.rangeLockStart die n) := wordFits_of_none rfl
theorem WordFits.copyTransfer (core : Nat) (id : Nat) : WordFits.Statement (.copyTransfer core id) := wordFits_of_none rfl
theorem WordFits.copyFault (core : Nat) (id : Nat) : WordFits.Statement (.copyFault core id) := wordFits_of_none rfl
theorem WordFits.copyComplete (core : Nat) (id : Nat) : WordFits.Statement (.copyComplete core id) := wordFits_of_none rfl
theorem WordFits.relayEnqueue (core : Nat) (id : Nat) : WordFits.Statement (.relayEnqueue core id) := wordFits_of_none rfl
theorem WordFits.barrierArrival (n : Nat) : WordFits.Statement (.barrierArrival n) := wordFits_of_none rfl
theorem WordFits.slotZero (core : Nat) : WordFits.Statement (.slotZero core) := wordFits_of_none rfl
theorem WordFits.taskFetch (core : Nat) (id : Nat) : WordFits.Statement (.taskFetch core id) := wordFits_of_none rfl
theorem WordFits.taskStart (core : Nat) (id : Nat) : WordFits.Statement (.taskStart core id) := wordFits_of_none rfl
theorem WordFits.taskStep (core : Nat) (id : Nat) : WordFits.Statement (.taskStep core id) := wordFits_of_none rfl
theorem WordFits.taskComplete (core : Nat) (id : Nat) : WordFits.Statement (.taskComplete core id) := wordFits_of_none rfl
theorem WordFits.growPageMove (core : Nat) (id : Nat) : WordFits.Statement (.growPageMove core id) := wordFits_of_none rfl
theorem WordFits.evictRun (die : Nat) : WordFits.Statement (.evictRun die) := wordFits_of_none rfl
theorem WordFits.evictSwitch (die : Nat) : WordFits.Statement (.evictSwitch die) := wordFits_of_none rfl
theorem WordFits.evictComplete (die : Nat) (id : Nat) : WordFits.Statement (.evictComplete die id) := wordFits_of_none rfl
theorem WordFits.evictFault (die : Nat) : WordFits.Statement (.evictFault die) := wordFits_of_none rfl
theorem WordFits.shootdown (gstage : Bool) (asid : Nat) (vmid : Nat) (va : Option Nat) : WordFits.Statement (.shootdown gstage asid vmid va) := wordFits_of_none rfl
theorem WordFits.migrateLine (slot : Nat) : WordFits.Statement (.migrateLine slot) := wordFits_of_none rfl
theorem WordFits.stalledWriteRetry (n : Nat) : WordFits.Statement (.stalledWriteRetry n) := wordFits_of_none rfl
theorem WordFits.claimRequest (frame : Nat) (claimant : Nat) (part : Nat) : WordFits.Statement (.claimRequest frame claimant part) := wordFits_of_none rfl
theorem WordFits.handoverRelease (frame : Nat) : WordFits.Statement (.handoverRelease frame) := wordFits_of_none rfl
theorem WordFits.holimExpiry (frame : Nat) : WordFits.Statement (.holimExpiry frame) := wordFits_of_none rfl
theorem WordFits.claimTimeout (entry : Nat) : WordFits.Statement (.claimTimeout entry) := wordFits_of_none rfl
theorem WordFits.claimGrant (entry : Nat) : WordFits.Statement (.claimGrant entry) := wordFits_of_none rfl
theorem WordFits.claimRefusal (entry : Nat) (owner : Nat) : WordFits.Statement (.claimRefusal entry owner) := wordFits_of_none rfl
theorem WordFits.shareInc (part : Nat) (frame : Nat) : WordFits.Statement (.shareInc part frame) := wordFits_of_none rfl
theorem WordFits.shareDec (part : Nat) (frame : Nat) : WordFits.Statement (.shareDec part frame) := wordFits_of_none rfl
theorem WordFits.pinInc (part : Nat) (frame : Nat) : WordFits.Statement (.pinInc part frame) := wordFits_of_none rfl
theorem WordFits.pinDec (part : Nat) (frame : Nat) : WordFits.Statement (.pinDec part frame) := wordFits_of_none rfl
theorem WordFits.pinClr (part : Nat) (frame : Nat) : WordFits.Statement (.pinClr part frame) := wordFits_of_none rfl
theorem WordFits.accClr (part : Nat) (frame : Nat) : WordFits.Statement (.accClr part frame) := wordFits_of_none rfl
theorem WordFits.assign (part : Nat) (frame : Nat) (operand : Nat) : WordFits.Statement (.assign part frame operand) := wordFits_of_none rfl
theorem WordFits.free (part : Nat) (frame : Nat) : WordFits.Statement (.free part frame) := wordFits_of_none rfl
theorem WordFits.leaseClr (die : Nat) (part : Nat) (v : BitVec 32) : WordFits.Statement (.leaseClr die part v) := wordFits_of_none rfl
theorem WordFits.tfcurWrite (gid : Nat) (v : BitVec 32) : WordFits.Statement (.tfcurWrite gid v) := wordFits_of_none rfl
theorem WordFits.controlRegWrite (space : Nat) (unit : Nat) (off : Nat) (v : BitVec 64) : WordFits.Statement (.controlRegWrite space unit off v) := wordFits_of_none rfl
theorem WordFits.trapDelivery (gid : Nat) : WordFits.Statement (.trapDelivery gid) := wordFits_of_none rfl
theorem WordFits.heldTrapEnter (core : Nat) : WordFits.Statement (.heldTrapEnter core) := wordFits_of_none rfl
theorem WordFits.heldTrapRetry (core : Nat) : WordFits.Statement (.heldTrapRetry core) := wordFits_of_none rfl
theorem WordFits.faultQueuePost : WordFits.Statement (.faultQueuePost) := wordFits_of_none rfl
theorem WordFits.faultQueueRetry : WordFits.Statement (.faultQueueRetry) := wordFits_of_none rfl
theorem WordFits.refereeForward : WordFits.Statement (.refereeForward) := wordFits_of_none rfl
theorem WordFits.refereeRingRetry (n : Nat) : WordFits.Statement (.refereeRingRetry n) := wordFits_of_none rfl
theorem WordFits.pqpop (die : Nat) : WordFits.Statement (.pqpop die) := wordFits_of_none rfl
theorem WordFits.commit (die : Nat) (v : BitVec 32) : WordFits.Statement (.commit die v) := wordFits_of_none rfl
theorem WordFits.preempt (die : Nat) (v : BitVec 32) : WordFits.Statement (.preempt die v) := wordFits_of_none rfl
theorem WordFits.swap (die : Nat) : WordFits.Statement (.swap die) := wordFits_of_none rfl
theorem WordFits.spill (core : Nat) (slot : Nat) : WordFits.Statement (.spill core slot) := wordFits_of_none rfl
theorem WordFits.spillComplete (core : Nat) (slot : Nat) : WordFits.Statement (.spillComplete core slot) := wordFits_of_none rfl
theorem WordFits.restoreFill (core : Nat) (slot : Nat) : WordFits.Statement (.restoreFill core slot) := wordFits_of_none rfl
theorem WordFits.teamRelease (core : Nat) (slot : Nat) : WordFits.Statement (.teamRelease core slot) := wordFits_of_none rfl
theorem WordFits.submit (page : Nat) (pkt : List (BitVec 8)) : WordFits.Statement (.submit page pkt) := wordFits_of_none rfl
theorem WordFits.launchPacket : WordFits.Statement (.launchPacket) := wordFits_of_none rfl
theorem WordFits.fabricFrameRx (port : Nat) (frame : List (BitVec 8)) (fcsOk : Bool) : WordFits.Statement (.fabricFrameRx port frame fcsOk) := wordFits_of_none rfl
theorem WordFits.launchRequest : WordFits.Statement (.launchRequest) := wordFits_of_none rfl
theorem WordFits.launchReply (n : Nat) : WordFits.Statement (.launchReply n) := wordFits_of_none rfl
theorem WordFits.responseWrite (page : Nat) : WordFits.Statement (.responseWrite page) := wordFits_of_none rfl
theorem WordFits.gridDeal (grid : BitVec 64) : WordFits.Statement (.gridDeal grid) := wordFits_of_none rfl
theorem WordFits.gridComplete (grid : BitVec 64) : WordFits.Statement (.gridComplete grid) := wordFits_of_none rfl
theorem WordFits.functionLevelReset (vf : Nat) : WordFits.Statement (.functionLevelReset vf) := wordFits_of_none rfl
theorem WordFits.hotReset : WordFits.Statement (.hotReset) := wordFits_of_none rfl
theorem WordFits.dieReadmit (die : Nat) : WordFits.Statement (.dieReadmit die) := wordFits_of_none rfl
theorem WordFits.coldStart : WordFits.Statement (.coldStart) := wordFits_of_none rfl
theorem WordFits.bootStage (reason : Nat) : WordFits.Statement (.bootStage reason) := wordFits_of_none rfl
theorem WordFits.bootStageTimeout : WordFits.Statement (.bootStageTimeout) := wordFits_of_none rfl
theorem WordFits.getBootStatus (src : Nat) (arg : List (BitVec 8)) : WordFits.Statement (.getBootStatus src arg) := wordFits_of_none rfl
theorem WordFits.setOwner (src : Nat) (arg : List (BitVec 8)) : WordFits.Statement (.setOwner src arg) := wordFits_of_none rfl
theorem WordFits.imageBegin (src : Nat) (arg : List (BitVec 8)) : WordFits.Statement (.imageBegin src arg) := wordFits_of_none rfl
theorem WordFits.imageData (src : Nat) (arg : List (BitVec 8)) : WordFits.Statement (.imageData src arg) := wordFits_of_none rfl
theorem WordFits.imageEnd (src : Nat) (arg : List (BitVec 8)) : WordFits.Statement (.imageEnd src arg) := wordFits_of_none rfl
theorem WordFits.commitSvn (src : Nat) (arg : List (BitVec 8)) : WordFits.Statement (.commitSvn src arg) := wordFits_of_none rfl
theorem WordFits.setPartition (src : Nat) (arg : List (BitVec 8)) : WordFits.Statement (.setPartition src arg) := wordFits_of_none rfl
theorem WordFits.getPartition (src : Nat) (arg : List (BitVec 8)) : WordFits.Statement (.getPartition src arg) := wordFits_of_none rfl
theorem WordFits.setTenant (src : Nat) (arg : List (BitVec 8)) : WordFits.Statement (.setTenant src arg) := wordFits_of_none rfl
theorem WordFits.getTenant (src : Nat) (arg : List (BitVec 8)) : WordFits.Statement (.getTenant src arg) := wordFits_of_none rfl
theorem WordFits.tearDown (src : Nat) (arg : List (BitVec 8)) : WordFits.Statement (.tearDown src arg) := wordFits_of_none rfl
theorem WordFits.dieReset (src : Nat) (arg : List (BitVec 8)) : WordFits.Statement (.dieReset src arg) := wordFits_of_none rfl
theorem WordFits.snapMailbox (src : Nat) (arg : List (BitVec 8)) : WordFits.Statement (.snapMailbox src arg) := wordFits_of_none rfl
theorem WordFits.setHolim (src : Nat) (arg : List (BitVec 8)) : WordFits.Statement (.setHolim src arg) := wordFits_of_none rfl
theorem WordFits.readLog (src : Nat) (arg : List (BitVec 8)) : WordFits.Statement (.readLog src arg) := wordFits_of_none rfl
theorem WordFits.readSensors (src : Nat) (arg : List (BitVec 8)) : WordFits.Statement (.readSensors src arg) := wordFits_of_none rfl
theorem WordFits.spdm (src : Nat) (arg : List (BitVec 8)) : WordFits.Statement (.spdm src arg) := wordFits_of_none rfl
theorem WordFits.snaptrig (n : BitVec 16) : WordFits.Statement (.snaptrig n) := wordFits_of_none rfl
theorem WordFits.snapshotLatch (block : Nat) : WordFits.Statement (.snapshotLatch block) := wordFits_of_none rfl
theorem WordFits.snapshotComplete : WordFits.Statement (.snapshotComplete) := wordFits_of_none rfl
theorem WordFits.gcmdGres (part : Nat) : WordFits.Statement (.gcmdGres part) := wordFits_of_none rfl
theorem WordFits.gcmdGresSkip (part : Nat) : WordFits.Statement (.gcmdGresSkip part) := wordFits_of_none rfl
theorem WordFits.gcmdGkill (part : Nat) : WordFits.Statement (.gcmdGkill part) := wordFits_of_none rfl
theorem WordFits.pacerRecordWrite (core : Nat) (slot : Nat) (bytes : List (BitVec 8)) : WordFits.Statement (.pacerRecordWrite core slot bytes) := wordFits_of_none rfl
theorem WordFits.rspheadWrite (page : Nat) (v : BitVec 32) : WordFits.Statement (.rspheadWrite page v) := wordFits_of_none rfl
theorem WordFits.rspbaseWrite (page : Nat) (v : BitVec 64) : WordFits.Statement (.rspbaseWrite page v) := wordFits_of_none rfl
theorem WordFits.lineRequest (agent : Nat) (pa : Nat) (write : Bool) : WordFits.Statement (.lineRequest agent pa write) := wordFits_of_none rfl
theorem WordFits.completionTimeout (core : Nat) (id : Nat) : WordFits.Statement (.completionTimeout core id) := wordFits_of_none rfl
theorem WordFits.sensorBeyondLimit (sensor : Nat) : WordFits.Statement (.sensorBeyondLimit sensor) := wordFits_of_none rfl

end Sys2Proof.Laws
end

