-- ==== Sys2Proof/Laws/Traffic.lean ====
section
/-! SUPPORT. What memory traffic may change: every operation below the instructions is such traffic, so it keeps the canonical form of memory and
everything that Traffic names. -/
namespace Sys2Proof.Machine

theorem Traffic.refl (s : State) : Traffic s s := ⟨id, rfl, rfl, rfl, rfl, rfl, rfl, fun _ => rfl, fun _ => rfl, rfl⟩

theorem Traffic.trans {s t u : State} (a : Traffic s t) (b : Traffic t u) : Traffic s u where
  wf h := b.wf (a.wf h)
  groups := b.groups.trans a.groups
  teams := b.teams.trans a.teams
  referee := b.referee.trans a.referee
  cur := b.cur.trans a.cur
  inputs := b.inputs.trans a.inputs
  time := b.time.trans a.time
  cores k := by rw [b.cores k, a.cores k]
  dies d := by rw [b.dies d, a.dies d]
  hub := by rw [b.hub, a.hub]

/-- A fold of traffic is traffic. -/
theorem Traffic.foldl {α : Type} {f : State → α → State} (hf : ∀ s x, Traffic s (f s x)) : ∀ (l : List α) (s : State), Traffic s (l.foldl f s)
  | [], s => .refl s
  | x :: r, s => (hf s x).trans (Traffic.foldl hf r (f s x))

/-- A fold that carries a state beside other data. -/
theorem Traffic.foldl_pair {α β : Type} {f : State × β → α → State × β} (hf : ∀ r x, Traffic r.1 (f r x).1) :
    ∀ (l : List α) (r : State × β), Traffic r.1 (l.foldl f r).1
  | [], r => .refl r.1
  | x :: l, r => (hf r x).trans (Traffic.foldl_pair hf l (f r x))

/-- A choice of traffic is traffic. -/
theorem Traffic.ite {s t u : State} {p : Prop} [Decidable p] (a : Traffic s t) (b : Traffic s u) : Traffic s (if p then t else u) := by
  split
  · exact a
  · exact b

/-! ## Its pieces -/

theorem traffic_modHome (s : State) (h : Nat) (f : Home → Home) : Traffic s (s.modHome h f) := ⟨id, rfl, rfl, rfl, rfl, rfl, rfl, fun _ => rfl, fun _ => rfl, rfl⟩
theorem traffic_setHome (s : State) (h : Nat) (k : Home) : Traffic s (s.setHome h k) := ⟨id, rfl, rfl, rfl, rfl, rfl, rfl, fun _ => rfl, fun _ => rfl, rfl⟩

theorem traffic_modHub (s : State) (f : Hub → Hub)
    (h : ∀ x : Hub, f x = { x with pushNet := (f x).pushNet, upstream := (f x).upstream, frames := (f x).frames, moves := (f x).moves, retries := (f x).retries, relayFlags := (f x).relayFlags }) :
    Traffic s (s.modHub f) :=
  ⟨id, rfl, rfl, rfl, rfl, rfl, rfl, fun _ => rfl, fun _ => rfl, h s.hub⟩

theorem traffic_setCore (s : State) (c : Nat) (x : Core)
    (h : x = { s.core c with l1 := x.l1, l1Hits := x.l1Hits, l1Misses := x.l1Misses }) : Traffic s (s.setCore c x) where
  wf := id
  groups := rfl
  teams := rfl
  referee := rfl
  cur := rfl
  inputs := rfl
  time := rfl
  cores k := by
    by_cases e : c = k
    · subst e; rw [core_setCore]; exact h
    · rw [core_setCore_ne _ _ _ _ e]
  dies _ := rfl
  hub := rfl

theorem traffic_modCore (s : State) (c : Nat) (f : Core → Core)
    (h : ∀ k : Core, f k = { k with l1 := (f k).l1, l1Hits := (f k).l1Hits, l1Misses := (f k).l1Misses }) : Traffic s (s.modCore c f) :=
  traffic_setCore s c _ (h _)

theorem traffic_modDie (s : State) (d : Nat) (f : Die → Die) (h : ∀ k : Die, f k = { k with tlb := (f k).tlb, walkCache := (f k).walkCache, tlbMisses := (f k).tlbMisses, l2 := (f k).l2, l2Hits := (f k).l2Hits, l2Misses := (f k).l2Misses }) :
    Traffic s (s.modDie d f) where
  wf := id
  groups := rfl
  teams := rfl
  referee := rfl
  cur := rfl
  inputs := rfl
  time := rfl
  cores _ := rfl
  dies k := by
    by_cases e : d = k
    · subst e; rw [die_modDie]; exact h _
    · rw [die_modDie_ne _ _ _ _ e]
  hub := rfl

/-! ## Frame records and stores -/

theorem traffic_setFrameRec (s : State) (f : Nat) (r : FrameRec) : Traffic s (s.setFrameRec f r) := traffic_modHub s _ fun _ => rfl

theorem traffic_countAccess (s : State) (part pa : Nat) : Traffic s (countAccess s part pa) := by
  unfold countAccess
  exact .ite (traffic_setFrameRec _ _ _) (.refl _)

theorem traffic_pushWord (s : State) (w : Nat) : Traffic s (pushWord s w) := by
  unfold pushWord
  exact .ite (.refl _) ((traffic_setHome s _ _).trans (traffic_modHub _ _ fun _ => rfl))

theorem traffic_applyWord (keep : Bool) (s : State) (w : Nat) : Traffic s (applyWord keep s w) :=
  ((traffic_modHome s _ _).trans (.ite (.refl _) (traffic_modHub _ _ fun _ => rfl))).trans (traffic_pushWord _ _)

theorem wf_foldl_bput (cells : List (Nat × Byte)) : ∀ m : List Host.Cell, Memory.wf m → Memory.wf (cells.foldl (fun m e => bput m e.1 e.2) m) := by
  induction cells with
  | nil => exact fun _ h => h
  | cons e r ih => exact fun m h => ih _ (wf_bput m e.1 e.2 h)

theorem traffic_performWrite (s : State) (x : HomeWrite) : Traffic s (performWrite s x) := by
  unfold performWrite
  simp only []
  have a : ∀ cells : List (Nat × Byte), Traffic s { s with mem := cells.foldl (fun m e => bput m e.1 e.2) s.mem } := fun cells =>
    ⟨wf_foldl_bput cells s.mem, rfl, rfl, rfl, rfl, rfl, rfl, fun _ => rfl, fun _ => rfl, rfl⟩
  split
  · exact (a _).trans (Traffic.foldl (fun _ _ => traffic_applyWord _ _ _) _ _)
  · exact ((a _).trans (Traffic.foldl (fun _ _ => traffic_applyWord _ _ _) _ _)).trans (traffic_modHub _ _ fun _ => rfl)

/-! ## The L2s and the directories -/

theorem traffic_setLine (s : State) (line : Nat) (x : LineState) : Traffic s (s.setLine line x) := traffic_modHome s _ _

theorem traffic_leaveLine (s : State) (line agent : Nat) : Traffic s (leaveLine s line agent) := by
  unfold leaveLine
  exact .ite ((traffic_modHome _ _ _).trans (traffic_modDie _ _ _ fun _ => rfl)) (traffic_modHome _ _ _)

theorem traffic_recallLine (s : State) (line agent : Nat) : Traffic s (recallLine s line agent) := Traffic.foldl (fun t a => traffic_leaveLine t line a) _ s

theorem traffic_cleanLine (s : State) (line : Nat) : Traffic s (cleanLine s line) := by
  unfold cleanLine
  split
  · exact .ite ((traffic_setLine _ _ _).trans (traffic_modDie _ _ _ fun _ => rfl)) (traffic_setLine _ _ _)
  · exact .refl _

theorem traffic_l2Put (s : State) (die line : Nat) : Traffic s (l2Put s die line) := by
  unfold l2Put
  refine .ite (.refl _) (Traffic.trans ?_ (traffic_modDie _ _ _ fun _ => rfl))
  refine .ite (.refl _) ?_
  split
  · exact traffic_leaveLine _ _ _
  · exact .refl _

theorem traffic_grantLease (s : State) (agent pa : Nat) (write : Bool) : Traffic s (grantLease s agent pa write) := by
  unfold grantLease
  exact .ite (.refl _) (traffic_modHome _ _ _)

theorem traffic_grantLine (s : State) (agent line : Nat) (u : LineUse) : Traffic s (grantLine s agent line u) := by
  cases u
  · refine Traffic.trans ?_ (traffic_grantLease _ _ _ _)
    refine Traffic.trans (Traffic.trans (.ite (.refl _) (traffic_cleanLine _ _)) (.ite (.refl _) (traffic_setLine _ _ _))) (.ite (traffic_l2Put _ _ _) (.refl _))
  · refine Traffic.trans ?_ (traffic_grantLease _ _ _ _)
    exact ((traffic_recallLine _ _ _).trans (traffic_setLine _ _ _)).trans (.ite (traffic_l2Put _ _ _) (.refl _))
  · exact traffic_cleanLine _ _
  · exact Traffic.foldl (fun t a => traffic_leaveLine t line a) _ s

theorem traffic_lineRequest (s : State) (part agent pa : Nat) (u : LineUse) : Traffic s (lineRequest s part agent pa u) := by
  unfold lineRequest upstreamRequest
  simp only []
  generalize (if u = .own ∧ (s.home (homeOf (s.route pa))).subs.any (fun e => e.2.word / 128 == s.route pa / 128) then LineUse.homeStore else u) = v
  refine .ite (traffic_modHub _ _ fun _ => rfl) (.ite (.refl _) (.ite (traffic_modDie _ _ _ fun _ => rfl) (Traffic.trans ?_ (traffic_grantLine _ _ _ _))))
  exact (traffic_countAccess _ _ _).trans (.ite (traffic_modDie _ _ _ fun _ => rfl) (.refl _))

theorem traffic_storeAt (own : Bool) (s : State) (x : HomeWrite) : Traffic s (storeAt own s x) := by
  unfold storeAt
  split
  · exact .ite (traffic_modHub _ _ fun _ => rfl) (traffic_modHub _ _ fun _ => rfl)
  · exact Traffic.trans (.ite (.refl _) (Traffic.foldl (fun t l => traffic_grantLine t 0 l .homeStore) _ s)) (traffic_performWrite _ _)

theorem traffic_homeStore (s : State) (x : HomeWrite) : Traffic s (homeStore s x) := traffic_storeAt false s x
theorem traffic_pwrite (s : State) (pa : Nat) (bs : List Byte) : Traffic s (s.pwrite pa bs) := traffic_homeStore s _
theorem traffic_pstore (s : State) (pa n x : Nat) : Traffic s (s.pstore pa n x) := traffic_pwrite s pa _

/-- A store of a die at its own L2 is traffic. -/
theorem traffic_l2Store (s : State) (part die pa : Nat) (bs : List Byte) : Traffic s (l2Store s part die pa bs) := by
  unfold l2Store
  refine (traffic_lineRequest s part die pa .own).trans (.ite ?_ (traffic_pwrite _ _ _))
  exact (traffic_modDie _ _ _ fun _ => rfl).trans (traffic_storeAt _ _ _)

theorem traffic_pteUpdate (s : State) (part pa : Nat) (f : Nat → Nat) : Traffic s (pteUpdate s part pa f) :=
  .ite (.refl _) ((traffic_lineRequest s part 4 pa .homeStore).trans (traffic_pstore _ _ _ _))

/-! ## The L1 -/

theorem traffic_writeBackCells (s : State) (core : Nat) (x : L1Line) : Traffic s (writeBackCells s core x) := by
  unfold writeBackCells
  refine .ite (.refl _) ((traffic_lineRequest _ _ _ _ _).trans (.ite ?_ (traffic_homeStore _ _)))
  exact (traffic_modDie _ _ _ fun _ => rfl).trans (traffic_storeAt _ _ _)

theorem traffic_cleanLines (s : State) (core : Nat) (p : L1Line → Bool) (inv : Bool) : Traffic s (cleanLines s core p inv) := by
  unfold cleanLines
  exact (Traffic.foldl (fun t x => traffic_writeBackCells t core x) ((s.core core).l1.filter p) s).trans (traffic_modCore _ core _ fun _ => rfl)

theorem traffic_l1Put (s : State) (core : Nat) (x : L1Line) : Traffic s (l1Put s core x) := by
  unfold l1Put
  simp only []
  split
  · exact traffic_setCore s core _ rfl
  · split
    · exact traffic_modCore _ _ _ fun _ => rfl
    · split
      · exact (traffic_cleanLines _ _ _ _).trans (traffic_modCore _ _ _ fun _ => rfl)
      · exact traffic_modCore _ _ _ fun _ => rfl

theorem traffic_l1Load (s : State) (core asid vmid part va n : Nat) (h : Hit) : Traffic s (l1Load s core asid vmid part va n h).1 := by
  unfold l1Load
  simp only []
  split
  · exact (traffic_modCore s core _ fun _ => rfl).trans (traffic_l1Put _ _ _)
  · exact ((traffic_lineRequest s _ _ _ _).trans (traffic_modCore _ core _ fun _ => rfl)).trans (traffic_l1Put _ _ _)

theorem traffic_l1Store (s : State) (core asid vmid part va n x : Nat) (h : Hit) : Traffic s (l1Store s core asid vmid part va n x h) := by
  unfold l1Store
  refine (traffic_modCore s core _ fun k => ?_).trans (traffic_l1Put _ _ _)
  split <;> rfl

theorem traffic_flushFor (s : State) (gid va : Nat) : Traffic s (flushFor s gid va) := traffic_cleanLines s _ _ _

/-! ## Translation -/

theorem traffic_tlbPut (s : State) (die : Nat) (e : TlbEntry) : Traffic s (tlbPut s die e) := traffic_modDie s die _ fun _ => rfl

/-- Making use of a leaf is traffic, given that its PTE's address is reached by traffic. -/
theorem traffic_useLeaf (s : State) (x : Xctx) (g : Bool) (e : TlbEntry) (acc : Nat) (rd : State → Nat → State × Walk)
    (hrd : ∀ s a, Traffic s (rd s a).1) : Traffic s (useLeaf s x g e acc rd).1 := by
  have hr : ∀ {r : State × Walk}, rd s e.pteAddr = r → Traffic s r.1 := fun h => h ▸ hrd _ _
  unfold useLeaf
  split
  · exact .refl _
  · split
    · exact traffic_tlbPut _ _ _
    · split
      · exact .refl _
      · split
        · exact traffic_tlbPut _ _ _
        · split
          · rename_i h
            refine (hr h).trans ?_
            split
            · exact .refl _
            · split
              · exact .refl _
              · exact (traffic_pteUpdate _ _ _ _).trans (traffic_tlbPut _ _ _)
          · exact hr rfl

theorem traffic_walkPut (s : State) (x : Xctx) (g : Bool) (level va pte : Nat) : Traffic s (walkPut s x g level va pte) := by
  unfold walkPut
  exact .ite (.refl _) (traffic_modDie _ _ _ fun _ => rfl)

theorem traffic_readPte (x : Xctx) (g : Bool) (va : Nat) (rd : State → Nat → State × Walk) (hrd : ∀ s a, Traffic s (rd s a).1) (level : Nat) (s : State)
    (base : Nat) : Traffic s (readPte x g va rd level s base).1 := by
  have hr : ∀ {a : Nat} {r : State × Walk}, rd s a = r → Traffic s r.1 := fun h => h ▸ hrd _ _
  unfold readPte
  split
  · exact .refl _
  · simp only []
    generalize (base + 8 * (va / 2 ^ (12 + 9 * level) % (if (g && level == 4) = true then 2048 else 512))) = slot
    split
    · rename_i h
      refine (hr h).trans ?_
      split
      · exact .refl _
      · exact traffic_lineRequest _ _ _ _ _
    · rename_i h; exact hr h

/-- Finding the frame behind a leaf with MIG is traffic. -/
theorem traffic_migFrame (x : Xctx) (g : Bool) (pte level va : Nat) (s : State) (rd : State → Nat → State × Walk) (hrd : ∀ s a, Traffic s (rd s a).1) :
    Traffic s (migFrame x g pte level va s rd).1 := by
  have hr : ∀ {a : Nat} {r : State × Walk}, rd s a = r → Traffic s r.1 := fun h => h ▸ hrd _ _
  unfold migFrame
  simp only []
  split <;> (rename_i h; exact (congrArg (Traffic s ·.1) h).mp (hrd _ _))

theorem traffic_walkFrom (x : Xctx) (g : Bool) (va acc : Nat) (rd : State → Nat → State × Walk) (hrd : ∀ s a, Traffic s (rd s a).1) :
    ∀ (level : Nat) (s : State) (base : Nat), Traffic s (walkFrom x g va acc rd level s base).1 := by
  have hr : ∀ {level : Nat} {s : State} {base : Nat} {r : State × (Walk ⊕ (Nat × Nat))}, readPte x g va rd level s base = r → Traffic s r.1 :=
    fun h => h ▸ traffic_readPte x g va rd hrd _ _ _
  intro level
  induction level with
  | zero =>
    intro s base
    unfold walkFrom
    split
    · rename_i h; exact hr h
    · rename_i h
      refine Traffic.trans (hr h) ?_
      split
      · exact .refl _
      · exact .refl _
      · split
        · exact traffic_migFrame _ _ _ _ _ _ _ hrd
        · exact traffic_useLeaf _ _ _ _ _ _ hrd
      · exact traffic_walkPut _ _ _ _ _ _
  | succ n ih =>
    intro s base
    unfold walkFrom
    split
    · rename_i h; exact hr h
    · rename_i h
      refine Traffic.trans (hr h) ?_
      split
      · exact .refl _
      · exact .refl _
      · split
        · exact traffic_migFrame _ _ _ _ _ _ _ hrd
        · exact traffic_useLeaf _ _ _ _ _ _ hrd
      · exact (traffic_walkPut _ _ _ _ _ _).trans (ih _ _)

theorem byteLeaf_fst (gpa : Nat) (w : State × Walk) : (byteLeaf gpa w).1 = w.1 := by
  obtain ⟨t, w⟩ := w; cases w <;> rfl

theorem walkTrap_fst (acc : Nat) (w : State × Walk) : (walkTrap acc w).1 = w.1 := by
  obtain ⟨t, w⟩ := w; cases w <;> rfl

theorem traffic_tlbMiss (s : State) (x : Xctx) : Traffic s (tlbMiss s x) := traffic_modDie s x.die _ fun _ => rfl

theorem traffic_secondStage (s : State) (x : Xctx) (gpa acc : Nat) : Traffic s (secondStage s x gpa acc).1 := by
  unfold secondStage
  split
  · exact .refl _
  · split
    · exact .refl _
    · split
      · rw [byteLeaf_fst]; exact traffic_useLeaf _ _ _ _ _ _ fun t _ => .refl t
      · rw [byteLeaf_fst]; exact (traffic_tlbMiss s x).trans (traffic_walkFrom x true gpa acc (plainAt x) (fun t _ => .refl t) _ _ _)

theorem traffic_firstStage (s : State) (x : Xctx) (va acc : Nat) : Traffic s (firstStage s x va acc).1 := by
  unfold firstStage
  split
  · exact .refl _
  · split
    · exact traffic_useLeaf _ _ _ _ _ _ fun t a => traffic_secondStage t x a 0
    · exact (traffic_tlbMiss s x).trans (traffic_walkFrom x false va acc _ (fun t a => traffic_secondStage t x a 0) _ _ _)

theorem traffic_translate (s : State) (x : Xctx) (va acc : Nat) : Traffic s (translate s x va acc).1 := by
  have h1 : ∀ {r : State × Walk}, firstStage s x va acc = r → Traffic s r.1 := fun h => h ▸ traffic_firstStage _ _ _ _
  have h2 : ∀ {t : State} {a : Nat} {r : State × Walk}, secondStage t x a acc = r → Traffic t r.1 := fun h => h ▸ traffic_secondStage _ _ _ _
  unfold translate
  split
  · rename_i he
    refine Traffic.trans (h1 he) ?_
    split
    · rename_i hg; exact h2 hg
    · rw [walkTrap_fst]; exact traffic_secondStage _ _ _ _
  · rw [walkTrap_fst]; exact h1 rfl

theorem traffic_reach (s : State) (x : Xctx) (va acc : Nat) : Traffic s (reach s x va acc).1 := by
  unfold reach
  split
  · rename_i s1 h he
    have : Traffic s s1 := by have := traffic_translate s x va acc; rw [he] at this; exact this
    split
    · exact this
    · split <;> exact this
  · exact traffic_translate s x va acc

/-! ## Walking and reading a logged operation -/

theorem traffic_reachPlaced (s : State) (x : Xctx) (va acc : Nat) (pc : Bool) : Traffic s (reachPlaced s x va acc pc).1 := by
  have h : ∀ {r : State × Reach}, translate s x va acc = r → Traffic s r.1 := fun h => h ▸ traffic_translate _ _ _ _
  unfold reachPlaced
  split
  · rename_i e
    have := h e
    split <;> exact this
  · exact h rfl

theorem traffic_reachPinned (s : State) (x : Xctx) (va : Nat) : Traffic s (reachPinned s x va).1 := by
  have h : ∀ {r : State × Reach}, reachPlaced s x va 0 false = r → Traffic s r.1 := fun h => h ▸ traffic_reachPlaced _ _ _ _ _
  unfold reachPinned
  split
  · rename_i s1 k e
    refine (h e).trans ?_
    have h2 : ∀ {r : State × Walk}, secondStage s1 x k.pteAddr 0 = r → Traffic s1 r.1 := fun h => h ▸ traffic_secondStage _ _ _ _
    split
    · rename_i e2; exact h2 e2
    · rw [walkTrap_fst]; exact h2 rfl
  · exact h rfl

theorem traffic_reachFor (s : State) (x : Xctx) (k : MemKind) (va : Nat) : Traffic s (reachFor s x k va).1 := by
  unfold reachFor
  split
  · exact traffic_reachPlaced _ _ _ _ _
  · exact traffic_reachPinned _ _ _
  · exact traffic_reachPinned _ _ _
  · exact traffic_reach _ _ _ _

theorem traffic_walkPiece (s : State) (o : LogOp) (va n : Nat) : Traffic s (walkPiece s o va n).1 := by
  unfold walkPiece
  simp only []
  split
  · split <;> exact .refl _
  · split
    · rename_i y _
      by_cases h : (if o.kind.writes then y.canW && y.dSet && !inRecordArea (y.pline * 128) else y.canR && byteMask (va % 128) n &&& ~~~y.valid == 0) = true
      · rw [if_pos h]; exact .refl _
      · rw [if_neg h]; exact traffic_reachFor _ _ _ _
    · exact traffic_reachFor _ _ _ _

theorem traffic_walkAcc (s : State) (o : LogOp) (a : Acc) : Traffic s (walkAcc s o a).1 := by
  unfold walkAcc
  refine Traffic.foldl_pair (fun r p => ?_) (pieces a.va a.n) (s, ([] : List (Nat × Reach)))
  exact traffic_walkPiece r.1 o p.1 p.2

theorem traffic_walkAll (s : State) (o : LogOp) : Traffic s (walkAll s o).1 := by
  unfold walkAll
  refine Traffic.foldl_pair (fun r a => ?_) (s.accesses o) (s, ([] : List (Acc × List (Nat × Reach))))
  exact traffic_walkAcc r.1 o a

theorem traffic_readPiece (s : State) (gid va n : Nat) (h : Hit) : Traffic s (readPiece s gid va n h).1 := by
  unfold readPiece
  simp only []
  split
  · split <;> exact .refl _
  · split
    · exact traffic_lineRequest _ _ _ _ _
    · exact traffic_l1Load _ _ _ _ _ _ _ _

theorem traffic_readAcc (s : State) (gid : Nat) (a : Acc) (hs : List Hit) : Traffic s (readAcc s gid a hs).1 := by
  unfold readAcc
  refine Traffic.foldl_pair (fun r p => ?_) ((pieces a.va a.n).zip hs) (s, 0)
  exact traffic_readPiece r.1 gid p.1.1 p.1.2 p.2

theorem traffic_readAll (s : State) (o : LogOp) : Traffic s (readAll s o).1 := by
  unfold readAll
  refine Traffic.foldl_pair (fun r p => ?_) (s.placed o) (s, ([] : List (Nat × Nat)))
  exact traffic_readAcc r.1 o.gid p.1 p.2

end Sys2Proof.Machine
end

