-- ==== Sys2Proof/Tests/Slice0.lean ====
section
/-! SUPPORT. Tests of the model: words and what they decode to, an ill-formed term for each check of WellFormed, for every statement states and operands that meet
its hypotheses together, and single steps whose results the spec prints. -/

namespace Sys2Proof.Tests

-- One theorem at a time: many evaluations side by side ask for too much memory.
set_option Elab.async false

/-! ## Words and what they decode to

Each word is written out from the spec's own encoding: its opcode from the map of R31, then its fields d, a and b or an immediate (R16), those of an example
of the spec as the spec prints them. -/

/-- Every listed word decodes to the instruction beside it, and that instruction is encoded by the word. -/
def reads (l : List (Nat × Instr)) : Bool := l.all fun x => decodeTableWord 32 x.1 == some x.2 && encode x.2 == BitVec.ofNat 32 x.1 && x.2.wellFormed

/-- R40, R83 to R87: the vector integer words. -/
theorem test_vector_words : reads [(0x01050382, .add 0x05 0x03 0x82), (0x02050382, .sub 0x05 0x03 0x82), (0x03010203, .mul 1 2 3), (0x04010203, .mulh 1 2 3),
    (0x05010203, .mad 1 2 3), (0x06010203, .min 1 2 3), (0x07010203, .max 1 2 3), (0x08010200, .abs 1 2), (0x09010200, .neg 1 2), (0x0A010203, .and 1 2 3),
    (0x0B010203, .or 1 2 3), (0x0C010203, .xor 1 2 3), (0x0D010203, .andn 1 2 3), (0x0E010200, .not 1 2), (0x0F010203, .shl 1 2 3), (0x10010203, .shr 1 2 3),
    (0x11010203, .sar 1 2 3), (0x12010203, .rol 1 2 3), (0x13010200, .popc 1 2), (0x14010200, .clz 1 2), (0x15010200, .brev 1 2), (0x16060789, .bfe 0x06 0x07 0x89),
    (0x17060789, .bfi 0x06 0x07 0x89)] = true := by decide +kernel

/-- R88 to R92: selection, comparison, predicates, moves and immediates. -/
theorem test_vector_words_2 : reads [(0x18010203, .sel 1 2 3), (0x19210203, .cmp 2 1 2 3), (0x1A010200, .mov 1 2), (0x1B14010A, .plog 1 4 1 0xA), (0x1C0102FF, .addi 1 2 0xFF),
    (0x1D04FFFD, .movi 4 0xFFFD), (0x1E043F80, .movhi 4 0x3F80), (0x1F030305, .shli 3 3 5), (0x20030305, .shri 3 3 5), (0x21030305, .sari 3 3 5), (0x220102F0, .andi 1 2 0xF0),
    (0x230102F0, .ori 1 2 0xF0)] = true := by decide +kernel

/-- R122 to R133: the float words. -/
theorem test_float_words : reads [(0x30040506, .fadd 4 5 6), (0x31040506, .fsub 4 5 6), (0x32040506, .fmul 4 5 6), (0x33080283, .ffma 8 2 0x83), (0x34040506, .fmin 4 5 6),
    (0x35040506, .fmax 4 5 6), (0x36010200, .fabs 1 2), (0x37010200, .fneg 1 2), (0x38210203, .fcmp 2 1 2 3), (0x386A0404, .fcmp 6 0xA 4 4), (0x39010200, .fclass 1 2),
    (0x3A090A00, .frcp 9 10), (0x3B090A00, .frsq 9 10), (0x3C090A00, .fsqrt 9 10), (0x3D090A00, .fexp2 9 10), (0x3E090A00, .flog2 9 10), (0x3F090A00, .fsin 9 10),
    (0x40090A00, .fcos 9 10), (0x41090A00, .ftanh 9 10), (0x42040506, .fdot2 4 5 6), (0x43020287, .fscale 2 2 0x87), (0x4403041A, .cvt 3 4 1 10), (0x4406050C, .cvt 6 5 0 12),
    (0x45080920, .cvtr 8 9 1 0 0), (0x46070700, .rndint 7 7)] = true := by decide +kernel

/-- R94 to R98: the lane words. -/
theorem test_lane_words : reads [(0x50010203, .shfl 1 2 3), (0x51010210, .shflx 1 2 0x10), (0x52010200, .voteAny 1 2), (0x52010201, .voteAll 1 2), (0x52040A02, .voteBal 4 0xA),
    (0x53050602, .redu 5 6 2), (0x54070808, .scan 7 8 1 0), (0x55090A00, .laneMatch 9 10), (0x56010200, .bcast 1 2 0)] = true := by decide +kernel

/-- R40, R99 to R104: the uniform words. -/
theorem test_uniform_words : reads [(0x608201A1, .uadd 0x82 0x01 0xA1), (0x61040506, .usub 4 5 6), (0x62040506, .umul 4 5 6), (0x63040506, .umad 4 5 6), (0x64040506, .uand 4 5 6),
    (0x65040506, .uor 4 5 6), (0x66040506, .uxor 4 5 6), (0x67040506, .ushl 4 5 6), (0x68040506, .ushr 4 5 6), (0x69040506, .usar 4 5 6), (0x6A040506, .umin 4 5 6),
    (0x6B040506, .umax 4 5 6), (0x6C2104A7, .ucmp 2 1 4 0xA7), (0x6D0506A0, .usel 5 6 0xA0), (0x6E820040, .umovi 0x82 0x40), (0x6F823F80, .umovhi 0x82 0x3F80),
    (0x700404F8, .uaddi 4 4 0xF8), (0x71080A00, .umov 8 10), (0x7214C000, .getsr 20 0xC0)] = true := by decide +kernel

/-- R47, R54, R55, R62 to R70: the control words. -/
theorem test_control_words : reads [(0x80020003, .bra 2 3), (0x81070FFE, .braq 7 0x0FFE), (0x82FFFFFE, .call 0xFFFFFE), (0x83000000, .ret), (0x84000006, .mark 6), (0x85000000, .join),
    (0x86000001, .regang 1), (0x87000000, .exit), (0x88000000, .yield), (0x89000000, .spinw), (0x8A00002A, .trap 42), (0x8B000000, .nop), (0x8C000187, .setmode 0x187),
    (0x8D000007, .setgrd 7)] = true := by decide +kernel

/-- R150 to R166, R183 to R185: the memory words. -/
theorem test_memory_words : reads [(0x900A0803, .ldb 0xA 8 3), (0x910A0803, .ldh 0xA 8 3), (0x920A0803, .ldw 0xA 8 3), (0x930A0801, .ldd 0xA 8 1), (0x940C0802, .ldq 0xC 8 2),
    (0x950A0801, .stb 0xA 8 1), (0x960A0801, .sth 0xA 8 1), (0x970A0801, .stw 0xA 8 1), (0x98840800, .std 0x84 8 0), (0x990C0801, .stq 0xC 8 1), (0x9A148202, .ldu 0x14 0x82 2),
    (0x9B148202, .stu 0x14 0x82 2), (0x9C030812, .sxld 3 8 0x12), (0x9D030800, .sxst 3 8 0), (0x9E010802, .pref 1 8 2), (0x9F010800, .lds 0 0 1 8 0), (0x9F720C00, .lds 3 1 2 0xC 0),
    (0x9FB90800, .lds 5 1 9 8 0), (0xA0030A02, .unsub 3 10 2)] = true := by decide +kernel

/-- R157 to R164: the atomics, the ordered adds and the bank modes. -/
theorem test_atomic_words : reads [(0xA1040608, .aadd 4 6 8), (0xA2040608, .amin 4 6 8), (0xA3040608, .amax 4 6 8), (0xA4040608, .aand 4 6 8), (0xA5040608, .aor 4 6 8),
    (0xA6040608, .axor 4 6 8), (0xA7040608, .axch 4 6 8), (0xA8040608, .acas 4 6 8), (0xA901060A, .faadd 1 6 10), (0xAA01282A, .faopen 1 0x28 0x2A), (0xAB010000, .bankcfgGrow 1),
    (0xAB010001, .bankcfgShrink 1), (0xAB000012, .bankcfgFifo 0 2), (0xAB000013, .bankcfgUnfifo 0 2)] = true := by decide +kernel

/-- R216, R234, R240, R243: the sync words, the batches, the barriers and the copies. -/
theorem test_sync_words : reads [(0xB001282C, .bind 0 1 0x28 0x2C), (0xB021282C, .bind 2 1 0x28 0x2C), (0xB1022800, .unbind 2 0x28), (0xB20C0A04, .acq 0xC 0xA 4), (0xB3060A04, .relSt 6 0xA 4),
    (0xB386080C, .relAdd 0x86 8 4), (0xB400001C, .fence 1 1 4), (0xB400000C, .fence 0 1 4), (0xB4000014, .fence 1 0 4), (0xB5000002, .waitc 0 2), (0xB5000007, .waitc 0 7), (0xB5040008, .waitc 4 8),
    (0xB6140000, .batch 0x14), (0xB7001400, .waitb 0x14), (0xB8001501, .barinit 0x15 1), (0xB91EA111, .bara 0x1E 0xA1 1 1), (0xBA001E11, .barw 0x1E 1 1), (0xBB008200, .cpy 0 0 0x82 0),
    (0xBB128220, .cpy 1 2 0x82 0x20), (0xBC158800, .cpyx 1 5 0x88 0), (0xBD009004, .cpys 0 0 0x90 4)] = true := by decide +kernel

/-- R252, R261, R282, R284, R285: the slots, the tasks and the slabs. -/
theorem test_task_words : reads [(0xC01E0104, .sclaim 0x1E 1 4), (0xC1001E04, .srel 0x1E 4), (0xC2001407, .tpost 0x14 7), (0xC20014A0, .tpost 0x14 0xA0), (0xC3050900, .tqry 5 9),
    (0xC4012832, .kvapp 1 0x28 0x32), (0xC5003C42, .kvgrow 0 0 0x3C 0x42), (0xC5113C42, .kvgrow 1 1 0x3C 0x42), (0xC6133C40, .kvevict 1 3 0x3C 0x40), (0xC7464801, .slabld 0x46 0x48 1),
    (0xC8464800, .slabst 0x46 0x48 0), (0xC8464801, .slabst 0x46 0x48 1)] = true := by decide +kernel

/-- R316, R322, R347, R382, R405: placement and the supervisor words. MIGR_MOVE, MIGR_RETIRE and MIGR_CLAIM are one word. -/
theorem test_supervisor_words : reads [(0xD0012800, .pin 1 0x28), (0xD1012800, .unpin 1 0x28), (0xD2012810, .phint 1 0x28 0x10), (0xD3040800, .pcnt 4 8 0), (0xD3040801, .pcnt 4 8 1),
    (0xD4040200, .launch 4 2), (0xD5000000, .solo), (0xD6000000, .tret 0), (0xD6000001, .tret 1), (0xF0140021, .crd 0x14 0x21), (0xF1140040, .cwr 0x14 0x40), (0xF200282A, .tlbiVa 0x28 0x2A),
    (0xF201A02A, .tlbiAsid 0x2A), (0xF202282A, .tlbiGva 0x28 0x2A), (0xF203A02A, .tlbiVmid 0x2A), (0xF3142800, .ptst 0x14 0x28 0), (0xF3142801, .ptst 0x14 0x28 1), (0xF4000000, .ifence),
    (0xF5000000, .unsolo), (0xF614282A, .migrMove 0x14 0x28 0x2A), (0xF7140042, .snap 0x14 0x42), (0xF8142800, .ftmap 0x14 0x28), (0xF9140000, .ringp 0x14), (0xFA142800, .gres 0x14 0x28 0),
    (0xFA142801, .gres 0x14 0x28 1), (0xFB142800, .gkill 0x14 0x28), (0x00000000, .reservedOpcode 0), (0xE0000000, .reservedOpcode 0xE0000000),
    (0xFF123456, .reservedOpcode 0xFF123456)] = true := by decide +kernel

theorem test_migr_is_one_word : encode (.migrRetire 0x14 0x28 0x2A) = 0xF614282A ∧ encode (.migrClaim 0x14 0x28 0x2A) = 0xF614282A := by decide +kernel

/-- R35: a word whose reserved bits are set, or whose operation code has no meaning, is no row's word (ABS with b, VOTE 3, TRET with bit 1). -/
theorem test_words_refused : ([0x08010201, 0x52010203, 0xD6000002, 0xF204282A, 0xAB000004].all fun w => (decodeTableWord 32 w).isNone) = true := by decide +kernel

/-! ## The well-formedness checks, each with a term that it refuses -/

theorem test_wf_core : (Instr.loadDataReturn 160 0).wellFormed = false ∧ (Instr.loadDataReturn 159 0).wellFormed = true := by decide
theorem test_wf_post : (Instr.postTaken 159 8).wellFormed = false ∧ (Instr.postTaken 160 0).wellFormed = false ∧ (Instr.postTaken 159 7).wellFormed = true := by decide
theorem test_wf_die : (Instr.evictRun 4).wellFormed = false ∧ (Instr.evictRun 3).wellFormed = true := by decide
theorem test_wf_slot : (Instr.spill 0 32).wellFormed = false ∧ (Instr.migrateLine 16).wellFormed = false ∧ (Instr.spill 159 31).wellFormed = true := by decide
theorem test_wf_page : (Instr.responseWrite 140).wellFormed = false ∧ (Instr.responseWrite 139).wellFormed = true := by decide
theorem test_wf_partition : (Instr.gcmdGres 12).wellFormed = false ∧ (Instr.shareInc 12 0).wellFormed = false ∧ (Instr.gcmdGres 11).wellFormed = true := by decide
theorem test_wf_function : (Instr.functionLevelReset 128).wellFormed = false ∧ (Instr.functionLevelReset 127).wellFormed = true := by decide
theorem test_wf_home : (Instr.leaseRenew 6 0).wellFormed = false ∧ (Instr.redelivery 5 160).wellFormed = false ∧ (Instr.leaseRenew 5 0).wellFormed = true := by decide
theorem test_wf_group : (Instr.groupRetire 327680).wellFormed = false ∧ (Instr.waitcPass 0 64).wellFormed = false ∧ (Instr.waitcPass 327679 63).wellFormed = true := by decide
theorem test_wf_frame : (Instr.holimExpiry (2 ^ 45)).wellFormed = false ∧ (Instr.assign 0 0 16).wellFormed = false ∧ (Instr.assign 13 0 0).wellFormed = false ∧
    (Instr.assign 11 (2 ^ 45 - 1) 15).wellFormed = true ∧ (Instr.assign 12 (2 ^ 45 - 1) 0x5B).wellFormed = true := by decide
theorem test_wf_claim : (Instr.claimTimeout 16).wellFormed = false ∧ (Instr.claimRequest 0 0 12).wellFormed = false ∧ (Instr.claimTimeout 15).wellFormed = true := by decide
theorem test_wf_address : (Instr.homeStoreApply (2 ^ 57 - 1) [1, 2]).wellFormed = false ∧ (Instr.homeStoreApply (17 * 2 ^ 57) [1]).wellFormed = false ∧ (Instr.lineRequest 4 (2 ^ 57) false).wellFormed = false ∧
    (Instr.homeStoreApply (17 * 2 ^ 57 - 1) [1]).wellFormed = true := by decide
theorem test_wf_loss : (Instr.subLoss 0 0 0).wellFormed = false ∧ (Instr.subLoss 0 0 5).wellFormed = false ∧ (Instr.subLoss 5 0 4).wellFormed = true := by decide
theorem test_wf_shootdown : (Instr.shootdown false 0 (2 ^ 14) none).wellFormed = false ∧ (Instr.shootdown false 0 0 (some (2 ^ 64))).wellFormed = false ∧
    (Instr.shootdown true 0xFFFF 0x3FFF (some 0)).wellFormed = true := by decide
theorem test_wf_register : (Instr.controlRegWrite 11 0 0 0).wellFormed = false ∧ (Instr.controlRegWrite 0 0 4096 0).wellFormed = false ∧
    (Instr.controlRegWrite 4 0 4095 0).wellFormed = true := by decide
theorem test_wf_packet : (Instr.submit 0 []).wellFormed = false ∧ (Instr.pacerRecordWrite 0 0 [1]).wellFormed = false ∧
    (Instr.submit 139 (List.replicate 128 0)).wellFormed = true ∧ (Instr.pacerRecordWrite 159 31 (List.replicate 256 0)).wellFormed = true := by decide +kernel
theorem test_wf_port : (Instr.fabricFrameRx 8 [] true).wellFormed = false ∧ (Instr.fabricFrameRx 7 [] true).wellFormed = true := by decide
theorem test_wf_boot : (Instr.bootStage 7).wellFormed = false ∧ (Instr.bootStage 6).wellFormed = true := by decide
theorem test_wf_mailbox : (Instr.setHolim 2 []).wellFormed = false ∧ (Instr.spdm 3 []).wellFormed = false ∧ (Instr.imageData 0 (List.replicate 4097 0)).wellFormed = false ∧ (Instr.setHolim 1 []).wellFormed = true := by decide +kernel
theorem test_wf_block : (Instr.snapshotLatch 236).wellFormed = false ∧ (Instr.sensorBeyondLimit (2 ^ 16)).wellFormed = false ∧ (Instr.snapshotLatch 235).wellFormed = true := by decide
theorem test_wf_reserved : (Instr.reservedOpcode 0x01050382).wellFormed = false ∧ (Instr.reservedOpcode 0xE0000000).wellFormed = true := by decide

open Machine

/-! ## Small states

One team whose one group has at most two live slices; a gang of slice 0, or of both, issues. -/

/-- A running slot record: one group of 128 registers, partition 1. -/
def record : List Byte := setField probeRecord 0 1 2

/-- A live slice under a mode word, with lanes. -/
def slice (mode : Word) (lanes : BitVec 4) : Slice := { Slice.launch 0x10000 with live := lanes, run := lanes, mode := mode }

/-- The group with two first slices. -/
def group (a b : Slice) : Group := { probeGroup with slices := a :: b :: List.replicate 62 Slice.dead }

/-- The state in which a gang of the group g issues. -/
def at_ (g : Group) (gang : SliceMask) : State :=
  { State.reset with groups := [(0, g)], teams := [(0, { Team.reset with window := 0x7000000000 })], cores := [(0, { Core.reset with binds := [(0, record)] })],
                     dies := [(0, { Die.reset with tlb := [probeLeaf] })], cur := some { gid := 0, gang := gang } }

/-- One lane, in slice 0, issues under a mode word. -/
def small (mode : Word) : State := at_ (group (slice mode 1) Slice.dead) 1

/-- The group of small with vector registers, a uniform register file and vector predicates. -/
def withRegs (mode : Word) (v : Sparse (List Word)) (u : Sparse Word) : State := at_ { group (slice mode 1) Slice.dead with vregs := v, uregs := u } 1

/-- The gang of slice 0, and the SOLO lane 0. -/
def here : Ctx := { gid := 0, gang := 1, solo := none }
def soloHere : Ctx := { gid := 0, gang := 1, solo := some 0 }

/-- A trap record with a code. -/
def trapRecord (code : BitVec 8) : Record :=
  { cause := 0, nested := false, logged := false, async := false, code := code, qleft := 0, lane := 0, addr := 0, pc := 0x10000, opword := 0 }

/-- An open handler frame for lane 0. -/
def frame0 : Frame := { tfu := List.replicate 16 0, tfq := 0, record := trapRecord 0x15, tfpc := 0x10000, fmask := 1, log := none, tfcur := 0, atIssue := true, engine := .none }

/-- The slice of a handler. -/
def handlerSlice : Slice := { slice 0x87 1 with handler := some { mode := 0x87, run := 1, depth := 0, gang := 0, wait := .none } }

/-- A handler's group. -/
def handler (solo : Bool) : State := at_ { group handlerSlice Slice.dead with frame := some frame0, solo := solo } 1

/-- All the words issue normally for the gang c. -/
def ready (s : State) (c : Ctx) (l : List Instr) : Bool := issuer s == some c && l.all fun i => issues (encode i) s

/-! ## The hypotheses of the statements are met

One theorem for each statement that has hypotheses, with states and operands that meet them together. -/

/-- VectorArithmetic, VectorBitwise, SelectAndPredicates, VectorShiftsAndFields, VectorOneSourceAndImmediates: a lane under a 32-bit type, and under four packed bytes. -/
theorem witness_vector : ([(0x07 : Word), 0x57].all fun m => ready (small m) here [.add 0 1 2, .sub 0 1 2, .mul 0 1 2, .mulh 0 1 2, .mad 0 1 2, .min 0 1 2, .max 0 1 2, .abs 0 1, .neg 0 1, .not 0 1,
    .popc 0 1, .clz 0 1, .brev 0 1, .shl 0 1 2, .shr 0 1 2, .sar 0 1 2, .rol 0 1 2, .and 0 1 2, .or 0 1 2, .xor 0 1 2, .andn 0 1 2, .sel 0 1 2, .mov 0 1, .plog 2 1 7 0xF,
    .addi 0 1 0x80, .movi 0 0x8000, .movhi 127 0xFFFF, .shli 0 1 7, .shri 0 1 7, .sari 0 1 7, .andi 0 1 0xFF, .ori 0 1 0xFF]) = true ∧
    ready (small 0x07) here [.cmp 5 7 1 2, .cmp 0 0xF 1 2, .bfe 0 1 2, .bfi 0 1 2] = true := by decide +kernel

/-- LaneCopies, LaneReductions. -/
theorem witness_lanes : ready (small 0x07) here [.shfl 0 1 2, .shflx 0 1 0xFF, .bcast 0 1 0xFF, .voteAny 0 7, .voteAll 7 0xF, .voteBal 0 7, .redu 0 1 0, .redu 0 1 5, .scan 0 1 1 5,
    .laneMatch 0 1] = true := by decide +kernel

/-- UniformArithmetic, UniformMoves, and the lane forms of GETSR. -/
theorem witness_uniform : uniformSplit ((small 0x07).group 0) here = false ∧
    ready (small 0x07) here [.uadd 0 1 2, .usub 0 1 2, .umul 0 1 2, .umad 0 1 2, .uand 0 1 2, .uor 0 1 2, .uxor 0 1 2, .ushl 0 1 2, .ushr 0 1 2, .usar 0 1 2, .umin 0 1 2, .umax 0 1 2,
      .uaddi 0 1 0x80, .ucmp 5 3 1 2, .ucmp 0 0xA 1 2, .usel 0 1 2, .umov 0x9F 0xA0, .umovi 0x82 0x8000, .umovhi 0 0xFFFF, .getsr 0 0xC0, .getsr 0 0xC1, .getsr 0 0xD0, .getsr 0 0] = true := by
  decide +kernel

/-- UniformSplitTraps: slice 1 is live and in no gang with slice 0. -/
theorem witness_uniform_split : let s := at_ (group (slice 0x07 1) { slice 0x07 1 with gang := 1 }) 1
    uniformSplit (s.group 0) here = true ∧ ready s here [.uadd 0 1 2, .usub 0 1 2, .umul 0 1 2, .umad 0 1 2, .uand 0 1 2, .uor 0 1 2, .uxor 0 1 2, .ushl 0 1 2, .ushr 0 1 2,
      .usar 0 1 2, .umin 0 1 2, .umax 0 1 2, .uaddi 0 1 2, .usel 0 1 2, .umov 0 1, .umovi 0 1, .umovhi 0 1, .ucmp 0 3 1 2, .batch 0, .sclaim 0 1 64, .ldu 127 0 0x80, .bankcfgGrow 2, .bankcfgShrink 0, .bankcfgFifo 0 3, .bankcfgUnfifo 0 0,
      .bind 2 1 2 4, .unbind 2 0, .kvapp 2 0 2, .pin 0 0, .unpin 0xB 0, .slabld 0 2 1] = true ∧
    ready (at_ (group (slice 0x87 1) { slice 0x87 1 with gang := 1 }) 1) here [.faopen 0xA 0 2] = true := by decide +kernel

/-- FloatTwoSource, FloatSignsAndClasses, FloatFunctionsAndConversions, no lane with FPX: the float types of one and of two elements. -/
theorem witness_float : ready (small 0x87) here [.fadd 0 1 2, .fsub 0 1 2, .fmul 0 1 2, .ffma 0 1 2, .fmin 0 1 2, .fmax 0 1 2, .fabs 0 1, .fneg 0 1, .fclass 0 1, .fcmp 7 0xF 1 2, .fcmp 0 7 1 2,
      .frcp 0 1, .frsq 0 1, .fsqrt 0 1, .fexp2 0 1, .flog2 0 1, .fsin 0 1, .fcos 0 1, .ftanh 0 1, .rndint 0 1, .fscale 0 1 2, .cvt 0 1 0 0, .cvt 0 1 3 13, .cvtr 0 1 4 0 0] = true ∧
    ready (small 0x97) here [.fdot2 0 1 2, .fadd 0 1 2, .frcp 0 1] = true ∧
    ([(0x87 : Word), 0x97].all fun m => !mFpx (laneMode ((small m).group 0) 0)) = true := by decide +kernel

/-- The trapping side of the float statements: lane 0 has FPX set and a signalling NaN in v1 (kind 1), or compares a NaN with .LT (kind 7). -/
def fpxState : State := withRegs (0x8087) [(1, [0x7F800001])] []
theorem witness_float_invalid : ready fpxState here [.fadd 0 1 2, .fclass 0 1, .fcmp 2 0 1 2] = true ∧ mFpx (laneMode (fpxState.group 0) 0) = true ∧
    (fcmpOut 2 (fpElem (fpxState.group 0) 1 0 0) (fpElem (fpxState.group 0) 2 0 0)).2 ≠ 0 ∧
    fpHit (fpxState.group 0) here (fun l => elemList (fpxState.group 0) l (fun _ => (0x7FC00000, sigKind [fpElem (fpxState.group 0) 1 l 0]))) 0 = true := by decide +kernel

/-- Branches: lane 0 of two takes the branch, so its slice splits with an empty stack; the SOLO lane branches; BRAQ. -/
theorem witness_branches : let g := { group (slice 0x07 3) Slice.dead with preds := [1] }
    ready (at_ g 1) here [.bra 0 0x8000, .bra 8 0x7FFF, .braq 3 0xFFFF, .braq 0xB 1] = true ∧ laneBits 0 (fun l => runs g here l && (guardTrue g l && readP g 0 l)) = 1 ∧
    (g.slice 0).run &&& ~~~1 ≠ 0 ∧ (g.slice 0).depth < 8 ∧ ready (handler true) soloHere [.bra 7 1, .braq 3 1] = true := by decide +kernel

/-- A slice whose stack holds one entry, and one whose stack is full. -/
def withEntry (k : JoinKind) : Slice := (slice 0x07 1).push k 0x20000 1
def fullStack : Slice := { slice 0x07 3 with depth := 8, stack := List.replicate 8 { kind := .mark, mask := 1, pc := 0x8000 } }

/-- CallsAndJoins: room for an entry, a CALL entry on top, a MARK entry that a JOIN pops. -/
theorem witness_calls : ready (small 0x07) here [.call 0x800000, .mark 0x8000] = true ∧ ((small 0x07).group 0).slice 0 = slice 0x07 1 ∧
    ready (at_ (group (withEntry .call) Slice.dead) 1) here [.ret] = true ∧ ((withEntry .call).entry 0).kind = .call ∧ (withEntry .call).depth = 1 ∧
    ready (at_ (group (withEntry .mark) Slice.dead) 1) here [.join] = true ∧
    joinPop (withEntry .mark) false 1 = .ok { withEntry .mark with depth := 0, run := 1, pc := 0x20000 } := by decide +kernel

/-- JoinStack: each trap of CALL, MARK, BRA, RET and JOIN, and the three ends of a pop. -/
theorem witness_join_traps : let full := { group fullStack Slice.dead with preds := [1] }
    ready (at_ full 1) here [.call 1, .mark 1, .bra 0 1] = true ∧ (full.slice 0).depth = 8 ∧ laneBits 0 (fun l => runs full here l && (guardTrue full l && readP full 0 l)) = 1 ∧
    inGang full here 0 = true ∧ ready (small 0x07) here [.ret, .join] = true ∧ joinPop (slice 0x07 1) false 0 = .trap 2 ∧
    ready (at_ (group (withEntry .div) Slice.dead) 1) here [.ret] = true ∧ ((withEntry .div).entry 0).kind = .div ∧
    ready (at_ (group (withEntry .call) Slice.dead) 1) here [.join] = true ∧ joinPop (withEntry .call) false 1 = .trap 3 ∧
    joinPop (withEntry .call) true 1 = .ok { withEntry .call with depth := 0, run := 1, pc := 0x20000 } ∧ joinPop { withEntry .div with live := 2 } false 1 = .trap 2 := by
  decide +kernel

/-- RegangWaitsAndMerges: nobody waits at the site; slice 1 waits there with another PC; both wait. -/
def waiting (pc : DWord) (gang : Nat) : Slice := { slice 0x07 1 with pc := pc, gang := gang, wait := .regang 1 }
theorem witness_regang : ready (small 0x07) here [.regang 1] = true ∧
    ready (at_ (group (slice 0x07 1) (waiting 0x10004 1)) 1) here [.regang 1] = true ∧ (waiting 0x10004 1).isDead = false ∧ (slice 0x07 1).pc ≠ (waiting 0x10004 1).pc ∧
    mergeReady (at_ (group (waiting 0x10000 0) (waiting 0x10004 1)) 1) 0 = true := by decide +kernel

/-- GangControl: one lane, active or not; a yielding gang whose others have issued; a spinning gang. -/
theorem witness_control : ready (small 0x07) here [.exit, .yield, .spinw, .nop, .trap 0xFFFF, .setmode 0x8087, .setgrd 0xF] = true ∧ activeSet ((small 0x07).group 0) here ≠ 0 ∧
    ready (small 0x00) here [.trap 1] = true ∧ activeSet ((small 0x00).group 0) here = 0 ∧
    yieldReady (at_ (group { slice 0x07 1 with wait := .yield [(0, 1, 0)] } { slice 0x07 1 with gang := 1, issues := 1 }) 1) 0 0 = true ∧
    ((small 0x07).group 0).gangSlices 0 = 1 ∧ ({ slice 0x07 1 with spin := .opened } : Slice).spin ≠ .no := by decide +kernel

/-- All hypotheses of MemSaysWhen hold at a state, with an active lane. -/
def Met (i : Instr) (uniform : Bool) (kind : State → Group → Ctx → MemKind) (active : Group → Ctx → LaneMask) (addr : State → Group → Ctx → Nat → DWord)
    (data : State → Group → Ctx → Nat → BitVec 128) (checks : State → Group → Ctx → LogOp → Option TrapInfo) (waits : State → Group → Ctx → Bool) (s : State) (c : Ctx) : Prop :=
  let g := s.group c.gid
  issuer s = some c ∧ issues (encode i) s = true ∧ (uniform = true → uniformSplit g c = false) ∧
  (∀ o, Captures s c (encode i) (kind s g c) (active g c) (addr s g c) (data s g c) o → checks (countIssue s c) (counted g c) c o = none) ∧
  waits (countIssue s c) (counted g c) c = false ∧ active g c ≠ 0

/-- The same as a computation, on the one operation that the meaning makes. -/
def meets (i : Instr) (uniform : Bool) (kind : State → Group → Ctx → MemKind) (active : Group → Ctx → LaneMask) (addr : State → Group → Ctx → Nat → DWord)
    (data : State → Group → Ctx → Nat → BitVec 128) (checks : State → Group → Ctx → LogOp → Option TrapInfo) (waits : State → Group → Ctx → Bool) (s : State) (c : Ctx) : Bool :=
  let g := s.group c.gid
  issuer s == some c && issues (encode i) s && (!uniform || !uniformSplit g c) &&
  (checks (countIssue s c) (counted g c) c (mkOp (countIssue s c) c (counted g c) (encode i) ⟨kind s g c, active g c, addr s g c, data s g c⟩)).isNone &&
  !waits (countIssue s c) (counted g c) c && active g c != 0

theorem met_of_meets {i : Instr} {uniform : Bool} {kind : State → Group → Ctx → MemKind} {active : Group → Ctx → LaneMask} {addr : State → Group → Ctx → Nat → DWord}
    {data : State → Group → Ctx → Nat → BitVec 128} {checks : State → Group → Ctx → LogOp → Option TrapInfo} {waits : State → Group → Ctx → Bool} {s : State} {c : Ctx}
    (hd : ∀ s g c o p, SameOp o p → checks s g c o = checks s g c p) (h : meets i uniform kind active addr data checks waits s c = true) :
    Met i uniform kind active addr data checks waits s c := by
  unfold meets at h
  simp only [Bool.and_eq_true, beq_iff_eq, bne_iff_ne, Bool.or_eq_true, Bool.not_eq_true', Option.isNone_iff_eq_none] at h
  obtain ⟨⟨⟨⟨⟨h1, h2⟩, h5⟩, h6⟩, h7⟩, h8⟩ := h
  refine ⟨h1, h2, fun hu => by simpa [hu] using h5, fun o ho => ?_, h7, h8⟩
  rw [hd _ _ _ _ _ (ho.same (mkOp_captures s c (encode i) ⟨_, _, _, _⟩))]
  exact h6

/-- A memory instruction whose only checks are those of memCheck. -/
def MetPlain (i : Instr) (uniform : Bool) (kind : State → Group → Ctx → MemKind) (active : Group → Ctx → LaneMask) (addr : State → Group → Ctx → Nat → DWord)
    (data : State → Group → Ctx → Nat → BitVec 128) (spec : Group → CheckSpec) (s : State) (c : Ctx) : Prop :=
  Met i uniform kind active addr data (fun s g _ o => memCheck s g o (spec g)) (fun _ _ _ => false) s c

theorem met_plain {i : Instr} {uniform : Bool} {kind : State → Group → Ctx → MemKind} {active : Group → Ctx → LaneMask} {addr : State → Group → Ctx → Nat → DWord}
    {data : State → Group → Ctx → Nat → BitVec 128} {spec : Group → CheckSpec} {s : State} {c : Ctx}
    (h : meets i uniform kind active addr data (fun s g _ o => memCheck s g o (spec g)) (fun _ _ _ => false) s c = true) : MetPlain i uniform kind active addr data spec s c :=
  met_of_meets (fun _ _ _ _ _ h => h.memCheck _ _ _) h

/-- LoadsAndStoresIssue: every width at address 0 plus an offset. -/
theorem witness_loads : let s := small 0x07
    MetPlain (.ldb 0 2 1) false (fun _ _ _ => .load 1 0) activeSet (laneAddr 2 1 1) noData (fun _ => plainSpec 1 .load) s here ∧
    MetPlain (.ldh 0 2 1) false (fun _ _ _ => .load 2 0) activeSet (laneAddr 2 1 2) noData (fun _ => plainSpec 2 .load) s here ∧
    MetPlain (.ldw 0 2 1) false (fun _ _ _ => .load 4 0) activeSet (laneAddr 2 1 4) noData (fun _ => plainSpec 4 .load) s here ∧
    MetPlain (.ldd 0 2 1) false (fun _ _ _ => .load 8 0) activeSet (laneAddr 2 1 8) noData (fun _ => plainSpec 8 .load) s here ∧
    MetPlain (.ldq 0 4 1) false (fun _ _ _ => .load 16 0) activeSet (laneAddr 4 1 16) noData (fun _ => plainSpec 16 .load) s here ∧
    MetPlain (.ldu 0 2 1) true (fun _ g _ => .ldu (if uWide g then 8 else 4) 0) runSet (fun s g c _ => readU64 s g c 2 + (1 : BitVec 8).signExtend 64 * 4) noData
      (fun g => plainSpec (if uWide g then 8 else 4) .load) s here ∧
    MetPlain (.sxld 0 2 4) false (fun _ _ _ => .sxld 0) activeSet (laneAddr 2 4 2) noData (fun _ => sxSpec) (small 0xE7) here :=
  ⟨met_plain (by decide +kernel), met_plain (by decide +kernel), met_plain (by decide +kernel), met_plain (by decide +kernel), met_plain (by decide +kernel),
    met_plain (by decide +kernel), met_plain (by decide +kernel)⟩

theorem witness_stores : let s := small 0x07
    let dat (w : Nat) : State → Group → Ctx → Nat → BitVec 128 := fun _ g _ l => BitVec.ofNat 128 (readRegs g 0 (max (w / 4) 1) l % 2 ^ (8 * w))
    MetPlain (.stb 0 2 1) false (fun _ _ _ => .store 1) activeSet (laneAddr 2 1 1) (dat 1) (fun _ => plainSpec 1 .store) s here ∧
    MetPlain (.sth 0 2 1) false (fun _ _ _ => .store 2) activeSet (laneAddr 2 1 2) (dat 2) (fun _ => plainSpec 2 .store) s here ∧
    MetPlain (.stw 0 2 1) false (fun _ _ _ => .store 4) activeSet (laneAddr 2 1 4) (dat 4) (fun _ => plainSpec 4 .store) s here ∧
    MetPlain (.std 0 2 1) false (fun _ _ _ => .store 8) activeSet (laneAddr 2 1 8) (dat 8) (fun _ => plainSpec 8 .store) s here ∧
    MetPlain (.stq 0 4 1) false (fun _ _ _ => .store 16) activeSet (laneAddr 4 1 16) (dat 16) (fun _ => plainSpec 16 .store) s here ∧
    MetPlain (.stu 0 2 1) false (fun _ g _ => .stu (if uWide g then 8 else 4)) runSet (fun s g c _ => readU64 s g c 2 + (1 : BitVec 8).signExtend 64 * 4)
      (fun s g c _ => if uWide g then (readU64 s g c 0).setWidth 128 else (readU s g c 0).setWidth 128) (fun g => plainSpec (if uWide g then 8 else 4) .store) s here ∧
    Met (.sxst 0 2 4) false (fun _ _ _ => .sxst) activeSet (laneAddr 2 4 2) (fun _ g _ l => (readV g 0 l).setWidth 128)
      (fun s g _ o => (sxVote g o 2).orElse fun _ => memCheck s g o sxSpec) (fun _ _ _ => false) (small 0xE7) here :=
  ⟨met_plain (by decide +kernel), met_plain (by decide +kernel), met_plain (by decide +kernel), met_plain (by decide +kernel), met_plain (by decide +kernel),
    met_plain (by decide +kernel), met_of_meets (fun _ _ _ _ _ h => by rw [h.sxVote, h.memCheck]) (by decide +kernel)⟩

/-- AtomicsAndSynchronisationIssue. -/
theorem witness_atomics : let s := small 0x07
    let wide (g : Group) (c : Ctx) : Bool := (lanesOf (activeSet g c)).any (laneWide g)
    let atomic (i : Instr) (op : Nat) : Prop := MetPlain i false (fun _ g c => .atomic (if wide g c then op + 8 else op) 0) activeSet (lanePair 2)
      (fun _ g _ l => BitVec.ofNat 128 (readRegs g 4 ((if op = 7 then 2 else 1) * (if laneWide g l then 2 else 1)) l))
      (fun _ => { align := fun x => x.n, noWindow := false, win := .other, locks := true, lockLine := false }) s here
    atomic (.aadd 0 2 4) 0 ∧ atomic (.amin 0 2 4) 1 ∧ atomic (.amax 0 2 4) 2 ∧ atomic (.aand 0 2 4) 3 ∧ atomic (.aor 0 2 4) 4 ∧ atomic (.axor 0 2 4) 5 ∧ atomic (.axch 0 2 4) 6 ∧
    atomic (.acas 0 2 4) 7 ∧
    MetPlain (.faadd 1 2 4) false (fun _ _ _ => .faadd ((1 : BitVec 8).setWidth 4)) activeSet (lanePair 2)
      (fun _ g _ l => BitVec.ofNat 128 (readRegs g 4 (if laneWide g l then 2 else 1) l))
      (fun _ => orderedSpec) (small 0x87) here ∧
    MetPlain (.faopen 1 2 4) true (fun s g c => .faopen ((1 : BitVec 8).setWidth 4) (uniformEt g == 11) (readU s g c 4)) runSet (uniformPair 2) noData
      (fun _ => orderedSpec) (small 0x87) here :=
  ⟨met_plain (by decide +kernel), met_plain (by decide +kernel), met_plain (by decide +kernel), met_plain (by decide +kernel), met_plain (by decide +kernel),
    met_plain (by decide +kernel), met_plain (by decide +kernel), met_plain (by decide +kernel), met_plain (by decide +kernel), met_plain (by decide +kernel)⟩

/-- A team with a bank of scratchpad; lane 0 holds the address of its first slot in v4:v5 (and a subscribed word's address, 0, in v2:v3). -/
def slotState : State :=
  let s := withRegs 0x07 [(4, [0]), (5, [0x70])] []
  { s with teams := [(0, { Team.reset with window := 0x7000000000, scrSize := 0x20000, grow := [0], pages := (List.range 16).map fun i => (0, i) })],
           cores := [(0, { s.core 0 with banks := .scratch (List.replicate 16 (some 0)) :: List.replicate 23 .cache })] }

theorem witness_synchronisation : let s := small 0x07
    Met (.lds 5 1 9 0 8) false (fun _ _ _ => .lds 9 ((1 : BitVec 1) == 1) (5 : BitVec 3).toNat) activeSet (laneAddr 0 8 8) (fun _ g _ l => (readV64 g (0 + 2) l).setWidth 128)
      (fun s g _ o => (memCheck s g o { syncSpec with locks := false }).orElse fun _ => (slotCheck s g o).orElse fun _ => memCheck s g o { syncSpec with lockLine := true })
      (fun _ _ _ => false) { slotState with groups := [(0, { slotState.group 0 with vregs := [(2, [0]), (3, [0x70])] })] } here ∧
    Met (.unsub 1 4 1) false (fun _ _ _ => .unsub 1 false) activeSet (fun _ _ _ _ => 0) (fun s g c l => (laneAddr 4 1 16 s g c l).setWidth 128)
      (fun s g _ o => slotCheck s g o) (fun _ _ _ => false) slotState here ∧
    Met (.bind 2 1 0 4) true (fun s g c => .bind 1 2 (readU64 s g c 4) (readU64 s g c 6)) runSet (uniformPair 0) noData
      (fun s g c o => (memCheck s g o bindSpec).orElse fun _ =>
        let base := readU64 s g c 4; let len := readU64 s g c 6
        if base.toNat % 128 ≠ 0 ∨ len.toNat % 128 ≠ 0 ∨ 2 ^ 57 < base.toNat + len.toNat then some (gangTrap g c 8 1 base) else none) (fun _ _ _ => false) s here ∧
    MetPlain (.unbind 2 0) true (fun _ _ _ => .unbind 2) runSet (uniformPair 0) noData (fun _ => bindSpec) s here ∧
    MetPlain (.acq 0 2 5) false (fun _ _ _ => .acq 0 5) activeSet (lanePair 2) noData (fun _ => syncSpec) s here ∧
    MetPlain (.relSt 0 2 5) false (fun _ _ _ => .rel false 5) activeSet (lanePair 2) (fun _ g _ l => (readV64 g 0 l).setWidth 128) (fun _ => syncSpec) s here ∧
    MetPlain (.relAdd 0 2 0) false (fun _ _ _ => .rel true 0) activeSet (lanePair 2) (fun _ g _ l => (readV64 g 0 l).setWidth 128) (fun _ => syncSpec) s here :=
  ⟨met_of_meets (fun _ _ _ _ _ h => by rw [h.memCheck, h.slotCheck, h.memCheck]) (by decide +kernel), met_of_meets (fun _ _ _ _ _ h => h.slotCheck _ _) (by decide +kernel),
    met_of_meets (fun _ _ _ _ _ h => by rw [h.memCheck]) (by decide +kernel), met_plain (by decide +kernel), met_plain (by decide +kernel), met_plain (by decide +kernel),
    met_plain (by decide +kernel)⟩

/-- A slab-table entry of team 0: idle, 2^log2p pages. -/
def slab (log2p len st : Nat) : Slab :=
  { tid := 0, dbase := 0x100000, mbase := 0x800000, obase := 0, ombase := 0, len := len, wmark := 0, moven := 0, log2p := log2p, fmt := 0, rwin := 0, state := st, gen := 0, sid := 0 }

/-- A state whose core holds a slab entry 0. -/
def withSlab (x : Slab) (u : Sparse Word) : State :=
  let s := withRegs 0x07 [] u
  { s with cores := [(0, { s.core 0 with slabs := [(0, x)] })] }

/-- SlabAndPlacementIssues: an idle entry that no task names. -/
theorem witness_slabs : let s := withSlab (slab 4 0 0) []
    MetPlain (.slabld 0 2 1) true (fun _ _ _ => .slabld 0 1) runSet (uniformPair 2) noData (fun _ => slabSpec) s here ∧
    Met (.slabst 0 2 0) false (fun s g c => .slabst (readU s g c 0).toNat ((0 : BitVec 1) == 1)) runSet (uniformPair 2) noData
      (fun s g c o => (memCheck s g o slabSpec).orElse fun _ => if (s.slabOf g.tid (readU s g c 0).toNat).isNone then some (gangTrap g c 0x16 1 0) else none)
      (fun s g c => (match s.slabOf g.tid (readU s g c 0).toNat with | some x => x.state != 0 | none => false) || ((0 : BitVec 1) == 0 && namesSlab s g.tid (readU s g c 0).toNat)) s here ∧
    Met (.kvapp 1 0 0) true (fun s g c => .kvapp 1 ((readU s g c 0).toNat % 256) (readU s g c 1)) runSet (fun _ _ _ _ => 0)
      (fun _ g c l => if runs g c l then BitVec.ofNat 128 (readRegs g 0 2 l) else 0)
      (fun s g c o =>
        if (readU s g c 0).toNat / 256 ≠ 0 ∨ (readU s g c 1).toNat / 2 ^ 25 ≠ 0 then some (gangTrap g c 0x16 4 0)
        else match s.slabOf g.tid (readU s g c 0).toNat with
          | none => some (gangTrap g c 0x16 1 0)
          | some e =>
            let bad (l : Nat) : Bool := decide (l < kvD e.fmt.toNat) && (kvBad (BitVec.ofNat 32 (o.value l)) || kvBad (BitVec.ofNat 32 (o.value l / 2 ^ 32)))
            if (List.range 256).any bad then some { code := 0x16, cause := 6, fmask := laneSet bad, lane := lowestLane (laneSet bad), addr := 0, opw := 0 } else none)
      (fun _ _ _ => false) s here ∧
    MetPlain (.pin 1 2) true (fun _ _ _ => .pin 1) runSet (uniformPair 2) noData (fun _ => pinSpec) s here ∧
    MetPlain (.unpin 1 2) true (fun _ _ _ => .unpin 1) runSet (uniformPair 2) noData (fun _ => pinSpec) s here ∧
    Met (.pcnt 0 2 1) false (fun _ _ _ => .pcnt 0 ((1 : BitVec 1) == 1)) activeSet (lanePair 2) noData (fun _ _ _ _ => none) (fun _ _ _ => false) s here := by
  refine ⟨met_plain (by decide +kernel), met_of_meets (fun _ _ _ _ _ h => by rw [h.memCheck]) (by decide +kernel), met_of_meets (fun s g c o p h => ?_) (by decide +kernel),
    met_plain (by decide +kernel), met_plain (by decide +kernel), met_of_meets (fun _ _ _ _ _ _ => rfl) (by decide +kernel)⟩
  have hb (e : Slab) : ∀ l, (decide (l < kvD e.fmt.toNat) && (kvBad (BitVec.ofNat 32 (o.value l)) || kvBad (BitVec.ofNat 32 (o.value l / 2 ^ 32)))) =
      (decide (l < kvD e.fmt.toNat) && (kvBad (BitVec.ofNat 32 (p.value l)) || kvBad (BitVec.ofNat 32 (p.value l / 2 ^ 32)))) := fun l => by
    by_cases hl : l < kvD e.fmt.toNat
    · have : kvD e.fmt.toNat ≤ 256 := by unfold kvD; split <;> omega
      rw [h.value l (by omega)]
    · simp [hl]
  simp only [hb]

/-- AlignmentTraps: each access at address 1, and PREF. -/
def oddState : State := withRegs 0x07 [(2, [1])] []
theorem witness_alignment : ready oddState here [.ldh 0 2 1, .ldw 0 2 1, .ldd 0 2 1, .ldq 4 2 1, .sth 0 2 1, .stw 0 2 1, .std 0 2 1, .stq 4 2 1, .pref 0 2 1, .pref 1 2 1] = true ∧
    isActive (oddState.group 0) here 0 = true ∧
    ([2, 4, 8, 16].all fun w => (laneAddr 2 1 w oddState (oddState.group 0) here 0).toNat % w != 0) = true := by decide +kernel

/-! ### Translation and memory operations -/

/-- A hit in memory, and the logged operation of lane 0 of slice 0. -/
def hit (pa : Nat) : Hit := { pa := pa, attr := 0, canR := true, canW := true, dSet := true, pteAddr := 0, level := 0, size := 4096 }
def op (k : MemKind) (addr : DWord) (data : BitVec 128) (mode : Word) : LogOp :=
  { id := 7, gid := 0, key := 1, word := 0, kind := k, pc := 0x10000, gang := 1, active := 1, left := 1, modes := List.replicate 64 mode, addr := List.replicate 256 addr,
    data := List.replicate 256 data, walked := false, hits := [], priv := false }
/-- The same, translated. -/
def opAt (k : MemKind) (addr : DWord) (data : BitVec 128) (hits : List (List Hit)) : LogOp := { op k addr data 0x07 with walked := true, hits := hits }

/-- The operation stands in the log of core 0. -/
def logged (s : State) (o : LogOp) : State := { s with cores := [(0, { s.core 0 with log := [o] })] }

/-- A page table of four tables at 0x8000000000, and the PTE that the walk of address 0 meets at a level. -/
def tables (n : Nat) (pte : Nat) : List Host.Cell :=
  let put (m : List Host.Cell) (k v : Nat) : List Host.Cell := bputs m (0x8000000000 + 0x1000 * k) (leBytes 8 v)
  put ((List.range n).foldl (fun m k => put m k ((0x8000000000 + 0x1000 * (k + 1)) / 4096 * 2 ^ 10 + 1)) []) n pte
def walker (sup : Bool) : Xctx := { die := 0, part := 1, asid := 0, vmid := 0, root := 0x8000000000, groot := none, sup := sup, noAD := false, own := false }
def walkState (n pte : Nat) : State := { State.reset with mem := tables n pte }
/-- The hypotheses of PageTableWalk. -/
def walks (n pte : Nat) (x : Xctx) : Bool :=
  let s := walkState n pte
  x.groot.isNone && !x.noAD && (s.die x.die).tlb.isEmpty && (s.die x.die).walkCache.isEmpty &&
  ((List.range n).all fun k => pteKind (s.pread (pteSlot (tableBase s x.root 0 k) 0 (4 - k)) 8) (4 - k) == .next) &&
  ((List.range (n + 1)).all fun k => (homeError s x.part (pteSlot (tableBase s x.root 0 k) 0 (4 - k)) false).isNone &&
    (List.range 8).all fun i => !inRecordArea (s.route (pteSlot (tableBase s x.root 0 k) 0 (4 - k) + i))) &&
  s.pread (pteSlot (tableBase s x.root 0 n) 0 (4 - n)) 8 == pte

/-- PageTableWalk: an invalid PTE at the first level; a reserved one; leaves at the last level without permission, without A, and whole; a huge page. -/
theorem witness_walk : walks 0 0 (walker false) = true ∧ pteKind 0 4 = .invalid ∧ walks 4 5 (walker false) = true ∧ pteKind 5 0 = .bad ∧
    walks 4 (0x800001000 * 2 ^ 8 + 0xCF) (walker false) = true ∧ pteKind (0x800001000 * 2 ^ 8 + 0xCF) 0 = .leaf ∧ walks 4 (0x800001000 * 2 ^ 8 + 0x9F) (walker false) = true ∧
    walks 4 (0x800001000 * 2 ^ 8 + 0xDF) (walker false) = true ∧ walks 4 (0x800001000 * 2 ^ 8 + 0xCF) (walker true) = true ∧
    walks 2 (0x800000000 * 2 ^ 8 + 0xDF) (walker false) = true ∧ pteKind (0x800000000 * 2 ^ 8 + 0xDF) 2 = .leaf ∧ regionOf 0x8000010000 ≠ .upstream := by decide +kernel

/-- TranslationOfLoggedOperations: a page that the TLB holds, the window of a team that is being filled, an unmapped address. -/
theorem witness_translation :
    let hitOp := op (.load 4 0) 0x10000 0 0x07; let s1 := logged (small 0x07) hitOp
    let winOp := op (.load 4 0) 0x7000000000 0 0x07
    let s2 := { logged (small 0x07) winOp with teams := [(0, { Team.reset with window := 0x7000000000, scrSize := 0x20000, filling := true })] }
    let badOp := op (.load 4 0) 0x20000 0 0x07; let s3 := logged (small 0x07) badOp
    s1.findOp 0 7 = some hitOp ∧ walkOut hitOp (walkAll s1 hitOp).2 = .done [[{ hit 0x8000010000 with canW := true }]] ∧
    s2.findOp 0 7 = some winOp ∧ walkOut winOp (walkAll s2 winOp).2 = .wait ∧
    s3.findOp 0 7 = some badOp ∧ (match walkOut badOp (walkAll s3 badOp).2 with | .trap _ => true | _ => false) = true ∧ (s3.group 0).frame = none ∧ (s3.group 0).queue.length < 8 := by
  decide +kernel

/-- A team with FIFO 0, and the window address of one of its registers. -/
def fifoState (q : List (BitVec 128)) : State := { small 0x07 with teams := [(0, { Team.reset with window := 0x7000000000, fifos := [some q, none, none, none] })] }
def windowHit (off : Nat) : Hit := { hit off with attr := 3 }

/-- FifosServeOneLane: a push into an empty FIFO, a pop of its entry and of an empty one. The full FIFO has 8,192 entries. -/
theorem witness_fifos : let push := opAt (.store 16) 0x7004000000 5 [[windowHit 0x4000000]]; let s := logged (fifoState []) push
    let pop := opAt (.load 16 4) 0x7004000010 0 [[windowHit 0x4000010]]; let s1 := logged (fifoState [7]) pop; let s2 := logged (fifoState []) pop
    s.findOp 0 7 = some push ∧ push.walked = true ∧ unblocked s push = true ∧ fifoLeft s push = some (0, 0, 0) ∧ ((s.team 0).fifos.getD 0 none).isSome = true ∧
    s1.findOp 0 7 = some pop ∧ unblocked s1 pop = true ∧ fifoLeft s1 pop = some (0, 0, 1) ∧ fifoLeft s2 pop = some (0, 0, 1) := by decide +kernel
theorem witness_fifo_full : ((logged (fifoState (List.replicate 8192 0)) (op (.store 16) 0x7004000000 0 0x07)).team 0).fifos.getD 0 none = some (List.replicate 8192 (0 : BitVec 128)) ∧
    8192 ≤ (List.replicate 8192 (0 : BitVec 128)).length :=
  ⟨rfl, by rw [List.length_replicate]⟩

/-- An access in the window, as StoresAndAtomicsPerform asks. -/
def windowed (s : State) (o : LogOp) : Bool :=
  (s.placed o).all fun p => decide (0x7000000000 ≤ p.1.va) && decide (p.1.va + p.1.n ≤ 0x7000000000 + 0x4000000) && decide (p.1.va % p.1.n = 0) &&
    p.2 == (pieces p.1.va p.1.n).map fun q => windowHit (q.1 - 0x7000000000)

/-- StoresAndAtomicsPerform: a store, a uniform store and an atomic at the first bytes of the window. -/
theorem witness_performs : ([MemKind.store 4, .stu 8, .atomic 0 3, .atomic 7 3].all fun k =>
      let o := opAt k 0x7000000000 5 [[windowHit 0]]; let s := logged (small 0x07) o
      s.findOp 0 7 == some o && opReady s o && windowed s o && (s.placed o).length == 1) = true ∧ (op (.atomic 7 3) 0 0 0x07).wide 0 = false ∧
    Memory.wf ((small 0x07).team 0).scratch := by decide +kernel

/-- LoadsReturnTheirBytes: loads of every width, an SXLD and an LDU, from memory; the bytes of a line that the L1 does not hold, and of one that it holds. -/
theorem witness_loads_return : ([MemKind.load 1 4, .load 2 4, .load 4 4, .load 8 4, .load 16 4, .ldu 4 4, .ldu 8 4, .sxld 4].all fun k =>
      let o := opAt k 0x10000 0 [[hit 0x8000010000]]; let s := logged (small 0x07) o
      s.findOp 0 7 == some o && opReady s o && decide ((laneVal (readAll s o).2 0).isSome = true)) = true ∧
    laneVal (readAll (small 0x07) (opAt (.load 4 4) 0x10000 0 [[hit 0x8000010000]])).2 0 = some 0 ∧ 0x1003C % 128 + 16 ≤ 128 ∧ 0x10070 % 128 + 16 ≤ 128 := by decide +kernel

/-- A queue of the ordered-add unit. -/
def addQueue (items : List (Nat × DWord)) : AddQueue := { addr := 0x8000020000, f64 := false, count := items.length, grid := 0, items := items }
def withAdds (s : State) (l : List AddQueue) : State := { s with hub := { s.hub with adds := l } }

/-- The bytes are plain, as a computation. -/
def plainB (s : State) (pa n : Nat) : Bool := s.hub.moves.isEmpty && decide (Memory.wf s.mem) && (List.range n).all fun i => regionOf (pa + i) != .upstream && !inRecordArea (pa + i)

/-- OrderedAdds: two orders of arrival; a full queue; an opening that succeeds and one that does not; a contribution that is accepted and one without a queue. -/
theorem witness_ordered_adds :
    let q := addQueue [(3, 0x3F800000), (1, 0x40000000)]; let s := withAdds (small 0x87) [q]
    let fo := opAt (.faopen 1 false 2) 0x10000 0 [[hit 0x8000030000]]; let s1 := logged (small 0x87) fo
    let fa := opAt (.faadd 1) 0x10000 0x3F800000 [[hit 0x8000020000]]; let s2 := logged (withAdds (small 0x87) [{ addQueue [] with count := 1 }]) fa; let s3 := logged (small 0x87) fa
    (q.items.map (·.1)).Nodup ∧ q.items.Perm [(1, 0x40000000), (3, 0x3F800000)] ∧ q.items.length = q.count ∧ plainB s q.addr 8 = true ∧
    s1.findOp 0 7 = some fo ∧ opReady s1 fo = true ∧ plainB s1 0x8000030000 8 = true ∧ s2.findOp 0 7 = some fa ∧ opReady s2 fa = true ∧ lanesOf fa.active = [0] ∧
    s3.findOp 0 7 = some fa ∧ opReady s3 fa = true := by decide +kernel

/-- HomeStoresPush: a store of the last byte of a word, subscribed or not; a line requested by the CPU die. -/
def aSub (st : SubHome) : Sub := { word := 0x8000020000, core := 0, tid := 0, off := 0, acq := false, scope := 0, lcore := 0, st := st, lastSeq := 0, skip := 0 }
def withSubs (s : State) (l : Sparse Sub) : State := { s with homes := [(0, { Home.reset with subs := l })] }
theorem witness_home_stores : let s := withSubs (small 0x07) [(0, aSub .live), (1, { aSub .pending with off := 16 })]
    homeOf 0x8000020007 = 0 ∧ s.hub.outside = [] ∧ (s.die 0).down = false ∧ s.leaseFlag 4 0x8000020007 = none ∧ plainB s 0x8000020007 1 = true ∧ s.hub.sync = [] ∧ ((s.home 0).subs.filter fun e => e.2.word == 0x8000020007 / 8 * 8) ≠ [] ∧
    homeOf ((small 0x07).route 0x8000020000) = 0 ∧ (small 0x07).route 0x8000020000 = 0x8000020000 ∧ (small 0x07).leaseFlag 4 0x8000020000 = none ∧ ((small 0x07).home 0).subs = [] := by decide +kernel

/-! ### Fences, batches, banks, barriers, standing slots, leases -/

/-- One slice with a load outstanding, or waiting. -/
def counting (n : Nat) (w : Wait) : Slice := { slice 0x07 1 with loads := n, stores := n, atomics := n, posts := n, wait := w }

/-- FencesAndCounters: nothing outstanding, at a scope without and with cache work; a load outstanding; WAITC at and above its threshold; a gang that waits. -/
theorem witness_fences : let s := small 0x07; let busy := at_ (group (counting 1 .none) Slice.dead) 1
    ready s here [.fence 1 1 0, .fence 0 1 5, .fence 1 0 3, .waitc 0 0xF] = true ∧ fenceWorks s 0 0 = false ∧ fenceWorks s 0 5 = true ∧ fenceWorks s 0 3 = true ∧
    cleanReady s 0 (ofAsid (s.asid 0) (s.vmid 0)) = true ∧ ctxSlices here = [0] ∧ ((s.group 0).slice 0).loads = 0 ∧ ((s.group 0).slice 0).atomics = 0 ∧
    ready busy here [.fence 1 1 5, .waitc 1 0xF, .waitc 0 0xF, .waitc 0 8] = true ∧ ((busy.group 0).slice 0).loads = 1 ∧ ((busy.group 0).slice 0).posts = 1 ∧
    waitcReady (at_ (group (counting 1 (.waitc 0xF 1)) Slice.dead) 1) 0 0 = true := by decide +kernel

/-- A group with closed batches, that may wait for them. -/
def batched (n : Nat) (w : Wait) : State :=
  at_ { group (counting 0 w) Slice.dead with openBatch := 0xFFFF, openLeft := 1, closed := (List.range n).map fun i => (BitVec.ofNat 16 (i + 5), 1), uregs := [(0, 4), (1, 5)] } 1

/-- Batches: room for an eighth closed batch, and none; a number before every closed batch, one at a closed batch; a gang that may pass. -/
theorem witness_batches : ready (batched 7 .none) here [.batch 0, .waitb 0, .waitb 1] = true ∧ ready (batched 8 .none) here [.batch 0] = true ∧
    uniformSplit ((batched 7 .none).group 0) here = false ∧ ((batched 7 .none).group 0).closed.length = 7 ∧ ((batched 8 .none).group 0).closed.length = 8 ∧
    passReady (batched 7 .none) 0 = true ∧ (((batched 7 .none).group 0).closed.all fun e => decide (2 ^ 15 ≤ ((4 : BitVec 16) - e.1).toNat)) = true ∧
    (((batched 7 .none).group 0).closed.all fun e => decide (2 ^ 15 ≤ ((5 : BitVec 16) - e.1).toNat)) = false ∧
    gangWait (batched 1 (.waitb 4)) 0 0 = .waitb 4 ∧ batchesDone ((batched 1 (.waitb 4)).group 0) 4 = true ∧ passReady (batched 1 (.waitb 4)) 0 = true := by decide +kernel

/-- A team with scratchpad and FIFOs, and its core with that many banks in cache mode. -/
def banked (cache : Nat) (t : Team) (dir : List DirSlot) (change : List (Nat × Nat × Nat × BitVec 4)) : State :=
  let s := small 0x07
  { s with teams := [(0, { t with window := 0x7000000000 })],
           cores := [(0, { s.core 0 with banks := List.replicate cache .cache ++ List.replicate (24 - cache) (.scratch (List.replicate 16 none)), directory := dir, bankChange := change })] }
def grown : Team := { Team.reset with scrSize := 0x200000, grow := [23], pages := (List.range 16).map fun i => (23, i), fifos := [some [], some [1], none, none] }
def dirSlot (st : SubState) (off : Nat) : DirSlot := { tid := 0, off := off, st := st, gid := 0, home := 0, idx := 0, acq := false, value := 0, seq := 0, count := 0, refuses := st == .refused }

/-- Banks, the requests: each refused, each trapping, each taken, at the limits of five banks and of 2 MiB. -/
theorem witness_bank_requests :
    ready (banked 5 Team.reset [] []) here [.bankcfgGrow 1, .bankcfgShrink 1, .bankcfgFifo 1 0, .bankcfgUnfifo 1 0] = true ∧
    ((banked 5 Team.reset [] []).core 0).bankChange = [] ∧ cacheCount (banked 5 Team.reset [] []) 0 = 5 ∧ cacheCount (banked 4 Team.reset [] []) 0 = 4 ∧
    ready (banked 4 Team.reset [] []) here [.bankcfgGrow 1, .bankcfgFifo 1 3] = true ∧ ready (banked 5 grown [] []) here [.bankcfgGrow 1, .bankcfgShrink 1, .bankcfgFifo 1 0, .bankcfgFifo 1 3,
      .bankcfgUnfifo 1 0, .bankcfgUnfifo 1 1] = true ∧ 0x200000 < grown.scrSize + 0x20000 ∧ ({ grown with scrSize := 0x1E0000 } : Team).scrSize + 0x20000 = 0x200000 ∧
    ready (banked 5 grown [dirSlot .live 0x1E0000] []) here [.bankcfgShrink 1] = true ∧ grown.scrSize < 0x1E0000 + 0x20000 + 16 ∧ grown.grow.getLast? = some 23 ∧
    (List.range 4).all (fun f => !windowBusy (banked 5 grown [] []) 0 (0x4000000 + 0x10000 * f) (0x4000000 + 0x10000 * f + 0x24)) = true := by decide +kernel

/-- Banks, the changes: one of each kind is due. -/
theorem witness_bank_changes : ([(0, 0), (1, 23), (2, 4), (5, 4), (6, 4), (9, 4)].all fun x =>
      let s := banked 5 { grown with scrSize := 0x100000 } [] [(0, x.1, x.2, 1)]
      (s.core 0).bankChange == [(0, x.1, x.2, 1)] && bankReady s 0 && (s.group 0).tid / 32 == 0 && decide (x.1 < 10)) = true := by decide +kernel

/-- A barrier, and a state whose team has it as b1. -/
def barrier (lap : Word) (pending expected : BitVec 16) : Barrier := { lap := lap, pending := pending, expected := expected, cur := .empty, last := .empty }
def barState (b : Barrier) (w : Wait) : State :=
  let s := at_ { group (counting 0 w) Slice.dead with uregs := [(0, 2)], vregs := [(3, [0])] } 1
  { s with teams := [(0, { Team.reset with window := 0x7000000000, bars := List.replicate 16 b })] }

/-- Barriers: arrivals on an unarmed register, the last of a lap, another; the instructions, BARA with and without a store outstanding, BARW before and after its lap; a
gang whose barrier opens. -/
theorem witness_barriers : let s := barState (barrier 1 2 2) .none; let busy := at_ (group (counting 1 .none) Slice.dead) 1
    Barrier.reset.expected = 0 ∧ (barrier 0 1 2).expected ≠ 0 ∧ (barrier 0 1 2).pending = 1 ∧ (barrier 0 2 2).pending ≠ 1 ∧
    ready s here [.barinit 0 15, .bara 1 0 0 15, .bara 1 0 1 0, .barw 3 1 15] = true ∧ (s.team 0).bars.length = 16 ∧ ready busy here [.bara 1 0 0 1] = true ∧
    ((s.group 0).slice 0).stores = 0 ∧ ((busy.group 0).slice 0).stores = 1 ∧ lanesOf (runSet (s.group 0) here) = [0] ∧ (((s.team 0).bar 15).lap - readV (s.group 0) 3 0).toNat = 1 ∧
    passReady s 0 = true ∧ ready (barState (barrier 0 2 2) .none) here [.barw 3 0 1] = true ∧ (((barState (barrier 0 2 2) .none).team 0).bar 1).lap = readV (s.group 0) 3 0 ∧
    gangWait (barState (barrier 1 2 2) (.barw 1 0 true)) 0 0 = .barw 1 0 true ∧ barwOpen (((barState (barrier 1 2 2) (.barw 1 0 true)).team 0).bar 1) 0 = true ∧
    passReady (barState (barrier 1 2 2) (.barw 1 0 true)) 0 = true := by decide +kernel
theorem witness_arrival : let s := { small 0x07 with hub := { (small 0x07).hub with arrivals := [{ tid := 0, bar := 15, ranges := [] }] } }
    s.hub.arrivals[0]? = some { tid := 0, bar := 15, ranges := [] } ∧ 15 < (s.team 0).bars.length := by decide +kernel

/-- A push for the slot at offset 0 of team 0. -/
def push (redelivery : Bool) : Push :=
  { home := 0, idx := 0, core := 0, tid := 0, off := 0, seq := 1, value := 5, count := 0, redelivery := redelivery, begun := false, regions := [] }
/-- A slot, what travels to it, what its inbox holds, its subscription at home 0. -/
def standing (d : DirSlot) (net inbox refused : List Push) (msgs : List SubMsg) (x : Sub) : State :=
  let s := small 0x07
  { s with cores := [(0, { s.core 0 with directory := [d], inbox := inbox, refusedHomes := [0] })], homes := [(0, { Home.reset with subs := [(0, x)] })],
           hub := { s.hub with pushNet := net, refusals := refused, subMsgs := msgs, signals := [(0, 0)] } }

/-- PushesArriveAndAreDelivered: a push with room, with a full inbox that holds one for its slot or none, to a refused slot; a delivery of a plain and of an acquiring
subscription, the latter before and after its lines leave the L1. -/
theorem witness_pushes : let full := List.replicate 64 { push false with off := 16 }
    ([standing (dirSlot .live 0) [push false] [] [] [] (aSub .live), standing (dirSlot .live 0) [push false] (push false :: full.drop 1) [] [] (aSub .live),
      standing (dirSlot .live 0) [push false] full [] [] (aSub .live), standing (dirSlot .refused 0) [push false] [] [] [] (aSub .pending)].all fun s =>
        s.firstPush 0 == some (push false) && (s.dirSlot 0 0).isSome && !s.swapped 0) = true ∧ full.length = 64 ∧
    (push false).redelivery = false ∧ (push false).core = (push false).tid / 32 ∧
    ((standing (dirSlot .live 0) [] [push false] [] [] (aSub .live)).core 0).inbox = [push false] ∧ Memory.wf ((small 0x07).team 0).scratch ∧
    ([false, true].all fun b => let p := { push false with begun := b, regions := [(0, 0x10000, 128)] }; let s := standing { dirSlot .live 0 with acq := true } [] [p] [] [] (aSub .live)
      (s.core 0).inbox == [p] && (s.dirSlot 0 0 == some { dirSlot .live 0 with acq := true })) = true ∧ (push false).tid / 32 = 0 ∧
    ((small 0x07).core 0).inbox = [] := by decide +kernel

/-- RefusalsAndRedeliveries: a refused push comes back; a core with room signals; a signalled home; a redelivery that is taken, and one that is not. -/
theorem witness_redeliveries : let s := standing (dirSlot .refused 0) [] [] [push false] [] (aSub .live)
    let p := standing (dirSlot .refused 0) [push true] [] [] [] (aSub .pending); let f := standing (dirSlot .refused 0) [push true] (List.replicate 64 (push false)) [] [] (aSub .pending)
    s.hub.refusals[0]? = some (push false) ∧ sfind (s.home 0).subs 0 = some (aSub .live) ∧ (aSub .live).tid = (push false).tid ∧ (s.core 0).refusedHomes ≠ [] ∧ (s.core 0).inbox.length ≤ 48 ∧
    (aSub .live).off = (push false).off ∧ p.hub.refusals = [] ∧ (0, 0) ∈ p.hub.signals ∧ pendingSubs { p with hub := { p.hub with pushNet := [] } } 0 0 = [(0, aSub .pending)] ∧
    inFlight { p with hub := { p.hub with pushNet := [] } } 0 (aSub .pending) = false ∧ p.firstPush 0 = some (push true) ∧ (p.dirSlot 0 0).isSome = true ∧
    sfind (p.home 0).subs 0 = some (aSub .pending) ∧ (aSub .pending).skip = 0 ∧ (aSub .pending).st = .pending ∧ p.swapped 0 = false ∧ f.firstPush 0 = some (push true) ∧ 64 ≤ (f.core 0).inbox.length := by decide +kernel

/-- SubscriptionsEnd: a removal on its way to the home, and back; a loss; parking and re-pointing. -/
theorem witness_subscriptions_end : let s := standing (dirSlot .closing 0) [] [] [] [.remove 0 0 0, .removed 0 0 0, .park 0 0] (aSub .live)
    let l := standing (dirSlot .live 0) [] [] [] [] (aSub .live); let r := standing (dirSlot .live 0) [] [] [] [.repoint 0 0 0 0] (aSub .parked)
    s.hub.subMsgs[0]? = some (.remove 0 0 0) ∧ s.subOf 0 0 = some (0, 0) ∧ sfind (s.home 0).subs 0 = some (aSub .live) ∧ s.hub.subMsgs[1]? = some (.removed 0 0 0) ∧ s.hub.pushNet = [] ∧
    s.hub.subMsgs.take 0 = [] ∧ s.hub.refusals = [] ∧ s.dirSlot 0 0 = some (dirSlot .closing 0) ∧ (s.core 0).inbox = [] ∧ Memory.wf (s.team 0).scratch ∧ s.hub.subMsgs[2]? = some (.park 0 0) ∧
    sfind (l.home 0).subs 0 = some (aSub .live) ∧ (aSub .live).st ≠ .parked ∧ l.dirSlot 0 0 = some (dirSlot .live 0) ∧ (aSub .live).core = (aSub .live).tid / 32 ∧
    ((l.home 0).subs.map (·.1)).Pairwise (· < ·) ∧ r.hub.subMsgs[0]? = some (.repoint 0 0 0 0) ∧ sfind (r.home 0).subs 0 = some (aSub .parked) := by decide +kernel

/-- Leases: one of a compute die that holds nothing; the region of a partition's own frames with and without its flag, and of another's. -/
def leased : State := { small 0x07 with homes := [(0, { Home.reset with leases := [{ agent := 0, region := 0x40000, write := true, since := 0 }] })],
                                        dies := [(0, { Die.reset with leaseLost := [(0, 0x40000, 3)] })] }
theorem witness_leases : holdsRegion leased 0 0 0x40000 = false ∧ ((leased.home 0).leases.find? fun l => l.agent == 0 && l.region == 0x40000).isSome = true ∧
    ((leased.die 0).leaseLost.any fun e => e.1 == 0 && e.2.1 == 0x40000) = true ∧ ((leased.frameRec (0x40000 * 512)).part.toNat = 0) ∧
    ((List.range 512).all fun i => (leased.frameRec (0x40000 * 512 + i)).part.toNat == 0) = true ∧ (leased.frameRec (0x40000 * 512 + 511)).part.toNat ≠ 1 := by decide +kernel

/-! ### Copies, tasks, slabs -/

/-- A group whose uniform registers from 8 on hold a descriptor; slice 0 has counts of outstanding operations. -/
def described (rs : List Word) (x : Slice) : Group := { group x Slice.dead with uregs := rs.mapIdx fun i w => (i + 8, w) }
/-- Slots 0 and 1 of core 0 are held by team 0. -/
def heldSlots : List SlotState := .held 0 :: .held 0 :: List.replicate 62 .free
def posting (rs : List Word) (x : Slice) : State :=
  let s := at_ (described rs x) 1
  { s with cores := [(0, { s.core 0 with slots := heldSlots })] }
/-- 128 bytes from 0x10000 to 0x10800, flag at 0x10900; the same with a source that is no multiple of its unit; to slot 1, and to slot 2. -/
def linear : List Word := [0x10000, 0, 0x10800, 0, 128, 0, 0x10900, 0]
def crooked : List Word := [0x10001, 0, 0x10800, 0, 0x40000080, 0, 0x10900, 0]
def toSlot (k : Word) : List Word := [0x10000, 0, 0, k, 128, 0]
/-- The post buffer is free and the counters have room. -/
def canPost (s : State) (c : Ctx) : Bool :=
  (sfind (s.core (s.group c.gid).core).postBuf (s.group c.gid).part).isNone && (slicesOf c.gang).all fun i => decide (((s.group c.gid).slice i).posts < 255)
def full : Slice := { slice 0x07 1 with posts := 255 }

/-- Copies, the posts: no room, an alignment trap, a slot that is not held, and posts of each kind. -/
theorem witness_copy_posts : let team := { Team.reset with window := 0x7000000000 }
    ([linear, crooked].all fun l => ready (posting l (slice 0x07 1)) here [.cpy 1 15 8 0, .cpyx 0 0 8 255] && canPost (posting l (slice 0x07 1)) here) = true ∧
    issuer (posting linear full) = some here ∧ canPost (posting linear full) here = false ∧
    ([CopyKind.cpy, .cpyx].all fun k => copyAlign team k linear == none && copyAlign team k crooked != none) = true ∧
    ([1, 2].all fun k => ready (posting (toSlot k) (slice 0x07 1)) here [.cpys 1 0 8 0] && copyAlign team .cpys (toSlot k) == none) = true ∧
    slotErr (posting (toSlot 1) (slice 0x07 1)) 0 1 1 1 = none ∧ (slotErr (posting (toSlot 2) (slice 0x07 1)) 0 2 1 2).isSome = true ∧
    (shapeOf .cpys (toSlot 1)).slots = (1, 1) ∧ copyAlign team .cpys (toSlot 64) ≠ none := by decide +kernel

/-- A copy in a phase. -/
def copy (k : CopyKind) (rs : List Word) (ph : Phase) : Copy :=
  { id := 3, kind := k, gid := 0, regs := rs, dfield := 0x12, scout := 0, batch := 1, entry := 0, phase := ph, progress := 0, passed := 0, met := none, stopAt := none,
    fault := none }
/-- A state with copies, one team, and slots. -/
def copying (l : List Copy) : State :=
  let s := at_ { group (slice 0x07 1) Slice.dead with openBatch := 1, openLeft := 2 } 1
  { s with cores := [(0, { s.core 0 with copies := l, slots := heldSlots })] }
/-- The team waits for room: accesses to its window wait. -/
def filling (s : State) : State := { s with teams := [(0, { Team.reset with window := 0x7000000000, scrSize := 0x20000, filling := true })] }

/-- A task record of a type: 16 rows of 4, its bytes set by fields. -/
def body (fields : List (Nat × Nat × Nat)) : List Byte := fields.foldl (fun b f => setField b f.1 f.2.1 f.2.2) (List.replicate 64 0)
/-- ACCST to 0x10100 from slot 0: 4 rows of 4 FP32, row pitch 16. -/
def accst : List Byte := body [(0, 2, 9), (6, 1, 2), (0x14, 2, 4), (0x16, 2, 4), (0x1C, 4, 16), (0x20, 8, 2 ^ 62 + 0x10100)]
def task (b : List Byte) (ph : Phase) : Task :=
  { id := 5, gid := 0, recAddr := 0x10000, base := 0, off := 0, body := b, fetched := true, order := 4, preds := [], cpysBefore := [], phase := ph, engine := 0, step := 0, status := 0,
    cells := [], held := [], changed := [], cap := none, reloc := ([], []), fault := none }
def tasking (l : List Task) : State := let s := copying []; { s with cores := [(0, { s.core 0 with tasks := l })] }

/-- An entry of one BF16 slab of one token; its runs at 0x10000 and 0x10800. -/
def entry (st : Nat) : Slab :=
  { tid := 0, dbase := 0x10000, mbase := 0x10800, obase := 0, ombase := 0, len := 1, wmark := 0, moven := 0, log2p := 0, fmt := 0, rwin := 0, state := st, gen := 0, sid := 0 }
def evict (ph : Phase) : Evict :=
  { id := 6, gid := 0, core := 0, place := 0, entry := 2, ndata := 0x40000, nmeta := 0x60000, param := 0xFFFF, dfield := 0x12, batch := 1, phase := ph, slot := 0, kept := 0, snap := none,
    old := entry 2, fault := none }
/-- A state with entry 2 and evictions at die 0. -/
def slabbed (s : State) (e : Slab) (l : List Evict) : State :=
  { s with cores := [(0, { s.core 0 with slabs := [(2, e)] })], dies := [(0, { s.die 0 with evicts := l })] }

/-- A post in the buffer of partition 0. -/
def buffered (x : Slice) (p : Post) : State :=
  let s := slabbed (at_ (group x Slice.dead) 1) (entry 2) []
  { s with cores := [(0, { s.core 0 with postBuf := [(0, { gang := 1, post := p, priv := false })] })] }

/-- Copies, the posts on their way: one of each kind leaves the buffer, a LAUNCH with a record and one whose record faults; none while a store is outstanding. -/
theorem witness_posts_taken :
    ([Post.copy (copy .cpy linear .posted), .task (task [] .posted), .evict (evict .posted), .launch 0 2 0x10000, .launch 0 2 0x20000].all fun p =>
      let s := buffered (slice 0x07 1) p; let w := buffered (counting 1 .none) p
      takeReady s 0 { gang := 1, post := p, priv := false } && !takeReady w 0 { gang := 1, post := p, priv := false } && !(s.group p.gid).retired && p.gid == 0) = true := by decide +kernel

/-- A lock of a range, and locks that wait for it. -/
def lock (base : Nat) (write : Bool) (id : Nat) : Lock := { asid := 0, base := base, len := 128, write := write, owner := { engine := 1, core := 0, id := id, opid := 0 } }
def locking (held wait : Lock) : State :=
  let s := copying [copy .cpy linear .waiting]
  { s with dies := [(0, { s.die 0 with locks := [held], lockWait := [(wait.owner, [wait])] })] }

/-- Copies, the locks: a conflicting one waits, another starts. -/
theorem witness_locks : ((locking (lock 0x10000 true 9) (lock 0x10040 false 3)).die 0).canLock [lock 0x10040 false 3] = false ∧
    ((locking (lock 0x10000 true 9) (lock 0x10080 false 3)).die 0).canLock [lock 0x10080 false 3] = true ∧
    ((locking (lock 0x10000 true 9) (lock 0x10080 false 3)).findCopy 0 3).isSome = true := by decide +kernel

/-- Copies, the moves: one that waits for a filling team, one that moves, one that faults at an unmapped page; a piece of 128 bytes; a CPYX for the relay queue. -/
theorem witness_copies_move :
    let w := copy .cpy [0, 0x70, 0x10800, 0, 128, 0] .running; let m := { copy .cpy linear .running with passed := 128 }; let f := copy .cpy [0x20000, 0, 0x10800, 0, 128, 0] .running
    let s := copying [m]; let a := copying [copy .cpy linear .running]; let k := { f with met := some (0, .stage1, 0, 0x20000) }
    let x := shapeOf .cpy linear; let p := copyPiece x 0; let r := engLoad s 0 0 x.src p.2; let q := engPlace r.1 0 0 p.1 p.2 true
    copyTurn (filling (copying [w])) 0 w = false ∧ transferReady (filling (copying [w])) 0 w = false ∧ copyTurn s 0 m = false ∧ transferReady s 0 m = true ∧
    transferReady a 0 (copy .cpy linear .running) = true ∧ scoutAhead (copy .cpy linear .running) x = true ∧ scoutAhead m x = false ∧ transferReady (copying [f]) 0 f = true ∧
    (copying [k]).findCopy 0 3 = some k ∧ copyTurn (copying [k]) 0 k = false ∧ 0 < (shapeOf .cpy [0x20000, 0, 0x10800, 0, 128, 0]).total ∧
    0 < x.total ∧ p.2 = 128 ∧ 128 ≤ x.rowb ∧ x.src % 4096 + p.2 ≤ 4096 ∧ r.2 = .ok (List.replicate 128 0) ∧ q.2 = .ok [(0x10800, 128, { hit 0x8000010800 with pa := 0x8000010800 })] ∧
    plainB q.1 0x8000010800 128 = true ∧ (List.replicate 128 (0 : Byte)).length = p.2 ∧ relayReady (copying [copy .cpyx linear .queued]) 0 (copy .cpyx linear .queued) = true := by decide +kernel

/-- Copies, the ends: a copy in the open batch and in a closed one; a CPYX with its flag; a fault. -/
theorem witness_copies_end : let c := copy .cpy linear .moved; let x := copy .cpyx linear .moved; let s := copying [x]; let q := flagPlace s 0 x
    let f := { copy .cpy linear .running with fault := some (.stage1, 0, 0x20000) }
    (copying [c]).findCopy 0 3 = some c ∧ c.id = 3 ∧ ((copying [c]).core 0).releasing = [] ∧ ((copying [c]).group 0).openBatch = c.batch ∧ c.dfield.getLsbD 4 = true ∧
    ({ (copying [c]).group 0 with openBatch := 2, closed := [(1, 1)] } : Group).openBatch ≠ c.batch ∧ s.findCopy 0 3 = some x ∧ q.2 = .ok (hit 0x8000010900) ∧
    plainB q.1 0x8000010900 8 = true ∧ 0x8000010900 % 8 = 0 ∧ (copying [f]).findCopy 0 3 = some f ∧ ((copying [f]).asyncTarget 0).isSome = true := by decide +kernel

/-- A state for the slot instructions: u0 = 1, u1 = 62; slots 0 and 1 held, 62 and 63 held by another team. -/
def slotting (l : List Task) : State :=
  let s := at_ { group (slice 0x07 1) Slice.dead with uregs := [(0, 0), (1, 62)] } 1
  { s with cores := [(0, { s.core 0 with slots := (heldSlots.take 62) ++ [.held 1, .held 1], tasks := l, zeroQueue := [7] })] }
/-- Slots: a run of 60 is free, a run of 61 is not; a release that fails, one at once, one that waits for a task. -/
theorem witness_slots : let s := slotting []; let w := slotting [task accst .queued]
    ready s here [.sclaim 0 0 60, .sclaim 127 2 61, .srel 0 2, .srel 1 2] = true ∧ uniformSplit (s.group 0) here = false ∧
    ((List.range 60).all fun i => (s.core 0).slots.getD (2 + i) .zeroing == .free) = true ∧ (s.core 0).slots.getD 1 .zeroing ≠ .free ∧ (s.core 0).slots.getD 62 .zeroing ≠ .free ∧
    slotErr s 0 0 2 0 = none ∧ slotErr s 0 62 2 62 ≠ none ∧ slotErr s 0 62 3 62 ≠ none ∧ slotUsers s 0 0 2 = ([], []) ∧ ready w here [.srel 0 1] = true ∧ slotUsers w 0 0 1 = ([5], []) ∧
    (s.core 0).zeroQueue = [7] := by decide +kernel

/-- Tasks, the instructions: a handle of a record in memory and of one at a FIFO register; no room; each state of a task. -/
def handled (r : List Word) (x : Slice) : State := at_ { group x Slice.dead with vregs := r.mapIdx fun i w => (i, [w]) } 1
theorem witness_task_instructions : let s := handled [0x10000, 0, 0x20000, 0] (slice 0x07 1); let t := handled [0x4000000, 0x70, 0, 0] (slice 0x07 1)
    ready s here [.tpost 0 0x1F, .tqry 4 0x1F] = true ∧ canPost s here = true ∧ recordCheck (s.team 0) (s.group 0) here (pairOf 0x10000 0) = none ∧ ready t here [.tpost 0 0] = true ∧ canPost t here = true ∧
    (recordCheck (t.team 0) (t.group 0) here (pairOf 0x4000000 0x70)).isSome = true ∧ issuer (handled [0, 0, 0, 0] full) = some here ∧ canPost (handled [0, 0, 0, 0] full) here = false ∧
    lanesOf (runSet (s.group 0) here) = [0] ∧ taskReady (tasking [task accst .queued]) 0 (task accst .queued) = true ∧
    lockReady (tasking [task accst .queued]) 0 (task accst .queued) = false ∧ lockReady (tasking [task (body [(6, 1, 3)]) .queued]) 0 (task (body [(6, 1, 3)]) .queued) = true ∧
    taskReady (tasking [task (body [(6, 1, 3)]) .queued]) 0 (task (body [(6, 1, 3)]) .queued) = true := by decide +kernel

/-- A state whose memory holds a record at 0x10000. -/
def recorded (l : List Task) (b : List Byte) : State := { tasking l with mem := bputs [] 0x8000010000 b }
def locked (x : Task) (s : State) : State := { s with dies := [(0, { s.die 0 with locks := s.taskLocks 0 x })] }
/-- Tasks, the scheduler: a fetch of a valid record and of an invalid one; locks taken and waited for; a start; a step that is not the last and one that is; a fault. -/
theorem witness_tasks_run : let raw := { task [] .queued with fetched := false }; let q := task accst .queued; let s := tasking [q]
    let tall := task (setField accst 0x14 2 32) .running; let run := task accst .running; let far := task (setField accst 0x20 8 (2 ^ 62 + 0x20000)) .running
    let held : State := { s with dies := [(0, { s.die 0 with locks := [lock 0x10100 true 9] })] }
    ([accst, body [(6, 1, 5)]].all fun b => let s := recorded [raw] b; fetchReady s 0 raw && (fetchRecord s 0 raw).2 == .ok b) = true ∧
    validate (recorded [raw] accst) { raw with body := accst, fetched := true } = 0 ∧ validate (recorded [raw] (body [(6, 1, 5)])) { raw with body := body [(6, 1, 5)], fetched := true } = 0x10 ∧
    startReady s 0 q = true ∧ lockReady s 0 q = false ∧ (s.die 0).canLock (s.taskLocks 0 q) = true ∧ (s.die 0).mustQueue (s.taskLocks 0 q) = false ∧ startReady held 0 q = true ∧
    lockReady held 0 q = false ∧ (held.die 0).canLock (held.taskLocks 0 q) = false ∧ startReady (locked q s) 0 q = true ∧ lockReady (locked q s) 0 q = true ∧ q.isKv = false ∧
    (match taskStep (tasking [run]) 0 0 run with | .ok _ => true | _ => false) = true ∧ taskSteps (tasking [run]) 0 run = 1 ∧ taskSteps (tasking [tall]) 0 tall = 2 ∧
    (match taskStep (tasking [tall]) 0 0 tall with | .ok _ => true | _ => false) = true ∧
    (match taskStep (tasking [far]) 0 0 far with | .fault _ _ _ _ => true | _ => false) = true ∧ ((tasking [far]).asyncTarget 0).isSome = true := by decide +kernel

/-- Tasks, the end: one that is complete, with and without an arrival, and one that failed; a dependant. -/
theorem witness_tasks_end : ([(1, setField accst 6 1 0x42), (1, accst), (0x18, accst)].all fun e =>
      let x := { task e.2 .moved with status := e.1 }; let s := tasking [x, { task accst .queued with id := 8, preds := [5] }, { task accst .queued with id := 9 }]; let q := donePlace s 0 0 x
      s.findTask 0 5 == some x && x.ended && q.2 == .ok [(0x10008, 4, hit 0x8000010008)] && plainB q.1 0x8000010008 4 && (s.core 0).releasing.isEmpty) = true ∧
    (setField accst 6 1 0x42 |> fun b => (task b .moved).ctl 6) = true := by decide +kernel

/-- A group whose registers 8 to 13 hold two base addresses, an entry number and a parameter. -/
def basing (nd nm : Word) (n param : Word) (e : Slab) (x : Slice) : State := slabbed (at_ (described [nd, 0, nm, 0, n, param] x) 1) e []
/-- Slabs, the posts: no room; no entry; an entry that is busy; one of the largest size; a base that is misaligned; a parameter out of range; and posts. -/
theorem witness_slab_posts : let c := here; let g := group (slice 0x07 1) Slice.dead
    issuer (basing 0x80000 0x100000 2 0 (entry 0) full) = some c ∧ canPost (basing 0x80000 0x100000 2 0 (entry 0) full) c = false ∧
    ([basing 0x80000 0x100000 3 0 (entry 0) (slice 0x07 1), basing 0x80000 0x100000 2 0 (entry 1) (slice 0x07 1), basing 0x80000 0x100000 2 0 { entry 0 with log2p := 14 } (slice 0x07 1),
      basing 0x80001 0x100000 2 0 (entry 0) (slice 0x07 1), basing 0x80000 0x100000 256 0 (entry 0) (slice 0x07 1), basing 0x80000 0x100000 2 0x1000000 (entry 0) (slice 0x07 1),
      basing 0x80000 0x100000 2 0xFFFFFF (entry 0) (slice 0x07 1), basing 0x80000 0x100000 2 0 (entry 0) (slice 0x07 1)].all fun s =>
        ready s c [.kvgrow 1 15 8 12, .kvevict 1 15 8 12] && canPost s c) = true ∧
    newRunCheck g c (entry 0) 0x80000 0x100000 (kvPs 0) 1 = none ∧ newRunCheck g c (entry 0) 0x80000 0x100000 (kvPs 0) 0 = none ∧ (newRunCheck g c (entry 0) 0x80001 0x100000 (kvPs 0) 1).isSome = true ∧
    evictFmt 0xFFFFFF = 3 ∧ evictFmt 0 = 0 ∧ (basing 0 0 3 0 (entry 0) full).slabOf 0 3 = none ∧ (basing 0 0 3 0 (entry 0) full).slabOf 0 2 = some (entry 0) := by decide +kernel

/-- A growth of entry 2 with its copy; pages of 16,384 + 2,048 bytes, of which the last 16 are to move. -/
def growth (wmark moven : Nat) (ombase : DWord) : State :=
  slabbed (copying [{ copy .grow [2, 0x40000, 0, 0x10000, 0, 0, 0] .running with progress := 16384 + 2048 - 16 }])
    { entry 1 with dbase := 0x40000, mbase := 0x10000, obase := 0x60000, ombase := ombase, len := 128, wmark := wmark, moven := moven, log2p := 1 } []
/-- Slabs, the growth: nothing left, a page that is not the last, the last, a fault. -/
theorem witness_growths : ([growth 1 1 0x10800, growth 0 2 0x10800, growth 0 1 0x10800, growth 0 1 0x20000].all fun s => (s.findCopy 0 3).all fun c =>
      c.kind == .grow && growReady s 0 c && (s.slabOf (s.group c.gid).tid (regAt c.regs 0)).isSome && (growStep s 0 c).isSome) = true ∧
    ((growth 0 2 0x10800).findCopy 0 3).isSome = true ∧
    ((growth 0 1 0x20000).findCopy 0 3).any (fun c => ((growStep (growth 0 1 0x20000) 0 c).bind fun u => u.findCopy 0 3).any fun y => y.fault.isSome) = true ∧
    ((growth 0 2 0x10800).findCopy 0 3).any (fun c => ((growStep (growth 0 2 0x10800) 0 c).bind fun u => u.findCopy 0 3).any fun y => y.fault.isNone) = true := by decide +kernel

def evicting (s : State) (x : Evict) (e : Slab) : State := slabbed s e [x]
/-- Slabs, the eviction: a page that waits, one that drops its token, one that faults; locks taken and waited for; the switch; the end; the fault's trap. -/
theorem witness_evictions : let r := evict .running; let q := evict .queued; let d := evict .moved; let f := { r with fault := some (.stage1, 0, 0x20000) }
    let s := evicting (copying []) r (entry 2); let w := evicting (filling (copying [])) r { entry 2 with mbase := 0x7000000000 }; let u := evicting (copying []) r { entry 2 with mbase := 0x20000 }
    let p := evicting (copying []) q (entry 2); let l : State := { p with dies := [(0, { p.die 0 with locks := [lock 0x40000 false 9] })] }
    let sw := evicting (copying []) { r with slot := 1 } (entry 2); let dn := evicting (copying []) d (entry 0); let ft := evicting (copying []) f (entry 2)
    ([s, w, u].all fun s => s.evicting 0 == some r && s.findEvict 0 6 == some r && (s.slabOf 0 2).all fun e => e.len == 1) = true ∧
    (evictPage s 0 r (entry 2)).isSome = true ∧ (evictPage w 0 r { entry 2 with mbase := 0x7000000000 }).isNone = true ∧ (evictPage u 0 r { entry 2 with mbase := 0x20000 }).isSome = true ∧
    p.evicting 0 = some q ∧ p.hasLocks 0 5 0 6 = false ∧ (p.die 0).canLock (evictLocks p q) = true ∧ (p.die 0).mustQueue (evictLocks p q) = false ∧ l.evicting 0 = some q ∧
    (l.die 0).canLock (evictLocks l q) = false ∧ l.hasLocks 0 5 0 6 = false ∧ (switchReady sw 0).isSome = true ∧ (sw.findEvict 0 6).isSome = true ∧
    dn.findEvict 0 6 = some d ∧ evictDone dn d = true ∧ ft.evicting 0 = some f ∧ ft.findEvict 0 6 = some f ∧ (ft.asyncTarget 0).isSome = true := by decide +kernel

/-! ### Frames, moves, claims -/

/-- The first frame of memory, of partition 1, with its record, the partition's quota and what it uses. -/
def frameState (r : FrameRec) (quota used : Nat) : State :=
  { State.reset with hub := { Hub.reset with frames := [(0x8000000, r)], regs := [(1, { PartRegs.reset with pinUsed := used })] },
                     referee := { Referee.reset with parts := [(1, { PartRec.reset with pinq := quota })] } }
def owned1 : FrameRec := { FrameRec.reset with part := 1 }
/-- FramesAndHints, the frame operations: a frame of another partition, and own frames at the limits of SHARE, PINC and the quota, claimed, allocated and engaged. -/
theorem witness_frames :
    ([owned1, { owned1 with share := 0x7FFF }, { owned1 with pinc := 0xFFF }, { owned1 with claim := true }, { owned1 with pinc := 1 }, { owned1 with pinc := 2 },
      { owned1 with alloc := true }, { owned1 with fwd := true }].all fun r => [0, 1].all fun used =>
        let s := frameState r 1 used
        decide (homeOf (0x8000000 * 4096) < 6) && s.owned 0x8000000 && (s.frameRec (s.recordFrame 0x8000000)).part.toNat == 1 && s.frameRec (s.recordFrame 0x8000000) == r &&
        (s.regs 1).pinUsed == used && (s.partRec 1).pinq == 1) = true ∧
    (FrameRec.engaged { owned1 with fwd := true }) = true ∧ owned1.engaged = false ∧ homeOf 0 = 6 ∧ (frameState owned1 1 0).owned 0x8000000 = true := by decide +kernel

/-- A state whose uniform pair 0, 1 holds an address, and whose page table is `tables`. -/
def tabled (pte : Nat) (va : Word) (claims : List (Option Claim)) : State :=
  let s := at_ { group (slice 0x07 1) Slice.dead with uregs := [(0, va)] } 1
  { s with mem := tables 4 pte, cores := [(0, { s.core 0 with binds := [(0, setField record 0x30 8 (10 * 2 ^ 60 + 0x8000000))] })], hub := { s.hub with claims := claims } }
/-- A leaf whose page is under handover, and a claim of its frame that waits. -/
def migLeaf : Nat := 0x800001000 * 2 ^ 8 + 0xDF + 2 ^ 58
def claimOf (f : Nat) (failed : Option Nat) : Claim := { frame := f, pte := 0x8000030000, part := 1, failed := failed, granted := false, owner := 2 }
def waitingClaim : List (Option Claim) := some (claimOf 0x200000400 none) :: List.replicate 15 none
/-- FramesAndHints, PHINT: two pages; a page of the window; one whose walk fails; one that waits for a claim. -/
theorem witness_hints : let s := tabled 0 0x10000 []; let f := tabled 0 0x20000 []; let w := tabled (0x8000010 * 2 ^ 10 + 0xDF + 2 ^ 58) 0 (some (claimOf 0x8000010 none) :: List.replicate 15 none)
    ready s here [.phint 3 0 1, .phint 0 0 2] = true ∧ (hintPage s (s.group 0) false 3 0x10000).isSome = true ∧ ((s.team 0).offset 0x10000).isNone = true ∧
    ((s.team 0).offset 0x7000000000).isSome = true ∧ ready f here [.phint 1 0 1] = true ∧
    (match (translate f (f.xctx 0 0 false) 0x20000 0).2 with | .trap _ _ => true | _ => false) = true ∧
    (translate s (s.xctx 0 0 false) 0x10000 0).2 = .ok (hit 0x8000010000) ∧ homeError s 1 0x8000010000 false = none ∧ homeOf 0x8000010000 = 0 ∧
    ready w here [.phint 1 0 1] = true ∧ (hintPage w (w.group 0) false 1 0).isNone = true := by decide +kernel

/-- A handler's SOLO lane whose pairs 0, 1 and 2, 3 hold MIGR's operation word and its operand. -/
def migrating (x n : DWord) (h : Hub) : State :=
  let s := at_ { group handlerSlice Slice.dead with frame := some frame0, solo := true, uregs := [(0, loHalf x), (1, hiHalf x), (2, loHalf n), (3, hiHalf n)] } 1
  { s with hub := h }
def aMove (slot : Option Nat) (o n w : Nat) : Move := { slot := slot, o := o, n := n, big := false, w := w, stalled := [], subsLost := none }
/-- Every slot runs a move of another frame. -/
def sixteen : List Move := (List.range 16).map fun i => aMove (some i) (0x8000100000 + 0x1000 * i) (0x8000200000 + 0x1000 * i) 0

/-- MigrationAndHandover, MOVE and RETIRE: each status in the order of its checks; OP 3. -/
theorem witness_moves : let F := Hub.reset; let r (f : FrameRec) : Hub := { F with frames := [(0x8000010, f), (0x8000020, owned1)] }
    ([migrating 0x8000010006 0 F, migrating 0x8000010000 1 F, migrating 0x8000010000 0x8000020000 (r { owned1 with handoff := true }),
      migrating 0x8000010000 0x8000020000 (r { owned1 with pinc := 1 }), migrating 0x8000020000 0x8000010000 (r { owned1 with alloc := true }),
      migrating 0x8000010000 0x8000020000 { F with moves := sixteen }, migrating 0x8000010000 0x8000020000 F, migrating 0x8000010002 1 F,
      migrating 0x8000010002 0 { F with claims := waitingClaim.map fun c => c.map fun x => { x with frame := 0x8000010 } },
      migrating 0x8000010002 0 { F with claims := waitingClaim.map fun c => c.map fun x => { x with frame := 0x8000010, failed := some 1 } }, migrating 0x8000010002 0 F,
      migrating 0x8000010002 0 { F with moves := [aMove (some 0) 0x8000010000 0x8000020000 3] }, migrating 0x8000010002 0 { F with moves := [aMove none 0x8000010000 0x8000020000 32] }].all fun s =>
        ready s soloHere [.migrMove 0 0 2, .migrRetire 127 0 2, .migrClaim 0 0 2] && !uniformSplit (s.group 0) soloHere) = true ∧
    runInMemory 0x8000010000 false = true ∧ freeMoveSlot (migrating 0 0 { F with moves := sixteen }) = none ∧ (freeMoveSlot (migrating 0 0 F)).isSome = true ∧
    FrameRec.engaged { owned1 with handoff := true } = true ∧ sixteen.length < 64 := by decide +kernel

/-- The record of a pool frame that no package owns, and of one that this package owns. -/
def poolFrame : Nat := 0x100000010
def ours : FrameRec := { FrameRec.reset with owner := Config.package.setWidth 6, part := 1 }
def pooled (x n : DWord) (r : FrameRec) (claims : List (Option Claim)) : State :=
  migrating x n { Hub.reset with frames := [(poolFrame, r)], claims := claims, ownClaims := [(poolFrame, 3)] }
theorem unowned_frame (x n : DWord) (c : List (Option Claim)) : (pooled x n { FrameRec.reset with owner := 0x3F } c).owned poolFrame = false := by
  have h1 : ((pooled x n { FrameRec.reset with owner := 0x3F } c).frameRec poolFrame).owner = 0x3F := rfl
  have h2 : tierOf (poolFrame * 4096) = 2 := by decide
  have h3 : (0x3F : BitVec 6) ≠ Config.package.setWidth 6 := fun h => absurd (congrArg BitVec.toNat h) (by have := Config.package.isLt; simp; omega)
  simp only [State.owned, h1, h2]
  simpa using h3
theorem our_frame (x n : DWord) (r : FrameRec) (c : List (Option Claim)) (h : r.owner = ours.owner) : (pooled x n r c).owned poolFrame = true := by
  have h1 : ((pooled x n r c).frameRec poolFrame).owner = ours.owner := h
  simp [State.owned, h1, ours]
theorem other_package : BitVec.ofNat 4 (Config.package + 1).toNat ≠ Config.package ∧ (Config.package + 1).toNat < 16 :=
  ⟨fun h => absurd (congrArg BitVec.toNat h) (by have := Config.package.isLt; simp; omega), (Config.package + 1).isLt⟩

/-- MigrationAndHandover, CLAIM: bad operands, an owned frame, a full table, a free entry; MOVE of a frame that is not owned. -/
theorem witness_claims : let no : FrameRec := { FrameRec.reset with owner := 0x3F }
    ([pooled 0x100000010004 3 no [], pooled 0x100000010004 0x8000030000 ours [], pooled 0x100000010004 0x8000030000 no (List.replicate 16 (some (claimOf 1 none))),
      pooled 0x100000010004 0x8000030000 no (List.replicate 16 none), pooled 0x100000010000 0x8000020000 no []].all fun s =>
        ready s soloHere [.migrClaim 0 0 2, .migrMove 0 0 2] && !uniformSplit (s.group 0) soloHere) = true ∧
    0x100000010004 / 2 % 4 = 2 ∧ tierOf 0x100000010000 = 2 ∧ inRecordArea 0x100000010000 = false ∧ 0x100000010000 / 4096 = poolFrame ∧ homeOf 0x8000030000 = 0 ∧
    freePlace (List.replicate 16 (some (claimOf 1 none))) = none ∧ freePlace (List.replicate 16 (none : Option Claim)) = some 0 ∧ runInMemory 0x100000010000 false = true := by decide +kernel

/-- A write to the word at an address. -/
def writeAt (pa : Nat) : HomeWrite := { cells := cellsOf pa (leBytes 8 5), keep := false }
def hubState (h : Hub) : State := { small 0x07 with hub := h }
/-- MigrationAndHandover, the moves: a first line and a last one; retries that wait, that are applied, and that join a line. -/
theorem witness_lines : let F := Hub.reset; let s := hubState { F with moves := [aMove (some 2) 0x8000010000 0x8000020000 0] }
    let l := hubState { F with moves := [aMove (some 2) 0x8000010000 0x8000020000 31] }; let r := hubState { F with retries := [writeAt 0x8000010000, writeAt 0x8000010040] }
    let j := hubState { F with moves := [aMove (some 2) 0x8000010000 0x8000020000 0], retries := [writeAt 0x8000010000] }
    ([(s, 0), (l, 31)].all fun e => e.1.findMove 2 == some (aMove (some 2) 0x8000010000 0x8000020000 e.2) &&
      (List.range 128).all fun i => let p := 0x8000020000 + 128 * e.2 + i; e.1.route p == p && regionOf p != .upstream && !inRecordArea p) = true ∧
    Memory.wf s.mem ∧ (s.home 0).subs = [] ∧ retryReady r 0 = true ∧ retryReady r 1 = false ∧ r.hub.retries[0]? = some (writeAt 0x8000010000) ∧ plainB r 0x8000010000 8 = true ∧
    retryReady j 0 = true ∧ ((writeAt 0x8000010000).cells.findSome? fun e => j.stallMove e.1).isSome = true := by decide +kernel

/-- A line of frame 0x8000010 that the L1 of core 0 holds dirty. -/
def dirtyLine : L1Line :=
  { asid := 0, vmid := 0, vline := 0x10000 / 128, pline := 0x8000010000 / 128, bank := 0, valid := -1, dirty := 1, data := 7, canR := true, canW := true, dSet := true, size := 4096, part := 1 }
def lined (s : State) : State := { s with cores := [(0, { s.core 0 with l1 := [dirtyLine] })] }
/-- MigrationAndHandover, shootdowns and claims: one that waits and one that is served; the ends of a claim of this package's own. -/
theorem witness_shootdowns : let q : Shoot := { gstage := false, asid := 0, vmid := 0, va := some 0x10000 }; let s := lined (hubState Hub.reset)
    let w := lined (hubState { Hub.reset with retries := [writeAt 0x8000010000] }); let c := hubState { Hub.reset with claims := waitingClaim }
    shootReady s q = true ∧ q.line dirtyLine = true ∧ shootReady w q = false ∧ c.hub.claims.getD 0 none = some (claimOf 0x200000400 none) ∧ plainB c (claimOf 0x200000400 none).pte 8 = true := by
  decide +kernel
theorem witness_claim_request : let s := pooled 0 0 ours []
    tierOf (poolFrame * 4096) = 2 ∧ s.owned poolFrame = true ∧ (s.frameRec poolFrame).engaged = false ∧ (Config.package + 1).toNat < 16 ∧ BitVec.ofNat 4 (Config.package + 1).toNat ≠ Config.package ∧
    ¬ tierOf (0x8000000 * 4096) = 2 :=
  ⟨by decide, our_frame 0 0 ours [] rfl, by decide +kernel, other_package.2, other_package.1, by decide⟩
def claimed : FrameRec := { ours with claim := true }
theorem witness_release : releaseReady (pooled 0 0 claimed []) poolFrame = true ∧ ((pooled 0 0 claimed []).home 5).subs = [] := by
  have h : (pooled 0 0 claimed []).owned poolFrame = true := our_frame 0 0 claimed [] rfl
  have h1 : (((pooled 0 0 claimed []).frameRec poolFrame).claim && ((pooled 0 0 claimed []).frameRec poolFrame).pinc == 0) = true := rfl
  have h4 : (tierOf (poolFrame * 4096) == 2 && (pooled 0 0 claimed []).cores.all fun k => cleanReady (pooled 0 0 claimed []) k.1 (lineInFrame poolFrame)) = true := by decide +kernel
  exact ⟨by rw [releaseReady, h1, h, Bool.true_and, Bool.true_and]; exact h4, rfl⟩
theorem witness_holim : let s := pooled 0 0 { ours with claim := true, pinc := 1 } []
    (s.frameRec poolFrame).claim = true ∧ (s.frameRec poolFrame).pinc ≠ 0 ∧ s.owned poolFrame = true ∧ tierOf (poolFrame * 4096) = 2 :=
  ⟨rfl, by decide +kernel, our_frame 0 0 _ [] rfl, by decide⟩

/-! ### The privileged subset, traps, the fault queue -/

/-- A handler whose uniform registers from 0 on hold some words. -/
def serving (solo : Bool) (rs : List Word) : State :=
  let s := handler solo
  at_ { s.group 0 with uregs := rs.mapIdx fun i w => (i, w) } 1
/-- ControlRegistersAndSolo: reads, writes of each kind of register, SOLO and UNSOLO, a privileged word and a reserved opcode outside SOLO mode. -/
theorem witness_context_reads : let s := serving true [1, 0, 0x10000, 0]
    ready s soloHere [.crd 5 0x000, .crd 127 0x095, .cwr 0 0x010, .cwr 0 0x01F, .cwr 0 0x020, .cwr 0 0x021, .cwr 0 0x023, .cwr 0 0x040, .cwr 0 0x048, .cwr 0 0x04A, .cwr 0 0x080,
      .cwr 0 0x082, .cwr 0 0x083, .unsolo] = true ∧ uniformSplit (s.group 0) soloHere = false ∧ ((s.group 0).frame).isSome = true ∧ ((small 0x07).group 0).frame = none ∧
    (match exec (.leaseClr 0 1 1) s with | .next _ => true | _ => false) = true ∧ ready (serving false []) here [.solo] = true ∧ issuer (small 0x07) = some here ∧ here.solo = none ∧
    opcodeUsed (wOp 0) = false ∧ opcodeUsed (wOp 0xFC000000) = false := by decide +kernel

/-- A group 1 beside the handler, with its park serial, in slot 0 or in a slot of another partition. -/
def beside (h : DWord) (other : Group) : State :=
  let s := serving true [loHalf h, hiHalf h]
  { s with groups := [(0, s.group 0), (1, other), (64, { other with tid := 1, num := 0 })],
           cores := [(0, { s.core 0 with binds := [(0, setField record 4 2 2), (1, setField record 2 1 2)] })], teams := [(0, s.team 0), (1, s.team 0)] }
def parkedGroup (parked : Bool) : Group := { group handlerSlice Slice.dead with num := 1, frame := some frame0, parked := parked, parkSerial := 3 }
/-- ReturnsAndParkedGroups: TRET; handles that name no group, a group of another partition, a group that runs, another serial, and a parked group. -/
theorem witness_returns :
    ([(0xFF#64, true), (0x300000100, true), (0x300002000, false), (0x200002000, true), (0x300002000, true)].all fun e =>
      let s := beside e.1 (parkedGroup e.2)
      ready s soloHere [.gres 4 0 1, .gkill 4 0] && !uniformSplit (s.group 0) soloHere && readU64 s (s.group 0) soloHere 0 == e.1) = true ∧
    ready (serving false []) here [.tret 0, .tret 1] = true ∧ ((serving false []).group 0).frame = some frame0 ∧ (parkedGroup true).frame = some frame0 ∧
    handleGroup (beside 0 (parkedGroup true)) 0xFF = none ∧ handleGroup (beside 0 (parkedGroup true)) 0x300000100 = some 64 ∧
    (beside 0 (parkedGroup true)).partOf ((beside 0 (parkedGroup true)).group 64).tid = 2 ∧ handleGroup (beside 0 (parkedGroup true)) 0x300002000 = some 1 ∧
    (beside 0 (parkedGroup true)).partOf ((beside 0 (parkedGroup true)).group 0).tid = (beside 0 (parkedGroup true)).partOf ((beside 0 (parkedGroup true)).group 1).tid ∧
    (0x300002000#64 >>> 32).setWidth 16 = 3#16 ∧ (0x200002000#64 >>> 32).setWidth 16 ≠ 3#16 := by decide +kernel

/-- A handler's state with page tables, a root for its G-stage or none, and a line in the L1. -/
def walking (pte : Nat) (va : Word) (groot : Nat) (h : Hub) (l1 : List L1Line) : State :=
  let s := serving true [va, 0, 3, 0]
  { s with mem := tables 4 pte, hub := h, dies := [(0, { s.die 0 with tlb := [{ probeLeaf with user := false }] })],
           cores := [(0, { s.core 0 with l1 := l1, binds := [(0, setField (setField record 0x30 8 (10 * 2 ^ 60 + 0x8000000)) 0x38 8 groot)] })] }
def retrying : Hub := { Hub.reset with retries := [writeAt 0x8000010000] }
/-- SupervisorServices: the shootdowns, served, waiting, and refused to a team with a G-stage; PTST of a page that is mapped, of one that is not, and of a G-stage without
a table; IFENCE with nothing to wait for, a store outstanding, and a clean that waits. -/
theorem witness_translation_caches : let q : Shoot := { gstage := true, asid := 0, vmid := 3, va := some 0x10000 }
    let s := walking 0 0x10000 0 Hub.reset [dirtyLine]; let w := walking 0 0x10000 0 retrying [dirtyLine]; let g := walking 0 0x10000 (10 * 2 ^ 60) Hub.reset []; let n := walking 0 0x20000 0 Hub.reset []
    let busy := at_ { group { handlerSlice with stores := 1 } Slice.dead with frame := some frame0, solo := true } 1
    ([s, w, g, n].all fun s => ready s soloHere [.tlbiVa 0 2, .tlbiAsid 2, .tlbiGva 0 2, .tlbiVmid 2, .ptst 4 0 0, .ptst 4 0 2] && !uniformSplit (s.group 0) soloHere) = true ∧
    s.bindField 0 0x38 8 = 0 ∧ g.bindField 0 0x38 8 ≠ 0 ∧ shootReady s q = true ∧ shootReady w q = false ∧
    (match (translate s { s.xctx 0 0 true with noAD := true } 0x20000 0).2 with | .trap 0x0A _ => true | _ => false) = true ∧
    (match (translate s { s.xctx 0 0 true with noAD := true } 0x10000 0).2 with | .ok _ => true | _ => false) = true ∧
    (match (translate g { g.xctx 0 0 true with noAD := true } 0x10000 0).2 with | .trap 0x0B _ => true | _ => false) = true ∧
    ready s soloHere [.ifence] = true ∧ storesDone (s.group 0) soloHere = true ∧ cleanReady s 0 (ofAsid 0 0) = true ∧ ready w soloHere [.ifence] = true ∧ cleanReady w 0 (ofAsid 0 0) = false ∧
    ready busy soloHere [.ifence] = true ∧ storesDone (busy.group 0) soloHere = false := by decide +kernel

/-- A first-touch leaf at address 0, and the lists of partition 1. -/
def touchLeaf : Nat := 2 ^ 57
def touching (pte : Nat) (lists : List (List Nat)) (moves : List Move) : State :=
  walking pte 0 0 { Hub.reset with regs := [(1, { PartRegs.reset with lists := lists })], moves := moves } []
/-- SupervisorServices, FTMAP: a walk that waits at a move, one that ends in a status, a leaf without a free frame, a leaf that gets one. -/
theorem witness_first_touch : let none_ := List.replicate 6 ([] : List Nat); let s := touching touchLeaf ([0x8000100] :: List.replicate 5 []) []
    let x := s.xctx 0 0 true
    ([touching touchLeaf none_ [aMove (some 0) 0x8000004000 0x8000020000 0], touching 0 none_ [], touching touchLeaf none_ [], s].all fun s =>
      ready s soloHere [.ftmap 4 0] && !uniformSplit (s.group 0) soloHere) = true ∧
    (touchWalk x 0 4 (touching touchLeaf none_ [aMove (some 0) 0x8000004000 0x8000020000 0]) x.root).2 = .wait ∧ (touchWalk x 0 4 (touching 0 none_ []) x.root).2 = .status 2 ∧
    (touchWalk x 0 4 s x.root).2 = .leaf 0x8000004000 touchLeaf ∧ touchLists 0 (touchLeaf / 2 ^ 54 % 4) = [0] ∧ x.part = 1 ∧ x.groot = none ∧ plainB s 0x8000004000 8 = true := by decide +kernel
theorem witness_first_touch_page : plainB (touching touchLeaf ([0x8000100] :: List.replicate 5 []) []) (0x8000100 * 4096) 4096 = true := by decide +kernel

/-- A fault ring at an address; its head and tail. -/
def ringed (ring : DWord) (head tail : BitVec 16) : State :=
  let s := walking 0 0 0 { Hub.reset with regs := [(1, { PartRegs.reset with ring := ring, ringHead := head, ringTail := tail })], frames := [(0x8000010, owned1)] } []
  s
/-- SupervisorServices, RINGP: a full ring, a ring whose frame is not the partition's, a ring with room. -/
theorem witness_ring : let s := ringed 0x8000010000 0 15
    ([ringed 0x8000010000 0 16, ringed 0x8000020000 0 0, s].all fun s => ready s soloHere [.ringp 4] && !uniformSplit (s.group 0) soloHere) = true ∧ (PartRegs.reset.ringSz) = 4 ∧
    (ringPlace (ringed 0x8000020000 0 0) 0 0).2 = .fails ∧ (ringPlace s 0 0).2 = .at (0x8000010000 + 64 * 15) ∧ quiet (s.group 0) soloHere true = true ∧
    s.linePending (0x8000010000 + 64 * 15) = false ∧ plainB s (0x8000010000 + 64 * 15) 64 = true := by decide +kernel

/-- A waiting trap, and a group that has several. -/
def waitingTrap (async : Bool) (key : DWord) : TrapEntry :=
  { record := { trapRecord 0x15 with async := async }, fmask := 1, gang := 1, key := key, log := none, atIssue := true, resume := 0x10004, engine := .none }
def trapping (tvec : Nat) (n : Nat) (async : Bool) (other : Slice) : State :=
  let s := at_ { group (slice 0x07 1) other with queue := (List.range n).map fun i => waitingTrap async (BitVec.ofNat 64 i) } 1
  { s with cores := [(0, { s.core 0 with binds := [(0, setField record 0x40 8 tvec)] })] }
/-- TrapsRaisedAndDelivered: an open frame; a full queue; room, with and without another gang that runs; a delivery to a handler, one without a vector, an asynchronous one. -/
theorem witness_traps : ((handler false).group 0).frame = some frame0 ∧ ((trapping 0 8 false Slice.dead).group 0).frame = none ∧ ((trapping 0 8 false Slice.dead).group 0).queue.length = 8 ∧
    ((trapping 0 7 false Slice.dead).group 0).queue.length = 7 ∧ ((at_ (group (slice 0x07 1) (slice 0x07 1)) 1).group 0).stopped 1 = false ∧
    (((at_ (group (slice 0x07 1) (slice 0x07 1)) 1).group 0).slice 1).live ≠ 0 ∧ here.gang.getLsbD 1 = false ∧
    ((List.range 64).all fun i => decide ((((trapping 0 1 false Slice.dead).group 0).slice i).live = 0) || here.gang.getLsbD i) = true ∧
    deliverReady (trapping 0 0 false Slice.dead) 0 = false ∧
    ([trapping 0x40000 2 false Slice.dead, trapping 0 2 false Slice.dead, trapping 0x40000 1 true Slice.dead].all fun s => deliverReady s 0 && (s.group 0).liveSlices != 0 &&
      (s.group 0).slices.all fun x => x.handler.isNone) = true ∧
    (trapping 0x40000 2 false Slice.dead).tvec 0 = 0x40000 ∧ refereeClass (trapRecord 0x15) = false ∧ 1#256 &&& (0xF#256 <<< (4 * 0)) ≠ 0 ∧
    laneSet (fun l => (((trapping 0x40000 1 true Slice.dead).group 0).slice (l / 4)).live.getLsbD (l % 4)) = 1 := by decide +kernel

/-- A held trap, and a core that holds some. -/
def heldTrap : HeldTrap := { gid := 0, record := { trapRecord 0x0F with async := true }, engine := .none }
def holding (n : Nat) (held retry : List HeldTrap) (x : Slice) : State :=
  let s := at_ { group x Slice.dead with queue := (List.range n).map fun i => waitingTrap false (BitVec.ofNat 64 i) } 1
  { s with cores := [(0, { s.core 0 with held := held, retry := retry })] }
/-- HeldTrapsAndFaultQueue: a queue without room, one with room, no live group; a retry with and without room in the buffer. -/
theorem witness_held_traps : let l := slice 0x07 1
    heldReady (holding 8 [heldTrap] [] l) 0 = none ∧ heldReady (holding 7 [heldTrap] [] l) 0 = some heldTrap ∧ (holding 7 [heldTrap] [] l).asyncTarget 0 = some 0 ∧
    heldReady (holding 0 [heldTrap] [] Slice.dead) 0 = some heldTrap ∧ (holding 0 [heldTrap] [] Slice.dead).asyncTarget 0 = none ∧
    ([(0, 64), (0, 63), (8, 63)].all fun e => let s := holding e.1 (List.replicate e.2 heldTrap) [heldTrap] l
      (s.core 0).retry == [heldTrap] && s.asyncTarget heldTrap.gid == some 0 && (s.core 0).held.length == e.2 && (s.group 0).queue.length == e.1 && (s.group 0).core == 0) = true := by decide +kernel

/-- A posting, and a referee with postings, entries, and the ring of partition 1. -/
def posted : Posting := { record := trapRecord 0x0B, handle := 5, part := 1, asid := 2 }
def refereed (n m : Nat) (c : ControlPage) : State :=
  { small 0x07 with referee := { Referee.reset with postings := List.replicate n posted, faultQ := List.replicate m posted }, hub := { Hub.reset with ctl := [(1, c)] } }
def rring (tail : BitVec 16) (msia : DWord) : ControlPage := { ControlPage.reset with rring := 0x8000010000, rrTail := tail, rrMsia := msia }
/-- HeldTrapsAndFaultQueue, the fault queue: full and not; a ring that is full, and one with room, with an interrupt outside memory and without one. -/
theorem witness_fault_queue : (refereed 2 1023 (rring 0 0)).referee.postings = posted :: [posted] ∧ (refereed 2 1023 (rring 0 0)).referee.faultQ.length = 1023 ∧
    (refereed 2 1024 (rring 0 0)).referee.faultQ.length = 1024 ∧ (refereed 0 1 (rring 15 0)).referee.faultQ[0]? = some posted ∧
    ([rring 15 0, rring 0 0x4000000000].all fun c => let s := refereed 0 1 c; decide ((c.rrTail - c.rrHead).toNat < 2 ^ c.rrSz) && s.ctl posted.part == c &&
      plainB s (c.rring.toNat + 64 * (c.rrTail.toNat % 2 ^ c.rrSz)) 64) = true ∧ 6 ≤ homeOf 0x4000000000 ∧ ¬ (((rring 16 0).rrTail - (rring 16 0).rrHead).toNat < 2 ^ (rring 16 0).rrSz) := by decide +kernel

/-! ### Teams, dispatch, pre-emption -/

/-- The groups of a state's slot 0, its records, and a die that gives partition 1 its clusters. -/
def placed (gs : Sparse Group) (binds : Sparse (List Byte)) (d : Die) : State :=
  { State.reset with groups := gs, teams := [(0, { Team.reset with window := 0x7000000000 })], cores := [(0, { Core.reset with binds := binds })], dies := [(0, d)] }
def giving : Die := { Die.reset with partmap := [0, 1] }
/-- A record in a state, with a field changed. -/
def rec (st : Nat) (off n x : Nat) : List Byte := setField (setField probeRecord 0 1 st) off n x
def deadGroup (retired : Bool) (n : Nat) : Group := { group Slice.dead Slice.dead with num := n, retired := retired, parked := true }

/-- TeamsAndDispatch, retirement: a group that is alive, one that may retire, as its team's last and not; a slot that runs, and one that may be freed. -/
theorem witness_retirement : let last := placed [(0, deadGroup false 0), (1, deadGroup true 1)] [(0, rec 2 4 2 2)] giving
    let first := placed [(0, deadGroup false 0), (1, deadGroup false 1)] [(0, rec 2 4 2 2)] giving
    retireReady (small 0x07) 0 = false ∧ retireReady last 0 = true ∧ (last.group 0).queue = [] ∧ last.teamGids 0 = [0, 1] ∧ (last.group 1).retired = true ∧ last.bindField 0 0 1 = 2 ∧
    retireReady first 0 = true ∧ (first.group 1).retired = false ∧ drainReady last 0 0 = false ∧ drainReady (placed [(0, deadGroup true 0)] [(31, rec 4 4 2 1)] giving) 0 31 = true := by decide +kernel

/-- TeamsAndDispatch, the pacer: a record for a free slot, a refused slot, a slot that runs; a pending queue with and without an entry. -/
def pending : Pending := { grid := 1, team := 2, prio := 3, part := 1, restore := false, save := 0 }
theorem witness_pacer : let s := placed [] [(1, rec 0x83 4 2 1), (2, rec 2 4 2 1)] { giving with pendingQ := [pending] }
    s.slotState 0 0 = 0 ∧ (rec 1 4 2 1).length = 256 ∧ recField (rec 1 4 2 1) 0 1 = 1 ∧ 0x80 ≤ s.slotState 0 1 ∧ s.slotState 0 2 = 2 ∧ (s.die 0).pendingQ = [pending] ∧ (s.die 1).pendingQ = [] := by
  decide +kernel

/-- TeamsAndDispatch, COMMIT: words that name no slot; a slot that is not bound; a refused record; an accepted one, in the last slot. -/
theorem witness_commits : let s := placed [] [(31, rec 1 4 2 1), (1, rec 1 4 2 65), (2, rec 2 4 2 1)] giving
    40 ≤ (40 : Word).toNat % 64 ∧ (s.die 0).committing = none ∧ (s.die 0).down = false ∧ s.bindField 2 0 1 ≠ 1 ∧ s.bindField 1 0 1 = 1 ∧ dispatchCode s 1 none = some 1 ∧
    s.bindField 31 0 1 = 1 ∧ dispatchCode s 31 none = none ∧ s.isRestore 31 = false ∧ (0 * 40 + (0x7C0 : Word).toNat % 64) * 32 + (0x7C0 : Word).toNat / 64 % 32 = 31 := by decide +kernel

/-- A running team in slot 0 with or without a save area, and a record in slot 1. -/
def preempting (save : Nat) (out inn : List Byte) (p : Option (Nat × Nat × Nat)) : State :=
  placed [(0, group (slice 0x07 1) Slice.dead)] [(0, setField out 0x50 8 save), (1, inn)] { giving with preempting := p }
/-- Preemption: one not taken; without a save area; for a record that is refused; and one that starts; the swap of each kind. -/
theorem witness_preemptions : let out := rec 2 4 2 1; let inn := rec 1 4 2 1; let bad := rec 1 4 2 65
    let taken (s : State) (v : Word) : Bool := decide (v.toNat % 64 < 40) && !(s.die 0).down && (s.die 0).preempting.isNone && s.bindField 0 0 1 == 2 &&
      s.isHomeSlot 0 0 && s.bindField 1 0 1 == 1
    taken (preempting 0 out inn none) 40 = false ∧ taken (preempting 0 out inn none) 0x800 = true ∧ (preempting 0 out inn none).saveBase 0 = 0 ∧
    taken (preempting 0x200000 out bad none) 0x800 = true ∧ (preempting 0x200000 out bad none).saveBase 0 ≠ 0 ∧ dispatchCode (preempting 0x200000 out bad none) 1 (some 0) = some 1 ∧
    taken (preempting 0x200000 out inn none) 0x800 = true ∧ dispatchCode (preempting 0x200000 out inn none) 1 (some 0) = none ∧
    ((preempting 0 out inn none).die 0).preempting = none ∧ ((preempting 0x200000 out bad (some (0, 0, 1))).die 0).preempting = some (0, 0, 1) ∧
    (preempting 0x200000 out (rec 2 4 2 1) (some (0, 0, 1))).bindField 1 0 1 ≠ 1 ∧ dispatchCode (preempting 0x200000 out inn (some (0, 0, 1))) 1 (some 0) = none ∧
    dispatchCode (preempting 0x200000 (rec 4 4 2 1) bad (some (0, 0, 1))) 1 none = some 1 := by decide +kernel

/-- A team that leaves, with one group of 8 registers; its save area is mapped by one large leaf. -/
def leaving : State :=
  let s := placed [(0, { group (slice 0x07 1) Slice.dead with budget := 8 })] [(0, setField (rec 3 0x50 8 0x200000) 8 2 0x0808)]
    { giving with tlb := [{ probeLeaf with vbase := 0x200000, size := 0x200000, pbase := 0x8000200000, user := false, level := 1 }] }
  { s with time := 7 }
/-- Preemption, the spill: a slot that does not leave; a team that is ready to be saved. -/
theorem witness_spill : saveReady leaving 0 = true ∧ leaving.bindField 0 0 1 = 3 ∧ leaving.isHomeSlot 0 0 = true ∧ (small 0x07).bindField 0 0 1 ≠ 3 := by decide +kernel
theorem witness_spill_places : (match (savePlaces leaving 0).2 with | .ok _ => true | _ => false) = true := by decide +kernel
theorem witness_spill_complete : let s := { leaving with hub := { Hub.reset with saved := [keepSaved leaving 0] } }
    s.bindField 0 0 1 = 3 ∧ s.isHomeSlot 0 0 = true ∧ (s.findSaved 0).isSome = true := by decide +kernel

/-- A team that waits for room on a core with some banks in cache mode. -/
def awaiting (room filling : Bool) (cache : Nat) : State :=
  let s := placed [] [(0, rec 2 0xC 4 0x40000)] giving
  { s with teams := [(0, { Team.reset with filling := filling, room := room })],
           cores := [(0, { s.core 0 with banks := List.replicate cache .cache ++ List.replicate (24 - cache) (.fifo 1 0) })] }
/-- Preemption, the fill: nothing to fill; no room, for one bank too few; room; the end of a fresh team's wait. -/
theorem witness_fill : ((awaiting false false 6).team 0).filling = false ∧ ([awaiting false true 5, awaiting false true 6, awaiting true true 5].all fun s =>
      (s.team 0).filling && s.bindField 0 0 1 == 2 && s.isHomeSlot 0 0 && !s.isRestore 0) = true ∧ roomReady (awaiting false true 5) 0 = false ∧ roomReady (awaiting false true 6) 0 = true ∧
    ((awaiting false true 5).team 0).room = false ∧ ((awaiting true true 5).team 0).room = true := by decide +kernel

/-! ### The launch port and grids -/

/-- Fields written into a record. -/
def patch (b : List Byte) (fields : List (Nat × Nat × Nat)) : List Byte := fields.foldl (fun b f => setField b f.1 f.2.1 f.2.2) b
/-- A started package whose partition 1 has VF 0, a tenant 5, and the hub's translation of 0x10000. -/
def tenantBytes : List Byte := patch (List.replicate 128 0) [(0, 1, 0x07), (1, 1, 3), (2, 2, 2), (4, 1, 0x80), (0x10, 8, 0x10000), (0x18, 8, 0x1000)]
def launchRecordBytes : List Byte := patch (List.replicate 256 0) [(0, 2, 1), (2, 1, 3), (4, 2, 1), (8, 2, 0x0808), (0x10, 4, 1), (0x18, 8, 0x10000)]
def port (h : Hub) : State :=
  { State.reset with mem := bputs [] 0x8000010000 launchRecordBytes, hub := { h with tenants := [(5, tenantBytes)] },
                     dies := [(0, giving), (4, { Die.reset with tlb := [probeLeaf, { probeLeaf with vbase := 0x20000, pbase := 0x8000020000, user := false }] })],
                     referee := { Referee.reset with stage := 8, parts := [(1, { PartRec.reset with valid := true, vfs := 1 })] } }
def packet (src : Nat) (fields : List (Nat × Nat × Nat)) : Packet :=
  { src := src, mac := [], bytes := patch (List.replicate 128 0) ([(0, 2, 5), (3, 1, 1), (0x18, 8, 0x10000), (0x20, 8, 77)] ++ fields) }
/-- A frame of the fabric that holds a packet, with its 802.1Q tag. -/
def frame : List Byte := List.replicate 6 1 ++ List.replicate 6 2 ++ [0x81, 0, 0, 7, 0x88, 0xB5, 1, 1] ++ leBytes 2 128 ++ leBytes 4 0 ++ (packet 0 []).bytes

/-- LaunchPort, what enters: a page that is busy and one that is not; a short packet; frames with and without a packet; a response that fits and one that does not. -/
theorem witness_port : let s := port Hub.reset; let busy := port { Hub.reset with pages := [(139, { LaunchPage.reset with busy := true })] }
    let ring (page : Nat) (tail : BitVec 16) := port { Hub.reset with pages := [(page, { LaunchPage.reset with held := [List.replicate 32 1], rspTail := tail, rspBase := 0x8000020000 })] }
    (packet 0 []).bytes.length = 128 ∧ (s.page 139).busyNow = false ∧ (busy.page 139).busyNow = true ∧ (puwieg frame).isSome = true ∧ puwieg [] = none ∧
    ([(0, 0), (0, 16), (139, 15), (139, 16)].all fun e => ((ring e.1 (BitVec.ofNat 16 e.2)).page e.1).held == List.replicate 32 1 :: []) = true ∧
    2 ^ LaunchPage.reset.rspSz ≤ ((16 : BitVec 16) - LaunchPage.reset.rspHead).toNat ∧ ((15 : BitVec 16) - LaunchPage.reset.rspHead).toNat < 2 ^ LaunchPage.reset.rspSz ∧
    plainB (ring 139 15) (0x8000020000 + 32 * (15 % 2 ^ 4)) (List.replicate 32 (1 : Byte)).length = true := by decide +kernel

/-- LaunchPort, the packets: nothing to serve; a packet refused by each check; one whose record is refused, and one that becomes a grid. -/
theorem witness_packets :
    let s (p : Packet) := port { Hub.reset with packets := [p] }
    let t := (packetChecks (takePacket (s (packet 0 [])) (0, packet 0 [])) (packet 0 [])).1
    nextPacket (port Hub.reset) = none ∧ (small 0x07).launchOpen = false ∧
    ([packet 0 [(0, 2, 6)], packet 1 [], packet 0 [(3, 1, 2)], packet 0 [(2, 1, 4)], packet 0 [(4, 4, 1)]].map fun p => (packetChecks (takePacket (s p) (0, p)) p).2) = [1, 2, 5, 6, 8] ∧
    ([packet 0 [(0, 2, 6)], packet 0 []].all fun p => nextPacket (s p) == some (0, p) && (s p).launchOpen && !((s p).page p.src).discard) = true ∧
    (packetChecks (takePacket (s (packet 0 [])) (0, packet 0 [])) (packet 0 [])).2 = 0 ∧
    (launchChecks t 0 (recField (t.tenant 5) 8 8) 1 5 0x10000 fun x => x == 0 || x == 0).2 = .ok launchRecordBytes := by decide +kernel

/-- A gang that launches, with the address of its record in s0, s1. -/
def launcher (ra : DWord) (x : Slice) (reqs : List LaunchReq) (replies : List LaunchReply) : State :=
  let s := at_ { group x Slice.dead with uregs := [(0, loHalf ra), (1, hiHalf ra)] } 1
  let p := port { Hub.reset with launchReqs := reqs, launchReplies := replies }
  { s with mem := p.mem, hub := p.hub, dies := p.dies, cores := [(0, { s.core 0 with binds := [(0, setField record 0x10 8 5)] })] }
def request (ra : DWord) : LaunchReq := { gid := 0, gang := 1, d := 2, ra := ra, grid := 5 }
/-- LaunchesAndGrids, LAUNCH: no room, a split gang, an address that is misaligned, one in the window, and a post; requests that are granted, refused and that wait; a reply. -/
theorem witness_launches : let l := slice 0x07 1; let split := at_ (group l l) 1; let q := request 0x10000
    let w := { launcher 0x10000 (counting 1 .none) [q] [] with hub := { (launcher 0x10000 l [q] []).hub with retries := [writeAt 0x8000010000] } }
    issuer (launcher 0x10000 full [] []) = some here ∧ ([launcher 0x10080 l [] [], launcher 0x7000000000 l [] [], launcher 0x10000 l [] [], split].all fun s => ready s here [.launch 126 0]) = true ∧
    canPost (launcher 0x10000 full [] []) here = false ∧ canPost (launcher 0x10000 l [] []) here = true ∧ canPost split here = true ∧ uniformSplit (split.group 0) here = true ∧
    uniformSplit ((launcher 0x10000 l [] []).group 0) here = false ∧ (((launcher 0x7000000000 l [] []).team 0).offset 0x7000000000).isSome = true ∧
    ([request 0x10000, request 0x10080].all fun q => let s := launcher q.ra (counting 1 .none) [q] []
      s.hub.launchReqs == [q] && (serveLaunch s q).isSome) = true ∧
    (serveLaunch w q).isNone = true ∧ w.hub.launchReqs.head? = some q ∧
    (launcher 0x10000 l [] [{ gid := 0, d := 2, value := 9 }]).hub.launchReplies[0]? = some { gid := 0, d := 2, value := 9 } ∧ ((launcher 0x10000 l [] []).group 0).retired = false := by decide +kernel

/-- A grid with its record; what is dealt and live; DONE at 0x20800. -/
def grid (fields : List (Nat × Nat × Nat)) (dealt live : Nat) : Grid :=
  { Grid.enter (patch launchRecordBytes fields) 0x10000 77 3 1 0 0 0 [] false with id := 0x100000005, dealt := dealt, live := live }
def gridded (g : Grid) : State := port { Hub.reset with grids := [g] }
/-- LaunchesAndGrids, the grids: a team to deal, one held by a predecessor, none left; a grid that lives, and one that completes with its DONE store. -/
theorem witness_grids : let held := { grid [(3, 1, 1), (0x60, 8, 0x100000005)] 0 2 with id := 0x200000005 }
    let both := port { Hub.reset with grids := [grid [] 0 2, held] }
    ([grid [] 0 2, grid [] 1 2].all fun g => (gridded g).findGrid 0x100000005 == some g && dealReady (gridded g) g && dealDie (gridded g) g == some 0) = true ∧
    both.findGrid 0x200000005 = some held ∧ dealReady both held = false ∧ (gridded (grid [] 2 2)).findGrid 0x100000005 = some (grid [] 2 2) ∧ dealReady (gridded (grid [] 2 2)) (grid [] 2 2) = false ∧
    completeReady (gridded (grid [] 2 1)) (grid [] 2 1) = false ∧ completeReady (gridded (grid [(0x50, 8, 0x20800)] 2 0)) (grid [(0x50, 8, 0x20800)] 2 0) = true ∧
    (storeDone (gridded (grid [(0x50, 8, 0x20800)] 2 0)) (grid [(0x50, 8, 0x20800)] 2 0)).map (·.2) = some 0 ∧ ((gridded (grid [] 2 0)).page 0).discard = false := by decide +kernel

/-! ### Management -/

/-- A referee in a state of its mailbox. -/
def managed (r : Referee) (h : Hub) : State := { placed [] [(0, rec 2 4 2 1), (1, setField (rec 2 4 2 1) 0x50 8 0x200000)] giving with referee := r, hub := h }
def ready8 : Referee := { Referee.reset with stage := 8 }
/-- The mailbox takes a command of source 0 (Takes), as a computation. -/
def takes (s : State) (minimal : Bool) : Bool := decide (s.referee.mbStatus < 2 ^ 31) && (!s.referee.minimal || minimal) && s.referee.owner == 0

/-- Mailbox, the checks: busy, minimal mode, another owner, and a command that is taken; arguments of a length that is wrong for every command. -/
theorem witness_mailbox : let m (r : Referee) := managed r Hub.reset
    2 ^ 31 ≤ (m { ready8 with mbStatus := 2 ^ 31 }).referee.mbStatus ∧ (m { ready8 with minimal := true }).referee.minimal = true ∧ (1 : Nat) ≠ (m ready8).referee.owner ∧
    takes (m ready8) false = true ∧ takes (m { ready8 with minimal := true }) true = true ∧ (List.replicate 4097 (0 : Byte)).length = 4097 := by decide +kernel

/-- Mailbox, the images: arguments at the limits, a slot that is open and one that is not, a package that has started and one that has not. -/
theorem witness_images : let r := { ready8 with images := [.reset, { Image.reset with size := 16, opened := true }] }
    takes (managed ready8 Hub.reset) true = true ∧ (ready8.images.getD (1 - ready8.slot) .reset).opened = false ∧ (r.images.getD (1 - r.slot) .reset).opened = true ∧
    (leBytes 8 12 ++ leBytes 4 7).length = 12 ∧ leNat ((leBytes 8 12 ++ leBytes 4 7).take 8) + 4 = 16 ∧ 16 < leNat ((leBytes 8 13 ++ leBytes 4 7).take 8) + 4 ∧
    1 < leNat (leBytes 4 2) ∧ leNat (leBytes 4 1) ≤ 1 ∧ ready8.stage = 8 ∧ Referee.reset.stage ≠ 8 ∧ ready8.reason < 8 ∧ ready8.failcnt < 4 ∧ ready8.slot < 2 := by decide +kernel

/-- A partition record that is valid, with clusters and virtual functions. -/
def partBytes (clusters vfs : Nat) : List Byte := (PartRec.bytes { PartRec.reset with clusters := BitVec.ofNat 20 clusters, vfs := BitVec.ofNat 128 vfs, valid := true })
/-- The hypotheses of SET_PARTITION's clauses: whether it is bad, and the teams that are to leave. -/
def partBad (s : State) (i : Nat) (b : List Byte) : Bool :=
  let new := { PartRec.ofBytes b with resetting := false }
  partOverlaps s i new || teamsIn s (new.given &&& ~~~(s.partRec i).given) != []
def partLeave (s : State) (i : Nat) (b : List Byte) : List Nat :=
  let new := { PartRec.ofBytes b with resetting := false }
  (teamsIn s ((s.partRec i).given &&& ~~~new.given)).filter fun t => s.partOf t == i
/-- Mailbox, the partitions: an index and a record out of range; an overlap; a gained cluster that holds a team; a change with nothing to leave; one with teams to save. -/
theorem witness_partitions : let s := managed { ready8 with parts := [(1, { PartRec.reset with valid := true, clusters := 2, vfs := 1 })] } Hub.reset
    let one := placed [] [(1, setField (rec 2 4 2 1) 0x50 8 0x200000)] giving
    let old := { one with referee := { ready8 with parts := [(1, { PartRec.reset with valid := true, clusters := 1 })] } }
    (leBytes 4 11 ++ partBytes 4 2).length = 68 ∧ partRecordOk (partBytes 4 2) = true ∧ partRecordOk (setField (partBytes 4 2) 0x30 2 0x4000) = false ∧ takes s false = true ∧
    partBad s 11 (partBytes 2 2) = true ∧ partBad s 11 (partBytes 4 1) = true ∧ partBad s 11 (partBytes 1 2) = true ∧ partBad s 11 (partBytes 4 2) = false ∧
    partLeave s 11 (partBytes 4 2) = [] ∧ takes old false = true ∧ partBad old 1 (partBytes 0 0) = false ∧ partLeave old 1 (partBytes 0 0) = [1] ∧ old.saveBase 1 ≠ 0 ∧ old.bindField 1 0 1 ≠ 0 := by decide +kernel

/-- Mailbox, tenants, grids and dies: entries out of range, one with grids, one without; a grid that lives and one that does not; a die that is down. -/
theorem witness_tenants : let s := managed ready8 { Hub.reset with tenants := [(5, setField tenantBytes 0x68 2 1)], grids := [grid [] 0 2] }
    (leBytes 4 4095 ++ tenantBytes).length = 132 ∧ tenantOk tenantBytes = true ∧ tenantOk (setField tenantBytes 8 8 1) = false ∧ takes s false = true ∧
    (recField (List.replicate 128 (0 : Byte)) 0 1).testBit 0 = false ∧ recField (s.tenant 5) 0x68 2 ≠ 0 ∧ (s.tenant 5).length = 128 ∧ recField (s.tenant 4095) 0x68 2 = 0 ∧
    (recField tenantBytes 0 1).testBit 0 = true ∧ (s.tenant 4095).length = 128 ∧ s.findGrid (BitVec.ofNat 64 (leNat (leBytes 8 0x100000005))) = some (grid [] 0 2) ∧
    (s.findGrid (BitVec.ofNat 64 (leNat (leBytes 8 1)))).isNone = true ∧ (s.page 0).discard = false ∧ (s.die 3).down = false ∧
    (({ s with dies := [(3, { Die.reset with down := true })] } : State).die 3).down = true := by decide +kernel

/-- Mailbox, the reads: a log that is full. -/
theorem witness_log : let s := managed { ready8 with logNext := 5 } Hub.reset
    takes s true = true ∧ takes s false = true ∧ s.referee.logNext < 4096 ∧ (leBytes 4 4095).length = 4 ∧ 1 ≤ [(1 : Byte)].length := by decide +kernel
theorem witness_full_log : ({ ready8 with log := List.replicate 4096 [] } : Referee).log.length = 4096 := List.length_replicate

/-- ResetsAndSnapshots, snapshots and starts: a trigger in flight and none; a block that waits; SNAP; minimal mode without an image, and with one; a start under way at
its first stage, its second and its last. -/
theorem witness_starts : let f := managed ready8 { Hub.reset with snapFlight := true, snapWait := [235] }
    f.hub.snapFlight = true ∧ 235 ∈ f.hub.snapWait ∧ (small 0x07).hub.snapFlight = false ∧ takes f false = true ∧ ready (serving true []) soloHere [.snap 4 0xFFFF] = true ∧
    uniformSplit ((serving true []).group 0) soloHere = false ∧ (managed ready8 { Hub.reset with snapFlight := true }).hub.snapWait = [] ∧
    ({ ready8 with minimal := true, verified := true } : Referee).verified = true ∧ ({ ready8 with minimal := true } : Referee).verified = false ∧ ready8.boot = none ∧
    ({ ready8 with boot := some 7, failcnt := 1 } : Referee).failcnt < 2 ∧ 2 ≤ ({ ready8 with boot := some 0, failcnt := 2 } : Referee).failcnt := by decide +kernel

/-- ResetsAndSnapshots, the functions: one of a self-hosted partition, one of another, one of none. -/
theorem witness_functions : let s := managed { ready8 with parts := [(1, { PartRec.reset with valid := true, self := true, vfs := 1 }), (2, { PartRec.reset with valid := true, vfs := 2 })] } Hub.reset
    s.vfPart 0 = some 1 ∧ (s.partRec 1).self = true ∧ s.vfPart 1 = some 2 ∧ (s.partRec 2).self = false ∧ s.vfPart 127 = none := by decide +kernel

/-- ResetsAndSnapshots, the control pages: handles that name no group, a group of another partition, one that runs, one that is parked; a read of the upstream window. -/
def handled2 (h : DWord) (parked : Bool) : State := let s := beside h (parkedGroup parked); { s with hub := { Hub.reset with ctl := [(1, { ControlPage.reset with ghandle := h })] } }
theorem witness_control_pages : let up := logged (small 0x07) (opAt (.load 4 4) 0x10000 0 [[hit 0x4000000000]])
    (handleGroup (handled2 0xFF true) ((handled2 0xFF true).ctl 1).ghandle).isNone = true ∧ handleGroup (handled2 0x300000100 true) 0x300000100 = some 64 ∧
    (handled2 0x300000100 true).partOf ((handled2 0x300000100 true).group 64).tid ≠ 1 ∧ ([true, false].all fun p => let s := handled2 0x300002000 p
      handleGroup s (s.ctl 1).ghandle == some 1 && s.partOf (s.group 1).tid == 1 && (s.group 1).parked == p && (s.group 1).frame == some frame0) = true ∧
    up.findOp 0 7 = some (opAt (.load 4 4) 0x10000 0 [[hit 0x4000000000]]) ∧ ((up.placed (opAt (.load 4 4) 0x10000 0 [[hit 0x4000000000]])).find? fun p => upstreamHit p.2).isSome = true ∧
    (MemKind.load 4 4).counter ≠ 1 ∧ (up.group 0).frame = none ∧ (up.group 0).queue.length < 8 ∧ (up.findOp 0 8).isNone = true := by decide +kernel

/-! ### The step -/

/-- StepRunsTheDecodedInstruction: an input that is due, external or not; a gang that fetches a word, which decodes or does not; an event; nothing at all. -/
theorem witness_step : let s := State.reset.withFetchWord 32 0x01050382; let b := State.reset.withFetchWord 32 0x83000001
    let e := { State.reset with cores := [(0, { Core.reset with zeroQueue := [3] })] }
    dueInput 5 [(9, .hotReset), (5, .coldStart)] = some (.coldStart, [(9, .hotReset)]) ∧ isExternal .coldStart = true ∧ isExternal (.add 0 0 0) = false ∧
    (dueInput s.time s.inputs).isNone = true ∧ readyGangs s = [{ gid := 0, gang := 1 }] ∧ (internalEvents s).length = 0 ∧ (choices s).length = 1 ∧
    (fetch s 0 ((s.group 0).slice (lowestSlice 1)).pc).2 = .word 0x01050382 ∧ (decodeWord (0x01050382 : Word).toNat).isSome = true ∧
    (readyGangs b).length = 1 ∧ (internalEvents b).length = 0 ∧ (fetch b 0 ((b.group 0).slice (lowestSlice 1)).pc).2 = .word 0x83000001 ∧ (decodeWord (0x83000001 : Word).toNat).isNone = true ∧
    readyGangs e = [] ∧ (internalEvents e).length = 1 ∧ readyGangs State.reset = [] ∧ (internalEvents State.reset).length = 0 := by decide +kernel
/-- StepsKeepMemoryCanonical: the invariant holds at reset, and the step goes on. -/
theorem witness_inv : Machine.Inv State.reset ∧ (match step State.reset with | .next _ => true | _ => false) = true := by
  refine ⟨?_, by decide +kernel⟩
  unfold Machine.Inv; decide +kernel
/-- EveryWordDecodesBack: a word of each kind. -/
theorem witness_words : (Instr.add 5 3 0x82).isWord = true ∧ (Instr.add 5 3 0x82).wellFormed = true ∧ (decodeWord 0x01050382).isSome = true ∧ 0x01050382 < 2 ^ 32 ∧ opcodeUsed (0xFF000000 / 2 ^ 24) = false := by
  decide +kernel

/-! ## Single steps with the spec's own numbers

Each expected value is printed in the spec's text or counted by hand from the rule named. -/

/-- What the instruction leaves in v[n] of lane 0. -/
def vAfter (mode : Word) (v : Sparse (List Word)) (n : Nat) (i : Instr) : Option Word :=
  match Machine.exec i (withRegs mode v []) with
  | .next t => some (readV (t.group 0) n 0)
  | _ => none
/-- What the instruction leaves in s[n]. -/
def uAfter (mode : Word) (u : Sparse Word) (n : Nat) (i : Instr) : Option Word :=
  match Machine.exec i (withRegs mode [] u) with
  | .next t => some (uget (t.group 0) n)
  | _ => none
/-- The class code and the cause field of the trap that the instruction leaves in the queue. -/
def trapAfter (i : Instr) (s : State) : Option (BitVec 8 × BitVec 16) :=
  match Machine.exec i s with
  | .next t => (t.group 0).queue.head?.map fun e => (e.record.code, e.record.cause)
  | _ => none
/-- Every case holds: the mode, v1, v2, the instruction with destination v3, and v3 after it. -/
def gives (l : List (Word × Word × Word × Instr × Word)) : Bool := l.all fun c => vAfter c.1 [(1, [c.2.1]), (2, [c.2.2.1])] 3 c.2.2.2.1 == some c.2.2.2.2
def givesU (l : List (Word × Word × Word × Instr × Word)) : Bool := l.all fun c => uAfter c.1 [(1, c.2.1), (2, c.2.2.1)] 3 c.2.2.2.1 == some c.2.2.2.2

/-- R83's example, and arithmetic at the ends of the types: INT32 is ETYPE 0, UINT32 1, INT8X4 4. -/
theorem test_vector_arithmetic : gives [(0x1047, 0x7F80FF01, 0x01FF0203, .add 3 1 2, 0x7F800104), (0x47, 0x7F80FF01, 0x01FF0203, .add 3 1 2, 0x807F0104), (0x07, 0, 1, .sub 3 1 2, 0xFFFFFFFF),
    (0x1017, 0, 1, .sub 3 1 2, 0), (0x07, 0xFFFFFFFF, 5, .mul 3 1 2, 0xFFFFFFFB), (0x07, 0xFFFFFFFF, 5, .mulh 3 1 2, 0xFFFFFFFF), (0x17, 0xFFFFFFFF, 5, .mulh 3 1 2, 4),
    (0x07, 0xFFFFFFFF, 5, .min 3 1 2, 0xFFFFFFFF), (0x17, 0xFFFFFFFF, 5, .min 3 1 2, 5), (0x17, 0xFFFFFFFF, 5, .max 3 1 2, 0xFFFFFFFF), (0x07, 0x80000000, 0, .abs 3 1, 0x80000000),
    (0x1007, 0x80000000, 0, .abs 3 1, 0x7FFFFFFF), (0x1017, 5, 0, .neg 3 1, 0)] = true := by decide +kernel
/-- R84 to R87: bits, shifts and fields. -/
theorem test_vector_bits : gives [(0x07, 0xF0F0F0F0, 0xFF00FF00, .andn 3 1 2, 0x00F000F0), (0x07, 0xFFFF0001, 0, .popc 3 1, 17), (0x07, 0, 0, .clz 3 1, 32), (0x47, 0x00018010, 0, .clz 3 1, 0x08070003),
    (0x07, 0x00000003, 0, .brev 3 1, 0xC0000000), (0x07, 0xFFFFFFFF, 32, .shl 3 1 2, 0), (0x07, 0x80000000, 40, .sar 3 1 2, 0xFFFFFFFF), (0x07, 0x80000001, 33, .rol 3 1 2, 0x00000003),
    (0x07, 0x12345678, 0x0804, .bfe 3 1 2, 0x67), (0x07, 0x000000F0, 0x0404, .bfe 3 1 2, 0xFFFFFFFF), (0x07, 0xFF, 0x0404, .bfi 3 1 2, 0xF0), (0x07, 5, 0, .addi 3 1 0xF8, 0xFFFFFFFD),
    (0x07, 0, 0, .movi 3 0xFFFD, 0xFFFFFFFD), (0x07, 0, 0, .movhi 3 0x3F80, 0x3F800000)] = true := by decide +kernel
/-- R99 to R102: the uniform instructions. -/
theorem test_uniform : givesU [(0x07, 0xFFFFFFFF, 1, .uadd 3 1 2, 0), (0x07, 3, 5, .usub 3 1 2, 0xFFFFFFFE), (0x07, 7, 6, .umul 3 1 2, 42), (0x07, 0x80000000, 31, .usar 3 1 2, 0xFFFFFFFF),
    (0x07, 0x80000000, 1, .umin 3 1 2, 0x80000000), (0x17, 0x80000000, 1, .umin 3 1 2, 1), (0x07, 0, 0, .umovi 3 0x8000, 0xFFFF8000), (0x07, 3, 0, .uaddi 3 1 0xF8, 0xFFFFFFFB),
    (0x07, 9, 0, .umov 3 1, 9)] = true := by decide +kernel
/-- R133's example. -/
theorem test_conversions : gives [(0x87, 0x3F808000, 0, .cvt 3 1 1 10, 0x3F800000), (0x87, 0x43FA0000, 0, .cvt 3 1 0 12, 0x0000007F), (0x87, 0xC0300000, 0, .cvtr 3 1 1 0 0, 0xFFFFFFFE),
    (0x87, 0xC0300000, 0, .cvt 3 1 0 0, 0xFFFFFFFD)] = true ∧ vAfter 0x1087 [(1, [0x43FA0000]), (3, [0x7F])] 3 (.cvt 3 1 1 12) = some 0x00007E7F := by decide +kernel
/-- R106, R122 to R127: sums, products and functions with exact results. -/
theorem test_floats : gives [(0x87, 0x3F800000, 0x40000000, .fadd 3 1 2, 0x40400000), (0x87, 0x7F800000, 0x7F800000, .fsub 3 1 2, 0x7FC00000), (0x87, 0x3FC00000, 0xC0000000, .fmul 3 1 2, 0xC0400000),
    (0x87, 0x3F800000, 0x33800000, .fadd 3 1 2, 0x3F800000), (0x387, 0x3F800000, 0x33800000, .fadd 3 1 2, 0x3F800001), (0x87, 0x40000000, 0, .frcp 3 1, 0x3F000000), (0x87, 0x40800000, 0, .frsq 3 1, 0x3F000000),
    (0x87, 0x40800000, 0, .fsqrt 3 1, 0x40000000), (0x87, 0x40400000, 0, .fexp2 3 1, 0x41000000), (0x87, 0x41000000, 0, .flog2 3 1, 0x40400000), (0x87, 0xBF800000, 0, .fabs 3 1, 0x3F800000),
    (0x87, 0x00000001, 0, .fneg 3 1, 0x80000001), (0x87, 0xC0300000, 0, .rndint 3 1, 0xC0400000), (0x87, 0x3F800000, 3, .fscale 3 1 2, 0x41000000)] = true := by decide +kernel

/-- The split gang of 03's example: slice 0 issues, slice 1 is live in another gang. -/
def splitGang (mode : Word) : State :=
  at_ { group (slice mode 0xF) { slice mode 1 with gang := 1 } with vregs := [(8, [5, 0xFFFFFFFE, 9, 0]), (10, [1, 0, 1, 0])], uregs := [(5, 7)], preds := if mode == 1 then [0, 5] else [] } 1
/-- 03's example: CMP.GT, the exclusive scan and the reduction over lanes 0 and 2, and UADD's trap, which leaves s5. -/
theorem test_split_gang : (match Machine.exec (.cmp 4 1 8 0x84) (splitGang 0x07) with | .next t => (List.range 4).map (readP (t.group 0) 1) | _ => []) = [true, false, true, false] ∧
    (match Machine.exec (.scan 11 10 1 0) (splitGang 0x01) with | .next t => [readV (t.group 0) 11 0, readV (t.group 0) 11 2] | _ => []) = [0, 1] ∧
    (match Machine.exec (.redu 12 10 0) (splitGang 0x01) with | .next t => [0, 1, 2, 3].map (readV (t.group 0) 12) | _ => []) = [2, 0, 2, 0] ∧
    trapAfter (.uadd 5 5 0xA1) (splitGang 0x01) = some (0x04, 0x05) ∧
    (match Machine.exec (.uadd 5 5 0xA1) (splitGang 0x01) with | .next t => uget (t.group 0) 5 | _ => 0) = 7 := by decide +kernel

/-- R40's words: SETMODE 0x187, and the decode checks that 0x01850382, 0x930B0801, 0xE0000000 and 0xF4000000 fail. -/
theorem test_decode_checks : (match Machine.exec (.setmode 0x187) (small 0x07) with | .next t => ((t.group 0).slice 0).mode | _ => 0) = 0x187 ∧
    ([(0x01850382, 4), (0x930B0801, 5), (0xE0000000, 1), (0xF4000000, 2)].all fun (c : Word × Nat) =>
      match decodeCheck ((small 0x07).group 0) here c.1 with | some t => t.code == 0x01 && t.cause == c.2 | none => false) = true := by decide +kernel
/-- The branches of 02's example: MARK pushes its target, 6 instructions on; lanes with p2 true go to the target, and the others wait on a DIV entry. -/
def forking : State := at_ { group (slice 0x07 0xF) Slice.dead with preds := [0, 0, 3] } 1
theorem test_branches : (match Machine.exec (.mark 6) forking with | .next t => ((t.group 0).slice 0).stack | _ => []) = [{ kind := .mark, mask := 0xF, pc := 0x10018 / 4 }] ∧
    (match Machine.exec (.bra 2 3) forking with | .next t => let x := (t.group 0).slice 0; some (x.stack, x.run, x.pc) | _ => none) =
      some ([{ kind := .div, mask := 0xC, pc := 0x10004 / 4 }], 3, 0x1000C) := by decide +kernel

/-- R115's example: an SX9 block of 1.5, -0.75, 0.1 and 0.2 (as FP32 cannot hold the last two, as exact fractions of 2^60 that round alike). -/
theorem test_sx_pack : leBytes 18 (sxPack [.fin false 3 (-1), .fin true 3 (-2), .fin false 0 0, .fin false 0 0, .fin false 0x1999999999999A (-56), .fin false 0x1999999999999A (-55), .fin false 0 0, .fin false 0 0,
    .fin false 0 0, .fin false 0 0, .fin false 0 0, .fin false 0 0, .fin false 0 0, .fin false 0 0, .fin false 0 0, .fin false 0 0] 7 0) =
    [0x7F, 0xFC, 0x60, 0xB0, 0, 0, 0x33, 0x66, 0, 0, 0, 0, 0, 0, 0, 0, 0, 0] := by decide +kernel
/-- R117's example: two K-steps with K = 20, and the NaN past K. -/
theorem test_accumulate : let row (l : List Nat) : List Byte := l.flatMap (leBytes 2)
    let acc := (tileSteps 0 0 false [row ([0x3FC0, 0x3400] ++ List.replicate 14 0 ++ [0xBF00, 0, 0, 0, 0, 0, 0, 0x7FC0])] [row ([0x4000, 0x3440] ++ List.replicate 14 0 ++ [0x3F80] ++ List.replicate 7 0)] 20 [[0]])
    acc = [[0x0050000000000080]] ∧ accConvert 0 0 false 0x0050000000000080 = 0x40200000 := by decide +kernel
/-- R411's table: elements of the accumulator as FP32. -/
theorem test_convert_accumulator : ([(0x0005000000000088, 0x42200000), (0x0A00000000000088, 0x46A00000), (0x5088, 0x30200000), (0x88, 0)].all fun (c : DWord × Nat) => accConvert 0 0 false c.1 == c.2) = true := by decide +kernel
/-- The ordered add of R163's example: keys 16,384, 5 and 2, in the order of arrival. -/
theorem test_ordered_add : ({ addr := 0, f64 := false, count := 3, grid := 0, items := [(16384, 0x4B800000), (5, 0x3F800000), (2, 0x3F800000)] } : AddQueue).total 0 = 0x4B800001 := by decide +kernel
/-- The record of 12's example, and R403's BOOT_STATUS. -/
theorem test_record_words : ({ cause := 0x1800, nested := false, logged := true, async := false, code := 0x0A, qleft := 1, lane := 36, addr := 0, pc := 0, opword := 0x920A0800 } : Machine.Record).words.take 2 = [0x1800040A, 0x124] ∧
    ({ Referee.reset with minimal := true, reason := 3, stage := 2, failcnt := 3, slot := 0 } : Referee).bootStatus = 0x83230000 := by decide +kernel

/-! ### Requests that wait for a reply, and further states of the statements above -/

/-- PageTableWalk with ADUP: a leaf without A, a leaf without D that is written; the PTE's line free, and held by a write that waits there. -/
def adupState (pte : Nat) (held : Bool) : State :=
  { walkState 4 pte with referee := { Referee.reset with parts := [(1, { PartRec.reset with adup := true })] },
                         hub := { Hub.reset with retries := if held then [writeAt 0x8000004000] else [] } }
theorem witness_walk_updates : ([0x9F, 0x5F].all fun flags => [false, true].all fun held =>
      let s := adupState (0x800001000 * 2 ^ 8 + flags) held
      s.pread 0x8000004000 8 == 0x800001000 * 2 ^ 8 + flags && pteSlot (tableBase s 0x8000000000 0 4) 0 0 == 0x8000004000 && (s.partRec 1).adup && s.lineHeld 0x8000004000 == held &&
      plainB s 0x8000004000 8) = true ∧ (0x800001000 * 2 ^ 8 + 0x9F).testBit 6 = false ∧ (0x800001000 * 2 ^ 8 + 0x5F).testBit 7 = false ∧ (0x800001000 * 2 ^ 8 + 0x5F).testBit 58 = false := by
  decide +kernel

/-- FramesAndHints: a frame that the referee may give, and one whose partition's quota is used up; PHINT at its homes, and one that waits for a claim. -/
def lent (quota : Nat) (frames : Sparse FrameRec) : State :=
  { State.reset with hub := { Hub.reset with frames := frames }, referee := { Referee.reset with parts := [(1, { PartRec.reset with valid := true, nearq := [quota, 0, 0, 0] })] } }
theorem witness_lent : let s := lent 1 []; let u := lent 1 [(0x8000200, { owned1 with alloc := true, local_ := true })]
    homeOf (0x8000000 * 4096) = 0 ∧ s.recordFrame 0x8000000 = 0x8000000 ∧ s.owned 0x8000000 = true ∧ (s.partRec 1).valid = true ∧ localCount s 1 0 < (s.partRec 1).quota 0 ∧
    (s.frameRec 0x8000000).alloc = false ∧ (s.frameRec 0x8000000).engaged = false ∧ ¬ localCount u 1 0 < (u.partRec 1).quota 0 := by decide +kernel
theorem witness_hint_replies : let o := { opAt (.phint 3 1) 0x10000 0 [] with active := 1 }; let p := { opAt (.phint 1 1) 0 0 [] with active := 1 }
    let put (s : State) (o : LogOp) : State := { s with cores := [(0, { s.core 0 with log := [o] })] }
    let s := put (tabled 0 0x10000 []) o; let w := put (tabled (0x8000010 * 2 ^ 10 + 0xDF + 2 ^ 58) 0 (some (claimOf 0x8000010 none) :: List.replicate 15 none)) p
    s.findOp 0 7 = some o ∧ opReady s o = true ∧ (hintPages s o 3 1).isSome = true ∧ w.findOp 0 7 = some p ∧ (hintPages w p 1 1).isNone = true := by decide +kernel

/-- MigrationAndHandover, the hub's replies: MIGR's operation at the head of the log, for each status. -/
def asked (x n : DWord) (h : Hub) : State :=
  let s := logged (at_ { group { handlerSlice with atomics := 1 } Slice.dead with frame := some frame0, solo := true } 1) (opAt (.migr 4) x (n.setWidth 128) [])
  { s with hub := h }
theorem witness_migration_replies : let F := Hub.reset; let r (f : FrameRec) : Hub := { F with frames := [(0x8000010, f), (0x8000020, owned1)] }
    let cases : List (DWord × DWord × Hub) := [(0x8000010006, 0, F), (0x8000010000, 1, F), (0x8000010000, 0x8000020000, r { owned1 with handoff := true }),
      (0x8000010000, 0x8000020000, r { owned1 with pinc := 1 }), (0x8000020000, 0x8000010000, r { owned1 with alloc := true }), (0x8000010000, 0x8000020000, { F with moves := sixteen }),
      (0x8000010000, 0x8000020000, F), (0x8000010002, 1, F), (0x8000010002, 0, { F with claims := waitingClaim.map fun c => c.map fun x => { x with frame := 0x8000010 } }),
      (0x8000010002, 0, { F with claims := waitingClaim.map fun c => c.map fun x => { x with frame := 0x8000010, failed := some 1 } }), (0x8000010002, 0, F),
      (0x8000010002, 0, { F with moves := [aMove (some 0) 0x8000010000 0x8000020000 3] }), (0x8000010002, 0, { F with moves := [aMove none 0x8000010000 0x8000020000 32] }),
      (0x100000010004, 3, F), (0x100000010004, 0x8000030000, F)]
    (cases.all fun c => let s := asked c.1 c.2.1 c.2.2; let o := opAt (.migr 4) c.1 (c.2.1.setWidth 128) []
      s.findOp 0 7 == some o && opReady s o && o.ea 0 == c.1.toNat && o.value 0 == c.2.1.toNat) = true := by decide +kernel
theorem witness_granted_claim : let held := { Hub.reset with claims := [some { claimOf 0x200000400 none with granted := true }], retries := [writeAt 0x8000030000] }
    (hubState held).hub.claims.getD 0 none = some { claimOf 0x200000400 none with granted := true } ∧ (hubState held).lineHeld 0x8000030000 = true ∧
    (hubState { held with retries := [] }).lineHeld 0x8000030000 = false ∧ 0x8000030000 / 4096 ≠ 0x200000400 := by decide +kernel

/-- SupervisorServices, FTMAP: a list whose quota has been lowered below the frames given. -/
theorem witness_first_touch_quota : let s := { touching touchLeaf ([0x8000100] :: List.replicate 5 []) [] with
      hub := { Hub.reset with regs := [(1, { PartRegs.reset with lists := [0x8000100] :: List.replicate 5 [] })], frames := [(0x8000100, { owned1 with alloc := true, local_ := true })] } }
    (s.partRec 1).quota 0 < localCount s 1 0 ∧ ((touching touchLeaf ([0x8000100] :: List.replicate 5 []) []).partRec 1).quota 0 = localCount (touching touchLeaf ([0x8000100] :: List.replicate 5 []) []) 1 0 := by
  decide +kernel

/-- ControlRegistersAndSolo, a privileged word outside SOLO mode: ready, and before its register is there. -/
theorem witness_illegal : let s := small 0x07; let w := logged s (op (.ldu 4 5) 0x10000 0 0x07)
    issuer s = some here ∧ here.solo = none ∧ wordReady s (s.group 0) here (encode (.crd 5 0)) = true ∧ issuer w = some here ∧ wordReady w (w.group 0) here (encode (.crd 5 0)) = false := by decide +kernel

/-- ReturnsAndParkedGroups: a log with room for the reissued operation, and a full one. -/
theorem witness_log_room : let full := { handler false with cores := [(0, { (handler false).core 0 with log := List.replicate 32 (op (.load 4 4) 0x10000 0 0x07) })] }
    logRoom (handler false) ((handler false).group 0) = true ∧ logRoom full (full.group 0) = false := by decide +kernel

/-- HeldTrapsAndFaultQueue: a retry of a trap whose team has no live group, one that enters its queue; an entry of the fault queue that names a parked group, and one that
names none; a ring whose line is held. -/
theorem witness_retries : let n := holding 0 [] [heldTrap] Slice.dead; let e := holding 7 [] [heldTrap] (slice 0x07 1)
    (n.core 0).retry = [heldTrap] ∧ (n.core 0).held.length < 64 ∧ n.asyncTarget heldTrap.gid = none ∧ e.asyncTarget heldTrap.gid = some 0 ∧ asyncRoom e 0 = true ∧
    asyncRoom (holding 8 [] [heldTrap] (slice 0x07 1)) 0 = false ∧ asyncRoom (holding 0 [heldTrap] [heldTrap] (slice 0x07 1)) 0 = false := by decide +kernel
theorem witness_referee_serves : let s := { beside 0 (parkedGroup true) with referee := { Referee.reset with faultQ := [{ posted with handle := 0x300002000 }, posted] } }
    s.referee.faultQ[0]? = some { posted with handle := 0x300002000 } ∧ handleGroup s 0x300002000 = some 1 ∧ s.partOf (s.group 1).tid = 1 ∧ (s.group 1).parked = true ∧
    (s.group 1).parkSerial = (0x300002000#64 >>> 32).setWidth 16 ∧ (s.group 1).frame = some frame0 ∧ s.referee.faultQ[1]? = some posted ∧ handleGroup s posted.handle = none ∧
    s.referee.faultQ[2]? = none ∧ (refereed 0 1 (rring 0 0)).lineHeld 0x8000010000 = false ∧
    ({ refereed 0 1 (rring 0 0) with hub := { (refereed 0 1 (rring 0 0)).hub with retries := [writeAt 0x8000010000] } } : State).lineHeld 0x8000010000 = true := by decide +kernel

/-- TeamsAndDispatch and Preemption: a record to restore whose save area's page waits at a move; a commit under way; an incoming team that is loaded; an operation that waits
for a log entry. -/
def restoring : State :=
  let inn := setField (setField (rec 1 0x50 8 0x80) 3 1 2) 0x30 8 (10 * 2 ^ 60 + 0x8000000)
  let s := placed [(0, group (slice 0x07 1) Slice.dead)] [(0, setField (rec 2 4 2 1) 0x50 8 0x200000), (1, inn)] { giving with preempting := some (0, 0, 1), committing := some 1 }
  { s with mem := tables 4 (0x8000010 * 2 ^ 10 + 0xDF + 2 ^ 58), hub := { Hub.reset with claims := some (claimOf 0x8000010 none) :: List.replicate 15 none } }
theorem witness_area_waits : areaWaits restoring 1 = true ∧ restoring.bindField 1 0 1 = 1 ∧ restoring.bindField 0 0 1 = 2 ∧ restoring.saveBase 0 ≠ 0 ∧ restoring.isHomeSlot 0 0 = true ∧
    (restoring.die 0).committing = some 1 ∧ (restoring.die 0).preempting = some (0, 0, 1) := by decide +kernel
theorem witness_loaded : let s := preempting 0x200000 (rec 2 4 2 1) (rec 1 4 2 1) (some (0, 0, 1))
    let l : State := { s with dies := [(0, { s.die 0 with loaded := true })] }
    (s.die 0).loaded = false ∧ areaWaits s 1 = false ∧ dispatchCode s 1 (some 0) = none ∧ 0 < s.bindField 1 4 2 ∧ s.bindField 0 0 1 = 2 ∧ (l.die 0).loaded = true ∧ l.bindField 0 0 1 = 2 ∧
    dispatchCode l 1 (some 0) = none ∧ ({ s.die 0 with committing := some 1 } : Die).committing ≠ none := by decide +kernel
theorem witness_relog : let s := { small 0x07 with groups := [(0, { (small 0x07).group 0 with withdrawn := [op (.load 4 4) 0x10000 0 0x07] })] }
    (s.die (dieOf 0)).committing ≠ some 0 ∧ (s.team 0).filling = false ∧ s.bindField 0 0 1 = 2 ∧ s.isHomeSlot 0 0 = true ∧ relogNext s 0 = some (0, op (.load 4 4) 0x10000 0 0x07) ∧
    relogNext (small 0x07) 0 = none := by decide +kernel

/-- Copies, a post's turn: partition 1 after partition 0, with a post that can be taken, and a post of partition 0 behind it. -/
theorem witness_turns : let s := buffered (slice 0x07 1) (.copy (copy .cpy linear .posted)); let x : PostSlot := { gang := 1, post := .copy (copy .cpy linear .posted), priv := false }
    let two (last : Nat) : State := { s with cores := [(0, { s.core 0 with postBuf := [(0, x), (1, x)], lastPost := [last, 8] })] }
    (Post.copy (copy .cpy linear .posted)).turnQueue = some 0 ∧ (Post.evict (evict .posted)).turnQueue = none ∧ takeReady (two 0) 0 x = true ∧ postTurn (two 0) 0 1 x = true ∧
    postTurn (two 0) 0 0 x = false ∧ postTurn (two 8) 0 0 x = true ∧ (Post.copy (copy .cpy linear .posted)).server s 0 = 0 := by decide +kernel

/-- SlabGrowthAndEviction: a SLABST of the entry that is still to be served, and none. -/
theorem witness_slab_storing : let s := basing 0x80000 0x100000 2 0 (entry 0) (slice 0x07 1)
    let w : State := { s with cores := [(0, { s.core 0 with log := [op (.slabst 2 false) 0x10000 0 0x07] })] }
    slabStoring s 0 2 = false ∧ slabStoring w 0 2 = true ∧ ready w here [.kvgrow 1 15 8 12, .kvevict 1 15 8 12] = true := by decide +kernel

/-- SlotsAndTasks: a task that waits for its fetch, and one whose fetch has stopped; the record's place for DONE. -/
theorem witness_waiting_task : let t := { task [] .queued with fetched := false }; let s := recorded [t] accst; let p := recorded [{ t with phase := .stopped }] accst
    s.teamTasks 0 = [t] ∧ t.fetched = false ∧ (engLoad s 0 0 t.recAddr.toNat 2).2 = .ok [9, 0] ∧ p.teamTasks 0 = [{ t with phase := .stopped }] ∧ (small 0x07).teamTasks 0 = [] := by decide +kernel
theorem witness_task_faults : let far := task (setField accst 0x20 8 (2 ^ 62 + 0x20000)) .running
    let place (s : State) (x : Task) := (donePlace (leaveEngine s 0 x) 0 0 x).2
    place (tasking [far]) far = .ok [(0x10008, 4, hit 0x8000010008)] ∧ plainB (tasking [far]) 0x8000010008 4 = true ∧
    (match place (tasking [{ far with recAddr := 0x20000 }]) { far with recAddr := 0x20000 } with | .fault _ _ => true | _ => false) = true ∧
    place { tasking [far] with hub := { Hub.reset with retries := [writeAt 0x8000010008] } } far ≠ .fault .stage1 0 := by decide +kernel

/-- LaunchPort: a ring in memory whose next line is held, and one in the host's. -/
theorem witness_held_ring : let p := { LaunchPage.reset with held := [List.replicate 32 1], rspBase := 0x8000020000 }
    (port { Hub.reset with pages := [(139, p)], retries := [writeAt 0x8000020000] }).lineHeld 0x8000020000 = true ∧ (port { Hub.reset with pages := [(139, p)] }).lineHeld 0x8000020000 = false := by
  decide +kernel

/-- LaunchPort, a packet from a fabric port: a tag that is wrong, and one that is right under a key of zeros, with a sequence number that is not above LASTSEQ. -/
def fabricTenant : List Byte := setField tenantBytes 0 1 0x0F
def tagged : List Byte := let b := (packet 0 []).bytes; b.take 0x70 ++ gmac (List.replicate 16 0) (List.replicate 12 0) (b.take 0x70)
theorem witness_fabric_packet : let h := { Hub.reset with tenants := [(5, fabricTenant)] }; let s : State := { port Hub.reset with hub := h }; let e := s.tenant 5
    recField (packet 0 []).bytes 0 2 = 5 ∧ (recField e 0 1).testBit 0 = true ∧ sourceBad s e 140 = false ∧ (gmac (part e 0x50 16) (part (packet 0 []).bytes 0x60 12) (part (packet 0 []).bytes 0 0x70) ==
      part (packet 0 []).bytes 0x70 16) = false ∧ (gmac (part e 0x50 16) (part tagged 0x60 12) (part tagged 0 0x70) == part tagged 0x70 16) = true ∧ recField tagged 8 8 ≤ recField e 0x60 8 := by
  decide +kernel

/-- GMAC (14 R392): the tag that a published vector of AES-128-GMAC gives for one block of 16 bytes. -/
theorem test_gmac : gmac ([0x77, 0xbe, 0x63, 0x70, 0x89, 0x71, 0xc4, 0xe2, 0x40, 0xd1, 0xcb, 0x79, 0xe8, 0xd7, 0x7f, 0xeb] : List Byte)
      [0xe0, 0xe0, 0x0f, 0x19, 0xfe, 0xd7, 0xba, 0x01, 0x36, 0xa7, 0x97, 0xf3]
      [0x7a, 0x43, 0xec, 0x1d, 0x9c, 0x0a, 0x5a, 0x78, 0xa0, 0xb1, 0x65, 0x33, 0xa6, 0x21, 0x3c, 0xab] =
    [0x20, 0x9f, 0xcc, 0x8d, 0x36, 0x75, 0xed, 0x93, 0x8e, 0x9c, 0x71, 0x66, 0x70, 0x9d, 0xd9, 0x46] := by decide +kernel

/-- Mailbox: a change of a partition that waits for a team to be saved, and one whose teams have gone. -/
theorem witness_changing : let r := { PartRec.reset with valid := true, clusters := 0 }
    let old := { placed [] [(1, setField (rec 2 4 2 1) 0x50 8 0x200000)] giving with referee := { ready8 with parts := [(1, { PartRec.reset with valid := true, clusters := 1 })], changing := some (1, r) } }
    let gone := { old with cores := [] }
    old.referee.changing = some (1, r) ∧ ((teamsIn old ((old.partRec 1).given &&& ~~~r.given)).filter fun t => old.partOf t == 1) = [1] ∧
    ((teamsIn gone ((gone.partRec 1).given &&& ~~~r.given)).filter fun t => gone.partOf t == 1) = [] := by decide +kernel

/-- ResetsAndSnapshots: SNAP's operation at the hub; a notice that waits for the operating system's answer; a copy that reads the upstream window. -/
theorem witness_replies : let o := opAt (.snap 4 9) 0 0 []; let s := logged (at_ { group { handlerSlice with atomics := 1 } Slice.dead with frame := some frame0, solo := true } 1) o
    s.findOp 0 7 = some o ∧ opReady s o = true ∧ s.hub.snapFlight = false ∧
    ({ ready8 with notices := [(3, 1)] } : Referee).notices = [(3, 1)] := by decide +kernel
theorem witness_upstream_copy : let c := copy .cpy linear .running
    let d : Die := { (copying [c]).die 0 with tlb := [{ probeLeaf with pbase := 0x4000000000, user := true, pbmt := 2 }] }
    let s : State := { copying [c] with dies := [(0, d)], referee := { Referee.reset with parts := [(1, { PartRec.reset with vfs := 1 })] } }
    s.findOp 0 3 = none ∧ s.findCopy 0 3 = some c ∧ (upstreamRead s 0 0 (copyReads s c)).isSome = true ∧ c.fault = none ∧ (s.findTask 0 9).isNone = true ∧ (s.findEvict 0 9).isNone = true := by
  decide +kernel

/-! ### Sync objects, subscriptions, slabs and pins when they are performed -/

/-- A state with sync entries. -/
def syncing (o : LogOp) (l : List SyncEntry) : State := let s := logged (small 0x07) o; { s with hub := { s.hub with sync := l } }
def syncEntry (asid : Nat) (cores : BitVec 160) (dirty : List DirtyPlace) : SyncEntry :=
  { obj := 0x8000010000, asid := asid, regions := (0x10000, 128) :: List.replicate 3 (0, 0), cores := cores, pkgs := 0, hosts := false, dirty := dirty }
/-- The hypotheses of OneLane, and of acquires and releases besides the entry. -/
def oneLane (s : State) (o : LogOp) : Bool :=
  s.findOp 0 7 == some o && (s.group o.gid).core == 0 && opReady s o && o.hits == [[hit 0x8000010000]] && lanesOf o.active == [0] && s.hub.moves.isEmpty &&
  ((s.core 0).l1Find (s.asid 0) (s.vmid 0) (o.ea 0 / 128)).isNone && !(s.home (homeOf 0x8000010000)).relayMarks.contains 0x8000010000 && plainB s 0x8000010000 8 && (s.core 0).l1.isEmpty

/-- SynchronisationPerforms: a join with a place that covers the agent; BIND with an entry of its own, of another address space and with none, UNBIND of each; ACQ and REL of
an object that is unbound, bound to this core alone, to another as well, and by another address space; a REL behind an earlier load. -/
theorem witness_sync_performs :
    let acq := opAt (.acq 4 4) 0x10000 0 [[hit 0x8000010000]]; let rel := opAt (.rel true 4) 0x10000 5 [[hit 0x8000010000]]
    let bind := opAt (.bind 1 2 0x10000 0x80) 0x10000 0 [[hit 0x8000010000]]; let unbind := opAt (.unbind 1) 0x10000 0 [[hit 0x8000010000]]
    let own := syncEntry 0 1 []; let shared := syncEntry 0 3 []; let other := syncEntry 9 1 []; let dirty := syncEntry 0 1 [{ core := 0, ceiling := 1 }]
    let full := syncEntry 0 1 ((List.range 8).map fun i => { core := i + 1, ceiling := 2 })
    (syncing acq [dirty]).syncFind 0x8000010000 = some dirty ∧ dirty.has (.core 0) = true ∧ dirty.has (.core 1) = false ∧ clusterOf 1 = clusterOf 0 ∧ (syncing acq []).syncFind 0x8000010000 = none ∧
    ([bind, unbind].all fun o => [[], [own], [other]].all fun l => let s := syncing o l; s.findOp 0 7 == some o && opReady s o && s.opPa o == 0x8000010000 && decide (s.hub.sync.length < 16384)) = true ∧
    ([acq, rel].all fun o => [[], [own], [shared], [other], [dirty], [full]].all fun l => oneLane (syncing o l) o) = true ∧
    ((syncing acq [own]).asid 0 = own.asid ∧ own.asid ≠ other.asid ∧ full.dirty.length = 8 ∧ full.has (.core 0) = true ∧ own.cores ||| (1#160 <<< 0) = 1#160 <<< 0 ∧ shared.cores ||| (1#160 <<< 0) ≠ 1#160 <<< 0) ∧
    (let p := { opAt (.load 4 0) 0x10000 0 [[hit 0x8000010000]] with id := 6, key := 0 }; let s := { small 0x07 with cores := [(0, { (small 0x07).core 0 with log := [p, rel] })] }
     s.findOp 0 7 = some rel ∧ p ∈ (s.core 0).log ∧ p.id ≠ rel.id ∧ p.key < rel.key ∧ p.gang &&& rel.gang ≠ 0 ∧ p.kind.counter < 3 ∧ (s.group 0).frameOp = []) := by decide +kernel

/-- A team with a scratchpad page and perhaps a standing slot; an LDS or UNSUB names the slot at window offset 0. -/
def subState (o : LogOp) (d : List DirSlot) : State :=
  { small 0x07 with teams := [(0, { Team.reset with window := 0x7000000000, scrSize := 0x20000 })], cores := [(0, { (small 0x07).core 0 with log := [o], directory := d })] }
/-- SubscriptionsEnd: LDS at a free and at a taken slot, of a cached and of an IO page; UNSUB of a live, a closing and a free one; a loss. -/
theorem witness_subscribing :
    let lds := opAt (.lds 1 false 0) 0x10000 0x7000000000 [[hit 0x8000010000]]; let io := opAt (.lds 1 false 0) 0x10000 0x7000000000 [[{ hit 0x8000010000 with attr := 2 }]]
    let unsub := opAt (.unsub 1 false) 0 0x7000000000 []
    ([(lds, [dirSlot .live 0]), (lds, []), (io, []), (unsub, []), (unsub, [dirSlot .closing 0]), (unsub, [dirSlot .live 0])].all fun e =>
      let s := subState e.1 e.2
      s.findOp 0 7 == some e.1 && opReady s e.1 && lanesOf e.1.active == [0] && slotOff s 0 (e.1.value 0 % 2 ^ 64) == some 0 && s.hub.moves.isEmpty &&
      ((s.core 0).l1Find (s.asid 0) (s.vmid 0) (e.1.ea 0 / 128)).isNone && (s.team 0).scratch.isEmpty && ((s.home 0).subs).isEmpty && decide (s.dirSlot 0 0 = e.2.head?)) = true ∧
    homeOf 0x8000010000 = 0 ∧
    (let l := standing (dirSlot .live 0) [] [push false] [] [] (aSub .live)
     sfind (l.home 0).subs 0 = some (aSub .live) ∧ l.dirSlot 0 0 = some (dirSlot .live 0) ∧ (aSub .live).core = (aSub .live).tid / 32 ∧ l.asyncTarget 0 = some 0 ∧
     (let r := { l with groups := [] }; r.asyncTarget 0 = none) ∧ asyncRoom l 0 = true ∧
     (let h := { l with groups := [(0, { l.group 0 with frame := some frame0 })] }; h.asyncTarget 0 = some 0 ∧ asyncRoom h 0 = true ∧ (h.group 0).frame ≠ none)) := by decide +kernel

/-- A core with slab entries, an operation in its log, and bytes at 0x10000. -/
def slabOp (o : LogOp) (l : Sparse Slab) (b : List Byte) : State :=
  let s := logged (small 0x07) o
  { s with mem := bputs [] 0x8000010000 b, cores := [(0, { s.core 0 with slabs := l })] }
/-- SlabGrowthAndEviction: SLABLD of a descriptor that is refused, accepted, and accepted with a full table; SLABST of an entry at work, of none, and of an idle one to each kind
of place; KVAPP at no entry, at a full one, at one whose page moves, and at one with room. -/
theorem witness_slab_operations :
    let good := (entry 0).bytes; let bad := setField good 0 8 1
    let ld := opAt (.slabld 4 1) 0x10000 0 [[hit 0x8000010000]]; let st (a : Nat) := opAt (.slabst 2 false) 0x10000 0 [[{ hit 0x8000010000 with attr := a }]]
    let app := { op (.kvapp 1 2 5) 0 0 0x07 with walked := true, hits := [] }
    ([(ld, ([] : Sparse Slab), good), (ld, [], bad)].all fun e => let s := slabOp e.1 e.2.1 e.2.2
      s.findOp 0 7 == some e.1 && opReady s e.1 && leBytes 64 ((laneVal (readAll s e.1).2 0).getD 0) == e.2.2) = true ∧
    slabValid good = true ∧ slabValid bad = false ∧ (small 0x07 |>.group 0).frame = none ∧ ((small 0x07).group 0).queue.length < 8 ∧
    ([(st 0, [(2, entry 0)]), (st 1, [(2, entry 0)]), (st 2, [(2, entry 0)]), (st 0, []), (opAt (.slabst 2 true) 0x7000000000 0 [[windowHit 0]], [(2, entry 0)])].all fun e => let s := slabOp e.1 e.2 []
      s.findOp 0 7 == some e.1 && opReady s e.1 && e.1.ea 0 % 64 == 0 && s.slabOf 0 2 == (e.2.head?.map (·.2)) && plainB s 0x8000010000 64) = true ∧
    (slabOp (st 0) [(2, entry 1)] []).slabOf 0 2 = some (entry 1) ∧ (entry 1).state ≠ 0 ∧ (entry 0).bytes.length = 64 ∧
    ([([] : Sparse Slab), [(2, { entry 0 with len := 64 })], [(2, { entry 0 with dbase := 0x10800, mbase := 0x10000 })]].all fun l => let s := slabOp app l []
      s.findOp 0 7 == some app && opReady s app) = true ∧
    (let s := { slabOp app [(2, { entry 0 with dbase := 0x7000000000, mbase := 0x7000010000, len := 0 })] [] with teams := [(0, { Team.reset with window := 0x7000000000, scrSize := 0x20000 })] }
     opReady s app && match walkOut app (walkAll s app).2 with | .done _ => true | _ => false) = true ∧
    (let s := growth 0 1 0x10800; let o := { op (.kvapp 1 2 5) 0 0 0x07 with id := 7 }; let u := { s with cores := [(0, { s.core 0 with log := [o], slabs := [(2, { entry 1 with moven := 1 })] })] }
     u.findOp 0 7 = some o ∧ u.slabOf 0 2 = some { entry 1 with moven := 1 } ∧ pageMoving u 0 2 ((entry 1).len / 64) = true) := by decide +kernel

/-! ### Checks, votes, lost leases, and stores at the homes -/

/-- Copies, the checks: a descriptor that passes, and one whose source is no multiple of its unit. -/
theorem witness_copy_checks : let team := { Team.reset with window := 0x7000000000 }
    (∀ cause, ¬ CopyFails team .cpy linear cause) ∧ CopyFails team .cpy crooked 0x10 ∧ ∀ k, k < 0x10 → ¬ CopyFails team .cpy crooked k := by
  refine ⟨fun cause h => ?_, by simp only [CopyFails]; decide, fun k hk h => ?_⟩
  · rcases Nat.lt_or_ge cause 25 with hk | hk
    · interval_cases cause
      all_goals first | exact h | exact absurd h (by simp only [CopyFails]; decide +kernel)
    · obtain ⟨n, rfl⟩ := Nat.exists_eq_add_of_le' hk
      exact h
  · interval_cases k <;> exact h

/-- SlotsAndTasks, the checks: addresses of a record that are misaligned, in memory, in storage, at a FIFO register and at no storage; a record with a reserved type. -/
theorem witness_record_checks : let t := { Team.reset with window := 0x7000000000, scrSize := 0x20000, fifos := [some [], none, none, none] }
    (0x10001 : DWord).toNat % 64 ≠ 0 ∧ t.offset 0x10000 = none ∧ t.offset 0x7000000000 = some 0 ∧ t.offset 0x7004000000 = some 0x4000000 ∧ t.offset 0x7005000000 = some 0x5000000 ∧
    RecordFails (recorded [] []) (task (body [(6, 1, 5)]) .queued) 0 := by
  refine ⟨by decide, by decide +kernel, by decide +kernel, by decide +kernel, by decide +kernel, ?_⟩
  simp only [RecordFails]
  decide +kernel

/-- An operation of lane 0 and what a check of it looks at: AlignmentTraps. -/
def checking (locks : List Lock) (fifos : List (Option (List (BitVec 128)))) : State :=
  let s := small 0x07
  { s with teams := [(0, { Team.reset with window := 0x7000000000, scrSize := 0x20000, fifos := fifos })], dies := [(0, { s.die 0 with locks := locks })] }
theorem witness_access_checks : let s := checking [lock 0x10000 true 9] [some [], none, none, none]; let g := s.group 0; let t := s.team 0
    let o (va : DWord) := op (.load 4 0) va 0 0x07
    (s.accesses (o 0x10001)).find? (fun a => a.va % 4 != 0) = some ⟨0, 0x10001, 4⟩ ∧
    (s.accesses (o 0x7000000000)).find? (fun a => (t.offset (BitVec.ofNat 64 a.va)).isSome) = some ⟨0, 0x7000000000, 4⟩ ∧
    winCheck t ⟨0, 0x7004000000, 4⟩ .load false = some (8, 2, 0x4000000) ∧ winCheck t ⟨0, 0x7005000000, 4⟩ .load false = some (9, 0, 0x5000000) ∧
    winCheck t ⟨0, 0x10000, 4⟩ .load false = none ∧ (s.lockHit (dieOf g.core) (s.asid g.tid) 0x10000 4 false).isSome = true ∧
    (s.lockHit (dieOf g.core) (s.asid g.tid) 0x10100 4 false) = none := by decide +kernel

/-- A check that finds a trap on the one operation that a meaning makes finds it on each that captures the same. -/
theorem memCheck_of_plan (s : State) (c : Ctx) (w : Word) (kind : MemKind) (k : CheckSpec) (f : TrapInfo) (active : Group → Ctx → LaneMask)
    (adr : State → Group → Ctx → Nat → DWord) (dat : State → Group → Ctx → Nat → BitVec 128) (h : memCheck (countIssue s c) (counted (s.group c.gid) c)
      (mkOp (countIssue s c) c (counted (s.group c.gid) c) w ⟨kind, active (s.group c.gid) c, adr s (s.group c.gid) c, dat s (s.group c.gid) c⟩) k = some f) (o : LogOp)
    (ho : Captures s c w kind (active (s.group c.gid) c) (adr s (s.group c.gid) c) (dat s (s.group c.gid) c) o) :
    memCheck (countIssue s c) (counted (s.group c.gid) c) o k = some f := by
  rw [(ho.same (mkOp_captures s c w ⟨_, _, _, _⟩)).memCheck]
  exact h

/-- LoadsAndStoresIssue: a load whose check finds a trap. -/
theorem witness_memory_trap : issuer oddState = some here ∧ issues (encode (.ldw 0 2 1)) oddState = true ∧
    ∀ o, Captures oddState here (encode (.ldw 0 2 1)) (.load 4 0) (activeSet (oddState.group here.gid) here) (laneAddr 2 1 4 oddState (oddState.group here.gid) here)
      (noData oddState (oddState.group here.gid) here) o →
      memCheck (countIssue oddState here) (counted (oddState.group here.gid) here) o (plainSpec 4 .load) = some ⟨8, 1, 1, 0, 5, 0⟩ := by
  refine ⟨by decide +kernel, by decide +kernel, ?_⟩
  exact memCheck_of_plan oddState here (encode (.ldw 0 2 1)) (.load 4 0) (plainSpec 4 .load) ⟨8, 1, 1, 0, 5, 0⟩ activeSet (laneAddr 2 1 4) noData (by decide +kernel)

/-- AlignmentTraps, the votes: lanes 0 and 1 differ in a register of a handle, of a lap, of an address. -/
def voting (mode : Word) : State := at_ { group (slice mode 3) Slice.dead with vregs := [(0, [1, 2])] } 1
theorem witness_votes : let s := voting 0xE7; let g := s.group 0
    ready s here [.tpost 0 0x1F, .barw 0 0 1, .sxst 4 0 4] = true ∧ lanesOf (runSet g here) = [0, 1] ∧ (isActive g here 0 && isActive g here 1) = true ∧ readV g 0 0 ≠ readV g 0 1 ∧
    (∀ i, 1 ≤ i → i < 4 → readV g i 0 = readV g i 1) := by decide +kernel

/-- Leases: a load from a region whose lease has expired. -/
def lostLease (o : LogOp) : State := let s := logged (small 0x07) o; { s with dies := [(0, { s.die 0 with leaseLost := [(0, 0x8000010000 / 0x200000, 3)] })] }
theorem witness_lease_lost : let o := op (.load 4 0) 0x10000 0 0x07; let s := lostLease o
    let r := translate s (s.xctx 0 0 false) 0x10000 0
    s.findOp 0 7 = some o ∧ o.walked = false ∧ s.accesses o = [⟨0, 0x10000, 4⟩] ∧ (s.team 0).offset 0x10000 = none ∧ (s.core 0).l1Find (s.asid 0) (s.vmid 0) (0x10000 / 128) = none ∧
    r.2 = .ok (hit 0x8000010000) ∧ homeError r.1 (s.partOf 0) 0x8000010000 false = none ∧ r.1.leaseFlag 0 0x8000010000 = some 3 ∧ (s.group 0).frame = none ∧
    (s.group 0).queue.length < 8 := by decide +kernel

/-- StoresAndAtomicsPerform: a store, a uniform store, an SX block and an atomic at a cached and at an uncached page, and an SX block in the window. -/
theorem witness_homes_serve :
    ([MemKind.store 4, .stu 8, .sxst, .atomic 0 3, .atomic 7 3].all fun k => [0, 1].all fun attr =>
      let h := { hit 0x8000010000 with attr := attr }; let o := opAt k 0x10000 5 [[h]]; let s := logged (small 0x07) o
      s.findOp 0 7 == some o && opReady s o && lanesOf o.active == [0] && o.left.getLsbD 0 && !o.wide 0 && plainB s h.pa 24 &&
      ((s.core 0).l1Find (s.asid 0) (s.vmid 0) (o.ea 0 / 128)).isNone && (k != .sxst || s.placed o == [(⟨0, 0x10000, sxBytes (o.sx 0)⟩, [h])])) = true ∧
    (let o := opAt .sxst 0x7000000000 5 [[windowHit 0]]; let s := logged (small 0x07) o; s.findOp 0 7 = some o ∧ opReady s o = true ∧ (s.team 0).scratch = []) := by decide +kernel

/-- FramesAndHints: PIN at the quota, at an IO page and within it; UNPIN of a frame with none, one and two; PCNT of an own page and of another's. -/
def pinning (k : MemKind) (attr : Nat) (r : FrameRec) (quota : Nat) : State × LogOp :=
  let o := opAt k 0x10000 0 [[{ hit 0x8000010000 with attr := attr, pteAddr := 0x8000020000 }]]
  let s := logged (small 0x07) o
  ({ s with hub := { s.hub with frames := [(0x8000010, r)] }, referee := { s.referee with parts := [(1, { PartRec.reset with pinq := quota })] } }, o)
theorem witness_pins : ([(MemKind.pin 1, 0, owned1, 0), (.pin 1, 2, owned1, 1), (.pin 1, 0, owned1, 1), (.unpin 1, 0, owned1, 1), (.unpin 1, 0, { owned1 with pinc := 1 }, 1),
      (.unpin 1, 0, { owned1 with pinc := 2 }, 1), (.pcnt 4 true, 0, owned1, 0), (.pcnt 4 true, 0, { owned1 with part := 2 }, 0)].all fun e =>
    let x := pinning e.1 e.2.1 e.2.2.1 e.2.2.2
    x.1.findOp 0 7 == some x.2 && opReady x.1 x.2 && x.1.frameRec (x.1.recordFrame 0x8000010) == e.2.2.1 && plainB x.1 0x8000020000 8 && x.1.partOf 0 == 1 &&
    (homeError (pinInc x.1 1 0x8000010).1 1 0x8000020000 true).isNone && (homeError (pinDec x.1 1 0x8000010).1 1 0x8000020000 true).isNone) = true := by decide +kernel

/-- ControlRegistersAndSolo: a word that a decode check turns away; Mailbox: a code of the table, an unknown one, a mailbox that is busy. -/
theorem witness_decode_checks : let i : Instr := .add 0x80 0 0; let s := small 0x07
    i.isWord = true ∧ i.wellFormed = true ∧ issuer s = some here ∧ wordReady s (s.group 0) here (encode i) = true ∧ (decodeCheck (s.group 0) here (encode i)).isSome = true ∧
    opcodeUsed 0x05 = true ∧ checked here 0 = true ∧ (0x12345 : DWord).toNat % 2 ^ 16 ≠ 1 ∧ State.reset.referee.mbStatus < 2 ^ 31 ∧
    2 ^ 31 ≤ ({ Referee.reset with mbStatus := 2 ^ 31 }).mbStatus ∧ Referee.reset.mbAlen.toNat ≤ 4096 ∧ 4096 < ({ Referee.reset with mbAlen := 5000 }).mbAlen.toNat := by decide +kernel

/-- FloatFunctionsAndConversions: values that are integers, powers of two and neither. -/
theorem witness_function_values : ((3 : Nat) : Rat) * pow2 0 = ((3 : Int).natAbs : Rat) ∧ (∀ j : Nat, 3 ≠ 2 ^ j) ∧ (∀ k : Nat, ((1 : Nat) : Rat) * pow2 (-1) ≠ k) := by
  refine ⟨by norm_num [pow2], fun j => ?_, fun k => ?_⟩
  · rcases j with _ | _ | j
    · decide
    · decide
    · have := Nat.one_le_two_pow (n := j); rw [Nat.pow_add]; omega
  · intro h
    norm_num [pow2] at h
    have h2 : (1 : Rat) = 2 * k := by linarith
    have h3 : (1 : Nat) = 2 * k := by exact_mod_cast h2
    omega

/-! ### What tasks compute and store -/

/-- The parts of an access lie in ordinary memory, apart from one another. -/
def partsB (r : State × EngPlace) : Bool :=
  match r with
  | (u, .ok ps) => ps.all (fun p => p.2.2.attr != 3 && plainB u p.2.2.pa p.2.1) && decide (ps.Pairwise fun p q => p.2.2.pa + p.2.1 ≤ q.2.2.pa ∨ q.2.2.pa + q.2.1 ≤ p.2.2.pa)
  | _ => false
def bytesB : State × EngData → Bool | (_, .ok _) => true | _ => false
def rowsB : State × RowsOut → Bool | (_, .ok _) => true | _ => false

/-- SlotsAndTasks, tiles: INT8 and FP64 rows of slots; MMA of one row and one column at its first and its last step, MV, ACCST to a slot and to memory. -/
def tile (fields : List (Nat × Nat × Nat)) : List Byte := body ([(0x10, 1, 7), (0x11, 1, 7), (0x12, 1, 1), (0x14, 2, 1), (0x16, 2, 1), (0x18, 4, 17), (0x28, 8, 1), (0x30, 8, 2)] ++ fields)
theorem witness_tiles :
    ([task (tile []) .running, { task (tile []) .running with step := 1, cells := [5] }, task (tile [(6, 1, 1)]) .running].all fun x =>
      let s := tasking [x]; let n := if x.typ = 0 then min 16 (x.k - 16 * x.step) else x.k; let k := if x.typ = 0 then 16 * x.step else 0
      s.findTask 0 5 == some x && decide (Memory.wf (s.core 0).opmem) && x.typ ≤ 1 && decide (x.m = 1 ∧ x.n = 1) && (x.cells.isEmpty || x.cells.length == x.m * x.n) &&
      rowsB (operandRows s 0 0 x (x.f 0x20 8) 7 0 [0] k n) && rowsB (operandRows s 0 0 x (x.f 0x28 8) 7 0 [0] k n)) = true ∧
    ([task (setField accst 0x20 8 3) .running, task accst .running].all fun x => let s := tasking [x]
      s.findTask 0 5 == some x && decide (Memory.wf (s.core 0).opmem) && x.typ == 2) = true ∧ (task (setField accst 0x20 8 3) .running).f 0x20 8 < 2 ^ 62 ∧
    2 ^ 62 ≤ (task accst .running).f 0x20 8 ∧
    partsB (engPlaces (tasking [task accst .running]) 0 0 ((List.range 4).map fun r => ((0x10100 + 16 * r : Nat), 16, true))) = true := by decide +kernel

/-- SlotsAndTasks, a step of the accumulation: each of its cases, and one whose sum leaves the field. -/
theorem witness_acc_step : accE 255 = 255 ∧ accE 0 ≠ 255 ∧ StepTop none [] ∧ StepTop (some 0) [(.fin false 1 0, .fin true 1 0)] := by
  refine ⟨by decide +kernel, by decide +kernel, by simp [StepTop], ?_⟩
  simp only [StepTop]
  decide +kernel

/-- Entry 2, with its data in scratch and its metadata at 0x10000; a task of the pair, and its state with READERS at n. -/
def kvEntry : Slab := { entry 0 with dbase := 0x7000000000, mbase := 0x10000 }
def kvBody (typ flags : Nat) : List Byte :=
  body [(6, 1, typ), (0x11, 1, 2), (0x12, 1, flags), (0x14, 2, 1), (0x18, 4, 0x3F800000), (0x28, 8, 4), (0x30, 8, if typ = 3 then 6 else 2 ^ 62 + 0x10800), (0x38, 8, 6)]
def kvState (x : Task) (e : Slab) (n : Nat) : State :=
  let s := slabbed (tasking [x]) e []
  { s with teams := [(0, { Team.reset with window := 0x7000000000, scrSize := 0x20000 })], mem := bputs [] 0x8000010006 (leBytes 2 n) }
def kvTask (typ flags step : Nat) (cap : Option Slab) : Task := { task (kvBody typ flags) .running with step := step, cap := cap, held := [0] }

/-- SlotsAndTasks, the capture: one that adds to READERS, one that waits at 0xFFFF, one that faults, one whose page is being moved. -/
theorem witness_capture : let x := { kvTask 4 0 0 none with phase := .queued }; let far := { kvEntry with mbase := 0x20000 }
    ([kvState x kvEntry 1, kvState x kvEntry 0xFFFF, kvState x far 1].all fun s => s.findTask 0 5 == some x && decide (Memory.wf (s.core 0).opmem) &&
      (s.slabOf 0 2).any (fun e => e.len == 1) && !pageMoving s 0 2 0) = true ∧ (x.f 0x12 1).testBit 1 = false ∧ 0 < x.m ∧
    (match engPlaces (kvState x far 1) 0 0 [(0x20006, 2, true)] with | (_, .fault _ _) => true | _ => false) = true ∧
    ([1, 0xFFFF].all fun n => let r := engPlaces (kvState x kvEntry n) 0 0 [(0x10006, 2, true)]
      partsB r && match r.2 with | .ok [(_, 2, h)] => leNat (bgets r.1.mem h.pa 2) == n | _ => false) = true ∧
    ((growth 0 1 0x10800).slabOf 0 2).any (fun e => e.len ≤ 2 ^ 20) = true ∧ pageMoving (growth 0 1 0x10800) 0 2 0 = true := by decide +kernel

/-- What every page step of a task of the pair needs: its entry, READERS of its page, and reads of the page. -/
def pageB (x : Task) (reads : List (Nat × Nat)) : Bool :=
  let s := kvState x kvEntry 1
  let r := engPlace s 0 0 0x10006 2 true
  s.findTask 0 5 == some x && decide (Memory.wf (s.core 0).opmem) && x.cap == some kvEntry && !pageMoving s 0 2 0 && reads.all (fun q => bytesB (engLoad r.1 0 0 q.1 q.2)) &&
  partsB r && match r.2 with | .ok [(_, 2, h)] => leNat (bgets r.1.mem h.pa 2) == 1 | _ => false

/-- SlotsAndTasks, the pair: a page of KVSEL and its final step; pages of ATTN in one pass, in the first and in the second of two, and its final steps. -/
theorem witness_attention :
    pageB (kvTask 3 1 0 (some kvEntry)) [(0x10000, 64), (0x101C0, 128), (0x103C0, 128)] = true ∧ kvD kvEntry.fmt.toNat = 64 ∧ ceilDiv kvEntry.len 64 = 1 ∧
    pageB (kvTask 3 1 1 (some kvEntry)) [] = true ∧ (kvTask 3 1 0 none).f 0x12 1 = 1 ∧ (kvTask 3 1 0 none).m = 1 ∧
    ([(0, 0), (1, 0), (1, 1)].all fun e => pageB (kvTask 4 e.1 e.2 (some kvEntry)) [(0x7000000000, 128), (0x7000000000 + 8192, 128)] && !((kvTask 4 e.1 e.2 none).f 0x12 1).testBit 1 &&
      ((kvTask 4 e.1 e.2 none).f 0x12 1).testBit 0 == (e.1 == 1)) = true ∧
    (let s := kvState (kvTask 4 1 1 (some kvEntry)) kvEntry 1; partsB (engPlaces s 0 0 [(0x10006, 2, true), (0x10140, 2, true)]) = true) ∧
    ([(0, 1), (1, 2)].all fun e => let x := kvTask 4 e.1 e.2 (some kvEntry)
      pageB x [] && partsB (engPlaces (kvState x kvEntry 1) 0 0 [((x.base.toNat + x.f 0x30 8 % 2 ^ 57) % 2 ^ 64, 256, true)])) = true := by decide +kernel

/-- SlotsAndTasks, the start of a task of the pair: it captures, or it has captured. -/
theorem witness_pair_starts : ([none, some kvEntry].all fun cap =>
      let x := { kvTask 4 0 0 cap with phase := .queued }; let s := locked x (kvState x kvEntry 1)
      let c := (cleanLines s (s.group 0).core (taskLines s x) false).modTask 0 5 fun y => { y with engine := 2 }
      s.findTask 0 5 == some x && startReady s 0 x && lockReady s 0 x && x.isKv && match kvCapture c 0 0 { x with engine := 2 } with | .ok _ => true | _ => false) = true := by decide +kernel

end Sys2Proof.Tests
end

section
/-! Every step keeps the canonical form of memory (O58).

Memory is written in one way only, byte by byte, and a byte write keeps the form (`wf_foldl_bput`, `wf_bputs`; for the memory system `Traffic.wf`).
So the invariant is followed through the model: one lemma for each function that gives a state, in the order of the model's files, then all
instructions and events (`inv_exec`), the events that are due (`actsKeep_internalEvents`), a gang's turn and the step. `Inv.f` speaks of `State.f`, `inv_f`
of `f`. The section of a file of the model has the file's name. -/
namespace Sys2Proof.Machine

/-! ## What it means for the results of the model's functions -/

/-- The invariant of an outcome: it holds in the next state, where there is one. -/
def InvAfter : Result → Prop
  | .next t => Inv t
  | .fault _ => True
  | .refused _ => True

/-- The invariant of what may be absent: it holds in the state that an answer carries, where there is one. -/
def InvIn {α : Type} (m : α → State) : Option α → Prop
  | some x => Inv (m x)
  | none => True

/-- The invariant of a task's step: it holds in the state that the step leaves, with a fault too. -/
def InvOut : StepOut → Prop
  | .ok s => Inv s
  | .fault s _ _ _ => Inv s
  | .wait => True

variable {s t : State}

/-! ## The invariant through conditions, lists and options -/

/-- The invariant speaks of memory alone. -/
theorem Inv.congr (h : Inv s) (e : t.mem = s.mem) : Inv t := by
  unfold Inv
  rw [e]
  exact h

/-- What the memory system does keeps the invariant. -/
theorem Inv.after (h : Inv s) (T : Traffic s t) : Inv t := T.wf h

theorem Inv.ite {p : Prop} [Decidable p] (a : Inv s) (b : Inv t) : Inv (if p then s else t) := by
  split
  · exact a
  · exact b

theorem Inv.ite_fst {α : Type} {p : Prop} [Decidable p] {x y : State × α} (a : Inv x.1) (b : Inv y.1) :
    Inv (if p then x else y).1 := by
  split
  · exact a
  · exact b

theorem InvAfter.next (h : Inv s) : InvAfter (.next s) := h

theorem InvIn.intro {α : Type} {m : α → State} {x : α} (h : Inv (m x)) : InvIn m (some x) := h

theorem InvIn.absent {α : Type} {m : α → State} : InvIn m none := trivial

theorem InvOut.ok (h : Inv s) : InvOut (.ok s) := h

theorem InvOut.fault {k : EngineFault} {n va : Nat} (h : Inv s) : InvOut (.fault s k n va) := h

theorem InvOut.wait : InvOut .wait := trivial

theorem InvOut.ite {p : Prop} [Decidable p] {x y : StepOut} (a : InvOut x) (b : InvOut y) : InvOut (if p then x else y) := by
  split
  · exact a
  · exact b

theorem InvAfter.ite {p : Prop} [Decidable p] {x y : Result} (a : InvAfter x) (b : InvAfter y) : InvAfter (if p then x else y) := by
  split
  · exact a
  · exact b

theorem InvIn.ite {α : Type} {m : α → State} {p : Prop} [Decidable p] {x y : Option α} (a : InvIn m x) (b : InvIn m y) :
    InvIn m (if p then x else y) := by
  split
  · exact a
  · exact b

theorem Inv.foldl {α : Type} {f : State → α → State} {l : List α} (h : Inv s) (hf : ∀ t x, Inv t → Inv (f t x)) : Inv (l.foldl f s) :=
  List.foldlRecOn (motive := Inv) l f h fun t ht x _ => hf t x ht

/-- A fold that carries a state beside other data. -/
theorem Inv.foldl_fst {α β : Type} {f : State × β → α → State × β} {l : List α} {r : State × β} (h : Inv r.1)
    (hf : ∀ r x, Inv r.1 → Inv (f r x).1) : Inv (l.foldl f r).1 :=
  List.foldlRecOn (motive := fun r => Inv r.1) l f h fun r hr x _ => hf r x hr

/-- A fold that may find no answer. -/
theorem InvIn.foldl {α β : Type} {m : β → State} {f : Option β → α → Option β} {l : List α} {o : Option β} (h : InvIn m o)
    (hf : ∀ o x, InvIn m o → InvIn m (f o x)) : InvIn m (l.foldl f o) :=
  List.foldlRecOn (motive := InvIn m) l f h fun o ho x _ => hf o x ho

theorem InvIn.map {α β : Type} {m : α → State} {n : β → State} {f : α → β} {o : Option α} (h : InvIn m o)
    (hf : ∀ x, Inv (m x) → Inv (n (f x))) :
    InvIn n (o.map f) := by
  cases o with
  | none => exact .absent
  | some x => exact hf x h

theorem InvIn.bind {α β : Type} {m : α → State} {n : β → State} {f : α → Option β} {o : Option α} (h : InvIn m o)
    (hf : ∀ x, Inv (m x) → InvIn n (f x)) :
    InvIn n (o.bind f) := by
  cases o with
  | none => exact .absent
  | some x => exact hf x h

theorem InvIn.orElse {α : Type} {m : α → State} {o : Option α} {k : Unit → Option α} (h : InvIn m o) (hk : InvIn m (k ())) :
    InvIn m (o.orElse k) := by
  cases o with
  | none => exact hk
  | some x => exact h

theorem Inv.fst_eq {α : Type} {r : State × α} {x : α} (h : Inv r.1) (e : r = (t, x)) : Inv t := by
  subst e
  exact h

theorem InvIn.of_eq {α : Type} {m : α → State} {o : Option α} {x : α} (h : InvIn m o) (e : o = some x) : Inv (m x) := by
  subst e
  exact h

theorem InvIn.getD {o : Option State} (h : InvIn id o) (k : Inv s) : Inv (o.getD s) := by
  cases o with
  | none => exact k
  | some t => exact h

/-! ## Ops: what its functions do to memory -/

theorem Inv.setGroup {gid : Nat} {g : Group} (h : Inv s) : Inv (s.setGroup gid g) :=
  h.congr (setGroup_mem ..)

theorem Inv.setTeam {tid : Nat} {t : Team} (h : Inv s) : Inv (s.setTeam tid t) :=
  h.congr (setTeam_mem ..)

theorem Inv.setCore {c : Nat} {k : Core} (h : Inv s) : Inv (s.setCore c k) :=
  h.congr (setCore_mem ..)

theorem Inv.setDie {d : Nat} {k : Die} (h : Inv s) : Inv (s.setDie d k) :=
  h.congr (setDie_mem ..)

theorem Inv.setHome {i : Nat} {k : Home} (h : Inv s) : Inv (s.setHome i k) :=
  h.congr (setHome_mem ..)

theorem Inv.modGroup {gid : Nat} {f : Group → Group} (h : Inv s) : Inv (s.modGroup gid f) :=
  h.congr (modGroup_mem ..)

theorem Inv.modTeam {tid : Nat} {f : Team → Team} (h : Inv s) : Inv (s.modTeam tid f) :=
  h.congr (modTeam_mem ..)

theorem Inv.modCore {c : Nat} {f : Core → Core} (h : Inv s) : Inv (s.modCore c f) :=
  h.congr (modCore_mem ..)

theorem Inv.modDie {d : Nat} {f : Die → Die} (h : Inv s) : Inv (s.modDie d f) :=
  h.congr (modDie_mem ..)

theorem Inv.modHome {i : Nat} {f : Home → Home} (h : Inv s) : Inv (s.modHome i f) :=
  h.congr (modHome_mem ..)

theorem Inv.modHub {f : Hub → Hub} (h : Inv s) : Inv (s.modHub f) :=
  h.congr (modHub_mem ..)

theorem Inv.modReferee {f : Referee → Referee} (h : Inv s) : Inv (s.modReferee f) :=
  h.congr (modReferee_mem ..)

theorem Inv.modRegs {p : Nat} {f : PartRegs → PartRegs} (h : Inv s) : Inv (s.modRegs p f) :=
  h.modHub

theorem Inv.modCtl {p : Nat} {f : ControlPage → ControlPage} (h : Inv s) : Inv (s.modCtl p f) :=
  h.modHub

theorem Inv.post {g : Group} {r : Record} (h : Inv s) : Inv (s.post g r) :=
  h.modReferee

theorem inv_tryDeliver {gid : Nat} (h : Inv s) : Inv (tryDeliver s gid) := by
  unfold tryDeliver
  dsimp only
  split
  · exact h
  · exact .ite h (.ite h.modCore.setGroup.post h.modCore.setGroup)

theorem inv_deliverIfQuiet {gid : Nat} (h : Inv s) : Inv (deliverIfQuiet s gid) := by
  unfold deliverIfQuiet
  exact .ite (inv_tryDeliver h) h

theorem inv_raiseEntry {c : Ctx} {e : TrapEntry} (h : Inv s) : Inv (raiseEntry s c e) := by
  unfold raiseEntry
  exact .ite h.setGroup.post (.ite h.setGroup.modCore (inv_deliverIfQuiet h.setGroup))

theorem inv_raiseTrap {c : Ctx} {w : Word} {t : TrapInfo} (h : Inv s) : Inv (raiseTrap s c w t) :=
  inv_raiseEntry h

theorem inv_resumeEngine {e : EngineRef} (h : Inv s) : Inv (resumeEngine s e) := by
  unfold resumeEngine
  split
  · exact h
  · exact h.modCore
  · exact h.modCore
  · exact h.modDie

theorem inv_enterAsync {gid : Nat} {r : Record} {e : EngineRef} (h : Inv s) : Inv (enterAsync s gid r e) :=
  inv_deliverIfQuiet h.setGroup

theorem inv_queueAsync {n gid : Nat} {r : Record} {e : EngineRef} (h : Inv s) : Inv (queueAsync s n gid r e) := by
  unfold queueAsync
  exact .ite (inv_enterAsync h) h.modCore

theorem inv_raiseAsync {gid : Nat} {r : Record} {e : EngineRef} (h : Inv s) : Inv (raiseAsync s gid r e) := by
  unfold raiseAsync
  split
  · exact inv_queueAsync h
  · exact h.post

theorem inv_closeFrame {gid : Nat} {skip : Bool} (h : Inv s) : Inv (closeFrame s gid skip) := by
  unfold closeFrame
  dsimp only
  split
  · exact h
  · refine inv_resumeEngine ?_
    split
    · exact .ite h.setGroup (.ite h.setGroup.modGroup.modCore h.setGroup.modGroup.modGroup)
    · exact h.setGroup

/-! ## Memory: what its functions do to memory -/

theorem inv_revertLines {die : Nat} {p : Nat → Bool} (h : Inv s) : Inv (revertLines s die p) := by
  unfold revertLines
  exact h.foldl fun _ _ ht => .ite (wf_foldl_bput _ _ ht) ht

theorem inv_endMig {acc : Nat} {r : State × Walk} (h : Inv r.1) : Inv (endMig acc r).1 := by
  unfold endMig
  split <;> exact h

/-! ## Issue: what its functions do to memory -/

theorem inv_withGang {k : Ctx → Group → Result} (hk : ∀ c g, InvAfter (k c g)) : InvAfter (withGang s k) := by
  unfold withGang
  split
  · exact trivial
  · exact .ite (hk _ _) trivial

theorem inv_countIssue {c : Ctx} (h : Inv s) : Inv (countIssue s c) :=
  h.setGroup.modCore

theorem inv_trapAt {c : Ctx} {w : Word} {t : TrapInfo} (h : Inv s) : InvAfter (trapAt s c w t) :=
  .next (inv_raiseTrap h)

theorem inv_issue {w : Word} {body : Ctx → Group → State → Result} (h : Inv s) (hbody : ∀ c g t, Inv t → InvAfter (body c g t)) :
    InvAfter (issue w s body) := by
  unfold issue
  refine inv_withGang fun _ _ => .ite (.next h) ?_
  split
  · exact inv_trapAt (inv_countIssue h)
  · exact hbody _ _ _ (inv_countIssue h)

theorem inv_retire {c : Ctx} {g : Group} (h : Inv s) : Inv (retire s c g) :=
  h.setGroup

theorem inv_issueRegs {w : Word} {f : Ctx → Group → State → Group} (h : Inv s) : InvAfter (issueRegs w s f) := by
  unfold issueRegs
  exact inv_issue h fun _ _ _ ht => .next (inv_retire ht)

theorem inv_issueUniform {w : Word} {destCode : Nat} {body : Ctx → Group → State → Result} (h : Inv s)
    (hbody : ∀ c g t, Inv t → InvAfter (body c g t)) :
    InvAfter (issueUniform w destCode s body) := by
  unfold issueUniform
  exact inv_issue h fun _ _ _ ht => .ite (inv_trapAt ht) (hbody _ _ _ ht)

/-! ## Fetch: what its functions do to memory -/

theorem inv_fetch {gid : Nat} {pc : DWord} (h : Inv s) : Inv (fetch s gid pc).1 := by
  unfold fetch
  dsimp only
  split
  · exact h
  · split
    · split
      · rename_i e
        exact (h.after (traffic_translate ..)).fst_eq e
      · rename_i e
        exact (h.after (traffic_translate ..)).fst_eq e
      · rename_i e
        have h1 := (h.after (traffic_translate ..)).fst_eq e
        exact .ite_fst h1 (h1.after (traffic_lineRequest ..)).modCore
    · split
      · rename_i e
        exact (h.after (traffic_reach ..)).fst_eq e
      · rename_i e
        exact (h.after (traffic_reach ..)).fst_eq e
      · rename_i e
        exact (((h.after (traffic_reach ..)).fst_eq e).after (traffic_lineRequest ..)).modCore

/-! ## OpLog: what its functions do to memory -/

theorem inv_issueMemWhen {w : Word} {uniform : Option Nat} {storeLike : Bool} {plan : Ctx → Group → State → LogPlan}
    {pre : Ctx → Group → State → LogOp → Option TrapInfo} {hold : Ctx → Group → State → Bool} (h : Inv s) :
    InvAfter (issueMemWhen w uniform storeLike s plan pre hold) := by
  unfold issueMemWhen
  refine inv_issue h fun _ _ _ ht => ?_
  dsimp only
  split
  · exact inv_trapAt ht
  · exact .ite (.next h) (.ite (.next (inv_retire ht)) (.next (inv_retire ht).modCore))

theorem inv_issueMem {w : Word} {uniform : Option Nat} {storeLike : Bool} {plan : Ctx → Group → State → LogPlan}
    {pre : Ctx → Group → State → LogOp → Option TrapInfo} (h : Inv s) :
    InvAfter (issueMem w uniform storeLike s plan pre) :=
  inv_issueMemWhen h

theorem inv_issueRequest {w : Word} {c : Ctx} {g : Group} {p : LogPlan} (h : Inv s) : InvAfter (issueRequest w s c g p) :=
  .next (inv_retire h).modCore

theorem inv_dropOp {o : LogOp} (h : Inv s) : Inv (dropOp s o) :=
  h.modCore

theorem inv_putOp {o : LogOp} (h : Inv s) : Inv (putOp s o) :=
  h.modCore

theorem inv_finishOp {o : LogOp} (h : Inv s) : Inv (finishOp s o) :=
  (inv_dropOp h).modGroup

theorem inv_raiseLogged {o : LogOp} {t : TrapInfo} (h : Inv s) : Inv (raiseLogged s o t) := by
  unfold raiseLogged
  exact .ite (inv_finishOp h).setGroup.post (inv_deliverIfQuiet (inv_dropOp h).modGroup)

theorem inv_walkOp {o : LogOp} (h : Inv s) : Inv (walkOp s o) := by
  unfold walkOp
  dsimp only
  split
  · exact inv_putOp (h.after (traffic_walkAll ..))
  · exact .ite (inv_raiseLogged (h.after (traffic_walkAll ..))) h
  · exact h

theorem inv_execTranslationWalk {core id : Nat} (h : Inv s) : InvAfter (execTranslationWalk core id s) := by
  unfold execTranslationWalk
  refine .next ?_
  split
  · exact .ite h (inv_walkOp h)
  · exact h

theorem inv_writePiece {gid va n x : Nat} {i : Hit} (h : Inv s) : Inv (writePiece s gid va n x i) := by
  unfold writePiece
  exact .ite h.modTeam (.ite ((h.after (traffic_lineRequest ..)).after (traffic_pstore ..)) (h.after (traffic_l1Store ..)))

theorem inv_writeAcc {gid : Nat} {a : Acc} {hs : List Hit} {x : Nat} (h : Inv s) : Inv (writeAcc s gid a hs x) := by
  unfold writeAcc
  exact h.foldl fun _ _ ht => inv_writePiece ht

theorem inv_unwalk {p : Group → Acc → Hit → Bool} (h : Inv s) : Inv (unwalk s p) := by
  unfold unwalk
  exact .congr h rfl

/-! ## LoadStore: what its functions do to memory -/

theorem inv_issueLoad {word : Word} {w : Nat} {d a imm : BitVec 8} (h : Inv s) : InvAfter (issueLoad word w d a imm s) :=
  inv_issueMem h

theorem inv_issueStore {word : Word} {w : Nat} {d a imm : BitVec 8} (h : Inv s) : InvAfter (issueStore word w d a imm s) :=
  inv_issueMem h

theorem inv_prefLane {g : Group} {t va : Nat} (h : Inv s) : Inv (prefLane s g t va) := by
  unfold prefLane
  refine .ite h ?_
  split
  · rename_i e
    have h1 := (h.after (traffic_reach ..)).fst_eq e
    exact .ite h1 (.ite h1 (.ite (h1.after (traffic_l1Load ..)) (h1.after (traffic_lineRequest ..))))
  · exact h
  · exact h

theorem inv_execPref {t : BitVec 2} {a imm : BitVec 8} (h : Inv s) : InvAfter (execPref t a imm s) := by
  unfold execPref
  exact inv_issue h fun _ _ _ ht => .next (inv_retire (ht.foldl fun _ _ hu => inv_prefLane hu))

theorem inv_doLoad {o : LogOp} {w d : Nat} (h : Inv s) : Inv (doLoad s o w d) :=
  (inv_finishOp (h.after (traffic_readAll ..))).modGroup

theorem inv_doSxld {o : LogOp} {d : Nat} (h : Inv s) : Inv (doSxld s o d) :=
  (inv_finishOp (h.after (traffic_readAll ..))).modGroup

theorem inv_doLdu {o : LogOp} {w d : Nat} (h : Inv s) : Inv (doLdu s o w d) :=
  (inv_finishOp (h.after (traffic_readAll ..))).modGroup

theorem inv_doStore {o : LogOp} {f : Acc → Nat} (h : Inv s) : Inv (doStore s o f) := by
  unfold doStore
  exact inv_finishOp (h.foldl fun _ _ ht => .ite (inv_writeAcc ht) ht)

theorem inv_serveFifo {o : LogOp} {l f r : Nat} (h : Inv s) : Inv (serveFifo s o l f r) := by
  unfold serveFifo
  dsimp only
  split
  · exact h
  · refine .ite (inv_putOp h.modTeam) ?_
    split
    · exact inv_putOp h.modTeam.modGroup
    · exact h

theorem inv_fifoStep {core id : Nat} {push : Bool} (h : Inv s) : Inv (fifoStep core id push s) := by
  unfold fifoStep
  split
  · split
    · exact inv_serveFifo h
    · exact h
  · exact h

/-! ## VecInt: what its functions do to memory -/

theorem inv_vecOp {w : Word} {d : Nat} {f : Group → Word → Nat → Nat} (h : Inv s) : InvAfter (vecOp w d f s) :=
  inv_issueRegs h

theorem inv_vecArith {w : Word} {d a b : Nat} {sat : Bool} {f : Int → Int → Int → Int} (h : Inv s) : InvAfter (vecArith w d a b sat f s) :=
  inv_vecOp h

theorem inv_vecUnary {w : Word} {d a : Nat} {f : Nat → Nat → Nat} (h : Inv s) : InvAfter (vecUnary w d a f s) :=
  inv_vecOp h

theorem inv_vecBits {w : Word} {d a b : Nat} {f : Nat → Nat → Nat → Nat} (h : Inv s) : InvAfter (vecBits w d a b f s) :=
  inv_vecOp h

theorem inv_vecShift {w : Word} {d a b : Nat} {f : Nat → Nat → Nat → Nat} (h : Inv s) : InvAfter (vecShift w d a b f s) :=
  inv_vecOp h

theorem inv_vecShiftImm {w : Word} {d a k : Nat} {f : Nat → Nat → Nat → Nat} (h : Inv s) : InvAfter (vecShiftImm w d a k f s) :=
  inv_vecUnary h

/-! ## Atomic: what its functions do to memory -/

theorem inv_issueAtomic {w : Word} {op : Nat} {d a b : BitVec 8} (h : Inv s) : InvAfter (issueAtomic w op d a b s) :=
  inv_issueMem h

theorem inv_homeRmw {gid n : Nat} {i : Hit} {f : Nat → Nat} (h : Inv s) : Inv (homeRmw s gid n i f).1 := by
  unfold homeRmw
  exact .ite ((h.after (traffic_lineRequest ..)).after (traffic_pstore ..)) (h.after (traffic_l2Store ..))

theorem inv_atomicLane {o : LogOp} {op : Nat} {a : Acc} {i : Hit} (h : Inv s) : Inv (atomicLane s o op a i).1 := by
  unfold atomicLane
  exact .ite_fst h.modTeam (inv_homeRmw (.ite (h.after (traffic_flushFor ..)) h))

theorem inv_doAtomic {o : LogOp} {op d : Nat} (h : Inv s) : Inv (doAtomic s o op d) := by
  unfold doAtomic
  refine Inv.modGroup (inv_finishOp ?_)
  refine h.foldl_fst fun _ _ ht => ?_
  split
  · exact inv_atomicLane ht
  · exact ht

theorem inv_storeFlag {q : AddQueue} {x : Nat} (h : Inv s) : Inv (storeFlag s q x) :=
  (h.after (traffic_lineRequest ..)).after (traffic_pstore ..)

theorem inv_doFaopen {o : LogOp} {d : BitVec 4} {f64 : Bool} {count : Word} (h : Inv s) : Inv (doFaopen s o d f64 count) := by
  unfold doFaopen
  dsimp only
  split
  · exact Inv.modGroup (.ite (inv_storeFlag (inv_finishOp h).modHub) (inv_finishOp h))
  · exact inv_finishOp h

theorem inv_faaddLane {o : LogOp} {a : Acc} {i : Hit} (h : Inv s) : Inv (faaddLane s o a i).1 := by
  unfold faaddLane
  dsimp only
  split
  · exact h
  · exact .ite_fst h h.modHub

theorem inv_doFaadd {o : LogOp} {d : BitVec 4} (h : Inv s) : Inv (doFaadd s o d) := by
  unfold doFaadd
  refine Inv.modGroup (inv_finishOp ?_)
  refine h.foldl_fst fun _ _ ht => ?_
  split
  · exact inv_faaddLane ht
  · exact ht

theorem inv_execOrderedAddApply {n : Nat} (h : Inv s) : InvAfter (execOrderedAddApply n s) := by
  unfold execOrderedAddApply
  refine .next (.ite ?_ h)
  split
  · exact (inv_storeFlag ((h.after (traffic_lineRequest ..)).after (traffic_pstore ..))).modHub
  · exact h

theorem inv_abandonAdds {grid : DWord} (h : Inv s) : Inv (abandonAdds s grid) := by
  unfold abandonAdds
  exact (h.foldl fun _ _ ht => inv_storeFlag ht).modHub

/-! ## Float: what its functions do to memory -/

theorem inv_floatIssue {w : Word} {res : Group → Nat → List Elem} {write : Ctx → Group → Group} (h : Inv s) :
    InvAfter (floatIssue w res write s) := by
  unfold floatIssue
  exact inv_issue h fun _ _ _ ht => .ite (.next (inv_retire ht)) (inv_trapAt ht)

theorem inv_floatOp {w : Word} {d : Nat} {res : Group → Nat → List Elem} (h : Inv s) : InvAfter (floatOp w d res s) :=
  inv_floatIssue h

theorem inv_floatUnary {w : Word} {d a : Nat} {f : Word → Fmt → FV → Nat × Nat} (h : Inv s) : InvAfter (floatUnary w d a f s) :=
  inv_floatOp h

/-! ## Sync: what its functions do to memory -/

theorem inv_cleanRegions {core : Nat} {e : SyncEntry} (h : Inv s) : Inv (cleanRegions s core e) :=
  h.after (traffic_cleanLines ..)

theorem Inv.syncPut {e : SyncEntry} (h : Inv s) : Inv (s.syncPut e) :=
  h.modHub

theorem inv_syncJoin {obj : Nat} {a : Agent} (h : Inv s) : Inv (syncJoin s obj a) := by
  unfold syncJoin
  split
  · exact h
  · exact .ite h (h.foldl fun _ _ ht => inv_cleanRegions ht).syncPut

theorem inv_relayInval {core asid vmid flag : Nat} (h : Inv s) : Inv (relayInval s core asid vmid flag) := by
  have hc := fun p => h.after (traffic_cleanLines s core p true)
  unfold relayInval
  refine .ite ?_ h
  split
  · exact .ite (hc _) (hc _)
  · exact hc _

theorem inv_acqInval {core asid vmid obj : Nat} (h : Inv s) : Inv (acqInval s core asid vmid obj) := by
  unfold acqInval
  split
  · exact h
  · exact .ite h (.ite (h.after (traffic_cleanLines ..)) (h.after (traffic_cleanLines ..)))

theorem inv_doBind {o : LogOp} {d : BitVec 4} {region : Nat} {base len : DWord} (h : Inv s) : Inv (doBind s o d region base len) := by
  unfold doBind
  dsimp only
  split
  · exact .ite (inv_finishOp h.syncPut).modGroup (inv_finishOp h).modGroup
  · exact .ite (inv_finishOp h).modGroup (inv_finishOp h.modHub).modGroup

theorem inv_doUnbind {o : LogOp} {d : BitVec 4} (h : Inv s) : Inv (doUnbind s o d) := by
  unfold doUnbind
  exact (inv_finishOp (.ite h.modHub h)).modGroup

theorem inv_issueRel {w : Word} {add : Bool} {d a : BitVec 8} {sc : BitVec 3} (h : Inv s) : InvAfter (issueRel w add d a sc s) :=
  inv_issueMem h

theorem inv_doAcq {o : LogOp} {d : Nat} (h : Inv s) : Inv (doAcq s o d) := by
  unfold doAcq
  refine Inv.modGroup (inv_finishOp (Inv.foldl ?_ fun _ _ ht => inv_relayInval (inv_acqInval ht)))
  refine (h.foldl fun _ _ ht => (inv_syncJoin ht).after (traffic_flushFor ..)).foldl_fst fun _ _ ht => ?_
  split
  · exact ht.after (traffic_lineRequest ..)
  · exact ht

theorem inv_relClean {core asid vmid obj ceiling : Nat} (h : Inv s) : Inv (relClean s core asid vmid obj ceiling) := by
  unfold relClean
  split
  · exact h
  · refine .ite (h.after (traffic_cleanLines ..)) ?_
    split
    · exact h.syncPut
    · exact h.after (traffic_cleanLines ..)

theorem inv_doRel {o : LogOp} {add : Bool} {scope : Nat} (h : Inv s) : Inv (doRel s o add scope) := by
  unfold doRel
  refine inv_finishOp ?_
  refine (h.foldl fun _ _ ht => (inv_relClean (inv_syncJoin ht)).after (traffic_flushFor ..)).foldl fun _ _ ht => ?_
  split
  · exact (ht.after (traffic_lineRequest ..)).after (traffic_homeStore ..)
  · exact ht

theorem inv_fenceWork {g : Group} {scope : Nat} {clean inv : Bool} (h : Inv s) : Inv (fenceWork s g scope clean inv) := by
  unfold fenceWork
  exact .ite h (.ite (h.after (traffic_cleanLines ..)) (.ite (h.after (traffic_cleanLines ..)) h))

theorem inv_execFence {n cl : BitVec 1} {sc : BitVec 3} (h : Inv s) : InvAfter (execFence n cl sc s) := by
  unfold execFence
  exact inv_issue h fun _ _ _ ht => .ite (.next h) (.next (inv_retire (inv_fenceWork ht)))

theorem inv_execWaitc {t : BitVec 8} {m : BitVec 4} (h : Inv s) : InvAfter (execWaitc t m s) := by
  unfold execWaitc
  exact inv_issue h fun _ _ _ ht => .ite (.next (inv_retire ht)) (.next ht.setGroup)

theorem inv_passWait {gid : Nat} {m : SliceMask} (h : Inv s) : Inv (passWait s gid m) :=
  h.modGroup

theorem inv_execWaitcPass {gid gang : Nat} (h : Inv s) : InvAfter (execWaitcPass gid gang s) := by
  unfold execWaitcPass
  exact .next (.ite (inv_passWait h) h)

/-! ## Standing: what its functions do to memory -/

theorem inv_writeSlot {tid off x : Nat} (h : Inv s) : Inv (writeSlot s tid off x) :=
  h.modTeam

theorem Inv.modSlot {tid off : Nat} {f : DirSlot → DirSlot} (h : Inv s) : Inv (s.modSlot tid off f) :=
  h.modCore

theorem Inv.freeSlot {tid off : Nat} (h : Inv s) : Inv (s.freeSlot tid off) :=
  h.modCore

theorem Inv.modSub {home idx : Nat} {f : Sub → Sub} (h : Inv s) : Inv (s.modSub home idx f) :=
  h.modHome

theorem inv_dropSub {home idx : Nat} (h : Inv s) : Inv (dropSub s home idx) :=
  h.modHome

theorem inv_ldsLane {o : LogOp} {acq : Bool} {scope : Nat} {a : Acc} {i : Hit} (h : Inv s) : Inv (ldsLane s o acq scope a i).1 := by
  unfold ldsLane
  extract_lets g core s1 w ok s2
  split
  · exact h
  · extract_lets t s3
    have h1 : Inv s1 := .ite (h.after (traffic_flushFor ..)) h
    have h2 : Inv s2 := .ite (inv_syncJoin h1) h1
    have h3 : Inv s3 := .ite h2 (h2.modHome.after (traffic_grantLease ..)).modCore
    exact .ite_fst h (inv_writeSlot (h3.after (traffic_lineRequest ..)))

theorem inv_doLds {o : LogOp} {d : BitVec 4} {acq : Bool} {scope : Nat} (h : Inv s) : Inv (doLds s o d acq scope) := by
  unfold doLds
  refine Inv.modGroup (inv_finishOp ?_)
  refine h.foldl_fst fun _ _ ht => ?_
  split
  · exact inv_ldsLane ht
  · exact ht

theorem inv_doUnsub {o : LogOp} {d : BitVec 4} (h : Inv s) : Inv (doUnsub s o d) := by
  unfold doUnsub
  extract_lets tid r s1
  have hr : Inv r.1 := by
    refine h.foldl_fst fun _ _ ht => ?_
    split
    · exact ht
    · split
      · exact .ite_fst ht ht.modSlot.modHub
      · exact ht
  exact .ite (inv_finishOp hr.modGroup) (inv_putOp hr.modGroup)

theorem inv_prepareSlot {p : Push} (h : Inv s) : Inv (prepareSlot s p) := by
  unfold prepareSlot
  split
  · exact h
  · exact .ite (h.after (traffic_cleanLines ..)) h

theorem inv_deliverPush {p : Push} (h : Inv s) : Inv (deliverPush s p) := by
  unfold deliverPush
  split
  · exact h
  · exact (inv_writeSlot (.ite h (inv_prepareSlot h))).modSlot

theorem inv_execInboxDelivery {core : Nat} (h : Inv s) : InvAfter (execInboxDelivery core s) := by
  unfold execInboxDelivery
  refine .next ?_
  split
  · exact .ite (inv_prepareSlot h).modCore (inv_deliverPush h.modCore)
  · exact h

theorem Inv.dropPush {n : Nat} (h : Inv s) : Inv (s.dropPush n) :=
  h.modHub

theorem inv_refusePush {p : Push} (h : Inv s) : Inv (refusePush s p) :=
  h.modSlot.modCore.modHub

theorem inv_acceptPush {p : Push} {inbox : List Push} (h : Inv s) : Inv (acceptPush s p inbox) :=
  h.modCore.modSub

theorem inv_arrivePush {p : Push} (h : Inv s) : Inv (arrivePush s p) := by
  unfold arrivePush
  split
  · exact h
  · exact .ite (inv_refusePush h) (.ite (inv_acceptPush h) (.ite (inv_acceptPush h) (inv_refusePush h)))

theorem inv_execPushArrival {n : Nat} (h : Inv s) : InvAfter (execPushArrival n s) := by
  unfold execPushArrival
  refine .next ?_
  split
  · exact .ite h (inv_arrivePush h.dropPush)
  · exact h

theorem inv_execRefusedPushReturn {n : Nat} (h : Inv s) : InvAfter (execRefusedPushReturn n s) := by
  unfold execRefusedPushReturn
  refine .next ?_
  split
  · exact h.modHub.modSub
  · exact h

theorem inv_execInboxSignal {core : Nat} (h : Inv s) : InvAfter (execInboxSignal core s) := by
  unfold execInboxSignal
  exact .next (.ite h.modCore.modHub h)

theorem inv_sendRedelivery {home idx : Nat} {x : Sub} (h : Inv s) : Inv (sendRedelivery s home idx x) :=
  h.modSub.modHub

theorem inv_execRedelivery {home core : Nat} (h : Inv s) : InvAfter (execRedelivery home core s) := by
  unfold execRedelivery
  exact .next (.ite (h.modHub.foldl fun _ _ ht => inv_sendRedelivery ht) h)

theorem inv_takeRedelivery {p : Push} (h : Inv s) : Inv (takeRedelivery s p) := by
  unfold takeRedelivery
  split
  · exact h
  · extract_lets inbox s1
    have h1 : Inv s1 := (inv_acceptPush h).modSlot
    refine .ite ?_ h.modSlot.modCore.modSub
    split
    · exact .ite h1 (.ite h1.modSub (inv_sendRedelivery h1))
    · exact h1

theorem inv_execRedeliveryAccept {n : Nat} (h : Inv s) : InvAfter (execRedeliveryAccept n s) := by
  unfold execRedeliveryAccept
  refine .next ?_
  split
  · exact .ite (inv_takeRedelivery h.dropPush) h
  · exact h

theorem Inv.dropMsg {n : Nat} (h : Inv s) : Inv (s.dropMsg n) :=
  h.modHub

theorem inv_execSubRemove {n : Nat} (h : Inv s) : InvAfter (execSubRemove n s) := by
  unfold execSubRemove
  refine .next (.ite h ?_)
  split
  · refine Inv.modHub (Inv.dropMsg ?_)
    split
    · exact inv_dropSub h
    · exact h
  · exact h

theorem inv_drainSlot {core tid off : Nat} (h : Inv s) : Inv (drainSlot s core tid off) := by
  unfold drainSlot
  exact h.modCore.foldl fun _ _ ht => inv_deliverPush ht

theorem inv_unsubDone {tid off : Nat} (h : Inv s) : Inv (unsubDone s tid off) := by
  unfold unsubDone
  split
  · exact .ite (inv_finishOp h) (inv_putOp h)
  · exact h

theorem inv_execUnsubComplete {n : Nat} (h : Inv s) : InvAfter (execUnsubComplete n s) := by
  unfold execUnsubComplete
  refine .next (.ite ?_ h)
  split
  · refine inv_unsubDone (Inv.freeSlot ?_)
    split
    · exact inv_writeSlot (inv_drainSlot h.dropMsg)
    · exact inv_drainSlot h.dropMsg
  · exact h

theorem inv_loseSlot {home tid off cause : Nat} (h : Inv s) : Inv (loseSlot s home tid off cause) := by
  unfold loseSlot
  split
  · exact h
  · exact .ite h (inv_raiseAsync (inv_writeSlot (inv_drainSlot h)).freeSlot)

theorem inv_loseSub {home idx cause : Nat} (h : Inv s) : Inv (loseSub s home idx cause) := by
  unfold loseSub
  split
  · exact h
  · refine .ite (.ite (Inv.modHub (.congr h rfl)) ?_) (inv_loseSlot (inv_dropSub h).modHub)
    split
    · exact inv_loseSlot (inv_dropSub h).modHub
    · exact (inv_dropSub h).modHub

theorem inv_execSubLoss {home idx cause : Nat} (h : Inv s) : InvAfter (execSubLoss home idx cause s) := by
  unfold execSubLoss
  exact .next (.ite (inv_loseSub h) h)

theorem inv_execSubPark {n : Nat} (h : Inv s) : InvAfter (execSubPark n s) := by
  unfold execSubPark
  refine .next ?_
  split
  · exact h.dropMsg.modSub
  · exact h

theorem inv_execSubRepoint {n : Nat} (h : Inv s) : InvAfter (execSubRepoint n s) := by
  unfold execSubRepoint
  refine .next ?_
  split
  · extract_lets s1
    have h1 : Inv s1 := h.dropMsg.modSub
    split
    · have h2 := fun d w => h1.after (traffic_grantLease s1 d w false)
      exact .ite h1 (.ite (inv_sendRedelivery (h2 _ _)) (h2 _ _))
    · exact h1
  · exact h

theorem inv_dropRegion {home agent region : Nat} (h : Inv s) : Inv (dropRegion s home agent region) := by
  unfold dropRegion
  exact Inv.foldl (.ite (inv_revertLines h) h) fun _ _ ht => ht.after (traffic_leaveLine ..)

theorem inv_execLeaseRelease {home agent region : Nat} (h : Inv s) : InvAfter (execLeaseRelease home agent region s) := by
  unfold execLeaseRelease
  exact .next (.ite h (Inv.modHome (.ite h (inv_dropRegion h))))

theorem inv_dropL1 {home die region : Nat} (h : Inv s) : Inv (dropL1 s home die region) := by
  unfold dropL1
  exact .congr h rfl

theorem inv_setLeaseLost {home agent region : Nat} {kinds : BitVec 2} (h : Inv s) : Inv (setLeaseLost s home agent region kinds) := by
  unfold setLeaseLost
  exact .ite h.modDie h.modHub

theorem inv_execLeaseExpiry {home agent region : Nat} (h : Inv s) : InvAfter (execLeaseExpiry home agent region s) := by
  unfold execLeaseExpiry
  refine .next ?_
  split
  · exact h
  · extract_lets s1 kinds s2 s3 s4
    have h2 : Inv s2 := inv_setLeaseLost (inv_dropRegion h.modHome)
    have h3 : Inv s3 := .ite (inv_dropL1 h2) h2
    have h4 : Inv s4 := .ite (inv_unwalk h3) h3
    exact .ite (h4.foldl fun _ _ ht => inv_loseSub ht) h4

theorem inv_serveOutside {q : OutsideReq} (h : Inv s) : Inv (serveOutside s q) := by
  unfold serveOutside
  refine .ite h ?_
  dsimp only
  split
  · exact (h.foldl fun _ _ ht => inv_syncJoin ht).after (traffic_lineRequest ..)
  · exact ((h.foldl fun _ _ ht => inv_syncJoin ht).after (traffic_lineRequest ..)).after (traffic_pwrite ..)

theorem inv_takeOutside {q : OutsideReq} (h : Inv s) : Inv (takeOutside s q) := by
  unfold takeOutside
  exact .ite (inv_serveOutside h) h.modHub

theorem inv_execOutside (h : Inv s) : InvAfter (execOutside s) := by
  unfold execOutside
  refine .next ?_
  split
  · exact .ite (inv_serveOutside h.modHub) h
  · exact h

theorem inv_execLineRequest {agent pa : Nat} {write : Bool} (h : Inv s) : InvAfter (execLineRequest agent pa write s) := by
  unfold execLineRequest
  exact .next (.ite h (inv_takeOutside h))

/-! ## Engine: what its functions do to memory -/

theorem inv_engReachAt {sup : Bool} {tid core va n : Nat} {write : Bool} (h : Inv s) : Inv (engReachAt sup s tid core va n write).1 := by
  unfold engReachAt
  split
  · refine .ite_fst h ?_
    split <;> exact h
  · split
    · rename_i e
      have h1 := (h.after (traffic_reach ..)).fst_eq e
      exact .ite_fst h1 h1
    · rename_i e
      exact (h.after (traffic_reach ..)).fst_eq e
    · rename_i e
      exact (h.after (traffic_reach ..)).fst_eq e

theorem inv_engReach {tid core va n : Nat} {write : Bool} (h : Inv s) : Inv (engReach s tid core va n write).1 :=
  inv_engReachAt h

theorem inv_engPlaceFrom {tid core : Nat} {write : Bool} {l : List (Nat × Nat)} (h : Inv s) : Inv (engPlaceFrom tid core write l s).1 := by
  induction l generalizing s with
  | nil => exact h
  | cons x l ih =>
    unfold engPlaceFrom
    split
    · rename_i e
      exact (inv_engReach h).fst_eq e
    · rename_i e
      exact (inv_engReach h).fst_eq e
    · rename_i e
      have h1 := (inv_engReach h).fst_eq e
      split
      · rename_i e
        exact (ih h1).fst_eq e
      · exact ih h1

theorem inv_engPlace {tid core va n : Nat} {write : Bool} (h : Inv s) : Inv (engPlace s tid core va n write).1 := by
  unfold engPlace
  exact .ite_fst h (inv_engPlaceFrom h)

theorem inv_engPlaces {tid core : Nat} {l : List (Nat × Nat × Bool)} (h : Inv s) : Inv (engPlaces s tid core l).1 := by
  induction l generalizing s with
  | nil => exact h
  | cons x l ih =>
    unfold engPlaces
    split
    · rename_i e
      have h1 := (inv_engPlace h).fst_eq e
      split
      · rename_i e
        exact (ih h1).fst_eq e
      · exact ih h1
    · exact inv_engPlace h

theorem inv_engRead {tid core : Nat} {ps : List (Nat × Nat × Hit)} (h : Inv s) : Inv (engRead s tid core ps).1 := by
  unfold engRead
  exact h.foldl_fst fun _ _ ht => .ite_fst ht (ht.after (traffic_lineRequest ..))

theorem inv_engWriteAt {home : Bool} {tid : Nat} {ps : List (Nat × Nat × Hit)} {bs : List Byte} (h : Inv s) : Inv (engWriteAt home s tid ps bs) := by
  unfold engWriteAt
  refine h.foldl_fst fun _ _ ht => .ite ht.modTeam (.ite ?_ ?_)
  · exact (ht.after (traffic_lineRequest ..)).after (traffic_pwrite ..)
  · exact ht.after (traffic_l2Store ..)

theorem inv_engWrite {tid : Nat} {ps : List (Nat × Nat × Hit)} {bs : List Byte} (h : Inv s) : Inv (engWrite s tid ps bs) :=
  inv_engWriteAt h

theorem inv_engLoad {tid core va n : Nat} (h : Inv s) : Inv (engLoad s tid core va n).1 := by
  unfold engLoad
  split
  · rename_i e
    exact inv_engRead ((inv_engPlace h).fst_eq e)
  · rename_i e
    exact (inv_engPlace h).fst_eq e
  · rename_i e
    exact (inv_engPlace h).fst_eq e

theorem Inv.opWrite {core p : Nat} {bs : List Byte} (h : Inv s) : Inv (s.opWrite core p bs) :=
  h.modCore

theorem inv_askLocks {die : Nat} {o : LockOwner} {ls : List Lock} (h : Inv s) : Inv (askLocks s die o ls).1 := by
  unfold askLocks
  exact .ite_fst h (.ite_fst h.setDie h.setDie)

theorem inv_dropLocks {die engine core id : Nat} (h : Inv s) : Inv (dropLocks s die engine core id) :=
  h.modDie

theorem inv_leaveBatch {gid : Nat} {b : BitVec 16} (h : Inv s) : Inv (leaveBatch s gid b) :=
  h.modGroup

theorem inv_sendArrival {tid : Nat} {d : BitVec 8} {ranges : List (DWord × Nat)} (h : Inv s) : Inv (sendArrival s tid d ranges) := by
  unfold sendArrival
  exact .ite h.modHub h

theorem inv_postWork {w : Word} {check : Ctx → Group → State → Option TrapInfo} {post : Ctx → Group → State → State × Post} {c : Ctx} {g : Group}
    {s1 : State} (h : Inv s1) (hpost : ∀ c g t, Inv t → Inv (post c g t).1) :
    InvAfter (postWork w check post c g s1) := by
  unfold postWork
  split
  · exact inv_trapAt h
  · exact .next (inv_retire (hpost _ _ _ h)).modCore

theorem inv_issuePost {w : Word} {check : Ctx → Group → State → Option TrapInfo} {post : Ctx → Group → State → State × Post} (h : Inv s)
    (hpost : ∀ c g t, Inv t → Inv (post c g t).1) :
    InvAfter (issuePost w s check post) := by
  unfold issuePost
  exact inv_issue h fun _ _ _ ht => inv_postWork ht hpost

theorem inv_issuePostWhen {w : Word} {wait : Ctx → Group → State → Bool} {check : Ctx → Group → State → Option TrapInfo}
    {post : Ctx → Group → State → State × Post} (h : Inv s) (hpost : ∀ c g t, Inv t → Inv (post c g t).1) :
    InvAfter (issuePostWhen w s wait check post) := by
  unfold issuePostWhen
  exact inv_issue h fun _ _ _ ht => .ite (.next h) (inv_postWork ht hpost)

theorem inv_newId {core : Nat} (h : Inv s) : Inv (newId s core).1 :=
  h.modCore

theorem Inv.modTask {core id : Nat} {f : Task → Task} (h : Inv s) : Inv (s.modTask core id f) :=
  h.modCore

theorem Inv.modCopy {core id : Nat} {f : Copy → Copy} (h : Inv s) : Inv (s.modCopy core id f) :=
  h.modCore

theorem inv_releaseSlots {core f n : Nat} (h : Inv s) : Inv (releaseSlots s core f n) :=
  h.modCore

theorem inv_srelPass {gid : Nat} (h : Inv s) : Inv (srelPass s gid) :=
  inv_passWait h

theorem inv_srelCheck {tid : Nat} (h : Inv s) : Inv (srelCheck s tid) := by
  unfold srelCheck
  exact h.foldl fun _ _ ht => inv_srelPass (inv_releaseSlots ht).modCore

/-! ## Copy: what its functions do to memory -/

theorem inv_postCopy {w : Word} {kind : CopyKind} {r : BitVec 1} {b : BitVec 4} {a imm : BitVec 8} (h : Inv s) :
    InvAfter (postCopy w kind r b a imm s) := by
  unfold postCopy
  exact inv_issuePost h fun _ _ _ ht => (inv_newId ht).setGroup

theorem inv_copyStart {core : Nat} {c : Copy} (h : Inv s) : Inv (copyStart s core c) := by
  unfold copyStart
  exact .ite h.modCopy (inv_askLocks h).modCopy

theorem inv_copyPut {tid core : Nat} {c : Copy} {x : Shape} {d n : Nat} {bs : List Byte} (h : Inv s) : Inv (copyPut s tid core c x d n bs).1 := by
  unfold copyPut
  refine .ite_fst (.ite_fst h h.opWrite) ?_
  split
  · rename_i e
    exact inv_engWriteAt ((inv_engPlace h).fst_eq e)
  · rename_i e
    exact (inv_engPlace h).fst_eq e
  · rename_i e
    exact (inv_engPlace h).fst_eq e

theorem inv_readSources {tid core : Nat} {l : List (Nat × Nat)} {b : List Byte} (h : Inv s) : InvIn Prod.fst (readSources tid core l s b) := by
  induction l generalizing s b with
  | nil => exact .intro h
  | cons x l ih =>
    unfold readSources
    split
    · exact .absent
    · rename_i e
      exact .intro ((inv_engLoad h).fst_eq e)
    · rename_i e
      exact ih ((inv_engLoad h).fst_eq e)

theorem inv_scoutSources {tid core : Nat} {l : List (Nat × Nat)} {n : Nat} (h : Inv s) : InvIn Prod.fst (scoutSources tid core l s n) := by
  induction l generalizing s n with
  | nil => exact .intro h
  | cons x l ih =>
    unfold scoutSources
    split
    · exact .absent
    · rename_i e
      exact .intro ((inv_engPlace h).fst_eq e)
    · rename_i e
      exact ih ((inv_engPlace h).fst_eq e)

theorem inv_scoutPiece {tid core : Nat} {c : Copy} {x : Shape} {done : Nat} (h : Inv s) : InvIn Prod.fst (scoutPiece s tid core c x done) := by
  unfold scoutPiece
  dsimp only
  split
  · rename_i s1 e
    have h1 : Inv s1 := InvIn.of_eq (inv_scoutSources h) e
    have h2 : Inv (if c.kind = .cpys then (s1, EngPlace.ok []) else engPlace s1 tid core (copyPiece x done).1 (copyPiece x done).2 true).1 :=
      .ite_fst h1 (inv_engPlace h1)
    split
    · exact .absent
    · rename_i e
      exact .intro (h2.fst_eq e)
    · rename_i e
      exact inv_scoutSources (h2.fst_eq e)
  · exact inv_scoutSources h

theorem inv_scoutMove {core : Nat} {c : Copy} (h : Inv s) : InvIn id (scoutMove s core c) := by
  unfold scoutMove
  exact .ite .absent ((inv_scoutPiece h).map fun _ ht => ht.modCopy)

theorem inv_copyMove {core : Nat} {c : Copy} (h : Inv s) : InvIn id (copyMove s core c) := by
  unfold copyMove
  extract_lets tid x fail p n0 n out relay
  refine .ite (.intro h.modCopy) (.ite ?_ ?_)
  · cases c.met with
    | none => exact .absent
    | some e => exact .intro h.modCopy
  · split
    · exact .absent
    · rename_i s1 g e
      have h1 : Inv s1 := InvIn.of_eq (inv_readSources h) e
      have h2 : Inv (if g.bytes.isEmpty then (s1, EngData.ok []) else copyPut s1 tid core c x p.1 g.bytes.length g.bytes).1 :=
        .ite_fst h1 (inv_copyPut h1)
      split
      · exact .absent
      · rename_i e
        exact .intro (h2.fst_eq e).modCopy
      · rename_i e
        have h3 := h2.fst_eq e
        split
        · exact .intro h3.modCopy
        · exact .intro (Inv.modCopy (.ite h3.modDie h3))

theorem inv_copyNext {core : Nat} {c : Copy} (h : Inv s) : InvIn id (copyNext s core c) :=
  (inv_scoutMove h).orElse (inv_copyMove h)

theorem inv_execCopyTransfer {core id : Nat} (h : Inv s) : InvAfter (execCopyTransfer core id s) := by
  unfold execCopyTransfer
  refine .next ?_
  split
  · exact .ite (inv_copyStart h) (.ite ((inv_copyNext h).getD h) h)
  · exact h

theorem inv_cancelCopy {core id : Nat} (h : Inv s) : Inv (cancelCopy s core id) := by
  unfold cancelCopy
  split
  · exact h
  · exact inv_srelCheck (inv_leaveBatch (inv_dropLocks h).modCore.modDie)

theorem inv_execCopyFault {core id : Nat} (h : Inv s) : InvAfter (execCopyFault core id s) := by
  unfold execCopyFault
  refine .next ?_
  split
  · exact h
  · split
    · exact h
    · exact .ite h (.ite (inv_cancelCopy (inv_raiseAsync h.modCopy)) (inv_raiseAsync h.modCopy))

theorem inv_execRelayEnqueue {core id : Nat} (h : Inv s) : InvAfter (execRelayEnqueue core id s) := by
  unfold execRelayEnqueue
  refine .next ?_
  split
  · exact .ite h.modCopy.modDie h
  · exact h

theorem inv_addFlag {asid part die pa : Nat} {r : DWord × Nat} (h : Inv s) : Inv (addFlag s asid part die pa r) :=
  (h.after (traffic_lineRequest ..)).modHub.modHome.after (traffic_homeStore ..)

theorem inv_endCopy {core : Nat} {c : Copy} {ranges : List (DWord × Nat)} (h : Inv s) : Inv (endCopy s core c ranges) :=
  inv_srelCheck (inv_dropLocks (inv_leaveBatch (inv_sendArrival h))).modCore.modDie

theorem inv_flagPlace {core : Nat} {c : Copy} (h : Inv s) : Inv (flagPlace s core c).1 :=
  inv_engReach h

theorem inv_execCopyComplete {core id : Nat} (h : Inv s) : InvAfter (execCopyComplete core id s) := by
  unfold execCopyComplete
  refine .next ?_
  split
  · exact h
  · refine .ite h (.ite (inv_endCopy h) ?_)
    split
    · rename_i e
      exact inv_endCopy (inv_addFlag ((inv_flagPlace h).fst_eq e))
    · rename_i e
      exact ((inv_flagPlace h).fst_eq e).modCopy
    · exact h

theorem inv_execBarrierArrival {n : Nat} (h : Inv s) : InvAfter (execBarrierArrival n s) := by
  unfold execBarrierArrival
  refine .next ?_
  split
  · exact h.modHub.modTeam
  · exact h

theorem inv_execBatch {d : BitVec 8} (h : Inv s) : InvAfter (execBatch d s) := by
  unfold execBatch
  exact inv_issueUniform h fun _ _ _ ht => .ite (.next h) (.next (inv_retire ht))

theorem inv_waitbInval {gid : Nat} {n : BitVec 16} (h : Inv s) : Inv (waitbInval s gid n) := by
  unfold waitbInval
  exact Inv.modGroup (.ite (h.after (traffic_cleanLines ..)) (h.after (traffic_cleanLines ..)))

theorem inv_execWaitb {a : BitVec 8} (h : Inv s) : InvAfter (execWaitb a s) := by
  unfold execWaitb
  exact inv_issue h fun _ _ _ ht => .ite (.next (inv_retire (inv_waitbInval ht))) (.next ht.setGroup)

theorem inv_execWaitbPass {gid gang : Nat} (h : Inv s) : InvAfter (execWaitbPass gid gang s) := by
  unfold execWaitbPass
  refine .next (.ite ?_ h)
  split
  · exact inv_passWait (inv_waitbInval h)
  · exact h

theorem inv_execBarinit {a : BitVec 8} {b : BitVec 4} (h : Inv s) : InvAfter (execBarinit a b s) := by
  unfold execBarinit
  exact inv_issue h fun _ _ _ ht => .next (inv_retire ht).modTeam

theorem inv_execBara {d a : BitVec 8} {r : BitVec 1} {b : BitVec 4} (h : Inv s) : InvAfter (execBara d a r b s) := by
  unfold execBara
  exact inv_issue h fun _ _ _ ht => .ite (.next h) (.next (inv_retire (.ite (inv_fenceWork ht) ht)).modTeam)

theorem inv_barwInval {gid bar : Nat} {l : Word} {acq : Bool} (h : Inv s) : Inv (barwInval s gid bar l acq) := by
  unfold barwInval
  extract_lets g b asid vmid s1
  have h1 : Inv s1 := .ite (h.after (traffic_cleanLines ..)) (h.after (traffic_cleanLines ..))
  exact .ite (inv_fenceWork h1) h1

theorem inv_execBarw {a : BitVec 8} {q : BitVec 1} {b : BitVec 4} (h : Inv s) : InvAfter (execBarw a q b s) := by
  unfold execBarw
  refine inv_issue h fun _ _ _ ht => ?_
  dsimp only
  split
  · exact inv_trapAt ht
  · exact .ite (.next (inv_retire (inv_barwInval ht))) (.next ht.setGroup)

theorem inv_execBarwPass {gid gang : Nat} (h : Inv s) : InvAfter (execBarwPass gid gang s) := by
  unfold execBarwPass
  refine .next (.ite ?_ h)
  split
  · exact inv_passWait (inv_barwInval h)
  · exact h

/-! ## Slab: what its functions do to memory -/

theorem Inv.modSlab {tid entry : Nat} {f : Slab → Slab} (h : Inv s) : Inv (s.modSlab tid entry f) := by
  unfold State.modSlab
  split
  · exact h.modCore
  · exact h

theorem inv_doSlabld {o : LogOp} {d : Nat} {p : BitVec 4} (h : Inv s) : Inv (doSlabld s o d p) := by
  unfold doSlabld
  refine .ite (inv_raiseLogged (h.after (traffic_readAll ..))) ?_
  dsimp only
  split
  · exact (inv_finishOp (h.after (traffic_readAll ..))).modCore.modGroup
  · exact (inv_finishOp (h.after (traffic_readAll ..))).modGroup

theorem inv_doSlabst {o : LogOp} {entry : Nat} {keep : Bool} (h : Inv s) : Inv (doSlabst s o entry keep) := by
  unfold doSlabst
  dsimp only
  split
  · exact inv_finishOp h
  · exact inv_finishOp (.ite (h.foldl fun _ _ ht => inv_writeAcc ht) (h.foldl fun _ _ ht => inv_writeAcc ht).modCore)

theorem inv_kvPut {o : LogOp} {va : Nat} {bs : List Byte} (h : Inv s) : Inv (kvPut s o va bs) := by
  unfold kvPut
  exact inv_engWrite (h.foldl fun _ _ ht => ht.after (traffic_flushFor ..))

theorem inv_kvHeader {o : LogOp} {pm : Nat} (h : Inv s) : Inv (kvHeader s o pm) :=
  inv_kvPut (inv_kvPut h)

theorem inv_kvAppend {o : LogOp} {e : Slab} {pos : Word} (h : Inv s) : Inv (kvAppend s o e pos) := by
  unfold kvAppend
  extract_lets
  split
  extract_lets s0 s1 bound s2 s3 _ s4
  have h0 : Inv s0 := .ite (inv_kvPut h) h
  have h1 : Inv s1 := inv_kvPut (inv_kvPut h0)
  have h2 : Inv s2 := inv_kvPut (inv_kvPut h1)
  have h3 : Inv s3 := inv_kvPut (inv_kvPut h2)
  have h4 : Inv s4 := .ite (inv_kvHeader (inv_kvPut h3)) h3
  exact inv_kvHeader h4

theorem inv_doKvapp {o : LogOp} {p : BitVec 4} {entry : Nat} {pos : Word} (h : Inv s) : Inv (doKvapp s o p entry pos) := by
  unfold doKvapp
  dsimp only
  split
  · exact (inv_finishOp h).modGroup
  · refine .ite (inv_finishOp h).modGroup ?_
    split
    · exact (inv_finishOp (inv_kvAppend (h.after (traffic_walkAll ..))).modSlab).modGroup
    · exact inv_putOp h

theorem inv_execKvgrow {r : BitVec 1} {b4 : BitVec 4} {a b : BitVec 8} (h : Inv s) : InvAfter (execKvgrow r b4 a b s) := by
  unfold execKvgrow
  exact inv_issuePostWhen h fun _ _ _ ht => (inv_newId ht.modSlab).setGroup

theorem inv_growMove {tid core : Nat} {e : Slab} {fuel done : Nat} (h : Inv s) : InvIn Prod.fst (growMove tid core e fuel s done) := by
  induction fuel generalizing s done with
  | zero => exact .intro h
  | succ fuel ih =>
    unfold growMove
    refine .ite (.intro h) ?_
    dsimp only
    split
    · exact .absent
    · rename_i e
      exact .intro ((inv_engLoad h).fst_eq e)
    · rename_i e
      have h1 := (inv_engLoad h).fst_eq e
      split
      · exact .absent
      · rename_i e
        exact .intro ((inv_engPlace h1).fst_eq e)
      · rename_i e
        exact ih (inv_engWrite ((inv_engPlace h1).fst_eq e))

theorem inv_growStep {core : Nat} {c : Copy} (h : Inv s) : InvIn id (growStep s core c) := by
  unfold growStep
  dsimp only
  split
  · exact .absent
  · refine .ite (.intro h.modSlab.modCopy) ?_
    split
    · exact .absent
    · rename_i e
      exact .intro (InvIn.of_eq (inv_growMove h) e).modCopy
    · rename_i e
      have h1 := InvIn.of_eq (inv_growMove h) e
      exact .intro (.ite h1.modSlab.modCopy.modSlab.modCopy h1.modSlab.modCopy)

theorem inv_growStart {core : Nat} {c : Copy} (h : Inv s) : Inv (growStart s core c) := by
  unfold growStart
  exact .ite (inv_copyStart (.ite h (inv_dropLocks h))) h

theorem inv_finishGrow {core id n : Nat} (h : Inv s) : Inv (finishGrow core id n s) := by
  induction n generalizing s with
  | zero => exact h
  | succ n ih =>
    unfold finishGrow
    split
    · refine .ite h ?_
      split
      · rename_i e
        exact ih (InvIn.of_eq (inv_growStep h) e)
      · exact h
    · exact h

theorem inv_execGrowPageMove {core id : Nat} (h : Inv s) : InvAfter (execGrowPageMove core id s) := by
  unfold execGrowPageMove
  refine .next ?_
  split
  · exact .ite ((inv_growStep h).getD h) h
  · exact h

theorem inv_execKvevict {r : BitVec 1} {b4 : BitVec 4} {a b : BitVec 8} (h : Inv s) : InvAfter (execKvevict r b4 a b s) := by
  unfold execKvevict
  exact inv_issuePostWhen h fun _ _ _ ht => (inv_newId ht.modSlab).setGroup

theorem Inv.modEvict {die : Nat} {x : Evict} {f : Evict → Evict} (h : Inv s) : Inv (s.modEvict die x f) :=
  h.modDie

theorem inv_evictToken {tid core : Nat} {x : Evict} {e : Slab} {i mass : Nat} (h : Inv s) : Inv (evictToken s tid core x e i mass).1 := by
  unfold evictToken
  dsimp only
  split
  · rename_i e
    have h1 := (inv_engLoad h).fst_eq e
    refine .ite_fst ?_ h1
    split
    · rename_i e
      have h2 := (inv_engLoad h1).fst_eq e
      split <;> rename_i e <;> exact (inv_engLoad h2).fst_eq e
    · rename_i e
      exact (inv_engLoad h1).fst_eq e
  · rename_i e
    exact (inv_engLoad h).fst_eq e

theorem inv_gather {tid core : Nat} {x : Evict} {e : Slab} {fuel i : Nat} {snap : Option (Nat × List Nat)} {ts : List Token} (h : Inv s) :
    Inv (gather tid core x e fuel s i snap ts).1 := by
  induction fuel generalizing s i snap ts with
  | zero => exact h
  | succ fuel ih =>
    unfold gather
    refine .ite_fst h ?_
    extract_lets page masses
    have hm : Inv masses.1 := by
      unfold masses
      split
      · refine .ite_fst h ?_
        split <;> rename_i e <;> exact (inv_engLoad h).fst_eq e
      · split <;> rename_i e <;> exact (inv_engLoad h).fst_eq e
    clear_value masses
    split
    · exact hm
    · exact hm
    · split
      · rename_i e
        exact (inv_evictToken hm).fst_eq e
      · rename_i e
        exact (inv_evictToken hm).fst_eq e
      · rename_i e
        exact ih ((inv_evictToken hm).fst_eq e)

theorem inv_evictPage {die : Nat} {x : Evict} {e : Slab} (h : Inv s) : InvIn id (evictPage s die x e) := by
  unfold evictPage
  dsimp only
  split
  · exact .absent
  · rename_i e
    exact .intro ((inv_gather h).fst_eq e).modEvict
  · rename_i e
    have h1 := (inv_gather h).fst_eq e
    refine .ite (.intro h1.modEvict) ?_
    split
    · exact .absent
    · rename_i e
      exact .intro ((inv_engPlaces h1).fst_eq e).modEvict
    · rename_i e
      exact .intro (inv_engWrite ((inv_engPlaces h1).fst_eq e)).modEvict

theorem inv_evictStep {die : Nat} (h : Inv s) : InvIn id (evictStep s die) := by
  unfold evictStep
  split
  · exact .absent
  · split
    · exact .absent
    · exact .ite (.ite (.intro h.modEvict) (.intro (inv_askLocks h).modEvict)) (.ite (inv_evictPage h) .absent)

theorem inv_retirePage {tid core : Nat} {old : Slab} {p : Nat} (h : Inv s) : Inv (retirePage tid core old s p) := by
  unfold retirePage
  dsimp only
  split
  · rename_i e
    exact inv_engWrite ((inv_engPlace h).fst_eq e)
  · exact h

theorem inv_execEvictSwitch {die : Nat} (h : Inv s) : InvAfter (execEvictSwitch die s) := by
  unfold execEvictSwitch
  refine .next ?_
  split
  · exact h
  · dsimp only
    split
    · exact h
    · exact h.modSlab.modEvict.foldl fun _ _ ht => inv_retirePage ht

theorem inv_execEvictComplete {die id : Nat} (h : Inv s) : InvAfter (execEvictComplete die id s) := by
  unfold execEvictComplete
  refine .next ?_
  split
  · exact .ite (inv_dropLocks (inv_leaveBatch (inv_sendArrival h))).modDie h
  · exact h

theorem inv_cancelEvict {die : Nat} {x : Evict} (h : Inv s) : Inv (cancelEvict s die x) :=
  inv_leaveBatch (inv_dropLocks h).modDie.modSlab

theorem inv_execEvictFault {die : Nat} (h : Inv s) : InvAfter (execEvictFault die s) := by
  unfold execEvictFault
  refine .next ?_
  split
  · split
    · exact .ite (inv_cancelEvict (inv_raiseAsync h.modEvict)) (inv_raiseAsync h.modEvict)
    · exact h
  · exact h

/-! ## Attn: what its functions do to memory -/

theorem inv_withPlaces {r : State × EngPlace} {opnd : Nat} {k : State → List (Nat × Nat × Hit) → StepOut} (h :
    Inv r.1) (hk : ∀ t l, Inv t → InvOut (k t l)) :
    InvOut (withPlaces r opnd k) := by
  obtain ⟨t, out⟩ := r
  cases out with
  | ok ps => exact hk t ps h
  | fault f va => exact .fault h
  | wait => exact .wait

theorem inv_withData {r : State × EngData} {opnd : Nat} {k : State → List Byte → StepOut} (h : Inv r.1) (hk : ∀ t l, Inv t → InvOut (k t l)) :
    InvOut (withData r opnd k) := by
  obtain ⟨t, out⟩ := r
  cases out with
  | ok b => exact hk t b h
  | fault f va => exact .fault h
  | wait => exact .wait

theorem inv_readersAt {tid core : Nat} {up : Bool} {ps : List (Nat × Nat × Hit)} (h : Inv s) : Inv (readersAt s tid core up ps) :=
  inv_engWrite h

theorem inv_kvCapture {tid core : Nat} {t : Task} (h : Inv s) : InvOut (kvCapture s tid core t) := by
  unfold kvCapture
  dsimp only
  split
  · exact .wait
  · exact .ite .wait (inv_withPlaces (inv_engPlaces h) fun _ _ ht => .ite .wait (.ok (ht.foldl fun _ _ hu => inv_readersAt hu).opWrite.modTask))

theorem inv_dropReader {tid core : Nat} {t : Task} {p : Nat} {ps : List (Nat × Nat × Hit)} (h : Inv s) : Inv (dropReader s tid core t p ps) :=
  (inv_readersAt h).modTask

theorem inv_lowerReaders {x : ReaderDrop} (h : Inv s) : InvIn id (lowerReaders s x) := by
  unfold lowerReaders
  dsimp only
  split
  · exact .ite .absent (.intro ((h.after (traffic_lineRequest ..)).after (traffic_pstore ..)))
  · refine .ite .absent ?_
    split
    · rename_i e
      exact .intro (inv_readersAt ((inv_engPlace h).fst_eq e))
    · exact .intro h
    · exact .absent

theorem inv_releasePages {tid : Nat} {t : Task} (h : Inv s) : Inv (releasePages s tid t) := by
  unfold releasePages
  refine h.foldl fun _ _ ht => ?_
  dsimp only
  split
  · rename_i e
    exact InvIn.of_eq (inv_lowerReaders ht) e
  · exact ht.modHub

theorem inv_execReaderDrop (h : Inv s) : InvAfter (execReaderDrop s) := by
  unfold execReaderDrop
  refine .next ?_
  split
  · exact (inv_lowerReaders h.modHub).getD h.modHub
  · exact h

theorem inv_settleDrops {tid : Nat} (h : Inv s) : Inv (settleDrops s tid) :=
  h.modHub

theorem inv_keepLists {core : Nat} {t : Task} {p : Nat} {forced : Bool} {bs : List Nat} (h : Inv s) : Inv (keepLists s core t p forced bs) := by
  unfold keepLists
  exact h.opWrite.foldl fun _ _ ht => ht.opWrite

theorem inv_kvselPage {tid core : Nat} {t : Task} {p : Nat} (h : Inv s) : InvOut (kvselPage s tid core t p) := by
  unfold kvselPage
  refine .ite .wait (inv_withPlaces (inv_engPlace h) fun _ _ h1 => ?_)
  refine inv_withData (inv_engLoad h1) fun _ _ h2 => ?_
  refine inv_withData (inv_engLoad h2) fun _ _ h3 => ?_
  exact inv_withData (inv_engLoad h3) fun _ _ h4 => .ok (inv_keepLists (inv_dropReader h4))

theorem inv_kvselFinal {core : Nat} {t : Task} (h : Inv s) : Inv (kvselFinal s core t) := by
  unfold kvselFinal
  exact h.foldl fun _ _ ht => ht.opWrite

theorem inv_keepRows {core : Nat} {t : Task} {rs : List Row} (h : Inv s) : Inv (keepRows s core t rs) :=
  h.modTask

theorem inv_spillRows {core : Nat} {t : Task} (h : Inv s) : Inv (spillRows s core t) := by
  unfold spillRows
  exact h.foldl fun _ _ ht => ht.opWrite

theorem inv_massUpdate {tid core : Nat} {ps : List (Nat × Nat × Hit)} {c : FV} (h : Inv s) : Inv (massUpdate s tid core ps c) := by
  unfold massUpdate
  exact .ite h (inv_engWriteAt h)

theorem inv_attnPage {tid core : Nat} {t : Task} {p pass : Nat} (h : Inv s) : InvOut (attnPage s tid core t p pass) := by
  unfold attnPage
  refine .ite .wait (inv_withData (inv_engLoad h) fun _ _ h1 => ?_)
  refine inv_withData (.ite_fst h1 (inv_engLoad h1)) fun _ _ h2 => ?_
  refine inv_withPlaces (.ite_fst h2 (inv_engPlace h2)) fun _ _ h3 => ?_
  refine inv_withPlaces (.ite_fst (inv_engPlaces h3) h3) fun _ _ h4 => .ite ?_ ?_
  · exact .ok (inv_dropReader (inv_keepRows (h4.foldl fun _ _ ht => .ite ht (inv_massUpdate ht)))).modTask
  · exact .ite (.ok (inv_keepRows h4)) (.ok (inv_dropReader (inv_keepRows h4)))

theorem inv_attnFinal {tid core : Nat} {t : Task} (h : Inv s) : InvOut (attnFinal s tid core t) := by
  unfold attnFinal
  exact inv_withPlaces (inv_engPlaces h) fun _ _ ht => .ok (inv_engWrite ht)

theorem inv_kvStep {tid core : Nat} {t : Task} (h : Inv s) : InvOut (kvStep s tid core t) := by
  unfold kvStep
  exact .ite (.ite (inv_kvselPage h) (.ok (inv_kvselFinal h))) (.ite (inv_attnPage h) (.ite (inv_attnPage h) (inv_attnFinal h)))

/-! ## Bank: what its functions do to memory -/

theorem inv_bankcfg {w : Word} {op : Nat} {p : BitVec 4} (h : Inv s) : InvAfter (bankcfg w op p s) := by
  unfold bankcfg
  refine inv_issueUniform h fun _ _ _ ht => ?_
  refine .ite (.next h) ?_
  split
  · exact inv_trapAt ht
  · exact .next (inv_retire ht)
  · exact .next (inv_retire ht).modCore.modTeam

theorem inv_leaveCache {core bank : Nat} {m : Bank} (h : Inv s) : Inv (leaveCache s core bank m) :=
  (h.after (traffic_cleanLines ..)).modCore

theorem inv_joinCache {core bank : Nat} (h : Inv s) : Inv (joinCache s core bank) :=
  h.modCore

theorem inv_changeBank {tid op bank : Nat} (h : Inv s) : Inv (changeBank s tid op bank) := by
  unfold changeBank
  exact .ite (inv_leaveCache h).modTeam (.ite (inv_joinCache h).modTeam (.ite (inv_leaveCache h).modTeam (inv_joinCache h)))

theorem inv_bankModeChange {core : Nat} (h : Inv s) : Inv (bankModeChange s core) := by
  unfold bankModeChange
  refine .ite ?_ h
  split
  · exact (inv_changeBank h).modCore.modGroup
  · exact h

theorem inv_settleBanks {core : Nat} (h : Inv s) : Inv (settleBanks s core) := by
  unfold settleBanks
  exact h.foldl fun _ _ ht => inv_bankModeChange ht

/-! ## Task: what its functions do to memory -/

theorem inv_execSclaim {d : BitVec 8} {p : BitVec 4} {imm : BitVec 8} (h : Inv s) : InvAfter (execSclaim d p imm s) := by
  unfold execSclaim
  refine inv_issueUniform h fun _ _ _ ht => ?_
  dsimp only
  split
  · exact .next (inv_retire ht).modCore
  · exact .next (inv_retire ht)

theorem inv_execSrel {a imm : BitVec 8} (h : Inv s) : InvAfter (execSrel a imm s) := by
  unfold execSrel
  refine inv_issue h fun _ _ _ ht => ?_
  dsimp only
  split
  · exact inv_trapAt ht
  · exact .ite (.next (inv_retire (inv_releaseSlots ht))) (.next ht.setGroup.modCore)

theorem inv_execSlotZero {core : Nat} (h : Inv s) : InvAfter (execSlotZero core s) := by
  unfold execSlotZero
  refine .next ?_
  split
  · exact h.modCore
  · exact h

theorem inv_execTpost {a b : BitVec 8} (h : Inv s) : InvAfter (execTpost a b s) := by
  unfold execTpost
  exact inv_issuePost h fun _ _ _ ht => inv_newId ht

theorem inv_cancelTask {core id : Nat} (h : Inv s) : Inv (cancelTask s core id) := by
  unfold cancelTask
  split
  · exact h
  · exact inv_srelCheck (inv_dropLocks (inv_releasePages h)).modCore

theorem inv_taskFault {core : Nat} {t : Task} {k : EngineFault} {opnd va ident : Nat} (h : Inv s) : Inv (taskFault s core t k opnd va ident) := by
  unfold taskFault
  exact .ite (inv_cancelTask (inv_raiseAsync h.modTask)) (inv_raiseAsync h.modTask)

theorem inv_donePlace {tid core : Nat} {t : Task} (h : Inv s) : Inv (donePlace s tid core t).1 :=
  inv_engPlace h

theorem inv_memRows {tid core base pitch off n : Nat} {l : List Nat} (h : Inv s) : Inv (memRows tid core base pitch off n l s).1 := by
  induction l generalizing s with
  | nil => exact h
  | cons r l ih =>
    unfold memRows
    split
    · rename_i e
      exact (inv_engLoad h).fst_eq e
    · rename_i e
      exact (inv_engLoad h).fst_eq e
    · rename_i e
      have h1 := (inv_engLoad h).fst_eq e
      split
      · rename_i e
        exact (ih h1).fst_eq e
      · exact ih h1

theorem inv_operandRows {tid core : Nat} {t : Task} {w fmt pitch : Nat} {rows : List Nat} {k n : Nat} (h : Inv s) :
    Inv (operandRows s tid core t w fmt pitch rows k n).1 := by
  unfold operandRows
  exact .ite_fst h (inv_memRows h)

theorem inv_withRows {r : State × RowsOut} {opnd : Nat} {k : State → List (List Byte) → StepOut} (h : Inv r.1) (hk : ∀ t l, Inv t → InvOut (k t l)) :
    InvOut (withRows r opnd k) := by
  obtain ⟨t, out⟩ := r
  cases out with
  | ok b => exact hk t b h
  | fault f va => exact .fault h
  | wait => exact .wait

theorem inv_putAccRows {core : Nat} {t : Task} {rows : List (Nat × List DWord)} (h : Inv s) : Inv (putAccRows s core t rows) := by
  unfold putAccRows
  exact h.foldl fun _ _ ht => ht.opWrite

theorem inv_mmaSpill {core : Nat} {t : Task} (h : Inv s) : Inv (mmaSpill s core t) :=
  inv_putAccRows h

theorem inv_mmaStep {tid core : Nat} {t : Task} (h : Inv s) : InvOut (mmaStep s tid core t) := by
  unfold mmaStep
  exact inv_withRows (inv_operandRows h) fun _ _ ht => inv_withRows (inv_operandRows ht) fun _ _ hu => .ok hu.modTask

theorem inv_mvStep {tid core : Nat} {t : Task} (h : Inv s) : InvOut (mvStep s tid core t) := by
  unfold mvStep
  exact inv_withRows (inv_operandRows h) fun _ _ ht => inv_withRows (inv_operandRows ht) fun _ _ hu => .ok (inv_putAccRows hu)

theorem inv_putOutRow {core : Nat} {t : Task} {i : Nat} {bs : List Byte} (h : Inv s) : Inv (putOutRow s core t i bs) := by
  unfold putOutRow
  exact h.foldl fun _ _ ht => ht.opWrite

theorem inv_accstStep {tid core : Nat} {t : Task} (h : Inv s) : InvOut (accstStep s tid core t) := by
  unfold accstStep
  exact .ite (.ok (h.foldl fun _ _ ht => inv_putOutRow ht)) (inv_withPlaces (inv_engPlaces h) fun _ _ ht => .ok (inv_engWrite ht))

theorem inv_taskStep {tid core : Nat} {t : Task} (h : Inv s) : InvOut (taskStep s tid core t) := by
  unfold taskStep
  split
  · exact inv_mmaStep h
  · exact inv_mvStep h
  · exact inv_accstStep h
  · exact inv_kvStep h

theorem inv_leaveEngine {core : Nat} {t : Task} (h : Inv s) : Inv (leaveEngine s core t) := by
  unfold leaveEngine
  refine Inv.modTask ?_
  split
  · exact inv_mmaSpill h
  · exact .ite (inv_spillRows h) h
  · exact h

theorem inv_stopTask {tid core : Nat} {t : Task} {k : EngineFault} {opnd va : Nat} (h : Inv s) : InvIn id (stopTask s tid core t k opnd va) := by
  unfold stopTask
  split
  · rename_i e
    exact .intro (inv_taskFault (inv_engWrite ((inv_donePlace (inv_leaveEngine h)).fst_eq e)))
  · rename_i e
    exact .intro (inv_taskFault ((inv_donePlace (inv_leaveEngine h)).fst_eq e))
  · exact .absent

theorem inv_stopOut {tid core : Nat} {t : Task} {f : State → State} {r : StepOut} (h : InvOut r) (hf : ∀ t, Inv t → Inv (f t)) :
    InvIn id (stopOut tid core t f r) := by
  cases r with
  | ok s => exact .intro (hf s h)
  | fault s k opnd va => exact inv_stopTask h
  | wait => exact .absent

theorem inv_fetchRecord {core : Nat} {t : Task} (h : Inv s) : Inv (fetchRecord s core t).1 :=
  inv_engLoad h

theorem inv_execTaskFetch {core id : Nat} (h : Inv s) : InvAfter (execTaskFetch core id s) := by
  unfold execTaskFetch
  refine .next ?_
  split
  · exact h
  · refine .ite h ?_
    split
    · rename_i e
      exact (inv_newId ((inv_fetchRecord h).fst_eq e)).modTask
    · rename_i e
      exact inv_taskFault ((inv_fetchRecord h).fst_eq e)
    · exact h

theorem inv_capture {tid core : Nat} {t : Task} (h : Inv s) : InvOut (capture s tid core t) := by
  unfold capture
  exact .ite (inv_kvCapture h) (.ok h)

theorem inv_takeEngine {core : Nat} {t : Task} (h : Inv s) : InvIn id (takeEngine s core t) := by
  unfold takeEngine
  exact inv_stopOut (inv_capture (h.after (traffic_cleanLines ..)).modTask) fun _ ht => ht.modTask

theorem inv_execTaskStart {core id : Nat} (h : Inv s) : InvAfter (execTaskStart core id s) := by
  unfold execTaskStart
  refine .next ?_
  split
  · exact h
  · exact .ite h (.ite (.ite (inv_askLocks h) (inv_askLocks h).modTask) ((inv_takeEngine h).getD h))

theorem inv_stepped {core : Nat} {t : Task} {last : Bool} {s1 : State} (h : Inv s1) : Inv (stepped core t last s1) := by
  unfold stepped
  refine .ite h.modTask (Inv.modTask ?_)
  split
  · exact .ite (inv_mmaSpill h.modTask) h.modTask
  · exact h.modTask

theorem inv_taskNext {core : Nat} {t : Task} (h : Inv s) : InvIn id (taskNext s core t) := by
  unfold taskNext
  exact inv_stopOut (inv_taskStep h) fun _ ht => inv_stepped ht

theorem inv_execTaskStep {core id : Nat} (h : Inv s) : InvAfter (execTaskStep core id s) := by
  unfold execTaskStep
  refine .next ?_
  split
  · exact h
  · exact .ite ((inv_taskNext h).getD h) h

theorem inv_freeTask {core : Nat} {t : Task} (h : Inv s) : Inv (freeTask s core t) :=
  h.modCore

theorem inv_execTaskComplete {core id : Nat} (h : Inv s) : InvAfter (execTaskComplete core id s) := by
  unfold execTaskComplete
  refine .next ?_
  split
  · exact h
  · refine .ite h ?_
    split
    · rename_i e
      extract_lets s2 s3
      have h2 : Inv s2 := inv_sendArrival (inv_engWrite ((inv_donePlace h).fst_eq e))
      have h3 : Inv s3 := inv_srelCheck (inv_freeTask (inv_dropLocks h2))
      exact .ite h3 (inv_raiseAsync h3)
    · rename_i e
      exact inv_taskFault ((inv_donePlace h).fst_eq e)
    · exact h

/-! ## Post: what its functions do to memory -/

theorem inv_execLaunch {d a : BitVec 8} (h : Inv s) : InvAfter (execLaunch d a s) := by
  unfold execLaunch
  exact inv_issuePost h fun _ _ _ ht => ht

theorem inv_launchResult {gid d : Nat} {x : DWord} (h : Inv s) : Inv (launchResult s gid d x) := by
  unfold launchResult
  exact .ite h h.modGroup

theorem inv_lowerPosts {gid : Nat} {m : SliceMask} (h : Inv s) : Inv (lowerPosts s gid m) :=
  h.modGroup

theorem inv_cleanFor {gid : Nat} {rs : List (DWord × Nat)} (h : Inv s) : Inv (cleanFor s gid rs) :=
  h.after (traffic_cleanLines ..)

theorem inv_launchRecord {gid : Nat} {priv : Bool} {ra : DWord} (h : Inv s) : Inv (launchRecord s gid priv ra).1 := by
  unfold launchRecord
  dsimp only
  split
  · rename_i e
    exact (inv_engReachAt h).fst_eq e
  · rename_i e
    exact (inv_engReachAt h).fst_eq e
  · rename_i e
    have h1 := (inv_engReachAt h).fst_eq e
    split
    · rename_i e
      exact (inv_engReachAt h1).fst_eq e
    · rename_i e
      exact (inv_engReachAt h1).fst_eq e
    · rename_i e
      exact inv_engRead ((inv_engReachAt h1).fst_eq e)

theorem inv_takePost {core : Nat} {x : PostSlot} (h : Inv s) : Inv (takePost s core x) := by
  unfold takePost
  dsimp only
  split
  · exact inv_lowerPosts (Inv.modCore (.ite_fst h (inv_newId h)))
  · exact inv_lowerPosts h.modCore
  · exact inv_lowerPosts h.modDie
  · split
    · rename_i e
      exact (inv_cleanFor ((inv_launchRecord h).fst_eq e)).modHub
    · rename_i e
      exact inv_lowerPosts (inv_launchResult ((inv_launchRecord h).fst_eq e))

theorem inv_servePost {core part : Nat} {p : Post} (h : Inv s) : Inv (servePost s core part p) := by
  unfold servePost
  dsimp only
  split
  · exact h.modCore.modCore
  · exact h.modCore

theorem inv_execPostTaken {core part : Nat} (h : Inv s) : InvAfter (execPostTaken core part s) := by
  unfold execPostTaken
  refine .next ?_
  split
  · exact .ite (inv_takePost (inv_servePost (inv_cleanFor h))) h
  · exact h

theorem inv_lockGranted {die : Nat} {o : LockOwner} (h : Inv s) : Inv (lockGranted s die o) := by
  unfold lockGranted
  split
  · exact h.modTask
  · exact h.modTask
  · exact h.modDie
  · exact h.modCopy

theorem inv_execRangeLockStart {die n : Nat} (h : Inv s) : InvAfter (execRangeLockStart die n s) := by
  unfold execRangeLockStart
  refine .next (.ite ?_ h)
  split
  · exact inv_lockGranted h.modDie
  · exact h

/-! ## Place: what its functions do to memory -/

theorem inv_pinQuota {part : Nat} {up : Bool} (h : Inv s) : Inv (pinQuota s part up) :=
  h.modRegs

theorem inv_pinInc {part f : Nat} (h : Inv s) : Inv (pinInc s part f).1 := by
  unfold pinInc
  exact .ite_fst h (.ite_fst h (.ite_fst h (Inv.after (.ite (inv_pinQuota h) h) (traffic_setFrameRec ..))))

theorem inv_pinDec {part f : Nat} (h : Inv s) : Inv (pinDec s part f).1 := by
  unfold pinDec
  exact .ite_fst h (Inv.after (.ite (inv_pinQuota h) h) (traffic_setFrameRec ..))

theorem inv_assignFrame {f owner : Nat} (h : Inv s) : Inv (assignFrame s f owner).1 := by
  unfold assignFrame
  exact .ite_fst h (h.after (traffic_setFrameRec ..))

theorem inv_giveFrame {part frame guest : Nat} (h : Inv s) : Inv (giveFrame s part frame guest) := by
  unfold giveFrame
  refine .ite h ?_
  split
  · rename_i e
    exact (((inv_assignFrame h).fst_eq e).after (traffic_setFrameRec ..)).modRegs
  · rename_i e
    exact (inv_assignFrame h).fst_eq e

theorem inv_applyFrameOp {part op operand frame : Nat} (h : Inv s) : Inv (applyFrameOp s part op operand frame).1 := by
  unfold applyFrameOp
  dsimp only
  split
  · exact .ite_fst h (h.after (traffic_setFrameRec ..))
  · exact .ite_fst h (h.after (traffic_setFrameRec ..))
  · exact inv_pinInc h
  · exact inv_pinDec h
  · exact Inv.after (.ite h (inv_pinQuota h)) (traffic_setFrameRec ..)
  · exact h.after (traffic_setFrameRec ..)
  · split
    · rename_i e
      exact .ite_fst h ((inv_assignFrame h).fst_eq e)
    · exact inv_assignFrame h
  · exact .ite_fst h (h.after (traffic_setFrameRec ..))
  · exact h

theorem inv_frameOp {part op operand frame : Nat} (h : Inv s) : Inv (frameOp s part op operand frame).1 := by
  unfold frameOp
  exact .ite_fst h (inv_applyFrameOp h)

theorem inv_ctlFrameOp {part op operand frame : Nat} (h : Inv s) : Inv (ctlFrameOp part op operand frame s) :=
  (inv_frameOp h).modCtl

theorem inv_execAssign {part frame operand : Nat} (h : Inv s) : InvAfter (execAssign part frame operand s) := by
  unfold execAssign
  exact .next (.ite (inv_giveFrame h) (inv_ctlFrameOp h))

theorem inv_markPin {part : Nat} {i : Hit} {on : Bool} (h : Inv s) : Inv (markPin s part i on) :=
  h.after (traffic_pteUpdate ..)

theorem inv_doPin {o : LogOp} {d : BitVec 4} (h : Inv s) : Inv (doPin s o d) := by
  unfold doPin
  dsimp only
  split
  · exact (inv_finishOp h).modGroup
  · exact .ite (inv_finishOp h).modGroup (.ite (inv_finishOp (inv_markPin (inv_pinInc h))).modGroup (inv_finishOp h).modGroup)

theorem inv_doUnpin {o : LogOp} {d : BitVec 4} (h : Inv s) : Inv (doUnpin s o d) := by
  unfold doUnpin
  dsimp only
  split
  · exact (inv_finishOp h).modGroup
  · exact .ite (inv_finishOp h).modGroup (inv_finishOp (.ite (inv_markPin (inv_pinDec h)) (inv_pinDec h))).modGroup

theorem inv_hintPage {g : Group} {priv : Bool} {hint : BitVec 2} {va : Nat} (h : Inv s) : InvIn id (hintPage s g priv hint va) := by
  unfold hintPage
  refine .ite (.intro h) ?_
  split
  · rename_i e
    have h1 := (h.after (traffic_translate ..)).fst_eq e
    split
    · exact .intro h
    · exact .ite (.intro h) (.intro (h1.after (traffic_setFrameRec ..)))
  · exact .intro h
  · exact .absent

theorem inv_execPhint {i : BitVec 2} {a imm : BitVec 8} (h : Inv s) : InvAfter (execPhint i a imm s) := by
  unfold execPhint
  exact inv_issue h fun _ _ _ ht => inv_issueRequest ht

theorem inv_hintPages {o : LogOp} {i : BitVec 2} {n : Nat} (h : Inv s) : InvIn id (hintPages s o i n) := by
  unfold hintPages
  exact InvIn.foldl (.intro h) fun _ _ ht => ht.bind fun _ hu => inv_hintPage hu

theorem inv_doPhint {o : LogOp} {i : BitVec 2} {n : Nat} (h : Inv s) : Inv (doPhint s o i n) :=
  inv_finishOp ((inv_hintPages h).getD h)

theorem inv_pcntLane {tid : Nat} {clr : Bool} {i : Hit} (h : Inv s) : Inv (pcntLane s tid clr i).1 := by
  unfold pcntLane
  exact .ite_fst h (.ite_fst h (.ite (h.after (traffic_setFrameRec ..)) h))

theorem inv_doPcnt {o : LogOp} {d : Nat} {clr : Bool} (h : Inv s) : Inv (doPcnt s o d clr) := by
  unfold doPcnt
  refine Inv.modGroup (inv_finishOp ?_)
  refine h.foldl_fst fun _ _ ht => ?_
  split
  · exact inv_pcntLane ht
  · exact ht

theorem inv_cleanAll {p : L1Line → Bool} {inv : Bool} (h : Inv s) : Inv (cleanAll s p inv) := by
  unfold cleanAll
  exact h.foldl fun _ _ ht => ht.after (traffic_cleanLines ..)

theorem inv_shoot {q : Shoot} (h : Inv s) : Inv (shoot s q) := by
  unfold shoot
  exact inv_unwalk (inv_cleanAll (.congr h rfl))

theorem inv_execShootdown {gstage : Bool} {asid vmid : Nat} {va : Option Nat} (h : Inv s) : InvAfter (execShootdown gstage asid vmid va s) := by
  unfold execShootdown
  exact .next (.ite (inv_shoot h) h.modHub)

theorem inv_execShootServe {n : Nat} (h : Inv s) : InvAfter (execShootServe n s) := by
  unfold execShootServe
  refine .next ?_
  split
  · exact .ite (inv_shoot h).modHub h
  · exact h

theorem inv_migrMove {w n : Nat} (h : Inv s) : Inv (migrMove s w n).1 := by
  unfold migrMove
  refine .ite_fst h (.ite_fst h (.ite_fst h (.ite_fst h (.ite_fst h ?_))))
  split
  · exact h
  · exact .ite_fst h (h.foldl fun _ _ ht => (ht.after (traffic_setFrameRec ..)).after (traffic_setFrameRec ..)).modHub

theorem inv_migrRetire {w b : Nat} (h : Inv s) : Inv (migrRetire s w b).1 := by
  unfold migrRetire
  refine .ite_fst h (.ite_fst h ?_)
  split
  · exact h.modHub
  · exact h.modHub.foldl fun _ _ ht => ht.after (traffic_setFrameRec ..)
  · exact h

theorem inv_migrClaim {part w b : Nat} (h : Inv s) : Inv (migrClaim s part w b).1 := by
  unfold migrClaim
  refine .ite_fst h (.ite_fst h ?_)
  split
  · exact h
  · exact h.modHub

theorem inv_migr {word : Word} {d a b : BitVec 8} (h : Inv s) : InvAfter (migr word d a b s) := by
  unfold migr
  exact inv_issueUniform h fun _ _ _ ht => inv_issueRequest ht

theorem inv_migrServe {part w n : Nat} (h : Inv s) : Inv (migrServe s part w n).1 := by
  unfold migrServe
  split
  · exact inv_migrMove h
  · exact inv_migrRetire h
  · exact inv_migrClaim h
  · exact h

theorem inv_doMigr {o : LogOp} {d : Nat} (h : Inv s) : Inv (doMigr s o d) :=
  (inv_finishOp (inv_migrServe h)).modGroup

theorem inv_renameParked {a b : Nat × Nat} (h : Inv s) : Inv (renameParked s a b) := by
  unfold renameParked
  exact Inv.modHub (.congr h rfl)

theorem inv_moveSub {old idx new : Nat} {x : Sub} {lost : Bool} (h : Inv s) : Inv (moveSub s old idx new x lost) := by
  unfold moveSub
  extract_lets home j s0 s1 re msg owed s2
  have h0 : Inv s0 := h.modHome.modHome
  have h1 : Inv s1 := .ite h0 (h0.after (traffic_grantLease ..))
  have h2 : Inv s2 := h1.modHub
  exact .ite h.modSub (.ite (inv_loseSub h) (.ite (inv_renameParked h2) h2.modCore))

theorem inv_moveWord {src dst : Nat} {lost : Bool} (h : Inv s) : Inv (moveWord s src dst lost) := by
  unfold moveWord
  extract_lets s0 old k seq subs s1 some_ s2
  have h1 : Inv s1 := h.modHub.foldl fun _ _ ht => inv_moveSub ht
  have h2 : Inv s2 := h1.modHome.modHome
  exact .ite h2.modHome.modHome.modHub h2

theorem Inv.modMove {slot : Nat} {f : Move → Move} (h : Inv s) : Inv (s.modMove slot f) :=
  h.modHub

theorem inv_takeBack {line : Nat} (h : Inv s) : Inv (takeBack s line) := by
  unfold takeBack
  exact h.foldl fun _ _ ht => ht.after (traffic_leaveLine ..)

theorem inv_endLeases {line : Nat} (h : Inv s) : Inv (endLeases s line) :=
  h.modHome

theorem inv_execMigrateLine {slot : Nat} (h : Inv s) : InvAfter (execMigrateLine slot s) := by
  unfold execMigrateLine
  refine .next ?_
  split
  · exact h
  · extract_lets src dst s0 s1 standing lost s2 s3 s4 s5 s6
    have h1 : Inv s1 := (inv_takeBack (inv_takeBack h)).after (traffic_performWrite ..)
    have h2 : Inv s2 := inv_endLeases (h1.foldl fun _ _ ht => inv_moveWord ht)
    have h4 : Inv s4 := h2.modMove.foldl fun _ _ ht => ht.after (traffic_performWrite ..)
    have h5 : Inv s5 := h4.foldl fun _ _ ht => ht.after (traffic_setFrameRec ..)
    have h6 : Inv s6 := h5.foldl fun _ _ ht => ht.after (traffic_setFrameRec ..)
    exact .ite h4 h6.modMove

theorem inv_execStalledWriteRetry {n : Nat} (h : Inv s) : InvAfter (execStalledWriteRetry n s) := by
  unfold execStalledWriteRetry
  refine .next (.ite ?_ h)
  split
  · exact h.modHub.after (traffic_homeStore ..)
  · exact h

theorem inv_execClaimRequest {frame claimant part : Nat} (h : Inv s) : InvAfter (execClaimRequest frame claimant part s) := by
  unfold execClaimRequest
  exact .next (.ite (h.after (traffic_setFrameRec ..)).modHub h)

theorem inv_clearMarks {f : Nat} (h : Inv s) : Inv (clearMarks s f) :=
  h.modHome.modHub

theorem inv_execHandoverRelease {frame : Nat} (h : Inv s) : InvAfter (execHandoverRelease frame s) := by
  unfold execHandoverRelease
  extract_lets r part covers drop s1 s2 s3 _ s4
  have h1 : Inv s1 := inv_cleanAll (.congr h rfl)
  have h2 : Inv s2 := inv_unwalk h1
  have h3 : Inv s3 := inv_clearMarks ((h2.foldl fun _ _ ht => inv_takeBack ht).foldl fun _ _ ht => inv_loseSub ht)
  have h4 : Inv s4 := h3.after (traffic_setFrameRec ..)
  exact .next (.ite h4.modHub.modReferee h)

theorem inv_execHolimExpiry {frame : Nat} (h : Inv s) : InvAfter (execHolimExpiry frame s) := by
  unfold execHolimExpiry
  exact .next (.ite (h.after (traffic_setFrameRec ..)).modHub h)

theorem inv_failClaim {entry reason : Nat} {owner : Option Nat} (h : Inv s) : Inv (failClaim s entry reason owner) := by
  unfold failClaim
  split
  · exact .ite h h.modHub
  · exact h

theorem inv_takeFrame {c : Claim} (h : Inv s) : Inv (takeFrame s c) :=
  inv_clearMarks (h.after (traffic_setFrameRec ..))

theorem inv_execClaimGrant {entry : Nat} (h : Inv s) : InvAfter (execClaimGrant entry s) := by
  unfold execClaimGrant
  refine .next ?_
  split
  · exact .ite (Inv.modHub (.ite h (inv_takeFrame h))) (Inv.after (.ite h (inv_takeFrame h)) (traffic_pteUpdate ..)).modHub
  · exact h

/-! ## Super: what its functions do to memory -/

theorem inv_execReservedOpcode {w : Word} (h : Inv s) : InvAfter (execReservedOpcode w s) := by
  unfold execReservedOpcode
  refine inv_withGang fun _ _ => ?_
  split <;> exact inv_trapAt (inv_countIssue h)

theorem inv_execSolo (h : Inv s) : InvAfter (execSolo s) := by
  unfold execSolo
  exact inv_issue h fun _ _ _ ht => .next ht.setGroup

theorem inv_execUnsolo (h : Inv s) : InvAfter (execUnsolo s) := by
  unfold execUnsolo
  exact inv_issue h fun _ _ _ ht => .next ht.setGroup

theorem inv_execTret {k : BitVec 1} (h : Inv s) : InvAfter (execTret k s) := by
  unfold execTret
  exact inv_issue h fun _ _ _ ht => .next (inv_srelPass (inv_closeFrame ht))

theorem inv_execCrd {d : BitVec 8} {imm : BitVec 16} (h : Inv s) : InvAfter (execCrd d imm s) := by
  unfold execCrd
  exact inv_issueUniform h fun _ _ _ ht => .next (inv_retire ht)

theorem inv_modFrame {gid : Nat} {f : Frame → Frame} (h : Inv s) : Inv (modFrame s gid f) :=
  h.modGroup

theorem inv_writeTfcur {gid : Nat} {v : Word} (h : Inv s) : Inv (writeTfcur s gid v) :=
  inv_modFrame h

theorem inv_writeLeaseClr {die part : Nat} {v : Word} (h : Inv s) : Inv (writeLeaseClr s die part v) := by
  unfold writeLeaseClr
  exact .ite h.modRegs (.ite h.modRegs h.modDie.modRegs)

theorem inv_writeFopc {part : Nat} {v : Word} (h : Inv s) : Inv (writeFopc s part v) :=
  (inv_frameOp h).modRegs

theorem inv_writePlain {gid n : Nat} {v : Word} (h : Inv s) : Inv (writePlain s gid n v) := by
  unfold writePlain
  exact .ite (inv_modFrame h) (.ite (inv_modFrame h) (.ite (inv_modFrame h) (.ite h.modRegs (.ite h.modRegs (.ite h.modRegs (.ite h.modRegs h))))))

theorem inv_writeControl {gid n : Nat} {v : Word} (h : Inv s) : Inv (writeControl s gid n v) := by
  unfold writeControl
  exact .ite (inv_writeTfcur h) (.ite (inv_writeLeaseClr h) (.ite (inv_writeFopc h) (inv_writePlain h)))

theorem inv_execCwr {d : BitVec 8} {imm : BitVec 16} (h : Inv s) : InvAfter (execCwr d imm s) := by
  unfold execCwr
  exact inv_issue h fun _ _ _ ht => .next (inv_retire (inv_writeControl ht))

theorem inv_tlbi {w : Word} {gstage : Bool} {q : State → Group → Ctx → Shoot} (h : Inv s) : InvAfter (tlbi w gstage q s) := by
  unfold tlbi
  exact inv_issue h fun _ _ _ ht => .ite (inv_trapAt ht) (.ite (.next h) (.next (inv_retire (inv_shoot ht))))

theorem inv_ptstResult {r : State × Reach} (h : Inv s) (k : Inv r.1) : Inv (ptstResult s r).1 := by
  unfold ptstResult
  split
  · exact k
  · exact h
  · exact h
  · exact h

theorem inv_execPtst {d a : BitVec 8} {acc : BitVec 2} (h : Inv s) : InvAfter (execPtst d a acc s) := by
  unfold execPtst
  exact inv_issueUniform h fun _ _ _ ht => .next (inv_retire (inv_ptstResult ht (ht.after (traffic_translate ..))))

theorem inv_execIfence (h : Inv s) : InvAfter (execIfence s) := by
  unfold execIfence
  exact inv_issue h fun _ _ _ ht => .ite (.next h) (.next (inv_retire (ht.after (traffic_cleanLines ..)).modCore))

theorem inv_touchWalk {x : Xctx} {va level base : Nat} (h : Inv s) : Inv (touchWalk x va level s base).1 := by
  induction level generalizing s base with
  | zero =>
    unfold touchWalk
    split
    · rename_i e
      exact (inv_endMig (h.after (traffic_secondStage ..))).fst_eq e
    · rename_i e
      exact (inv_endMig (h.after (traffic_secondStage ..))).fst_eq e
    · rename_i e
      exact (inv_endMig (h.after (traffic_secondStage ..))).fst_eq e
    · rename_i e
      have h1 := (inv_endMig (h.after (traffic_secondStage ..))).fst_eq e
      exact .ite_fst h1 (h1.after (traffic_lineRequest ..))
  | succ level ih =>
    unfold touchWalk
    split
    · rename_i e
      exact (inv_endMig (h.after (traffic_secondStage ..))).fst_eq e
    · rename_i e
      exact (inv_endMig (h.after (traffic_secondStage ..))).fst_eq e
    · rename_i e
      exact (inv_endMig (h.after (traffic_secondStage ..))).fst_eq e
    · rename_i e
      have h1 := (inv_endMig (h.after (traffic_secondStage ..))).fst_eq e
      have h2 := fun n => h1.after (traffic_lineRequest _ x.part x.die n .homeRead)
      refine .ite_fst h1 ?_
      dsimp only
      split
      · exact h2 _
      · exact h2 _
      · exact h2 _
      · exact ih (h2 _)

theorem inv_touchFill {x : Xctx} {addr pte : Nat} (h : Inv s) : Inv (touchFill s x addr pte).1 := by
  unfold touchFill
  dsimp only
  split
  · exact h
  · have hw := fun n => inv_endMig (acc := 1) (h.after (traffic_secondStage s x n 1))
    split
    · rename_i e
      have h1 := (hw _).fst_eq e
      dsimp only
      refine Inv.after (Inv.after (inv_assignFrame ?_) (traffic_lineRequest ..)) (traffic_pstore ..)
      exact h1.modRegs.after (traffic_pwrite ..)
    · rename_i e
      exact (hw _).fst_eq e
    · rename_i e
      exact (hw _).fst_eq e

theorem inv_execFtmap {d a : BitVec 8} (h : Inv s) : InvAfter (execFtmap d a s) := by
  unfold execFtmap
  refine inv_issueUniform h fun c g s1 hs => ?_
  extract_lets x out w
  have hw : Inv w.1 := inv_touchWalk hs
  have hr : Inv (match w.2 with | .leaf addr pte => touchFill w.1 x addr pte | _ => w).1 := by
    split
    · exact inv_touchFill hw
    · exact hw
  split
  · rename_i e
    exact .next (inv_retire (hr.fst_eq e))
  · exact .next h
  · rename_i e
    exact .next (inv_retire (hr.fst_eq e))

theorem inv_ringPlace {tid core : Nat} (h : Inv s) : Inv (ringPlace s tid core).1 := by
  unfold ringPlace
  dsimp only
  split <;> rename_i e <;> exact (inv_endMig (h.after (traffic_secondStage ..))).fst_eq e

theorem inv_execRingp {d : BitVec 8} (h : Inv s) : InvAfter (execRingp d s) := by
  unfold execRingp
  refine inv_issueUniform h fun _ _ _ ht => .ite (.next (inv_retire ht)) ?_
  split
  · exact .next h
  · rename_i e
    exact .next (inv_retire ((inv_ringPlace ht).fst_eq e))
  · rename_i e
    refine .ite (.next h) (.next (inv_retire (Inv.modRegs ?_)).modGroup)
    exact (((inv_ringPlace ht).fst_eq e).after (traffic_lineRequest ..)).after (traffic_pwrite ..)

theorem inv_killGroup {gid : Nat} (h : Inv s) : Inv (killGroup s gid) := by
  unfold killGroup
  exact (h.foldl fun _ _ ht => inv_finishOp ht).modCore.modGroup.foldl fun _ _ ht => inv_resumeEngine ht

theorem inv_onParked {part : Nat} {i : DWord} {f : State → Nat → State} (h : Inv s) (hf : ∀ t n, Inv t → Inv (f t n)) :
    Inv (onParked s part i f).1 := by
  unfold onParked
  split
  · exact h
  · exact .ite_fst h (.ite_fst h (hf _ _ h))

theorem inv_resumeParked {part : Nat} {i : DWord} {skip : Bool} (h : Inv s) : Inv (resumeParked s part i skip).1 := by
  unfold resumeParked
  exact inv_onParked h fun _ _ ht => inv_srelPass (inv_closeFrame ht)

theorem inv_killParked {part : Nat} {i : DWord} (h : Inv s) : Inv (killParked s part i).1 := by
  unfold killParked
  exact inv_onParked h fun _ _ ht => inv_killGroup ht

theorem inv_execGres {d a : BitVec 8} {k : BitVec 1} (h : Inv s) : InvAfter (execGres d a k s) := by
  unfold execGres
  exact inv_issueUniform h fun _ _ _ ht => .next (inv_retire (inv_resumeParked ht))

theorem inv_execGkill {d a : BitVec 8} (h : Inv s) : InvAfter (execGkill d a s) := by
  unfold execGkill
  exact inv_issueUniform h fun _ _ _ ht => .next (inv_retire (inv_killParked ht))

theorem inv_sendSnap {n : BitVec 16} (h : Inv s) : Inv (sendSnap s n).1 := by
  unfold sendSnap
  exact .ite_fst h h.modHub

theorem inv_execSnap {d : BitVec 8} {imm : BitVec 16} (h : Inv s) : InvAfter (execSnap d imm s) := by
  unfold execSnap
  exact inv_issueUniform h fun _ _ _ ht => inv_issueRequest ht

theorem inv_doSnap {o : LogOp} {d : Nat} {n : BitVec 16} (h : Inv s) : Inv (doSnap s o d n) :=
  (inv_finishOp (inv_sendSnap h)).modGroup

theorem inv_cancelEngine {e : EngineRef} (h : Inv s) : Inv (cancelEngine s e) := by
  unfold cancelEngine
  split
  · exact h
  · exact inv_cancelCopy h
  · exact inv_cancelTask h
  · split
    · exact inv_cancelEvict h
    · exact h

theorem inv_execTrapDelivery {gid : Nat} (h : Inv s) : InvAfter (execTrapDelivery gid s) := by
  unfold execTrapDelivery
  exact .next (.ite (inv_tryDeliver h) h)

theorem inv_passTrap {i : HeldTrap} {enter : State → Nat → State} (h : Inv s) (henter : ∀ t n, Inv t → Inv (enter t n)) :
    Inv (passTrap s i enter) := by
  unfold passTrap
  split
  · exact henter _ _ h
  · exact inv_cancelEngine h.post

theorem inv_execHeldTrapEnter {core : Nat} (h : Inv s) : InvAfter (execHeldTrapEnter core s) := by
  unfold execHeldTrapEnter
  refine .next ?_
  split
  · exact inv_passTrap h.modCore fun _ _ ht => inv_enterAsync ht
  · exact h

theorem inv_execHeldTrapRetry {core : Nat} (h : Inv s) : InvAfter (execHeldTrapRetry core s) := by
  unfold execHeldTrapRetry
  refine .next ?_
  split
  · exact .ite (inv_passTrap h.modCore fun _ _ ht => inv_queueAsync ht) h
  · exact h

/-! ## Team: what its functions do to memory -/

theorem Inv.setSlotRec {core slot : Nat} {b : List Byte} (h : Inv s) : Inv (s.setSlotRec core slot b) :=
  h.modCore

theorem Inv.putState {core slot st : Nat} (h : Inv s) : Inv (s.putState core slot st) :=
  h.setSlotRec

theorem inv_setSlotState {tid st : Nat} (h : Inv s) : Inv (setSlotState s tid st) := by
  unfold setSlotState
  exact h.foldl fun _ _ ht => ht.putState

theorem inv_takeBank {core : Nat} {m : Bank} (h : Inv s) : Inv (takeBank s core m).1 :=
  inv_leaveCache h

theorem inv_openPages {core n fuel : Nat} (h : Inv s) : Inv (openPages core n fuel s) := by
  induction fuel generalizing s with
  | zero => exact h
  | succ fuel ih => exact .ite (ih (inv_takeBank h)) h

theorem inv_takePages {tid n : Nat} (h : Inv s) : Inv (takePages s tid n) :=
  (inv_openPages h).modCore.modTeam

theorem inv_takeGrown {tid n : Nat} (h : Inv s) : Inv (takeGrown tid n s) := by
  induction n generalizing s with
  | zero => exact h
  | succ n ih => exact ih (inv_takeBank h).modTeam

theorem inv_takeFifos {tid : Nat} (h : Inv s) : Inv (takeFifos s tid) := by
  unfold takeFifos
  refine h.foldl fun _ _ ht => ?_
  split
  · exact inv_takeBank ht
  · exact ht

theorem inv_removeSubs {tid : Nat} (h : Inv s) : Inv (removeSubs s tid) := by
  unfold removeSubs
  exact (h.foldl fun _ _ ht => ht.foldl fun _ _ hu => inv_dropSub hu).modHub.modCore

theorem inv_clearTeam {tid : Nat} (h : Inv s) : Inv (clearTeam s tid) := by
  unfold clearTeam
  exact .congr (inv_setSlotState (h.foldl fun _ _ ht => inv_releaseSlots ht).modCore.modHub) rfl

theorem inv_teamEnded {grid : DWord} (h : Inv s) : Inv (teamEnded s grid) :=
  h.modHub

theorem inv_rerouteTraps {gid : Nat} (h : Inv s) : Inv (rerouteTraps s gid) := by
  unfold rerouteTraps
  exact h.modGroup.foldl fun _ _ ht => .ite (inv_cancelEngine (inv_raiseAsync ht)) (inv_raiseAsync ht)

theorem inv_execGroupRetire {gid : Nat} (h : Inv s) : InvAfter (execGroupRetire gid s) := by
  have h1 := fun f => inv_rerouteTraps (gid := gid) (h.modGroup (gid := gid) (f := f))
  unfold execGroupRetire
  exact .next (.ite (.ite (inv_teamEnded (inv_setSlotState (h1 _))) (h1 _)) h)

theorem inv_execTeamRelease {core slot : Nat} (h : Inv s) : InvAfter (execTeamRelease core slot s) := by
  unfold execTeamRelease
  exact .next (.ite (inv_clearTeam (inv_removeSubs (h.foldl fun _ _ ht => inv_cancelTask ht))) h)

theorem inv_execPacerRecordWrite {core slot : Nat} {bytes : List Byte} (h : Inv s) : InvAfter (execPacerRecordWrite core slot bytes s) := by
  unfold execPacerRecordWrite
  exact .next (.ite (.ite h.setSlotRec (.ite h.putState h)) h)

/-! ## Context: what its functions do to memory -/

theorem inv_memReach {x : Xctx} {va acc : Nat} (h : Inv s) : Inv (memReach s x va acc).1 := by
  unfold memReach
  split
  · rename_i e
    have h1 := (h.after (traffic_reach ..)).fst_eq e
    exact .ite_fst h1 h1
  · rename_i e
    exact (h.after (traffic_reach ..)).fst_eq e
  · rename_i e
    exact (h.after (traffic_reach ..)).fst_eq e

theorem inv_memPlaceFrom {x : Xctx} {acc : Nat} {l : List (Nat × Nat)} (h : Inv s) : Inv (memPlaceFrom x acc l s).1 := by
  induction l generalizing s with
  | nil => exact h
  | cons p l ih =>
    unfold memPlaceFrom
    split
    · rename_i e
      exact (inv_memReach h).fst_eq e
    · rename_i e
      exact (inv_memReach h).fst_eq e
    · rename_i e
      have h1 := (inv_memReach h).fst_eq e
      split
      · rename_i e
        exact (ih h1).fst_eq e
      · exact ih h1

theorem inv_memLoad {x : Xctx} {va n acc : Nat} (h : Inv s) : Inv (memLoad s x va n acc).1 := by
  unfold memLoad
  split
  · rename_i e
    exact ((inv_memPlaceFrom h).fst_eq e).foldl fun _ _ ht => ht.after (traffic_lineRequest ..)
  · rename_i e
    exact (inv_memPlaceFrom h).fst_eq e
  · rename_i e
    exact (inv_memPlaceFrom h).fst_eq e

theorem inv_memStore {part die : Nat} {ps : List (Nat × Nat × Hit)} {bs : List Byte} (h : Inv s) : Inv (memStore s part die ps bs) := by
  unfold memStore
  exact h.foldl_fst fun _ _ ht => (ht.after (traffic_lineRequest ..)).after (traffic_pwrite ..)

theorem inv_saveArea {tid : Nat} (h : Inv s) : Inv (saveArea s tid).1 := by
  unfold saveArea
  split
  · rename_i e
    have h1 := (inv_memLoad h).fst_eq e
    split <;> rename_i e <;> exact (inv_memLoad h1).fst_eq e
  · rename_i e
    exact (inv_memLoad h).fst_eq e

theorem Inv.dropSaved {tid : Nat} (h : Inv s) : Inv (s.dropSaved tid) :=
  h.modHub

/-! ## Control: what its functions do to memory -/

theorem inv_settleAt {c : Ctx} {g : Group} (h : Inv s) : Inv (settleAt s c g) :=
  h.setGroup

theorem inv_execBra {p : BitVec 4} {imm : BitVec 16} (h : Inv s) : InvAfter (execBra p imm s) := by
  unfold execBra
  refine inv_issue h fun _ _ _ ht => ?_
  dsimp only
  split
  · exact .next (inv_settleAt ht)
  · exact .ite (inv_trapAt ht) (.next (inv_settleAt ht))

theorem inv_execBraq {p : BitVec 4} {imm : BitVec 16} (h : Inv s) : InvAfter (execBraq p imm s) := by
  unfold execBraq
  exact inv_issue h fun _ _ _ ht => .next (inv_settleAt ht)

theorem inv_pushAll {w : Word} {kind : JoinKind} {entry next : DWord → DWord} (h : Inv s) : InvAfter (pushAll w kind entry next s) := by
  unfold pushAll
  exact inv_issue h fun _ _ _ ht => .ite (inv_trapAt ht) (.next (inv_settleAt ht))

theorem inv_popAll {w : Word} {pop : Slice → PopResult} (h : Inv s) : InvAfter (popAll w pop s) := by
  unfold popAll
  refine inv_issue h fun _ _ _ ht => ?_
  split
  · exact inv_trapAt ht
  · exact .next (inv_settleAt ht)

theorem inv_execRegang {imm : BitVec 16} (h : Inv s) : InvAfter (execRegang imm s) := by
  unfold execRegang
  exact inv_issue h fun _ _ _ ht => .ite (inv_trapAt ht) (.next ht.setGroup)

theorem inv_execRegangMerge {gid : Nat} (h : Inv s) : InvAfter (execRegangMerge gid s) := by
  unfold execRegangMerge
  exact .next (.ite h.modGroup h)

theorem inv_execExit (h : Inv s) : InvAfter (execExit s) := by
  unfold execExit
  exact inv_issue h fun _ _ _ ht => .next (inv_settleAt ht)

theorem inv_execYield (h : Inv s) : InvAfter (execYield s) := by
  unfold execYield
  exact inv_issue h fun _ _ _ ht => .next ht.setGroup

theorem Inv.noteYields (h : Inv s) : Inv (s.noteYields) := by
  unfold State.noteYields
  exact .ite (.congr h rfl) h

theorem inv_execYieldRelease {gid gang : Nat} (h : Inv s) : InvAfter (execYieldRelease gid gang s) := by
  unfold execYieldRelease
  exact .next (.ite h.modGroup h)

theorem inv_execSpinAgePromote {gid gang : Nat} (h : Inv s) : InvAfter (execSpinAgePromote gid gang s) := by
  unfold execSpinAgePromote
  exact .next (.ite h.setGroup h)

theorem inv_execTrap {imm : BitVec 16} (h : Inv s) : InvAfter (execTrap imm s) := by
  unfold execTrap
  exact inv_issue h fun _ _ _ ht => .ite (.next (inv_retire ht)) (inv_trapAt ht)

/-! ## Convert: what its functions do to memory -/

theorem inv_cvtOp {w : Word} {d a dst part : Nat} {rnd : Word → Nat} (h : Inv s) : InvAfter (cvtOp w d a dst part rnd s) :=
  inv_floatIssue h

/-! ## Perform: what its functions do to memory -/

theorem inv_returnLoad {o : LogOp} (h : Inv s) : Inv (returnLoad s o) := by
  unfold returnLoad
  split
  · exact inv_doLoad h
  · exact inv_doSxld h
  · exact inv_doLds h
  · exact inv_doLdu h
  · exact inv_doAcq h
  · exact inv_doSlabld h
  · exact inv_doPcnt h
  · exact h

theorem inv_performStore {o : LogOp} (h : Inv s) : Inv (performStore s o) := by
  unfold performStore
  split
  · exact inv_doStore h
  · exact inv_doStore h
  · exact inv_doStore h
  · exact .ite h (inv_doUnsub h)
  · exact inv_doRel h
  · exact inv_doSlabst h
  · exact inv_doKvapp h
  · exact inv_doPhint h
  · exact h

theorem inv_replyAtomic {o : LogOp} (h : Inv s) : Inv (replyAtomic s o) := by
  unfold replyAtomic
  split
  · exact inv_doAtomic h
  · exact inv_doFaadd h
  · exact inv_doFaopen h
  · exact inv_doPin h
  · exact inv_doUnpin h
  · exact inv_doBind h
  · exact inv_doUnbind h
  · exact inv_doMigr h
  · exact inv_doSnap h
  · exact h

theorem inv_performOp {core id : Nat} {f : State → LogOp → State} (h : Inv s) (hf : ∀ t o, Inv t → Inv (f t o)) : Inv (performOp core id s f) := by
  unfold performOp
  split
  · exact .ite (hf _ _ h) h
  · exact h

theorem inv_execLoadDataReturn {core id : Nat} (h : Inv s) : InvAfter (execLoadDataReturn core id s) := by
  unfold execLoadDataReturn
  exact .next (inv_performOp h fun _ _ ht => inv_returnLoad ht)

theorem inv_execStorePerformed {core id : Nat} (h : Inv s) : InvAfter (execStorePerformed core id s) := by
  unfold execStorePerformed
  exact .next (inv_performOp h fun _ _ ht => inv_performStore ht)

theorem inv_execAtomicReply {core id : Nat} (h : Inv s) : InvAfter (execAtomicReply core id s) := by
  unfold execAtomicReply
  exact .next (inv_performOp h fun _ _ ht => inv_replyAtomic ht)

/-! ## Swap: what its functions do to memory -/

theorem inv_invalFor {tid : Nat} (h : Inv s) : Inv (invalFor s tid) := by
  unfold invalFor
  exact h.foldl fun _ _ ht => (ht.after (traffic_cleanLines ..)).modCore

theorem inv_markCores {tid : Nat} (h : Inv s) : Inv (markCores s tid) :=
  h.modHub

theorem inv_placeFresh {tid : Nat} (h : Inv s) : Inv (placeFresh s tid) := by
  unfold placeFresh
  exact ((inv_invalFor h).foldl fun _ _ ht => ht.setGroup).setTeam

theorem inv_relog {gid : Nat} {o : LogOp} (h : Inv s) : Inv (relog s gid o) :=
  (inv_newId h).modGroup.modCore

theorem inv_restoreGroup {tid : Nat} {area : List Byte} {v : Saved} {refs : EngineRef → EngineRef} {n : Nat} (h : Inv s) :
    Inv (restoreGroup s tid area v refs n) :=
  h.setGroup

theorem inv_restoreCopies {tid : Nat} {area : List Byte} {v : Saved} (h : Inv s) : Inv (restoreCopies s tid area v).1 := by
  unfold restoreCopies
  exact h.foldl_fst fun _ _ ht => (inv_newId ht).modCore

theorem inv_restoreTasks {tid base : Nat} {area : List Byte} {v : Saved} {copies : List (Nat × Nat)} (h : Inv s) :
    Inv (restoreTasks s tid base area v copies) :=
  h.modCore

theorem inv_restoreEvict {tid : Nat} {x : Evict} (h : Inv s) : Inv (restoreEvict s tid x) :=
  (inv_newId h).modDie

theorem inv_restoreHeld {tid : Nat} {refs : EngineRef → EngineRef} {x : HeldTrap} (h : Inv s) : Inv (restoreHeld s tid refs x) :=
  h.modCore

theorem inv_cleanTeam {tid : Nat} {inv : Bool} (h : Inv s) : Inv (cleanTeam s tid inv) := by
  unfold cleanTeam
  exact h.foldl fun _ _ ht => ht.after (traffic_cleanLines ..)

theorem inv_placeRestored {tid : Nat} (h : Inv s) : Inv (placeRestored s tid) := by
  have h0 : Inv (saveArea (cleanTeam s tid true) tid).1 := inv_saveArea (inv_cleanTeam h)
  unfold placeRestored
  refine Inv.foldl (Inv.foldl (inv_restoreTasks (inv_restoreCopies (Inv.setTeam ?_))) ?_) fun _ _ ht => inv_restoreHeld ht
  · exact h0.modCore.foldl fun _ _ ht => inv_restoreGroup ht
  · exact fun _ _ ht => inv_restoreEvict ht

theorem inv_takeRoom {tid : Nat} (h : Inv s) : Inv (takeRoom s tid) := by
  have h0 : Inv (if s.isRestore tid then saveArea s tid else (s, [])).1 := .ite_fst (inv_saveArea h) h
  unfold takeRoom
  refine Inv.modTeam (Inv.modHub (Inv.modDie (Inv.foldl (Inv.modCore ?_) fun _ _ ht => ht.modCore)))
  exact inv_takeFifos (inv_takeGrown (inv_takePages h0))

theorem inv_placeTeam {tid : Nat} (h : Inv s) : Inv (placeTeam s tid) := by
  unfold placeTeam
  exact .ite (inv_placeRestored (inv_markCores (inv_setSlotState h))) (inv_placeFresh (inv_markCores (inv_setSlotState h)))

theorem inv_commitTeam {die tid : Nat} (h : Inv s) : Inv (commitTeam s die tid) := by
  unfold commitTeam
  refine .ite h.modDie (Inv.modDie (.ite h ?_))
  split
  · exact inv_setSlotState h
  · exact .ite (inv_placeTeam h) (.ite (inv_takeRoom (inv_placeTeam h)) (inv_takeRoom (inv_placeTeam h)).modTeam)

theorem inv_execCommit {die : Nat} {v : Word} (h : Inv s) : InvAfter (execCommit die v s) := by
  unfold execCommit
  exact .next (.ite (inv_commitTeam h) h)

theorem inv_execPreempt {die : Nat} {v : Word} (h : Inv s) : InvAfter (execPreempt die v s) := by
  unfold execPreempt
  refine .next (.ite (.ite h.modDie (.ite h.modDie ?_)) h)
  split
  · exact (inv_setSlotState h).modDie
  · exact h.modDie

theorem inv_loadShadow {tid : Nat} (h : Inv s) : Inv (loadShadow s tid) := by
  unfold loadShadow
  exact Inv.foldl (.ite (inv_saveArea h) h) fun _ _ ht => ht.modCore

theorem inv_useShadow {tid : Nat} (h : Inv s) : Inv (useShadow s tid) := by
  unfold useShadow
  refine h.foldl fun _ _ ht => ?_
  split
  · exact ht.modGroup.modCore
  · exact ht

theorem inv_withdrawOps {tid : Nat} (h : Inv s) : Inv (withdrawOps s tid) := by
  unfold withdrawOps
  exact h.foldl fun _ _ ht => (inv_finishOp ht).modGroup

theorem inv_swapTask {core : Nat} {t : Task} (h : Inv s) : Inv (swapTask core s t) := by
  unfold swapTask
  exact .ite (inv_leaveEngine h).modTask (.ite (inv_dropLocks h).modTask h)

theorem inv_swapCopy {e : Nat × Copy} (h : Inv s) : Inv (swapCopy s e) := by
  unfold swapCopy
  exact .ite h (.ite (inv_dropLocks h).modCopy (.ite h.modCopy h))

theorem inv_uncountWithdrawn {tid : Nat} (h : Inv s) : Inv (uncountWithdrawn s tid) := by
  unfold uncountWithdrawn
  exact h.foldl fun _ _ ht => ht.modGroup

theorem inv_swapOut {tid : Nat} (h : Inv s) : Inv (swapOut s tid) := by
  unfold swapOut
  exact ((inv_withdrawOps (inv_uncountWithdrawn (inv_setSlotState h))).foldl fun _ _ ht => inv_swapTask ht).foldl fun _ _ ht => inv_swapCopy ht

theorem inv_execSwap {die : Nat} (h : Inv s) : InvAfter (execSwap die s) := by
  unfold execSwap
  refine .next ?_
  split
  · exact h
  · refine .ite h ?_
    dsimp only
    split
    · exact (inv_setSlotState h).modDie
    · refine .ite (inv_loadShadow h).modDie (.ite ?_ ?_)
      · exact inv_useShadow (inv_placeTeam (inv_swapOut h))
      · exact (inv_useShadow (inv_placeTeam h)).modDie

theorem inv_spillDrain {tid : Nat} (h : Inv s) : Inv (spillDrain s tid) := by
  unfold spillDrain
  extract_lets core s1 mine s2
  have h2 : Inv s2 := (inv_withdrawOps h).modCore.foldl fun _ _ ht => inv_deliverPush ht
  exact .ite h2 h2.modHub

theorem inv_savePlaces {tid : Nat} (h : Inv s) : Inv (savePlaces s tid).1 :=
  inv_memPlaceFrom h

theorem inv_dropWork {tid : Nat} (h : Inv s) : Inv (dropWork s tid) := by
  unfold dropWork
  extract_lets core mine s1 s2 s3 s4
  have h1 : Inv s1 := h.foldl fun _ _ ht => inv_dropLocks ht
  have h2 : Inv s2 := h1.foldl fun _ _ ht => (inv_dropLocks ht).modDie
  have h3 : Inv s3 := h2.foldl fun _ _ ht => (inv_dropLocks ht).modDie
  have h4 : Inv s4 := h3.foldl fun _ _ ht => ht.modCore
  exact h4.modCore

theorem inv_execSpill {core slot : Nat} (h : Inv s) : InvAfter (execSpill core slot s) := by
  unfold execSpill
  refine .next (.ite (.ite ?_ (.ite (inv_spillDrain h) h)) h)
  split
  · rename_i e
    exact inv_dropWork (inv_memStore ((inv_savePlaces (inv_cleanTeam h)).fst_eq e)).modHub
  · exact h

theorem inv_execSpillComplete {core slot : Nat} (h : Inv s) : InvAfter (execSpillComplete core slot s) := by
  unfold execSpillComplete
  exact .next (.ite (inv_clearTeam h).modDie h)

theorem inv_restorePost {tid : Nat} {p : PostSlot} (h : Inv s) : InvIn id (restorePost s tid p) := by
  unfold restorePost
  exact .ite .absent (.intro (inv_newId h).modGroup.modCore)

theorem inv_restoreLost {tid : Nat} {e : DirSlot × Nat} (h : Inv s) : Inv (restoreLost tid s e) :=
  inv_raiseAsync (inv_writeSlot h)

theorem inv_fillStorage {tid : Nat} (h : Inv s) : Inv (fillStorage s tid) := by
  unfold fillStorage
  dsimp only
  split
  · rename_i e
    have h1 := (inv_memLoad (inv_saveArea h)).fst_eq e
    split
    · rename_i e
      exact ((((inv_memLoad h1).fst_eq e).foldl fun _ _ ht => ht.opWrite).modTeam.foldl fun _ _ ht => inv_restoreLost ht).modHub.dropSaved
    · exact h
  · exact h

theorem inv_execRestoreFill {core slot : Nat} (h : Inv s) : InvAfter (execRestoreFill core slot s) := by
  unfold execRestoreFill
  refine .next (.ite (inv_commitTeam h) ?_)
  refine .ite ?_ ?_
  · refine .ite (.ite (inv_takeRoom h) h) (.ite h.modTeam ?_)
    split
    · split
      · rename_i e
        exact (InvIn.of_eq (inv_restorePost h) e).modHub
      · exact h
    · exact inv_fillStorage h
  · refine .ite ?_ h
    split
    · exact inv_relog h
    · exact h

/-! ## Grid: what its functions do to memory -/

theorem Inv.setTenant {i : Nat} {b : List Byte} (h : Inv s) : Inv (s.setTenant i b) :=
  h.modHub

theorem inv_countLive {tenant : Nat} {up : Bool} (h : Inv s) : Inv (countLive s tenant up) :=
  h.setTenant

theorem Inv.modPage {p : Nat} {f : LaunchPage → LaunchPage} (h : Inv s) : Inv (s.modPage p f) :=
  h.modHub

theorem inv_respond {src : Nat} {mac : List Byte} {tenant : Nat} {r : List Byte} (h : Inv s) : Inv (respond s src mac tenant r) := by
  unfold respond
  exact .ite (.ite h h.modPage) (.ite h.modHub h)

theorem inv_execResponseWrite {page : Nat} (h : Inv s) : InvAfter (execResponseWrite page s) := by
  unfold execResponseWrite
  refine .next ?_
  split
  · exact .ite (.ite h.modHub.modPage (.ite h (h.after (traffic_pwrite ..)).modPage)) h
  · exact h

theorem inv_submitPacket {page : Nat} {pkt : List Byte} (h : Inv s) : Inv (submitPacket s page pkt) := by
  unfold submitPacket
  exact .ite (.ite h.modPage h.modPage.modPage.modHub) h

theorem inv_execFabricFrameRx {port : Nat} {frame : List Byte} {fcsOk : Bool} (h : Inv s) : InvAfter (execFabricFrameRx port frame fcsOk s) := by
  unfold execFabricFrameRx
  refine .next ?_
  split
  · exact .ite h.modHub h
  · exact h

theorem inv_launchChecks {satp hgatp prt tenant ra : Nat} {satpOk : Nat → Bool} (h : Inv s) :
    Inv (launchChecks s satp hgatp prt tenant ra satpOk).1 := by
  unfold launchChecks
  refine .ite_fst h (.ite_fst h ?_)
  split <;> rename_i e <;> exact (inv_memLoad h).fst_eq e

theorem inv_newGrid {tenant : Nat} {x : Grid} (h : Inv s) : Inv (newGrid s tenant x).1 :=
  inv_countLive h.modHub

theorem inv_packetChecks {p : Packet} (h : Inv s) : Inv (packetChecks s p).1 := by
  unfold packetChecks
  exact .ite_fst h (.ite_fst h (.ite_fst h (.ite_fst h (.ite h.setTenant h))))

theorem inv_takePacket {e : Nat × Packet} (h : Inv s) : Inv (takePacket s e) := by
  unfold takePacket
  exact .ite h.modHub.modPage h.modHub

theorem inv_refusePacket {p : Packet} {status : Nat} (h : Inv s) : Inv (refusePacket s p status) :=
  inv_respond h.modHub

theorem inv_servePacket {e : Nat × Packet} (h : Inv s) : InvIn id (servePacket s e) := by
  unfold servePacket
  dsimp only
  split
  · rename_i e
    have h1 := (inv_packetChecks (inv_takePacket h)).fst_eq e
    split
    · exact .absent
    · rename_i e
      exact .intro (inv_refusePacket ((inv_launchChecks h1).fst_eq e))
    · rename_i e
      exact .intro (inv_respond (inv_newGrid ((inv_launchChecks h1).fst_eq e)).modHub)
  · rename_i e
    exact .intro (inv_refusePacket ((inv_packetChecks (inv_takePacket h)).fst_eq e))

theorem inv_execLaunchPacket (h : Inv s) : InvAfter (execLaunchPacket s) := by
  unfold execLaunchPacket
  refine .next ?_
  split
  · exact .ite ((inv_servePacket h).getD h) h
  · exact h

theorem inv_serveLaunch {q : LaunchReq} (h : Inv s) : InvIn Prod.fst (serveLaunch s q) := by
  unfold serveLaunch
  dsimp only
  split
  · exact .absent
  · rename_i e
    exact .intro ((inv_launchChecks h).fst_eq e)
  · rename_i e
    exact .intro (inv_newGrid ((inv_launchChecks h).fst_eq e))

theorem inv_execLaunchRequest (h : Inv s) : InvAfter (execLaunchRequest s) := by
  unfold execLaunchRequest
  refine .next ?_
  split
  · split
    · rename_i e
      exact (inv_lowerPosts (InvIn.of_eq (inv_serveLaunch h) e)).modHub
    · exact h
  · exact h

theorem inv_execLaunchReply {n : Nat} (h : Inv s) : InvAfter (execLaunchReply n s) := by
  unfold execLaunchReply
  refine .next ?_
  split
  · exact inv_launchResult h.modHub
  · exact h

theorem Inv.modGrid {grid : DWord} {f : Grid → Grid} (h : Inv s) : Inv (s.modGrid grid f) :=
  h.modHub

theorem inv_execGridDeal {grid : DWord} (h : Inv s) : InvAfter (execGridDeal grid s) := by
  unfold execGridDeal
  refine .next ?_
  split
  · exact .ite h.modDie.modGrid h
  · exact h

theorem inv_endGrid {x : Grid} (h : Inv s) : Inv (endGrid s x) :=
  inv_countLive (inv_abandonAdds h).modHub

theorem inv_storeDone {x : Grid} (h : Inv s) : InvIn Prod.fst (storeDone s x) := by
  unfold storeDone
  refine .ite (.intro h) ?_
  split
  · rename_i e
    exact .intro (inv_memStore ((inv_memPlaceFrom h).fst_eq e))
  · rename_i e
    exact .intro ((inv_memPlaceFrom h).fst_eq e)
  · exact .absent

theorem inv_execGridComplete {grid : DWord} (h : Inv s) : InvAfter (execGridComplete grid s) := by
  unfold execGridComplete
  refine .next ?_
  split
  · refine .ite ?_ h
    split
    · rename_i e
      exact inv_endGrid (inv_respond (InvIn.of_eq (inv_storeDone (h.foldl fun _ _ ht => ht.after (traffic_cleanLines ..))) e))
    · exact h
  · exact h

theorem inv_dropUnderWay {tid : Nat} (h : Inv s) : Inv (dropUnderWay s tid) := by
  unfold dropUnderWay
  exact (h.foldl fun _ _ ht => ht.modCore).modHub

theorem inv_finishGrows {tid : Nat} (h : Inv s) : Inv (finishGrows s tid) := by
  unfold finishGrows
  refine Inv.foldl ?_ fun _ _ ht => .ite (inv_finishGrow (inv_growStart ht)) ht
  refine h.foldl fun _ _ ht => ?_
  split
  · exact .ite (inv_takePost ht) ht
  · exact ht

theorem inv_tearTeam {tid : Nat} (h : Inv s) : Inv (tearTeam s tid) := by
  unfold tearTeam
  extract_lets s1 s2 s3 s4
  have h1 : Inv s1 := inv_dropUnderWay (inv_finishGrows ((inv_settleBanks h).foldl fun _ _ ht => inv_killGroup ht))
  have h2 : Inv s2 := h1.foldl fun _ _ ht => inv_cancelCopy ht
  have h3 : Inv s3 := h2.foldl fun _ _ ht => inv_cancelEvict ht
  have h4 : Inv s4 := inv_settleDrops (h3.foldl fun _ _ ht => inv_cancelTask ht)
  exact (inv_clearTeam (inv_removeSubs h4)).modDie

theorem inv_discardSaved {grid : DWord} (h : Inv s) : Inv (discardSaved s grid) := by
  unfold discardSaved
  exact (h.foldl fun _ _ ht => ht.foldl fun _ _ hu => inv_dropSub hu).modHub

theorem inv_tearGrid {x : Grid} {reply : Bool} (h : Inv s) : Inv (tearGrid s x reply) := by
  unfold tearGrid
  extract_lets s1 s2 s3
  have h1 : Inv s1 := h.foldl fun _ _ ht => ht.modDie
  have h2 : Inv s2 := inv_discardSaved (h1.foldl fun _ _ ht => inv_tearTeam ht)
  exact inv_endGrid (.ite (inv_respond h2) h2)

/-! ## Manage: what its functions do to memory -/

theorem inv_addLog {event detail part : Nat} {data : List Byte} (h : Inv s) : Inv (addLog s event detail part data) :=
  h.modReferee

theorem inv_postFault (h : Inv s) : Inv (postFault s) := by
  unfold postFault
  split
  · exact .ite (inv_addLog h.modReferee) h
  · exact h

theorem inv_forward {n : Nat} (h : Inv s) : Inv (forward s n) := by
  unfold forward
  split
  · exact h
  · refine .ite h (.ite ?_ ?_)
    · exact (h.after (traffic_pwrite ..)).modCtl.modReferee.after (traffic_pstore ..)
    · exact (h.after (traffic_pwrite ..)).modCtl.modReferee

theorem inv_execRefereeForward (h : Inv s) : InvAfter (execRefereeForward s) := by
  unfold execRefereeForward
  refine .next ?_
  split
  · exact inv_forward h
  · exact h

theorem inv_refereeServe {n code : Nat} (h : Inv s) : Inv (refereeServe s n code) := by
  unfold refereeServe
  split
  · exact h
  · refine Inv.modReferee ?_
    split
    · exact inv_resumeParked h
    · exact inv_resumeParked h
    · exact inv_killParked h
    · dsimp only
      split
      · exact inv_addLog (inv_tearGrid h)
      · exact h

theorem inv_gcmd {part : Nat} {f : State → Nat → DWord → State × Nat} (h : Inv s) (hf : ∀ t n x, Inv t → Inv (f t n x).1) : Inv (gcmd s part f) :=
  (hf _ _ _ h).modCtl

theorem inv_execGcmdGres {part : Nat} (h : Inv s) : InvAfter (execGcmdGres part s) := by
  unfold execGcmdGres
  exact .next (inv_gcmd h fun _ _ _ ht => inv_resumeParked ht)

theorem inv_execGcmdGresSkip {part : Nat} (h : Inv s) : InvAfter (execGcmdGresSkip part s) := by
  unfold execGcmdGresSkip
  exact .next (inv_gcmd h fun _ _ _ ht => inv_resumeParked ht)

theorem inv_execGcmdGkill {part : Nat} (h : Inv s) : InvAfter (execGcmdGkill part s) := by
  unfold execGcmdGkill
  exact .next (inv_gcmd h fun _ _ _ ht => inv_killParked ht)

theorem inv_writeCtlFopc {part : Nat} {v : DWord} (h : Inv s) : Inv (writeCtlFopc s part v) :=
  (inv_frameOp h).modCtl

theorem inv_writeCtl {part off : Nat} {v : DWord} (h : Inv s) : Inv (writeCtl s part off v) := by
  unfold writeCtl
  exact .ite (inv_writeCtlFopc h) h.modCtl

theorem inv_resetDone {vf : Nat} (h : Inv s) : Inv (resetDone s vf) := by
  unfold resetDone
  exact .ite h.modReferee.modPage h

theorem inv_execSnapshotLatch {block : Nat} (h : Inv s) : InvAfter (execSnapshotLatch block s) := by
  unfold execSnapshotLatch
  exact .next (.ite h.modHub h)

theorem inv_execSnapshotComplete (h : Inv s) : InvAfter (execSnapshotComplete s) := by
  unfold execSnapshotComplete
  exact .next (.ite h.modHub h)

theorem inv_dropPackets {src : Nat} (h : Inv s) : Inv (dropPackets s src) :=
  h.modHub

theorem inv_execFunctionLevelReset {vf : Nat} (h : Inv s) : InvAfter (execFunctionLevelReset vf s) := by
  unfold execFunctionLevelReset
  extract_lets p s1 told s2
  have h1 : Inv s1 := inv_dropPackets (h.foldl fun _ _ ht => inv_tearGrid ht)
  have h2 : Inv s2 := .ite h1.modReferee h1
  exact .next (.ite (inv_addLog h2.modPage) h)

theorem inv_hotFunction {vf : Nat} (h : Inv s) : Inv (hotFunction s vf) := by
  unfold hotFunction
  extract_lets self _ s1
  have h1 : Inv s1 := inv_dropPackets h.modPage
  exact .ite h1 (h1.foldl fun _ _ ht => inv_tearGrid ht)

theorem inv_execHotReset (h : Inv s) : InvAfter (execHotReset s) := by
  unfold execHotReset
  exact .next (inv_addLog (h.foldl fun _ _ ht => inv_hotFunction ht))

theorem inv_loseMove {m : Move} (h : Inv s) : Inv (loseMove s m) := by
  unfold loseMove
  exact Inv.foldl (wf_bputs _ _ _ h) fun _ _ ht => ht.after (traffic_performWrite ..)

theorem inv_recallDie {die : Nat} (h : Inv s) : Inv (recallDie s die) := by
  unfold recallDie
  exact (h.foldl fun _ _ ht => ht.after (traffic_leaveLine ..)).foldl fun _ _ ht => inv_takeBack ht

theorem inv_clearMoving (h : Inv s) : Inv (clearMoving s) :=
  h.modHub

theorem inv_clearDirty {die : Nat} (h : Inv s) : Inv (clearDirty s die) :=
  h.modHub

theorem inv_warmReset {die : Nat} (h : Inv s) : Inv (warmReset s die) := by
  unfold warmReset
  extract_lets here s0 s1 s2 s3 s4 s5
  have h0 : Inv s0 := h.foldl fun _ _ ht => inv_tearGrid ht
  have h1 : Inv s1 := h0.foldl fun _ _ ht => inv_tearTeam ht
  have h2 : Inv s2 := h1.foldl fun _ _ ht => ht.after (traffic_cleanLines ..)
  have h3 : Inv s3 := (inv_clearDirty (inv_recallDie h2)).foldl fun _ _ ht => inv_loseSub ht
  have h4 : Inv s4 := h3.foldl fun _ _ ht => inv_loseMove ht
  have h5 : Inv s5 := inv_unwalk (.congr h4 rfl)
  exact h5.modDie

theorem inv_execDieReadmit {die : Nat} (h : Inv s) : InvAfter (execDieReadmit die s) := by
  unfold execDieReadmit
  exact .next (.ite (inv_clearMoving h).modDie.modReferee h)

theorem inv_execColdStart (h : Inv s) : InvAfter (execColdStart s) := by
  unfold execColdStart
  exact .next (.ite h (Inv.congr (s := State.reset) wf_reset rfl))

theorem inv_failStart {stage reason : Nat} (h : Inv s) : Inv (failStart s stage reason) := by
  unfold failStart
  exact .ite (inv_addLog (inv_addLog h).modReferee) (inv_addLog h).modReferee

theorem inv_passStage {stage : Nat} (h : Inv s) : Inv (passStage s stage) := by
  unfold passStage
  exact .ite (inv_addLog h.modReferee) h.modReferee

theorem inv_execBootStage {reason : Nat} (h : Inv s) : InvAfter (execBootStage reason s) := by
  unfold execBootStage
  refine .next ?_
  split
  · exact h
  · exact .ite (inv_failStart h) (.ite (inv_failStart h) (inv_passStage h))

theorem inv_execBootStageTimeout (h : Inv s) : InvAfter (execBootStageTimeout s) := by
  unfold execBootStageTimeout
  refine .next ?_
  split
  · exact inv_failStart h
  · exact h

theorem inv_mbReply {status : Nat} {result : List Byte} (h : Inv s) : Inv (mbReply s status result) :=
  h.modReferee

theorem inv_mbHold {arg : List Byte} (h : Inv s) : Inv (mbHold s arg) :=
  h.modReferee

theorem inv_mailbox {src : Nat} {owner minimal : Bool} {len : Nat → Bool} {arg : List Byte} {s0 : State} {f : State → State} (h : Inv s0)
    (hf : ∀ t, Inv t → Inv (f t)) :
    Inv (mailbox src owner minimal len arg s0 f) := by
  unfold mailbox
  exact .ite h (.ite (inv_mbReply (inv_mbHold h)) (.ite (inv_mbReply (inv_mbHold h)) (.ite (inv_mbReply (inv_mbHold h)) (hf _ (inv_mbHold h)))))

theorem inv_execGetBootStatus {src : Nat} {arg : List Byte} (h : Inv s) : InvAfter (execGetBootStatus src arg s) := by
  unfold execGetBootStatus
  exact .next (inv_mailbox h fun _ ht => inv_mbReply ht)

theorem inv_execSetOwner {src : Nat} {arg : List Byte} (h : Inv s) : InvAfter (execSetOwner src arg s) := by
  unfold execSetOwner
  exact .next (inv_mailbox h fun _ ht => .ite (inv_mbReply ht) (inv_mbReply ht.modReferee))

theorem inv_modSpare {f : Image → Image} (h : Inv s) : Inv (modSpare s f) :=
  h.modReferee

theorem inv_execImageBegin {src : Nat} {arg : List Byte} (h : Inv s) : InvAfter (execImageBegin src arg s) := by
  unfold execImageBegin
  exact .next (inv_mailbox h fun _ ht => inv_mbReply (inv_modSpare ht))

theorem inv_execImageData {src : Nat} {arg : List Byte} (h : Inv s) : InvAfter (execImageData src arg s) := by
  unfold execImageData
  exact .next (inv_mailbox h fun _ ht => .ite (inv_mbReply ht) (.ite (inv_mbReply ht) (inv_mbReply (inv_modSpare ht))))

theorem inv_execImageEnd {src : Nat} {arg : List Byte} (h : Inv s) : InvAfter (execImageEnd src arg s) := by
  unfold execImageEnd
  refine .next (inv_mailbox h fun _ ht => .ite (inv_mbReply ht) (.ite ?_ ?_))
  · exact inv_mbReply (inv_modSpare ht)
  · exact inv_mbReply (inv_addLog (inv_modSpare ht).modReferee)

theorem inv_execCommitSvn {src : Nat} {arg : List Byte} (h : Inv s) : InvAfter (execCommitSvn src arg s) := by
  unfold execCommitSvn
  exact .next (inv_mailbox h fun _ ht => .ite (inv_mbReply ht) (inv_mbReply ht.modReferee))

theorem inv_deriveMaps (h : Inv s) : Inv (deriveMaps s) := by
  unfold deriveMaps
  exact h.foldl fun _ _ ht => ht.modDie

theorem Inv.setPartRec {i : Nat} {r : PartRec} (h : Inv s) : Inv (s.setPartRec i r) :=
  h.modReferee

theorem inv_tearLeavers {i : Nat} {r : PartRec} (h : Inv s) : Inv (tearLeavers s i r) := by
  unfold tearLeavers
  exact h.foldl fun _ _ ht => inv_tearGrid ht

theorem inv_changePartition {i : Nat} {r : PartRec} (h : Inv s) : Inv (changePartition s i r) := by
  have h1 : Inv (tearLeavers s i r) := inv_tearLeavers h
  unfold changePartition
  exact .ite (inv_mbReply h) (.ite (inv_mbReply (inv_deriveMaps h1.setPartRec)) (inv_mbReply h1.setPartRec.modReferee))

theorem inv_execChange (h : Inv s) : InvAfter (execChange s) := by
  unfold execChange
  refine .next ?_
  split
  · exact .ite (inv_mbReply (inv_deriveMaps (inv_tearLeavers h).setPartRec).modReferee) (inv_tearLeavers h)
  · exact h

theorem inv_execSetPartition {src : Nat} {arg : List Byte} (h : Inv s) : InvAfter (execSetPartition src arg s) := by
  unfold execSetPartition
  exact .next (inv_mailbox h fun _ ht => .ite (inv_mbReply ht) (inv_changePartition ht))

theorem inv_execGetPartition {src : Nat} {arg : List Byte} (h : Inv s) : InvAfter (execGetPartition src arg s) := by
  unfold execGetPartition
  exact .next (inv_mailbox h fun _ ht => .ite (inv_mbReply ht) (inv_mbReply ht))

theorem inv_execSetTenant {src : Nat} {arg : List Byte} (h : Inv s) : InvAfter (execSetTenant src arg s) := by
  unfold execSetTenant
  exact .next (inv_mailbox h fun _ ht => .ite (inv_mbReply ht) (.ite (inv_mbReply ht) (inv_mbReply ht.setTenant)))

theorem inv_execGetTenant {src : Nat} {arg : List Byte} (h : Inv s) : InvAfter (execGetTenant src arg s) := by
  unfold execGetTenant
  exact .next (inv_mailbox h fun _ ht => .ite (inv_mbReply ht) (inv_mbReply ht))

theorem inv_execTearDown {src : Nat} {arg : List Byte} (h : Inv s) : InvAfter (execTearDown src arg s) := by
  unfold execTearDown
  refine .next (inv_mailbox h fun _ ht => ?_)
  split
  · exact inv_mbReply (inv_addLog (inv_tearGrid ht))
  · exact inv_mbReply ht

theorem inv_execDieReset {src : Nat} {arg : List Byte} (h : Inv s) : InvAfter (execDieReset src arg s) := by
  unfold execDieReset
  exact .next (inv_mailbox h fun _ ht => .ite (inv_mbReply ht) (inv_mbReply (inv_addLog (inv_warmReset ht))))

theorem inv_execSnapMailbox {src : Nat} {arg : List Byte} (h : Inv s) : InvAfter (execSnapMailbox src arg s) := by
  unfold execSnapMailbox
  exact .next (inv_mailbox h fun _ ht => inv_mbReply (inv_sendSnap ht))

theorem inv_execSetHolim {src : Nat} {arg : List Byte} (h : Inv s) : InvAfter (execSetHolim src arg s) := by
  unfold execSetHolim
  exact .next (inv_mailbox h fun _ ht => inv_mbReply ht.modHub)

theorem inv_execReadLog {src : Nat} {arg : List Byte} (h : Inv s) : InvAfter (execReadLog src arg s) := by
  unfold execReadLog
  exact .next (inv_mailbox h fun _ ht => inv_mbReply ht)

theorem inv_execReadSensors {src : Nat} {arg : List Byte} (h : Inv s) : InvAfter (execReadSensors src arg s) := by
  unfold execReadSensors
  exact .next (inv_mailbox h fun _ ht => inv_mbReply ht)

theorem inv_execSpdm {src : Nat} {arg : List Byte} (h : Inv s) : InvAfter (execSpdm src arg s) := by
  unfold execSpdm
  exact .next (.ite h.modReferee (inv_mailbox h fun _ ht => inv_mbReply ht))

theorem inv_engineTimeout {core id : Nat} (h : Inv s) : Inv (engineTimeout s core id) := by
  unfold engineTimeout
  split
  · refine .ite ?_ h
    split
    · exact h.modCopy
    · exact h
  · split
    · refine .ite ?_ ?_
      · split
        · exact (inv_stopTask h).getD h
        · exact h
      · refine .ite ?_ h
        split
        · exact inv_taskFault h
        · exact h
    · split
      · refine .ite ?_ h
        split
        · exact h.modEvict
        · exact h
      · exact h

theorem inv_execCompletionTimeout {core id : Nat} (h : Inv s) : InvAfter (execCompletionTimeout core id s) := by
  unfold execCompletionTimeout
  refine .next ?_
  split
  · refine .ite ?_ h
    split
    · exact inv_raiseLogged h
    · exact h
  · exact inv_engineTimeout h

/-! ## Device: what its functions do to memory -/

theorem inv_launchPut {page off : Nat} {v : Word} (h : Inv s) : Inv (launchPut s page off v) := by
  unfold launchPut
  exact .ite h (.ite h.modPage (.ite (inv_submitPacket h) (.ite h.modPage (.ite h.modPage (.ite h.modPage h)))))

theorem inv_writeGcmd {part : Nat} {v : Word} (h : Inv s) : Inv (writeGcmd s part v) := by
  unfold writeGcmd
  split
  · exact inv_gcmd h fun _ _ _ ht => inv_resumeParked ht
  · exact inv_gcmd h fun _ _ _ ht => inv_resumeParked ht
  · exact inv_gcmd h fun _ _ _ ht => inv_killParked ht
  · exact h

theorem inv_ctlPut {part off : Nat} {v : Word} (h : Inv s) : Inv (ctlPut s part off v) := by
  unfold ctlPut
  exact .ite (inv_writeCtl h) (.ite (inv_writeCtl h) (.ite (inv_writeGcmd h) (.ite (inv_writeCtl h) (.ite (inv_writeCtl h) (inv_writeCtl h)))))

theorem inv_hubPut {off : Nat} {v : Word} (h : Inv s) : Inv (hubPut s off v) := by
  unfold hubPut
  exact .ite h.modHub (.ite (inv_sendSnap h) h)

theorem inv_mbCommand {src code : Nat} (h : Inv s) : InvAfter (mbCommand src code s) := by
  unfold mbCommand
  dsimp only
  split
  · exact inv_execGetBootStatus h
  · exact inv_execSetOwner h
  · exact inv_execImageBegin h
  · exact inv_execImageData h
  · exact inv_execImageEnd h
  · exact inv_execCommitSvn h
  · exact inv_execSetPartition h
  · exact inv_execGetPartition h
  · exact inv_execSetTenant h
  · exact inv_execGetTenant h
  · exact inv_execTearDown h
  · exact inv_execDieReset h
  · exact inv_execSnapMailbox h
  · exact inv_execSetHolim h
  · exact inv_execReadLog h
  · exact inv_execReadSensors h
  · exact inv_execSpdm h
  · exact .next (.ite h (inv_mbReply h))

theorem inv_mbPut {src off : Nat} {v : Word} (h : Inv s) : InvAfter (mbPut src off v s) := by
  unfold mbPut
  exact .ite (inv_mbCommand h) (.next (.ite h.modReferee (.ite h.modReferee h)))

theorem inv_regPut {src : Nat} {v : Word} {b : RegBlock} {n : Nat} (h : Inv s) : InvAfter (RegBlock.put src v s b n) := by
  unfold RegBlock.put
  split
  · exact .next (inv_launchPut h)
  · exact .next (inv_ctlPut h)
  · exact .next (.ite (inv_hubPut h) h)
  · exact inv_mbPut h
  · exact .next h

theorem inv_regWrite {src n : Nat} {v : DWord} {b : RegBlock} {off : Nat} (h : Inv s) : InvAfter (b.write src n v s off) := by
  unfold RegBlock.write
  refine .ite (.next h) ?_
  split
  · rename_i e
    have h1 : InvAfter (.next _) := e ▸ inv_regPut h
    exact .ite (inv_regPut h1) (.next h1)
  · exact inv_regPut h

theorem inv_deviceWrite {src n a : Nat} {v : DWord} (h : Inv s) : InvAfter (deviceWrite src n a v s) := by
  unfold deviceWrite
  split
  · exact inv_regWrite h
  · exact .next h

theorem inv_execControlRegWrite {space unit off : Nat} {v : DWord} (h : Inv s) : InvAfter (execControlRegWrite space unit off v s) := by
  unfold execControlRegWrite
  split
  · exact .next (inv_writePlain h)
  · exact .next (.ite (inv_writeCtl h) h)
  · exact .next (.ite h.modPage h)
  · exact .next (inv_refereeServe h)
  · exact .next (inv_resetDone h)
  · exact inv_deviceWrite h
  · exact inv_deviceWrite h
  · exact inv_regWrite h
  · exact inv_regWrite h
  · exact .ite (inv_regWrite h) (.next h)
  · exact .ite (inv_regWrite h) (.next h)

/-! ## Events: what its functions do to memory -/

theorem inv_fetchTrap {c : Ctx} {code cause : Nat} {addr : DWord} (h : Inv s) : Inv (fetchTrap s c code cause addr) :=
  inv_raiseEntry (inv_countIssue h)

theorem inv_undecoded {w : Word} (h : Inv s) : InvAfter (undecoded w s) := by
  unfold undecoded
  exact inv_issue h fun _ _ _ _ => trivial

/-! ## Lane: what its functions do to memory -/

theorem inv_laneCopy {w : Word} {d a : Nat} {pick : Group → Nat → Nat} (h : Inv s) : InvAfter (laneCopy w d a pick s) :=
  inv_issueRegs h

theorem inv_laneFold {w : Word} {d a op : Nat} {sel : Nat → Nat → Bool} (h : Inv s) : InvAfter (laneFold w d a op sel s) :=
  inv_issueRegs h

/-! ## Uniform: what its functions do to memory -/

theorem inv_uniOp {w : Word} {d : Nat} {f : State → Group → Ctx → Nat} (h : Inv s) : InvAfter (uniOp w d f s) := by
  unfold uniOp
  exact inv_issueUniform h fun _ _ _ ht => .next (inv_retire ht)

theorem inv_uniArith {w : Word} {d a b : Nat} {f : Int → Int → Int → Int} (h : Inv s) : InvAfter (uniArith w d a b f s) :=
  inv_uniOp h

theorem inv_uniBits {w : Word} {d a b : Nat} {f : Nat → Nat → Nat} (h : Inv s) : InvAfter (uniBits w d a b f s) :=
  inv_uniOp h

theorem inv_uniShift {w : Word} {d a b : Nat} {f : Nat → Nat → Nat → Nat} (h : Inv s) : InvAfter (uniShift w d a b f s) :=
  inv_uniOp h

theorem inv_execUcmp {cond p : BitVec 4} {a b : BitVec 8} (h : Inv s) : InvAfter (execUcmp cond p a b s) := by
  unfold execUcmp
  exact inv_issueUniform h fun _ _ _ ht => .next (inv_retire ht)

theorem inv_execUmovi {d : BitVec 8} {imm : BitVec 16} (h : Inv s) : InvAfter (execUmovi d imm s) := by
  unfold execUmovi
  exact inv_issueUniform h fun _ _ _ ht => .next (inv_retire ht)

theorem inv_execUmovhi {d : BitVec 8} {imm : BitVec 16} (h : Inv s) : InvAfter (execUmovhi d imm s) := by
  unfold execUmovhi
  exact inv_issueUniform h fun _ _ _ ht => .next (inv_retire ht)

/-! ## All instructions and events -/

/-- Every row of the opcode table and every event keeps the canonical form. Rows with one plan share an arm. -/
theorem inv_exec {i : Instr} (h : Inv s) : InvAfter (exec i s) := by
  unfold exec
  cases i with
  | add | sub | mul | mad | min | max | abs | neg => exact inv_vecArith h
  | mulh | bfe | bfi | addi => exact inv_vecOp h
  | and | or | xor | andn | not | mov | andi | ori => exact inv_vecBits h
  | shl | shr | sar | rol => exact inv_vecShift h
  | popc | clz | brev => exact inv_vecUnary h
  | sel | cmp | plog | movi | movhi | fclass | voteAny | voteAll | voteBal | laneMatch | getsr | spinw | nop | setmode | setgrd | tqry =>
    exact inv_issueRegs h
  | shli | shri | sari => exact inv_vecShiftImm h
  | fadd | fsub | fmul | ffma | fmin | fmax | fabs | fneg | fdot2 | fscale => exact inv_floatOp h
  | fcmp => exact inv_floatIssue h
  | frcp | frsq | fsqrt | fexp2 | flog2 | fsin | fcos | ftanh | rndint => exact inv_floatUnary h
  | cvt | cvtr => exact inv_cvtOp h
  | shfl | shflx | bcast => exact inv_laneCopy h
  | redu | scan => exact inv_laneFold h
  | uadd | usub | umul | umad | umin | umax | uaddi => exact inv_uniArith h
  | uand | uor | uxor | umov => exact inv_uniBits h
  | ushl | ushr | usar => exact inv_uniShift h
  | ucmp => exact inv_execUcmp h
  | usel => exact inv_uniOp h
  | umovi => exact inv_execUmovi h
  | umovhi => exact inv_execUmovhi h
  | bra => exact inv_execBra h
  | braq => exact inv_execBraq h
  | call | mark => exact inv_pushAll h
  | ret | join => exact inv_popAll h
  | regang => exact inv_execRegang h
  | exit => exact inv_execExit h
  | yield => exact inv_execYield h
  | trap => exact inv_execTrap h
  | ldb | ldh | ldw | ldd | ldq => exact inv_issueLoad h
  | stb | sth | stw | std | stq => exact inv_issueStore h
  | ldu | stu | sxld | sxst | lds | unsub | faadd | faopen | bind | unbind | acq | kvapp | slabld | pin | unpin | pcnt => exact inv_issueMem h
  | pref => exact inv_execPref h
  | aadd | amin | amax | aand | aor | axor | axch | acas => exact inv_issueAtomic h
  | bankcfgGrow | bankcfgShrink | bankcfgFifo | bankcfgUnfifo => exact inv_bankcfg h
  | relSt | relAdd => exact inv_issueRel h
  | fence => exact inv_execFence h
  | waitc => exact inv_execWaitc h
  | batch => exact inv_execBatch h
  | waitb => exact inv_execWaitb h
  | barinit => exact inv_execBarinit h
  | bara => exact inv_execBara h
  | barw => exact inv_execBarw h
  | cpy | cpyx | cpys => exact inv_postCopy h
  | sclaim => exact inv_execSclaim h
  | srel => exact inv_execSrel h
  | tpost => exact inv_execTpost h
  | kvgrow => exact inv_execKvgrow h
  | kvevict => exact inv_execKvevict h
  | slabst => exact inv_issueMemWhen h
  | phint => exact inv_execPhint h
  | launch => exact inv_execLaunch h
  | solo => exact inv_execSolo h
  | tret => exact inv_execTret h
  | crd => exact inv_execCrd h
  | cwr => exact inv_execCwr h
  | tlbiVa | tlbiAsid | tlbiGva | tlbiVmid => exact inv_tlbi h
  | ptst => exact inv_execPtst h
  | ifence => exact inv_execIfence h
  | unsolo => exact inv_execUnsolo h
  | migrMove | migrRetire | migrClaim => exact inv_migr h
  | snap => exact inv_execSnap h
  | ftmap => exact inv_execFtmap h
  | ringp => exact inv_execRingp h
  | gres => exact inv_execGres h
  | gkill => exact inv_execGkill h
  | reservedOpcode => exact inv_execReservedOpcode h
  | regangMerge => exact inv_execRegangMerge h
  | yieldRelease => exact inv_execYieldRelease h
  | spinAgePromote => exact inv_execSpinAgePromote h
  | postTaken => exact inv_execPostTaken h
  | loadDataReturn => exact inv_execLoadDataReturn h
  | storePerformed => exact inv_execStorePerformed h
  | atomicReply => exact inv_execAtomicReply h
  | groupRetire => exact inv_execGroupRetire h
  | waitcPass => exact inv_execWaitcPass h
  | waitbPass => exact inv_execWaitbPass h
  | barwPass => exact inv_execBarwPass h
  | translationWalk => exact inv_execTranslationWalk h
  | bankModeChange => exact .next (inv_bankModeChange h)
  | fifoPushComplete | fifoPopComplete => exact .next (inv_fifoStep h)
  | orderedAddApply => exact inv_execOrderedAddApply h
  | homeStoreApply => exact .next (inv_takeOutside h)
  | pushArrival => exact inv_execPushArrival h
  | refusedPushReturn => exact inv_execRefusedPushReturn h
  | inboxDelivery => exact inv_execInboxDelivery h
  | inboxSignal => exact inv_execInboxSignal h
  | redelivery => exact inv_execRedelivery h
  | redeliveryAccept => exact inv_execRedeliveryAccept h
  | subRemove => exact inv_execSubRemove h
  | unsubComplete => exact inv_execUnsubComplete h
  | subLoss => exact inv_execSubLoss h
  | subPark => exact inv_execSubPark h
  | subRepoint => exact inv_execSubRepoint h
  | leaseRenew => exact .next h.modHome
  | leaseRelease => exact inv_execLeaseRelease h
  | leaseExpiry => exact inv_execLeaseExpiry h
  | rangeLockStart => exact inv_execRangeLockStart h
  | copyTransfer => exact inv_execCopyTransfer h
  | copyFault => exact inv_execCopyFault h
  | copyComplete => exact inv_execCopyComplete h
  | relayEnqueue => exact inv_execRelayEnqueue h
  | barrierArrival => exact inv_execBarrierArrival h
  | slotZero => exact inv_execSlotZero h
  | taskFetch => exact inv_execTaskFetch h
  | taskStart => exact inv_execTaskStart h
  | taskStep => exact inv_execTaskStep h
  | taskComplete => exact inv_execTaskComplete h
  | growPageMove => exact inv_execGrowPageMove h
  | evictRun => exact .next ((inv_evictStep h).getD h)
  | evictSwitch => exact inv_execEvictSwitch h
  | evictComplete => exact inv_execEvictComplete h
  | evictFault => exact inv_execEvictFault h
  | shootdown => exact inv_execShootdown h
  | migrateLine => exact inv_execMigrateLine h
  | stalledWriteRetry => exact inv_execStalledWriteRetry h
  | claimRequest => exact inv_execClaimRequest h
  | handoverRelease => exact inv_execHandoverRelease h
  | holimExpiry => exact inv_execHolimExpiry h
  | claimTimeout | claimRefusal => exact .next (inv_failClaim h)
  | claimGrant => exact inv_execClaimGrant h
  | shareInc | shareDec | pinInc | pinDec | pinClr | accClr | free => exact .next (inv_ctlFrameOp h)
  | assign => exact inv_execAssign h
  | leaseClr => exact .next (inv_writeLeaseClr h)
  | tfcurWrite => exact .next (inv_writeTfcur h)
  | controlRegWrite => exact inv_execControlRegWrite h
  | trapDelivery => exact inv_execTrapDelivery h
  | heldTrapEnter => exact inv_execHeldTrapEnter h
  | heldTrapRetry => exact inv_execHeldTrapRetry h
  | faultQueuePost | faultQueueRetry => exact .next (inv_postFault h)
  | refereeForward => exact inv_execRefereeForward h
  | refereeRingRetry => exact .next (inv_forward h)
  | pqpop => exact .next h.modDie
  | commit => exact inv_execCommit h
  | preempt => exact inv_execPreempt h
  | swap => exact inv_execSwap h
  | spill => exact inv_execSpill h
  | spillComplete => exact inv_execSpillComplete h
  | restoreFill => exact inv_execRestoreFill h
  | teamRelease => exact inv_execTeamRelease h
  | submit => exact .next (inv_submitPacket h)
  | launchPacket => exact inv_execLaunchPacket h
  | fabricFrameRx => exact inv_execFabricFrameRx h
  | launchRequest => exact inv_execLaunchRequest h
  | launchReply => exact inv_execLaunchReply h
  | responseWrite => exact inv_execResponseWrite h
  | gridDeal => exact inv_execGridDeal h
  | gridComplete => exact inv_execGridComplete h
  | functionLevelReset => exact inv_execFunctionLevelReset h
  | hotReset => exact inv_execHotReset h
  | dieReadmit => exact inv_execDieReadmit h
  | coldStart => exact inv_execColdStart h
  | bootStage => exact inv_execBootStage h
  | bootStageTimeout => exact inv_execBootStageTimeout h
  | getBootStatus => exact inv_execGetBootStatus h
  | setOwner => exact inv_execSetOwner h
  | imageBegin => exact inv_execImageBegin h
  | imageData => exact inv_execImageData h
  | imageEnd => exact inv_execImageEnd h
  | commitSvn => exact inv_execCommitSvn h
  | setPartition => exact inv_execSetPartition h
  | getPartition => exact inv_execGetPartition h
  | setTenant => exact inv_execSetTenant h
  | getTenant => exact inv_execGetTenant h
  | tearDown => exact inv_execTearDown h
  | dieReset => exact inv_execDieReset h
  | snapMailbox => exact inv_execSnapMailbox h
  | setHolim => exact inv_execSetHolim h
  | readLog => exact inv_execReadLog h
  | readSensors => exact inv_execReadSensors h
  | spdm => exact inv_execSpdm h
  | snaptrig => exact .next (inv_sendSnap h)
  | snapshotLatch => exact inv_execSnapshotLatch h
  | snapshotComplete => exact inv_execSnapshotComplete h
  | gcmdGres => exact inv_execGcmdGres h
  | gcmdGresSkip => exact inv_execGcmdGresSkip h
  | gcmdGkill => exact inv_execGcmdGkill h
  | pacerRecordWrite => exact inv_execPacerRecordWrite h
  | rspheadWrite | rspbaseWrite => exact .next h.modPage
  | lineRequest => exact inv_execLineRequest h
  | completionTimeout => exact inv_execCompletionTimeout h
  | sensorBeyondLimit => exact .next (inv_addLog h)

/-! ## Events -/

/-- What may happen keeps the invariant. -/
def ActKeeps (a : Act) : Prop := ∀ s, Inv s → InvAfter (a s)

/-- Everything in a list of what may happen keeps the invariant. -/
def ActsKeep (l : List Act) : Prop := ∀ a ∈ l, ActKeeps a

theorem ActsKeep.nil : ActsKeep [] := List.forall_mem_nil _

theorem ActsKeep.cons {a : Act} {l : List Act} (h : ActKeeps a) (k : ActsKeep l) : ActsKeep (a :: l) :=
  List.forall_mem_cons.mpr ⟨h, k⟩

theorem ActsKeep.one {a : Act} (h : ActKeeps a) : ActsKeep [a] := .cons h .nil

theorem ActsKeep.append {l m : List Act} (h : ActsKeep l) (k : ActsKeep m) : ActsKeep (l ++ m) :=
  List.forall_mem_append.mpr ⟨h, k⟩

theorem ActsKeep.due {b : Bool} {a : Act} (h : ActKeeps a) : ActsKeep (dueIf b a) := by
  unfold dueIf
  split
  · exact .one h
  · exact .nil

theorem ActsKeep.ite {p : Prop} [Decidable p] {l m : List Act} (h : ActsKeep l) (k : ActsKeep m) : ActsKeep (if p then l else m) := by
  split
  · exact h
  · exact k

theorem ActsKeep.map {α : Type} {l : List α} {f : α → Act} (h : ∀ x, ActKeeps (f x)) : ActsKeep (l.map f) :=
  List.forall_mem_map.mpr fun x _ => h x

theorem ActsKeep.flatMap {α : Type} {l : List α} {f : α → List Act} (h : ∀ x, ActsKeep (f x)) : ActsKeep (l.flatMap f) :=
  List.forall_mem_flatMap.mpr fun x _ => h x

theorem ActsKeep.eachOf {α : Type} {l : List α} {f : Nat → α → List Act} (h : ∀ n x, ActsKeep (f n x)) : ActsKeep (eachOf l f) := by
  intro a ha
  obtain ⟨acts, hacts, hmem⟩ := List.mem_flatten.mp ha
  obtain ⟨n, hn, rfl⟩ := List.mem_mapIdx.mp hacts
  exact h n l[n] a hmem

theorem actsKeep_groupEvents {gid : Nat} {g : Group} : ActsKeep (groupEvents s gid g) := by
  unfold groupEvents
  repeat' refine ActsKeep.append ?_ ?_
  · exact .due fun _ => inv_execRegangMerge
  · exact .due fun _ => inv_execTrapDelivery
  · exact .due fun _ => inv_execGroupRetire
  · refine .flatMap fun _ => ?_
    repeat' refine ActsKeep.append ?_ ?_
    · exact .due fun _ => inv_execYieldRelease
    · exact .due fun _ => inv_execSpinAgePromote
    · exact .due fun _ => inv_execWaitcPass
    · exact .due fun _ => inv_execWaitbPass
    · exact .due fun _ => inv_execBarwPass

theorem actsKeep_opEvents {core : Nat} {o : LogOp} : ActsKeep (opEvents s core o) := by
  unfold opEvents
  repeat' refine ActsKeep.append ?_ ?_
  · exact .due fun _ => inv_execTranslationWalk
  · refine .due ?_
    split
    · exact fun _ => inv_execLoadDataReturn
    · exact fun _ => inv_execStorePerformed
    · exact fun _ => inv_execAtomicReply
  · exact .due fun _ h => .next (inv_fifoStep h)
  · exact .due fun _ h => .next (inv_fifoStep h)

theorem actsKeep_copyEvents {core : Nat} {c : Copy} : ActsKeep (copyEvents s core c) := by
  unfold copyEvents
  repeat' refine ActsKeep.append ?_ ?_
  · exact .due fun _ => inv_execCopyTransfer
  · exact .due fun _ => inv_execCopyFault
  · exact .due fun _ => inv_execCopyComplete
  · exact .due fun _ => inv_execRelayEnqueue
  · exact .due fun _ => inv_execGrowPageMove

theorem actsKeep_taskEvents {core : Nat} {t : Task} : ActsKeep (taskEvents s core t) := by
  unfold taskEvents
  repeat' refine ActsKeep.append ?_ ?_
  · exact .due fun _ => inv_execTaskFetch
  · exact .due fun _ => inv_execTaskStart
  · exact .due fun _ => inv_execTaskStep
  · exact .due fun _ => inv_execTaskComplete

theorem actsKeep_slotEvents {core slot : Nat} : ActsKeep (slotEvents s core slot) := by
  unfold slotEvents
  repeat' refine ActsKeep.append ?_ ?_
  · exact .due fun _ => inv_execTeamRelease
  · exact .due fun _ => inv_execSpill
  · exact .due fun _ => inv_execSpillComplete
  · exact .due fun _ => inv_execRestoreFill

theorem actsKeep_coreEvents {core : Nat} {k : Core} : ActsKeep (coreEvents s core k) := by
  unfold coreEvents
  repeat' refine ActsKeep.append ?_ ?_
  · exact .flatMap fun _ => .due fun _ => inv_execPostTaken
  · exact .flatMap fun _ => actsKeep_opEvents
  · exact .due fun _ h => .next (inv_bankModeChange h)
  · exact .due fun _ => inv_execInboxDelivery
  · exact .due fun _ => inv_execInboxSignal
  · exact .flatMap fun _ => actsKeep_copyEvents
  · exact .flatMap fun _ => actsKeep_taskEvents
  · exact .due fun _ => inv_execSlotZero
  · exact .due fun _ => inv_execHeldTrapEnter
  · exact .due fun _ => inv_execHeldTrapRetry
  · exact .flatMap fun _ => actsKeep_slotEvents

theorem actsKeep_dieEvents {die : Nat} {d : Die} : ActsKeep (dieEvents s die d) := by
  unfold dieEvents
  repeat' refine ActsKeep.append ?_ ?_
  · exact .due fun _ => inv_execRangeLockStart
  · exact .due fun _ h => .next ((inv_evictStep h).getD h)
  · exact .due fun _ => inv_execEvictSwitch
  · exact .flatMap fun _ => .due fun _ => inv_execEvictComplete
  · exact .due fun _ => inv_execEvictFault
  · exact .due fun _ => inv_execSwap

theorem actsKeep_msgEvent {n : Nat} {m : SubMsg} : ActsKeep (msgEvent s n m) := by
  cases m with
  | remove => exact .due fun _ => inv_execSubRemove
  | removed => exact .due fun _ => inv_execUnsubComplete
  | park => exact .one fun _ => inv_execSubPark
  | repoint => exact .one fun _ => inv_execSubRepoint

theorem actsKeep_hubEvents : ActsKeep (hubEvents s) := by
  unfold hubEvents
  repeat' refine ActsKeep.append ?_ ?_
  · exact .due fun _ => inv_execReaderDrop
  · exact .eachOf fun _ _ => .due fun _ => inv_execShootServe
  · exact .flatMap fun _ => .due fun _ => inv_execRedelivery
  · exact .eachOf fun _ _ => .due fun _ => inv_execOrderedAddApply
  · refine .eachOf fun _ _ => .due ?_
    split
    · exact fun _ => inv_execRedeliveryAccept
    · exact fun _ => inv_execPushArrival
  · exact .eachOf fun _ _ => .one fun _ => inv_execRefusedPushReturn
  · exact .due fun _ => inv_execOutside
  · exact .eachOf fun _ _ => actsKeep_msgEvent
  · exact .eachOf fun _ _ => .one fun _ => inv_execBarrierArrival
  · refine .flatMap fun _ => ?_
    split
    · exact .one fun _ => inv_execMigrateLine
    · exact .nil
  · exact .eachOf fun _ _ => .due fun _ => inv_execStalledWriteRetry
  · exact .flatMap fun _ => .due fun _ => inv_execClaimGrant
  · exact .flatMap fun _ => .due fun _ => inv_execHandoverRelease
  · exact .due fun _ => inv_execLaunchPacket
  · exact .due fun _ => inv_execLaunchRequest
  · exact .eachOf fun _ _ => .one fun _ => inv_execLaunchReply
  · exact .flatMap fun _ => .due fun _ => inv_execResponseWrite
  · exact .flatMap fun _ => .append (.due fun _ => inv_execGridDeal) (.due fun _ => inv_execGridComplete)
  · exact .ite (.append (.map fun _ _ => inv_execSnapshotLatch) (.due fun _ => inv_execSnapshotComplete)) .nil

theorem actsKeep_refereeEvents : ActsKeep (refereeEvents s) := by
  unfold refereeEvents
  repeat' refine ActsKeep.append ?_ ?_
  · exact .ite (.cons (fun _ h => .next (inv_postFault h)) (.one fun _ h => .next (inv_postFault h))) .nil
  · exact .due fun _ => inv_execChange
  · exact .due fun _ => inv_execRefereeForward
  · exact .eachOf fun _ _ => .due fun _ h => .next (inv_forward h)

theorem actsKeep_internalEvents : ActsKeep (internalEvents s) := by
  unfold internalEvents
  refine .append (.append (.append (.append ?_ ?_) ?_) actsKeep_hubEvents) actsKeep_refereeEvents
  · exact .flatMap fun _ => actsKeep_groupEvents
  · exact .flatMap fun _ => actsKeep_coreEvents
  · exact .flatMap fun _ => actsKeep_dieEvents

/-! ## Step -/

/-- The invariant of a gang's turn: it holds in the state in which the instruction runs, or after what comes of a fetch that gives none. -/
def InvTurn : Turn → Prop
  | .run _ t => Inv t
  | .done r => InvAfter r

theorem InvTurn.run {i : Instr} (h : Inv s) : InvTurn (.run i s) := h

theorem InvTurn.done {r : Result} (h : InvAfter r) : InvTurn (.done r) := h

/-- The decoder is made a variable in a lemma of its own, so that the kernel, checking the case split on what it gives, cannot run it. -/
theorem inv_gangTurn {u : Cur} (h : Inv s) : InvTurn (gangTurn s u) := by
  unfold gangTurn
  generalize decodeBytes = decode
  as_aux_lemma =>
    dsimp only
    split
    · rename_i s1 w e
      have h2 : Inv { s1 with cur := some u } := .congr ((inv_fetch h).fst_eq e) rfl
      split
      · exact .run h2
      · exact .done (inv_undecoded h2)
    · rename_i e
      exact .done (.next (inv_fetchTrap ((inv_fetch h).fst_eq e)))
    · exact .done (.next h)

theorem inv_runGang {u : Cur} (h : Inv s) : InvAfter (runGang u s) := by
  have ht : InvTurn (gangTurn s u) := inv_gangTurn h
  unfold runGang
  split <;> rename_i e <;> rw [e] at ht
  · exact inv_exec ht
  · exact ht

theorem actsKeep_choices : ActsKeep (choices s) :=
  .append (.map fun _ _ => inv_runGang) actsKeep_internalEvents

/-- The choice that is made is one of the list. -/
theorem choose_mem {time : Nat} {l : List Act} {a : Act} (e : choose time l = some a) : a ∈ l := by
  unfold choose at e
  split at e
  · contradiction
  · rw [Option.some.inj e]
    exact List.mem_singleton_self a
  · exact List.mem_of_getElem? e

theorem inv_tick {r : Result} (h : InvAfter r) : InvAfter (tick r) := by
  cases r with
  | next s => exact .congr (Inv.noteYields h) rfl
  | fault | refused => exact h

theorem inv_step (h : Inv s) : InvAfter (step s) := by
  refine inv_tick ?_
  split
  · exact .ite (inv_exec (.congr h rfl)) (.congr h rfl)
  · split
    · rename_i e
      exact actsKeep_choices _ (choose_mem e) s h
    · exact h

end Sys2Proof.Machine

namespace Sys2Proof

/-- Settles O58: every act of the package writes memory only through the model's byte writes, which keep the canonical form; so each instruction, each
event, and with them each step, keeps it. -/
theorem stepsKeepMemoryCanonical : Obligations.StepsKeepMemoryCanonical := by
  intro s t h e
  have ha : Machine.InvAfter (Machine.step s) := Machine.inv_step h
  rw [e] at ha
  exact ha

end Sys2Proof
end

section
/-! Control flow and gangs (O14 to O18).

A control instruction changes the slices of its gang one by one. Each is compared with the slice that the statement names by `SliceLike`, which does not look at
what gangs are made of nor at the count of issues: so issuing (`counted_like`) and leaving a closed range (`SliceLike.spinCheck`) drop out, and the flow laws of
Laws/Control.lean carry the comparison from the slices to the state. -/
namespace Sys2Proof.Machine

variable {s : State} {c : Ctx} {g : Group} {x y z : Slice}

/-! ## Slices that are alike -/

theorem SliceLike.trans (h : SliceLike x y) (k : SliceLike y z) : SliceLike x z where
  live := k.live.trans h.live
  run := k.run.trans h.run
  stack := k.stack.trans h.stack
  depth := k.depth.trans h.depth
  mode := k.mode.trans h.mode
  loads := k.loads.trans h.loads
  stores := k.stores.trans h.stores
  atomics := k.atomics.trans h.atomics
  posts := k.posts.trans h.posts
  wait := k.wait.trans h.wait
  handler := k.handler.trans h.handler
  lastBack := k.lastBack.trans h.lastBack
  pc := k.pc.trans h.pc

/-- The count of issues does not matter. -/
theorem like_issues (x : Slice) (n : Nat) : SliceLike x { x with issues := n } := (SliceLike.refl x).of _ n _ _

/-- Leaving a closed range changes only spinning. -/
theorem spinCheck_like (x : Slice) : SliceLike x x.spinCheck := by
  obtain ⟨sp, h⟩ := spinCheck_eq x
  rw [h]
  exact (SliceLike.refl x).of _ _ sp _

theorem SliceLike.spinCheck (h : SliceLike x y) : SliceLike x y.spinCheck := h.trans (spinCheck_like y)

theorem SliceLike.withRun (h : SliceLike x y) (m : BitVec 4) : SliceLike { x with run := m } { y with run := m } :=
  ⟨⟨h.live, rfl, h.stack, h.depth, h.mode, h.loads, h.stores, h.atomics, h.posts, h.wait, h.handler, h.lastBack⟩, h.pc⟩

theorem fall_like (x : Slice) (n : Nat) : SliceLike { x with pc := x.pc + 4 } ({ x with issues := n } : Slice).fall :=
  (like_issues { x with pc := x.pc + 4 } n).spinCheck

/-- A taken branch jumps. -/
theorem branchTo_like (x : Slice) (to_ : DWord) (n : Nat) : SliceLike (jump x to_) (({ x with issues := n } : Slice).branchTo to_) := by
  unfold Slice.branchTo
  split
  · rename_i h
    have e : jump x to_ = { x with pc := to_, lastBack := some to_ } := by simp [jump, show to_ ≤ x.pc from h]
    rw [e]
    exact ((SliceLike.refl { x with pc := to_, lastBack := some to_ }).of _ n _ _).spinCheck
  · rename_i h
    have e : jump x to_ = { x with pc := to_ } := by simp [jump, show ¬ to_ ≤ x.pc from h]
    rw [e]
    exact (like_issues { x with pc := to_ } n).spinCheck

/-- BRA in one slice: the lanes that take the branch decide (R62). -/
theorem braSlice_like (x : Slice) (to_ : DWord) (t : BitVec 4) (n : Nat) :
    SliceLike
      (if t = 0 then { x with pc := x.pc + 4 }
       else if x.run &&& ~~~t = 0 then jump x to_
       else { jump (x.push .div (x.pc + 4) (x.run &&& ~~~t)) to_ with run := t })
      (braSlice to_ { x with issues := n } t) := by
  unfold braSlice
  by_cases ht : t = 0
  · simp only [ht, if_true]
    exact fall_like x n
  · by_cases hf : x.run &&& ~~~t = 0
    · simp only [ht, hf, if_true, if_false]
      exact branchTo_like x to_ n
    · simp only [ht, hf, if_false]
      exact (branchTo_like (x.push .div (x.pc + 4) (x.run &&& ~~~t)) to_ n).withRun t

/-! ## The join stack -/

/-- A pop does not look at the count of issues. -/
theorem joinPop_issues (x : Slice) (imp : Bool) (n d : Nat) :
    joinPop { x with issues := n } imp d = match joinPop x imp d with | .ok y => .ok { y with issues := n } | .trap k => .trap k := by
  induction d with
  | zero => cases imp <;> rfl
  | succ d ih =>
    simp only [joinPop]
    have e : ({ x with issues := n } : Slice).entry d = x.entry d := rfl
    rw [e, ih]
    split
    · rfl
    · split
      · rfl
      · rfl

/-- A pop passes over entries that hold no live lane. -/
theorem joinPop_skip {imp : Bool} {n d : Nat} (h : n ≤ d) (hd : ∀ k, n ≤ k → k < d → (x.entry k).mask &&& x.live = 0 ∧ (imp = false → (x.entry k).kind ≠ .call)) :
    joinPop x imp d = joinPop x imp n := by
  induction d, h using Nat.le_induction with
  | base => rfl
  | succ d hnd ih =>
    obtain ⟨hm, hk⟩ := hd d hnd (Nat.lt_succ_self d)
    have hc : ¬ ((x.entry d).kind = .call ∧ imp = false) := fun h => hk h.2 h.1
    simp only [joinPop, if_neg hc, hm, ne_eq, not_true_eq_false, if_false]
    exact ih fun k h1 h2 => hd k h1 (Nat.lt_succ_of_lt h2)

/-- An implicit pop never traps (R426). -/
theorem joinPop_implicit (x : Slice) (d : Nat) : ∃ y, joinPop x true d = .ok y := by
  induction d with
  | zero => exact ⟨_, rfl⟩
  | succ d ih =>
    simp only [joinPop, Bool.true_eq_false, and_false, if_false]
    split
    · exact ⟨_, rfl⟩
    · exact ih

theorem implicitPop_issues (x : Slice) (n : Nat) : implicitPop { x with issues := n } = { implicitPop x with issues := n } := by
  obtain ⟨y, hy⟩ := joinPop_implicit x x.depth
  have e : joinPop { x with issues := n } true ({ x with issues := n } : Slice).depth = .ok { y with issues := n } := by
    rw [joinPop_issues, hy]
  unfold implicitPop
  rw [e, hy]

/-! ## The slices of a gang -/

theorem mem_slicesOf {m : SliceMask} {i : Nat} : i ∈ slicesOf m ↔ m.getLsbD i = true := by
  simp only [slicesOf, List.mem_filter, List.mem_range]
  exact ⟨fun h => h.2, fun h => ⟨BitVec.lt_of_getLsbD h, h⟩⟩

theorem inGang_iff {i : Nat} : inGang g c i = true ↔ i ∈ slicesOf c.gang := by
  rw [mem_slicesOf]
  simp only [inGang, Bool.and_eq_true, decide_eq_true_eq]
  exact ⟨fun h => h.2, fun h => ⟨BitVec.lt_of_getLsbD h, h⟩⟩

/-- The lowest slice of a set for which a search has an answer gives it. -/
theorem findSome?_slicesOf {α : Type} {m : SliceMask} {f : Nat → Option α} {i : Nat} {a : α} (hi : i ∈ slicesOf m) (ha : f i = some a)
    (hlow : ∀ j, j < i → j ∈ slicesOf m → f j = none) : (slicesOf m).findSome? f = some a := by
  have h64 : i < 64 := List.mem_range.mp (List.mem_filter.mp hi).1
  have hbit := mem_slicesOf.mp hi
  have e : List.range 64 = List.range i ++ i :: (List.range (63 - i)).map (i + 1 + ·) := by
    rw [show 64 = (i + 1) + (63 - i) by omega, List.range_add, List.range_succ]
    simp
  unfold slicesOf
  rw [e, List.filter_append, List.filter_cons_of_pos (by simpa using hbit), List.findSome?_append]
  have hnone : ((List.range i).filter fun j => m.getLsbD j).findSome? f = none := by
    rw [List.findSome?_eq_none_iff]
    intro j hj
    obtain ⟨hj, hb⟩ := List.mem_filter.mp hj
    exact hlow j (List.mem_range.mp hj) (mem_slicesOf.mpr hb)
  rw [hnone, List.findSome?_cons, ha]
  rfl

theorem mapSlices_mapSlices (g : Group) (m : SliceMask) (f f' : Nat → Slice → Slice) :
    (g.mapSlices m f).mapSlices m f' = g.mapSlices m fun i x => f' i (f i x) := by
  simp only [Group.mapSlices, List.mapIdx_mapIdx]
  congr 1
  refine List.mapIdx_eq_mapIdx_iff.mpr fun i hi => ?_
  simp only [Function.comp]
  split <;> rfl

theorem mapSlices_same (g : Group) (m : SliceMask) : (g.mapSlices m fun _ x => x) = g := by
  simp only [Group.mapSlices, ite_self]
  rw [show g.slices.mapIdx (fun _ x => x) = g.slices from List.ext_getElem (by simp) (by simp)]

/-- What issuing leaves of a slice. -/
theorem counted_like (g : Group) (c : Ctx) (i : Nat) : SliceLike (g.slice i) ((counted g c).slice i) := by
  obtain ⟨n, h⟩ := counted_slice g c i
  rw [h]
  exact like_issues _ n

@[simp] theorem counted_gangTrap (g : Group) (c k : Ctx) (code cause : Nat) (a : DWord) :
    gangTrap (counted g c) k code cause a = gangTrap g k code cause a := by
  simp only [gangTrap, counted_runSet]

/-- Retiring with no other effect: the gang goes on to the next word. -/
theorem retire_onward (s : State) (c : Ctx) : Flow s (retire (countIssue s c) c (counted (s.group c.gid) c)) c onward := by
  have h := retire_flow s c (fun _ x => x) onward fun i n => like_issues { (s.group c.gid).slice i with pc := ((s.group c.gid).slice i).pc + 4 } n
  rwa [mapSlices_same] at h

/-! ## BRA and BRAQ -/

theorem exec_bra (p : BitVec 4) (imm : BitVec 16) (s : State) : exec (.bra p imm) s = execBra p imm s := rfl
theorem exec_braq (p : BitVec 4) (imm : BitVec 16) (s : State) : exec (.braq p imm) s = execBraq p imm s := rfl

/-- The lanes of slice i that take a branch on p. -/
def branchLanes (g : Group) (c : Ctx) (p : BitVec 4) (i : Nat) : BitVec 4 := laneBits i fun l => runs g c l && (guardTrue g l && readP g p.toNat l)

/-- A slice whose lanes disagree has no room for the DIV entry. -/
def divFull (g : Group) (c : Ctx) (p : BitVec 4) : Bool :=
  (slicesOf c.gang).any fun i => branchLanes g c p i != 0 && (g.slice i).run &&& ~~~(branchLanes g c p i) != 0 && decide (8 ≤ (g.slice i).depth)

theorem divFull_iff {p : BitVec 4} : divFull g c p = true ↔
    ∃ i, i ∈ slicesOf c.gang ∧ branchLanes g c p i ≠ 0 ∧ (g.slice i).run &&& ~~~(branchLanes g c p i) ≠ 0 ∧ 8 ≤ (g.slice i).depth := by
  simp [divFull, List.any_eq_true, and_assoc]

@[simp] theorem counted_branchLanes (g : Group) (c k : Ctx) (p : BitVec 4) (i : Nat) : branchLanes (counted g c) k p i = branchLanes g k p i := by
  unfold branchLanes
  simp only [counted_runs, counted_guardTrue, counted_readP]

@[simp] theorem counted_divFull (g : Group) (c k : Ctx) (p : BitVec 4) : divFull (counted g c) k p = divFull g k p := by
  unfold divFull
  simp only [counted_branchLanes, (counted_like g c _).run, (counted_like g c _).depth]

theorem execBra_lanes {p : BitVec 4} {imm : BitVec 16} (hc : issuer s = some c) (hi : issues (encode (.bra p imm)) s = true) (hs : c.solo = none) :
    exec (.bra p imm) s =
      if divFull (s.group c.gid) c p then .next (raiseTrap (countIssue s c) c (encode (.bra p imm)) (gangTrap (s.group c.gid) c 0x14 1 0))
      else .next (settleAt (countIssue s c) c ((counted (s.group c.gid) c).mapSlices c.gang fun i x =>
        braSlice (branchTarget x.pc imm) x (branchLanes (s.group c.gid) c p i))) := by
  rw [exec_bra, execBra, issue_body _ hc hi]
  simp only [hs]
  rw [← counted_divFull (s.group c.gid) c, ← counted_gangTrap (s.group c.gid) c]
  simp only [← counted_branchLanes (s.group c.gid) c]
  rfl

theorem execBra_solo {p : BitVec 4} {imm : BitVec 16} {l : Nat} (hc : issuer s = some c) (hi : issues (encode (.bra p imm)) s = true) (hs : c.solo = some l) :
    exec (.bra p imm) s = .next (settleAt (countIssue s c) c ((counted (s.group c.gid) c).mapSlices c.gang fun _ x =>
      if guardTrue (s.group c.gid) l && readP (s.group c.gid) p.toNat l then x.branchTo (branchTarget x.pc imm) else x.fall)) := by
  rw [exec_bra, execBra, issue_body _ hc hi]
  simp only [hs, counted_guardTrue, counted_readP]

/-- Slices that all branch, or all go on to the next word. -/
theorem branch_flow (s : State) (c : Ctx) (b : Bool) {n : Nat} (imm : BitVec n) :
    Flow s (settleAt (countIssue s c) c ((counted (s.group c.gid) c).mapSlices c.gang fun _ x => if b then x.branchTo (branchTarget x.pc imm) else x.fall)) c
      fun _ x => if b then jump x (target x.pc imm) else { x with pc := x.pc + 4 } := by
  refine settleAt_flow s c _ _ fun i n => ?_
  cases b with
  | true => exact branchTo_like _ _ n
  | false => exact fall_like _ n

/-! ## CALL, MARK, RET and JOIN -/

theorem exec_call (imm : BitVec 24) (s : State) : exec (.call imm) s = execCall imm s := rfl
theorem exec_mark (imm : BitVec 16) (s : State) : exec (.mark imm) s = execMark imm s := rfl
theorem exec_ret (s : State) : exec .ret s = execRet s := rfl
theorem exec_join (s : State) : exec .join s = execJoin s := rfl

/-- A flow speaks of the slices of the gang only. -/
theorem Flow.congr {t : State} {f f' : Nat → Slice → Slice} (h : Flow s t c f)
    (e : ∀ i, c.gang.getLsbD i = true → f i ((s.group c.gid).slice i) = f' i ((s.group c.gid).slice i)) : Flow s t c f' where
  beyond := h.beyond
  group := h.group
  regs := h.regs
  issueNo := h.issueNo
  slices i hl hb := e i hb ▸ h.slices i hl hb
  others := h.others

/-- A push that meets a full stack raises JOIN_STACK with cause 1 (R46). -/
theorem pushAll_full {w : Word} {kind : JoinKind} {entry next : DWord → DWord} {i : Nat} (hc : issuer s = some c) (hi : issues w s = true)
    (hg : inGang (s.group c.gid) c i = true) (hd : 8 ≤ ((s.group c.gid).slice i).depth) :
    pushAll w kind entry next s = .next (raiseTrap (countIssue s c) c w (gangTrap (s.group c.gid) c 0x14 1 0)) := by
  have hfull : ((slicesOf c.gang).any fun i => decide (8 ≤ ((counted (s.group c.gid) c).slice i).depth)) = true :=
    List.any_eq_true.mpr ⟨i, inGang_iff.mp hg, by rw [(counted_like _ c i).depth]; exact decide_eq_true hd⟩
  rw [pushAll, issue_body _ hc hi, if_pos hfull, counted_gangTrap]
  rfl

/-- Where every stack has room, every slice of the gang gets its entry. -/
theorem pushAll_flow {w : Word} (kind : JoinKind) (entry next : DWord → DWord) (hc : issuer s = some c) (hi : issues w s = true)
    (hroom : ∀ i, inGang (s.group c.gid) c i = true → ((s.group c.gid).slice i).depth < 8) :
    ∃ t, pushAll w kind entry next s = .next t ∧ Flow s t c fun _ x => { x.push kind (entry x.pc) x.run with pc := next x.pc } := by
  have hfull : ¬ ((slicesOf c.gang).any fun i => decide (8 ≤ ((counted (s.group c.gid) c).slice i).depth)) = true := by
    rw [List.any_eq_true]
    rintro ⟨i, hm, hd⟩
    rw [(counted_like _ c i).depth, decide_eq_true_eq] at hd
    exact absurd (hroom i (inGang_iff.mpr hm)) (by omega)
  rw [pushAll, issue_body _ hc hi, if_neg hfull]
  refine ⟨_, rfl, settleAt_flow s c _ _ fun i n => ?_⟩
  exact (like_issues { ((s.group c.gid).slice i).push kind (entry ((s.group c.gid).slice i).pc) ((s.group c.gid).slice i).run with
    pc := next ((s.group c.gid).slice i).pc } n).spinCheck

/-- A pop that does not look at the count of issues. -/
def IgnoresIssues (pop : Slice → PopResult) : Prop :=
  ∀ x n, pop { x with issues := n } = match pop x with | .ok y => .ok { y with issues := n } | .trap k => .trap k

theorem ignoresIssues_joinPop : IgnoresIssues fun x => joinPop x false x.depth := fun x n => joinPop_issues x false n x.depth

/-- A slice that has taken the entry on top of its stack. -/
def popTop (x : Slice) : Slice :=
  { x with depth := x.depth - 1, run := (x.entry (x.depth - 1)).mask &&& x.live, pc := (x.entry (x.depth - 1)).addr }

/-- RET takes the CALL entry on top, and pops again where it holds no live lane (R64). -/
theorem retSlice_call (hd : 0 < x.depth) (hk : (x.entry (x.depth - 1)).kind = .call) :
    retSlice x = .ok (if (popTop x).run = 0 then implicitPop (popTop x) else popTop x) := by
  unfold retSlice
  rw [if_neg (by omega)]
  simp only [hk, ne_eq, not_true_eq_false, if_false]
  rfl

theorem retSlice_empty (hd : x.depth = 0) : retSlice x = .trap 2 := if_pos hd

theorem retSlice_other (hd : 0 < x.depth) (hk : (x.entry (x.depth - 1)).kind ≠ .call) : retSlice x = .trap 3 := by
  unfold retSlice
  rw [if_neg (by omega)]
  simp only [hk, ne_eq, not_false_eq_true, if_true]

theorem ignoresIssues_retSlice : IgnoresIssues retSlice := by
  intro x n
  by_cases hd : x.depth = 0
  · rw [retSlice_empty hd, retSlice_empty (x := { x with issues := n }) hd]
  · by_cases hk : (x.entry (x.depth - 1)).kind = .call
    · have e : popTop { x with issues := n } = { popTop x with issues := n } := rfl
      rw [retSlice_call (Nat.pos_of_ne_zero hd) hk, retSlice_call (x := { x with issues := n }) (Nat.pos_of_ne_zero hd) hk, e, implicitPop_issues]
      dsimp only
      split <;> rfl
    · rw [retSlice_other (Nat.pos_of_ne_zero hd) hk, retSlice_other (x := { x with issues := n }) (Nat.pos_of_ne_zero hd) hk]

/-- The cause with which a pop fails. -/
def popCause : PopResult → Option Nat
  | .trap n => some n
  | .ok _ => none

theorem popAll_body {w : Word} {pop : Slice → PopResult} (hp : IgnoresIssues pop) (hc : issuer s = some c) (hi : issues w s = true) :
    popAll w pop s = match (slicesOf c.gang).findSome? fun i => popCause (pop ((s.group c.gid).slice i)) with
      | some cause => .next (raiseTrap (countIssue s c) c w (gangTrap (s.group c.gid) c 0x14 cause 0))
      | none => .next (settleAt (countIssue s c) c ((counted (s.group c.gid) c).mapSlices c.gang fun _ x => match pop x with | .ok y => y.spinCheck | .trap _ => x)) := by
  have e : ∀ i, popCause (pop ((counted (s.group c.gid) c).slice i)) = popCause (pop ((s.group c.gid).slice i)) := by
    intro i
    obtain ⟨n, h⟩ := counted_slice (s.group c.gid) c i
    rw [h, hp]
    cases pop ((s.group c.gid).slice i) <;> rfl
  rw [popAll, issue_body _ hc hi]
  simp only [← e, ← counted_gangTrap (s.group c.gid) c c]
  rfl

/-- The lowest slice that cannot pop gives the cause (R46, log 63). -/
theorem popAll_traps {w : Word} {pop : Slice → PopResult} {i n : Nat} (hp : IgnoresIssues pop) (hc : issuer s = some c) (hi : issues w s = true)
    (hg : inGang (s.group c.gid) c i = true) (ht : pop ((s.group c.gid).slice i) = .trap n)
    (hlow : ∀ j, j < i → inGang (s.group c.gid) c j = true → ∃ y, pop ((s.group c.gid).slice j) = .ok y) :
    popAll w pop s = .next (raiseTrap (countIssue s c) c w (gangTrap (s.group c.gid) c 0x14 n 0)) := by
  rw [popAll_body hp hc hi, findSome?_slicesOf (inGang_iff.mp hg) (a := n) (by rw [ht]; rfl)]
  intro j hj hm
  obtain ⟨y, hy⟩ := hlow j hj (inGang_iff.mpr hm)
  rw [hy]
  rfl

/-- Where every slice can pop, every slice of the gang does. -/
theorem popAll_flow {w : Word} {pop : Slice → PopResult} (hp : IgnoresIssues pop) (hc : issuer s = some c) (hi : issues w s = true)
    (hok : ∀ i, inGang (s.group c.gid) c i = true → ∃ y, pop ((s.group c.gid).slice i) = .ok y) :
    ∃ t, popAll w pop s = .next t ∧ Flow s t c fun _ x => match pop x with | .ok y => y | .trap _ => x := by
  have hnone : ((slicesOf c.gang).findSome? fun i => popCause (pop ((s.group c.gid).slice i))) = none := by
    rw [List.findSome?_eq_none_iff]
    intro i hm
    obtain ⟨y, hy⟩ := hok i (inGang_iff.mpr hm)
    rw [hy]
    rfl
  rw [popAll_body hp hc hi, hnone]
  refine ⟨_, rfl, settleAt_flow s c _ _ fun i n => ?_⟩
  rw [hp ((s.group c.gid).slice i) n]
  cases pop ((s.group c.gid).slice i) with
  | ok y => exact (like_issues y n).spinCheck
  | trap k => exact like_issues _ n

/-- The traps of the join stack (R46). -/
theorem joinStackTraps_holds : joinStackTraps := by
  refine ⟨fun imm s c i hc hi hg hd => (exec_call imm s).trans (pushAll_full hc hi hg hd),
    fun imm s c i hc hi hg hd => (exec_mark imm s).trans (pushAll_full hc hi hg hd), fun p imm s c i hc hi hs hg hd ht => ?_,
    fun s c i hc hi hg hlow => ?_, fun s c i n hc hi hg hlow ht => ?_⟩
  · obtain ⟨htaken, hstay⟩ := ht
    exact (execBra_lanes hc hi hs).trans (if_pos (divFull_iff.mpr ⟨i, inGang_iff.mp hg, htaken, hstay, hd⟩))
  · have hok : ∀ j, j < i → inGang (s.group c.gid) c j = true → ∃ y, retSlice ((s.group c.gid).slice j) = .ok y := by
      intro j hj hm
      obtain ⟨hd, hk⟩ := hlow j hj hm
      exact ⟨_, retSlice_call hd hk⟩
    exact ⟨fun hd => (exec_ret s).trans (popAll_traps ignoresIssues_retSlice hc hi hg (retSlice_empty hd) hok),
      fun hd hk => (exec_ret s).trans (popAll_traps ignoresIssues_retSlice hc hi hg (retSlice_other hd hk) hok)⟩
  · exact (exec_join s).trans (popAll_traps ignoresIssues_joinPop hc hi hg ht hlow)

/-- A pop passes over the entries without a live lane, and the one that it then meets decides (R46). -/
theorem joinPop_finds : joinPopFindsTheTopLiveEntry := by
  intro x imp d n hn hskip
  have htop : joinPop x imp d = joinPop x imp (n + 1) := joinPop_skip hn fun k h1 h2 => hskip k h1 h2
  refine ⟨fun hk hm => ?_, fun himp hk => ?_, fun hall => ?_, by cases imp <;> rfl⟩
  · have hc : ¬ ((x.entry n).kind = .call ∧ imp = false) := fun h => hk h.2 h.1
    rw [htop, joinPop, if_neg hc, if_pos hm]
  · rw [htop, joinPop, if_pos ⟨hk, himp⟩]
  · have hbottom : joinPop x imp (n + 1) = joinPop x imp 0 := joinPop_skip (Nat.zero_le _) fun k _ h => hall k (Nat.le_of_lt_succ h)
    rw [htop, hbottom]
    cases imp <;> rfl

/-! ## REGANG and its merge -/

theorem exec_regang (imm : BitVec 16) (s : State) : exec (.regang imm) s = execRegang imm s := rfl
theorem exec_regangMerge (gid : Nat) (s : State) : exec (.regangMerge gid) s = execRegangMerge gid s := rfl

/-- A live slice waits at the site with another PC than some slice of the gang. -/
def siteConflict (g : Group) (c : Ctx) (imm : BitVec 16) : Bool :=
  (List.range 64).any fun i => !(g.slice i).isDead && (g.slice i).wait == .regang imm && (slicesOf c.gang).any fun j => (g.slice j).pc != (g.slice i).pc

theorem siteConflict_iff {imm : BitVec 16} : siteConflict g c imm = true ↔
    ∃ i j, i < 64 ∧ (g.slice i).isDead = false ∧ (g.slice i).wait = .regang imm ∧ inGang g c j = true ∧ (g.slice j).pc ≠ (g.slice i).pc := by
  simp only [siteConflict, List.any_eq_true, List.mem_range, Bool.and_eq_true, Bool.not_eq_true', beq_iff_eq, bne_iff_ne, inGang_iff]
  constructor
  · rintro ⟨i, h64, ⟨hl, hw⟩, j, hj, hp⟩
    exact ⟨i, j, h64, hl, hw, hj, hp⟩
  · rintro ⟨i, j, h64, hl, hw, hj, hp⟩
    exact ⟨i, h64, ⟨hl, hw⟩, j, hj, hp⟩

@[simp] theorem counted_siteConflict (g : Group) (c k : Ctx) (imm : BitVec 16) : siteConflict (counted g c) k imm = siteConflict g k imm := by
  unfold siteConflict
  simp only [(slice_lt_live _).1, (counted_like g c _).wait, (counted_like g c _).pc]

theorem execRegang_body {imm : BitVec 16} (hc : issuer s = some c) (hi : issues (encode (.regang imm)) s = true) :
    exec (.regang imm) s =
      if siteConflict (s.group c.gid) c imm then .next (raiseTrap (countIssue s c) c (encode (.regang imm)) (gangTrap (s.group c.gid) c 0x06 imm.toNat 0))
      else .next ((countIssue s c).setGroup c.gid ((counted (s.group c.gid) c).mapSlices c.gang fun _ x => { x with wait := .regang imm })) := by
  rw [exec_regang, execRegang, issue_body _ hc hi, ← counted_siteConflict (s.group c.gid) c, ← counted_gangTrap (s.group c.gid) c]
  rfl

/-- The site at which a slice waits. -/
def siteOf (x : Slice) : Option (BitVec 16) := match x.wait with | .regang k => some k | _ => none

/-- The live slices that wait at a site. -/
def waiters (g : Group) (k : BitVec 16) : List Nat := (slicesOf g.liveSlices).filter fun i => siteOf (g.slice i) == some k

/-- The gang number that the slices of a site take: the lowest of theirs. -/
def siteGang (g : Group) (k : BitVec 16) : Nat := (waiters g k).foldl (fun m i => min m (g.slice i).gang) 64

theorem siteOf_eq_some {k : BitVec 16} : siteOf x = some k ↔ x.wait = .regang k := by
  unfold siteOf
  split <;> simp_all

theorem mem_liveSlices {i : Nat} : i ∈ slicesOf g.liveSlices ↔ i < 64 ∧ (g.slice i).isDead = false := by
  rw [mem_slicesOf]
  constructor
  · intro h
    have h64 := BitVec.lt_of_getLsbD h
    rw [Group.liveSlices, sliceSet_bit _ _ h64] at h
    exact ⟨h64, by simpa using h⟩
  · rintro ⟨h64, hl⟩
    rw [Group.liveSlices, sliceSet_bit _ _ h64, hl]
    rfl

theorem mem_waiters {k : BitVec 16} {i : Nat} : i ∈ waiters g k ↔ i < 64 ∧ (g.slice i).isDead = false ∧ (g.slice i).wait = .regang k := by
  rw [waiters, List.mem_filter, mem_liveSlices, beq_iff_eq, siteOf_eq_some, and_assoc]

/-- The least of some numbers and a first one: it is not above any of them, and it is one of them or the first. -/
theorem foldl_min_spec (f : Nat → Nat) (l : List Nat) : ∀ m, l.foldl (fun m i => min m (f i)) m ≤ m ∧ (∀ i ∈ l, l.foldl (fun m i => min m (f i)) m ≤ f i) ∧
    (l.foldl (fun m i => min m (f i)) m = m ∨ ∃ i ∈ l, l.foldl (fun m i => min m (f i)) m = f i) := by
  induction l with
  | nil => simp
  | cons a r ih =>
    intro m
    obtain ⟨h1, h2, h3⟩ := ih (min m (f a))
    simp only [List.foldl_cons, List.forall_mem_cons]
    refine ⟨by omega, ⟨by omega, h2⟩, ?_⟩
    rcases h3 with h3 | ⟨i, hi, h3⟩
    · rcases Nat.le_total m (f a) with hm | hm
      · exact .inl (h3.trans (Nat.min_eq_left hm))
      · exact .inr ⟨a, List.mem_cons_self, h3.trans (Nat.min_eq_right hm)⟩
    · exact .inr ⟨i, List.mem_cons_of_mem _ hi, h3⟩

theorem siteGang_le {k : BitVec 16} {i : Nat} (h : i ∈ waiters g k) : siteGang g k ≤ (g.slice i).gang := by
  obtain ⟨-, hle, -⟩ := foldl_min_spec (fun i => (g.slice i).gang) (waiters g k) 64
  exact hle i h

theorem siteGang_mem {k : BitVec 16} {i : Nat} (h : i ∈ waiters g k) (hi : (g.slice i).gang ≤ 64) : ∃ j ∈ waiters g k, siteGang g k = (g.slice j).gang := by
  obtain ⟨-, -, h64 | hj⟩ := foldl_min_spec (fun i => (g.slice i).gang) (waiters g k) 64
  · have hle := siteGang_le h
    have e : siteGang g k = 64 := h64
    exact ⟨i, h, by omega⟩
  · exact hj

/-- A live slice at the merge. -/
def mergeSlice (g : Group) (i : Nat) (x : Slice) : Slice := match siteOf (g.slice i) with
  | some k => ({ x with gang := siteGang g k, wait := .none, pc := x.pc + 4,
                        spin := if (slicesOf g.liveSlices).any (fun j => siteOf (g.slice j) == some k && (g.slice j).gang != siteGang g k) then .no else x.spin } : Slice).spinCheck
  | none => x

theorem regangMerge_eq (g : Group) : regangMerge g = g.mapSlices g.liveSlices (mergeSlice g) := rfl

/-- A slice that waited goes on, under the number of its site's gang. -/
theorem mergeSlice_waiter {k : BitVec 16} {i : Nat} (h : i ∈ waiters g k) :
    ∃ sp, mergeSlice g i (g.slice i) = { g.slice i with gang := siteGang g k, wait := .none, pc := (g.slice i).pc + 4, spin := sp } := by
  obtain ⟨-, -, hw⟩ := mem_waiters.mp h
  unfold mergeSlice
  rw [siteOf_eq_some.mpr hw]
  obtain ⟨sp, e⟩ := spinCheck_eq _
  exact ⟨sp, e⟩

theorem modGroup_congr {gid : Nat} {f f' : Group → Group} (h : f (s.group gid) = f' (s.group gid)) : s.modGroup gid f = s.modGroup gid f' :=
  congrArg (s.setGroup gid) h

theorem regangMerge_sliceEvent (s : State) (gid : Nat) :
    SliceEvent s (s.modGroup gid regangMerge) gid (s.group gid).liveSlices (mergeSlice (s.group gid)) := by
  have e : s.modGroup gid regangMerge = s.modGroup gid fun g => g.mapSlices (s.group gid).liveSlices (mergeSlice (s.group gid)) :=
    modGroup_congr (regangMerge_eq _)
  rw [e]
  exact modGroup_sliceEvent s gid _ _

/-! ## EXIT, YIELD, SPINW and NOP -/

theorem exec_exit (s : State) : exec .exit s = execExit s := rfl
theorem exec_yield (s : State) : exec .yield s = execYield s := rfl
theorem exec_spinw (s : State) : exec .spinw s = execSpinw s := rfl
theorem exec_nop (s : State) : exec .nop s = execNop s := rfl
theorem exec_yieldRelease (gid gang : Nat) (s : State) : exec (.yieldRelease gid gang) s = execYieldRelease gid gang s := rfl
theorem exec_spinAgePromote (gid gang : Nat) (s : State) : exec (.spinAgePromote gid gang) s = execSpinAgePromote gid gang s := rfl

theorem exec_yieldRelease_ready {gid gang : Nat} (h : yieldReady s gid gang = true) :
    exec (.yieldRelease gid gang) s = .next (s.modGroup gid fun g => g.mapSlices ((s.group gid).gangSlices gang) fun _ x => { x with wait := .none }) := by
  rw [exec_yieldRelease, execYieldRelease, if_pos h]
  exact congrArg Host.Outcome.next (modGroup_congr rfl)

theorem exec_spinAgePromote_spinning {gid gang : Nat} (hm : (s.group gid).gangSlices gang ≠ 0)
    (hs : ((s.group gid).slice (lowestSlice ((s.group gid).gangSlices gang))).spin ≠ .no) :
    exec (.spinAgePromote gid gang) s = .next (s.modGroup gid fun g => g.mapSlices ((s.group gid).gangSlices gang) fun _ x => { x with promoted := true }) := by
  rw [exec_spinAgePromote, execSpinAgePromote]
  exact congrArg Host.Outcome.next (if_pos ⟨hs, hm⟩)

/-- A slice after the exit of some of its lanes. -/
def withoutLanes (a : BitVec 4) (x : Slice) : Slice := { x with live := x.live &&& ~~~a, run := x.run &&& ~~~a }

theorem exitSlice_like (a : BitVec 4) (x : Slice) (n : Nat) :
    SliceLike (if (withoutLanes a x).run ≠ 0 then { withoutLanes a x with pc := x.pc + 4 } else implicitPop (withoutLanes a x)) (exitSlice a { x with issues := n }) := by
  have e : exitSlice a { x with issues := n } =
      if (withoutLanes a x).run ≠ 0 then ({ withoutLanes a x with issues := n } : Slice).fall else (implicitPop { withoutLanes a x with issues := n }).spinCheck := rfl
  rw [e]
  split
  · exact fall_like (withoutLanes a x) n
  · rw [implicitPop_issues (withoutLanes a x) n]
    exact (like_issues _ n).spinCheck

theorem SliceLike.withWait (h : SliceLike x y) (w : Wait) : SliceLike { x with wait := w } { y with wait := w } :=
  ⟨⟨h.live, h.run, h.stack, h.depth, h.mode, h.loads, h.stores, h.atomics, h.posts, rfl, h.handler, h.lastBack⟩, h.pc⟩

/-- A slice of a gang that yields goes on, and waits if it gives way to some gang. -/
def yieldSlice (owed : List (Nat × Nat × Nat)) (x : Slice) : Slice :=
  let y := ({ x with pc := x.pc + 4, promoted := false } : Slice).spinCheck
  if owed = [] then y else { y with wait := .yield owed }

theorem yieldSlice_like (owed : List (Nat × Nat × Nat)) (x : Slice) (n : Nat) :
    SliceLike { x with pc := x.pc + 4, wait := if owed = [] then x.wait else .yield owed } (yieldSlice owed { x with issues := n }) := by
  have h : SliceLike { x with pc := x.pc + 4 } (({ x with pc := x.pc + 4, issues := n, promoted := false } : Slice).spinCheck) :=
    ((SliceLike.refl { x with pc := x.pc + 4 }).of _ n _ false).spinCheck
  unfold yieldSlice
  by_cases ho : owed = []
  · simp only [ho, if_true]
    exact h
  · simp only [ho, if_false]
    exact h.withWait (.yield owed)

theorem execYield_body (hc : issuer s = some c) (hi : issues (encode .yield) s = true) :
    exec .yield s = .next ((countIssue s c).setGroup c.gid ((counted (s.group c.gid) c).mapSlices c.gang fun _ x =>
      yieldSlice (yieldOwed (countIssue s c) c.gid c.gang) x)) := by
  rw [exec_yield, execYield, issue_body _ hc hi]
  simp only [List.isEmpty_iff]
  unfold yieldSlice
  split
  · rfl
  · rw [advance, mapSlices_mapSlices]

/-- A gang whose live slices agree on the next PC is not split. -/
theorem settle_agreed (h : ∀ i ∈ slicesOf c.gang, ∀ j ∈ slicesOf c.gang, (g.slice i).isDead = false → (g.slice j).isDead = false → (g.slice i).pc = (g.slice j).pc) :
    settle c g = g := by
  unfold settle
  refine if_pos (List.all_eq_true.mpr fun p hp => beq_iff_eq.mpr ?_)
  have hpc : ∀ q, q ∈ (slicesOf c.gang).filterMap (fun i => if (g.slice i).isDead then none else some (g.slice i).pc) ↔
      ∃ i ∈ slicesOf c.gang, (g.slice i).isDead = false ∧ (g.slice i).pc = q := by
    intro q
    simp [List.mem_filterMap]
  obtain ⟨i, hi, hl, rfl⟩ := (hpc p).mp hp
  have hhead := List.head_mem (List.ne_nil_of_mem hp)
  obtain ⟨j, hj, hlj, e⟩ := (hpc _).mp hhead
  rw [List.headD_eq_head?_getD, List.head?_eq_some_head (List.ne_nil_of_mem hp)]
  exact (h i hi j hj hl hlj).trans e

theorem isDead_of_length_le {i : Nat} (h : g.slices.length ≤ i) : (g.slice i).isDead = true := by
  rw [Group.slice, List.getD_eq_getElem?_getD, List.getElem?_eq_none h]
  rfl

/-- SPINW in one slice, which then goes on. -/
theorem spinw_slice {i : Nat} (hl : i < g.slices.length) (hb : c.gang.getLsbD i = true) :
    (advance c (g.mapSlices c.gang fun _ x => { x with spin := .opened })).slice i =
      { g.slice i with pc := (g.slice i).pc + 4, promoted := false, spin := .opened } := by
  rw [advance, mapSlices_mapSlices, slice_mapSlices, if_pos ⟨hl, hb⟩]
  rfl

/-- A gang whose slices agree on the PC stays one gang after SPINW, and is marked. -/
theorem spinw_opened (hpc : ∀ i ∈ slicesOf c.gang, ∀ j ∈ slicesOf c.gang, (g.slice i).pc = (g.slice j).pc) {i : Nat} (hl : i < g.slices.length)
    (hb : c.gang.getLsbD i = true) : ((settle c (advance c (g.mapSlices c.gang fun _ x => { x with spin := .opened }))).slice i).spin = .opened := by
  have hlen : (advance c (g.mapSlices c.gang fun _ x => { x with spin := .opened })).slices.length = g.slices.length := by
    rw [advance, length_mapSlices, length_mapSlices]
  rw [settle_agreed, spinw_slice hl hb]
  intro i hi j hj hdi hdj
  have live : ∀ {k : Nat}, ((advance c (g.mapSlices c.gang fun _ x => { x with spin := .opened })).slice k).isDead = false → k < g.slices.length := by
    intro k hk
    by_contra hn
    rw [isDead_of_length_le (by omega)] at hk
    cases hk
  rw [spinw_slice (live hdi) (mem_slicesOf.mp hi), spinw_slice (live hdj) (mem_slicesOf.mp hj)]
  exact congrArg (· + 4) (hpc i hi j hj)

/-! ## TRAP, SETMODE and SETGRD -/

theorem exec_trap (imm : BitVec 16) (s : State) : exec (.trap imm) s = execTrap imm s := rfl
theorem exec_setmode (imm : BitVec 16) (s : State) : exec (.setmode imm) s = execSetmode imm s := rfl
theorem exec_setgrd (guard : BitVec 4) (s : State) : exec (.setgrd guard) s = execSetgrd guard s := rfl

theorem execTrap_body {imm : BitVec 16} (hc : issuer s = some c) (hi : issues (encode (.trap imm)) s = true) :
    exec (.trap imm) s =
      if activeSet (s.group c.gid) c = 0 then .next (retire (countIssue s c) c (counted (s.group c.gid) c))
      else .next (raiseTrap (countIssue s c) c (encode (.trap imm))
        { code := 0x15, cause := imm.toNat, fmask := activeSet (s.group c.gid) c, lane := lowestLane (activeSet (s.group c.gid) c), addr := 0, opw := 0 }) := by
  rw [exec_trap, execTrap, issue_body _ hc hi]
  simp only [counted_activeSet]
  rfl

/-- Writing the guard field replaces the low four bits of the mode word (01 R26). -/
theorem setGuard_eq (m : Word) (guard : BitVec 4) : (m &&& ~~~0xF#32) ||| guard.setWidth 32 = m.extractLsb' 4 28 ++ guard := by
  apply BitVec.eq_of_getLsbD_eq
  intro i hi
  have h15 : (0xF#32).getLsbD i = decide (i < 4) := by
    rw [show 0xF#32 = BitVec.ofNat 32 (2 ^ 4 - 1) from rfl, BitVec.getLsbD_ofNat, Nat.testBit_two_pow_sub_one, decide_eq_true hi, Bool.true_and]
  rw [BitVec.getLsbD_or, BitVec.getLsbD_and, BitVec.getLsbD_not, h15, BitVec.getLsbD_setWidth, BitVec.getLsbD_append]
  by_cases h4 : i < 4
  · simp [h4, hi]
  · have hg : guard.getLsbD i = false := BitVec.getLsbD_of_ge _ _ (by omega)
    have hs : 4 + (i - 4) = i := by omega
    have h28 : i - 4 < 28 := by omega
    simp [h4, hi, hg, hs, h28]

/-- EXIT (R67). -/
theorem exitKillsActiveLanes_holds : exitKillsActiveLanes := by
  intro s c hc hi
  refine ⟨_, (exec_exit s).trans (issue_body _ hc hi), settleAt_flow s c _ _ fun i n => ?_⟩
  have e : laneBits i (isActive (counted (s.group c.gid) c) c) = laneBits i (isActive (s.group c.gid) c) := by
    rw [show isActive (counted (s.group c.gid) c) c = isActive (s.group c.gid) c from funext fun l => counted_isActive _ _ _ l]
  rw [e]
  exact exitSlice_like _ _ n

/-- YIELD, SPINW, NOP and the events of gangs that yielded or spin (R54 to R56, R68). -/
theorem yieldSpinNop_holds : yieldSpinNop := by
  refine ⟨fun s c hc hi => ?_, fun s c hc hi => ?_, fun s c hc hi => ?_, fun gid gang s hr => ?_, fun gid gang s hm hsp => ?_⟩
  · exact ⟨_, execYield_body hc hi, mapSlices_flow s c _ _ fun i n => yieldSlice_like _ _ n⟩
  · refine ⟨_, (exec_spinw s).trans (issueRegs_completes _ hc hi), retire_flow s c _ _ fun i n => ?_, fun hpc i hg hl => ?_⟩
    · exact (SliceLike.refl { (s.group c.gid).slice i with pc := ((s.group c.gid).slice i).pc + 4 }).of _ n .opened _
    · rw [retire, group_setGroup]
      refine spinw_opened (fun i hi j hj => ?_) ((counted_length _ c).symm ▸ hl) (mem_slicesOf.mp (inGang_iff.mp hg))
      rw [(counted_like _ c i).pc, (counted_like _ c j).pc]
      exact hpc i j (inGang_iff.mpr hi) (inGang_iff.mpr hj)
  · exact ⟨_, (exec_nop s).trans (issueRegs_completes _ hc hi), retire_onward s c⟩
  · exact ⟨_, exec_yieldRelease_ready hr, modGroup_sliceEvent s gid _ _⟩
  · exact ⟨_, exec_spinAgePromote_spinning hm hsp, modGroup_sliceEvent s gid _ _⟩

/-- TRAP, SETMODE and SETGRD (R69, R70). -/
theorem softwareTrapAndModes_holds : softwareTrapAndModes := by
  refine ⟨fun imm s c hc hi => ⟨fun ha => ?_, fun ha => ?_⟩, fun imm s c hc hi => ?_, fun guard s c hc hi => ?_⟩
  · exact (execTrap_body hc hi).trans (if_neg ha)
  · exact ⟨_, (execTrap_body hc hi).trans (if_pos ha), retire_onward s c⟩
  · refine ⟨_, (exec_setmode imm s).trans (issueRegs_completes _ hc hi), retire_flow s c _ _ fun i n => ?_⟩
    exact like_issues { (s.group c.gid).slice i with pc := ((s.group c.gid).slice i).pc + 4, mode := imm.setWidth 32 } n
  · refine ⟨_, (exec_setgrd guard s).trans (issueRegs_completes _ hc hi), retire_flow s c _ _ fun i n => ?_⟩
    simp only [setGuard_eq]
    exact like_issues { (s.group c.gid).slice i with pc := ((s.group c.gid).slice i).pc + 4, mode := ((s.group c.gid).slice i).mode.extractLsb' 4 28 ++ guard } n

end Sys2Proof.Machine

namespace Sys2Proof
open Machine

/-- Settles O14: the slices of the gang change as `braSlice_like` and `branch_flow` say, and the trap is left out by the room for the DIV entry. -/
theorem branches : Obligations.Branches := by
  refine ⟨fun p imm s c hc hi => ⟨fun hs hroom => ?_, fun l hs => ?_⟩, fun p imm s c hc hi => ?_⟩
  · have hfull : ¬ divFull (s.group c.gid) c p = true := by
      rw [divFull_iff]
      rintro ⟨i, hg, ht, hf, hd⟩
      exact absurd (hroom i (inGang_iff.mpr hg) ht hf) (by omega)
    refine ⟨_, (execBra_lanes hc hi hs).trans (if_neg hfull), settleAt_flow s c _ _ fun i n => ?_⟩
    exact braSlice_like _ _ (branchLanes (s.group c.gid) c p i) n
  · exact ⟨_, execBra_solo hc hi hs, branch_flow s c _ imm⟩
  · refine ⟨_, ?_, branch_flow s c (readQ (s.group c.gid) p.toNat) imm⟩
    rw [exec_braq, execBraq, issue_body _ hc hi]
    rfl

/-- Settles O15: CALL and MARK are pushes with room (`pushAll_flow`), RET and JOIN pops of slices that can pop (`popAll_flow`). -/
theorem callsAndJoins : Obligations.CallsAndJoins := by
  refine ⟨fun imm s c hc hi hroom => ?_, fun imm s c hc hi hroom => ?_, fun s c hc hi hok => ?_, fun s c hc hi hok => ?_⟩
  · exact pushAll_flow .call (· + 4) (fun pc => branchTarget pc imm) hc hi hroom
  · exact pushAll_flow .mark (fun pc => branchTarget pc imm) (· + 4) hc hi hroom
  · have hpop : ∀ i, inGang (s.group c.gid) c i = true → _ := fun i hg =>
      have ⟨hd, hk⟩ := hok i hg
      retSlice_call hd hk
    obtain ⟨t, ht, hf⟩ := popAll_flow ignoresIssues_retSlice hc hi fun i hg => ⟨_, hpop i hg⟩
    refine ⟨t, ht, hf.congr fun i hb => ?_⟩
    rw [hpop i (inGang_iff.mpr (mem_slicesOf.mpr hb))]
    rfl
  · exact popAll_flow ignoresIssues_joinPop hc hi hok

/-- Settles O17: the checks that come before any slice changes, and the entry that a pop meets. -/
theorem joinStack : Obligations.JoinStack := ⟨joinStackTraps_holds, joinPop_finds⟩

/-- Settles O16: REGANG waits where no slice of its site has another PC; the merge gives each slice its site's lowest number (`siteGang_le`, `siteGang_mem`). -/
theorem regangWaitsAndMerges : Obligations.RegangWaitsAndMerges := by
  refine ⟨fun imm s c hc hi => ⟨fun hn => ?_, fun hconf => ?_⟩, fun gid s hr => ?_⟩
  · refine ⟨_, (execRegang_body hc hi).trans (if_neg (mt siteConflict_iff.mp hn)), mapSlices_flow s c _ _ fun i n => ?_⟩
    exact like_issues { (s.group c.gid).slice i with wait := .regang imm } n
  · exact (execRegang_body hc hi).trans (if_pos (siteConflict_iff.mpr hconf))
  · have h := regangMerge_sliceEvent s gid
    refine ⟨_, (exec_regangMerge gid s).trans (congrArg Host.Outcome.next (if_pos hr)), h.beyond, h.group, h.regs, fun i h64 hl hlive k hw => ?_⟩
    have hi : i ∈ waiters (s.group gid) k := mem_waiters.mpr ⟨h64, hlive, hw⟩
    obtain ⟨sp, e⟩ := mergeSlice_waiter hi
    rw [h.slices i hl (mem_slicesOf.mp (mem_liveSlices.mpr ⟨h64, hlive⟩)), e]
    refine ⟨?_, fun j hj64 hjlive hjw => siteGang_le (mem_waiters.mpr ⟨hj64, hjlive, hjw⟩), fun hle => ?_⟩
    · exact (SliceLike.refl { (s.group gid).slice i with wait := .none, pc := ((s.group gid).slice i).pc + 4 }).of _ _ sp _
    · obtain ⟨j, hj, e⟩ := siteGang_mem hi hle
      obtain ⟨hj64, hjlive, hjw⟩ := mem_waiters.mp hj
      exact ⟨j, hj64, hjlive, hjw, e⟩

/-- Settles O18: each instruction is a flow of its gang (Laws/Control.lean), but for TRAP with an active lane, which raises. -/
theorem gangControl : Obligations.GangControl := ⟨exitKillsActiveLanes_holds, yieldSpinNop_holds, softwareTrapAndModes_holds⟩

end Sys2Proof
end

section
/-! Teams and dispatch (O48): retirement, the pacer's accesses, COMMIT.

STATE is written into every copy of a bind record (`setSlotState`); that touches bind records only (`OnlyBinds`) and writes the home copy once (`setSlotState_bindRec`).
What invalidates lines, takes banks and gives room leaves groups and bind records as they are (`PlacedKept`), so an accepted team's groups stay as they were placed. -/
namespace Sys2Proof.Machine

variable {s t u : State} {tid core slot gid : Nat}

/-! ## Fields of a record -/

theorem recField_setState (b : List Byte) (x : Nat) : recField (setField b 0 1 x) 0 1 = x % 256 := by
  simp [recField, setField, leBytes, leNat]

theorem setState_drop (b : List Byte) (x : Nat) {off : Nat} (h : 1 ≤ off) : (setField b 0 1 x).drop off = b.drop off := by
  obtain ⟨k, rfl⟩ : ∃ k, off = k + 1 := ⟨off - 1, by omega⟩
  simp [setField, leBytes]

/-- STATE is byte 0: every other field stays. -/
theorem recField_setState_ne (b : List Byte) (x n : Nat) {off : Nat} (h : 1 ≤ off) : recField (setField b 0 1 x) off n = recField b off n := by
  rw [recField, recField, setState_drop b x h]

/-! ## Bind records in their slots -/

theorem slotRec_setSlotRec (s : State) (core slot : Nat) (b : List Byte) (i : Nat) :
    (s.setSlotRec core slot b).slotRec core i = if slot = i then b else s.slotRec core i := by
  rw [State.setSlotRec, State.slotRec, core_modCore]
  exact sget_sput _ _ _ _ _

theorem slotRec_home (s : State) (tid : Nat) : s.slotRec (tid / 32) (tid % 32) = s.bindRec tid := rfl

/-- The home slot of a team by its core and slot numbers. -/
theorem slotRec_tid (s : State) (core : Nat) (h : slot < 32) : s.slotRec core slot = s.bindRec (core * 32 + slot) := by
  rw [← slotRec_home, show (core * 32 + slot) / 32 = core by omega, show (core * 32 + slot) % 32 = slot by omega]

/-- Only bind records may differ. -/
structure OnlyBinds (s t : State) : Prop where
  mem : t.mem = s.mem
  groups : t.groups = s.groups
  teams : t.teams = s.teams
  dies : t.dies = s.dies
  homes : t.homes = s.homes
  hub : t.hub = s.hub
  referee : t.referee = s.referee
  core : ∀ k, t.core k = { s.core k with binds := (t.core k).binds }

theorem OnlyBinds.refl (s : State) : OnlyBinds s s := ⟨rfl, rfl, rfl, rfl, rfl, rfl, rfl, fun _ => rfl⟩

theorem OnlyBinds.trans (h : OnlyBinds s t) (k : OnlyBinds t u) : OnlyBinds s u where
  mem := k.mem.trans h.mem
  groups := k.groups.trans h.groups
  teams := k.teams.trans h.teams
  dies := k.dies.trans h.dies
  homes := k.homes.trans h.homes
  hub := k.hub.trans h.hub
  referee := k.referee.trans h.referee
  core i := (k.core i).trans (by rw [h.core i])

theorem OnlyBinds.group (h : OnlyBinds s t) (i : Nat) : t.group i = s.group i := congrArg (fun l => sget Group.reset l i) h.groups

theorem onlyBinds_putState (s : State) (core slot st : Nat) : OnlyBinds s (s.putState core slot st) where
  mem := rfl
  groups := rfl
  teams := rfl
  dies := rfl
  homes := rfl
  hub := rfl
  referee := rfl
  core k := by
    by_cases h : core = k
    · subst h
      rw [State.putState, State.setSlotRec, core_modCore]
    · rw [State.putState, State.setSlotRec, core_modCore_ne _ _ _ _ h]

theorem onlyBinds_setSlotState (s : State) (tid st : Nat) : OnlyBinds s (setSlotState s tid st) := by
  unfold setSlotState
  exact List.foldlRecOn (motive := OnlyBinds s) _ _ (.refl s) fun t ht c _ => ht.trans (onlyBinds_putState t c.1 c.2 st)

/-- The copies on other cores leave the home core's records alone. -/
theorem foldl_putState_slotRec (l : List (Nat × Nat)) (st : Nat) (h : ∀ c ∈ l, c.1 ≠ core) (s : State) :
    (l.foldl (fun t c => t.putState c.1 c.2 st) s).slotRec core slot = s.slotRec core slot := by
  refine List.foldlRecOn (motive := fun t : State => t.slotRec core slot = s.slotRec core slot) l _ rfl fun t ht c hc => ?_
  rw [← ht, State.putState, State.setSlotRec, State.slotRec, core_modCore_ne _ _ _ _ (h c hc)]
  rfl

/-- The home copy after STATE is written into every copy. -/
theorem setSlotState_bindRec (s : State) (tid st : Nat) : (setSlotState s tid st).bindRec tid = setField (s.bindRec tid) 0 1 st := by
  rw [← slotRec_home, setSlotState, teamCopies, List.foldl_cons, foldl_putState_slotRec]
  · rw [State.putState, slotRec_setSlotRec, if_pos rfl, slotRec_home]
  · intro c hc
    obtain ⟨k, hk, hs⟩ := List.mem_filterMap.mp hc
    obtain ⟨i, -, rfl⟩ := Option.map_eq_some_iff.mp hs
    simpa using (List.mem_filter.mp hk).2

theorem bindRec_modHub (s : State) (f : Hub → Hub) (tid : Nat) : (s.modHub f).bindRec tid = s.bindRec tid := rfl

theorem setSlotState_state {st : Nat} (h : st < 256) : (setSlotState s tid st).bindField tid 0 1 = st := by
  rw [State.bindField, setSlotState_bindRec, recField_setState, Nat.mod_eq_of_lt h]

/-! ## GROUP_RETIRE -/

theorem exec_groupRetire (gid : Nat) (s : State) : exec (.groupRetire gid) s = execGroupRetire gid s := rfl

/-- A group as its retirement leaves it. -/
def retiredGroup (g : Group) : Group := { g with retired := true, parked := false, vregs := [], preds := [], uregs := [], uq := 0 }

/-- The state in which a group has retired, before its team is looked at. -/
def withRetired (s : State) (gid : Nat) : State := rerouteTraps (s.modGroup gid retiredGroup) gid

/-- With no trap waiting, a retirement changes nothing but its group. -/
theorem withRetired_eq (h : (s.group gid).queue = []) :
    withRetired s gid = (s.modGroup gid retiredGroup).modGroup gid fun g => { g with queue := [] } := by
  have hq : ((s.modGroup gid retiredGroup).group gid).queue = [] := by rw [group_modGroup]; exact h
  rw [withRetired, rerouteTraps, hq]
  rfl

theorem withRetired_group (h : (s.group gid).queue = []) : (withRetired s gid).group gid = retiredGroup (s.group gid) := by
  rw [withRetired_eq h, group_modGroup, group_modGroup, retiredGroup, ← h]

theorem withRetired_group_ne (h : (s.group gid).queue = []) {j : Nat} (hj : j ≠ gid) : (withRetired s gid).group j = s.group j := by
  rw [withRetired_eq h, group_modGroup_ne _ _ _ _ hj.symm, group_modGroup_ne _ _ _ _ hj.symm]

theorem withRetired_bindRec (h : (s.group gid).queue = []) (tid : Nat) : (withRetired s gid).bindRec tid = s.bindRec tid := by
  rw [withRetired_eq h]
  rfl

theorem withRetired_bindField (h : (s.group gid).queue = []) (tid off n : Nat) : (withRetired s gid).bindField tid off n = s.bindField tid off n := by
  rw [State.bindField, withRetired_bindRec h]
  rfl

/-- All groups of a team have retired after a retirement just when the others had before. -/
theorem withRetired_allRetired (h : (s.group gid).queue = []) (tid : Nat) :
    (withRetired s gid).allRetired tid = true ↔ ∀ i ∈ s.teamGids tid, i ≠ gid → (s.group i).retired = true := by
  have hg : (withRetired s gid).teamGids tid = s.teamGids tid := by rw [State.teamGids, withRetired_bindField h]; rfl
  rw [State.allRetired, List.all_eq_true, hg]
  refine forall₂_congr fun i _ => ?_
  by_cases hi : i = gid
  · subst hi
    rw [withRetired_group h]
    simp [retiredGroup]
  · rw [withRetired_group_ne h hi]
    simp [hi]

/-- The last group's team leaves: its slot passes to DRAIN and its grid has one team fewer (R374, R377). -/
def teamDrained (s : State) (tid : Nat) : State := teamEnded (setSlotState s tid 4) (s.gridOf tid)

theorem execGroupRetire_ready (hr : retireReady s gid = true) :
    exec (.groupRetire gid) s = .next (if (withRetired s gid).allRetired (s.group gid).tid && (withRetired s gid).bindField (s.group gid).tid 0 1 == 2
      then teamDrained (withRetired s gid) (s.group gid).tid else withRetired s gid) := by
  rw [exec_groupRetire, execGroupRetire, if_pos hr]
  rfl

/-- What a retirement keeps, whether or not its group was its team's last. -/
structure RetireKept (s t : State) (gid : Nat) : Prop where
  mem : t.mem = s.mem
  teams : t.teams = s.teams
  dies : t.dies = s.dies
  homes : t.homes = s.homes
  referee : t.referee = s.referee
  others : ∀ j, j ≠ gid → t.group j = s.group j
  group : t.group gid = retiredGroup (s.group gid)

theorem retireKept_withRetired (h : (s.group gid).queue = []) : RetireKept s (withRetired s gid) gid where
  mem := by rw [withRetired_eq h]; rfl
  teams := by rw [withRetired_eq h]; rfl
  dies := by rw [withRetired_eq h]; rfl
  homes := by rw [withRetired_eq h]; rfl
  referee := by rw [withRetired_eq h]; rfl
  others _ hj := withRetired_group_ne h hj
  group := withRetired_group h

theorem RetireKept.teamDrained (h : RetireKept s t gid) (tid : Nat) : RetireKept s (teamDrained t tid) gid := by
  have k := onlyBinds_setSlotState t tid 4
  unfold Machine.teamDrained teamEnded
  refine ⟨?_, ?_, ?_, ?_, ?_, fun j hj => ?_, ?_⟩
  · rw [modHub_mem, k.mem, h.mem]
  · rw [modHub_teams, k.teams, h.teams]
  · rw [modHub_dies, k.dies, h.dies]
  · rw [modHub_homes, k.homes, h.homes]
  · rw [modHub_referee, k.referee, h.referee]
  · rw [group_modHub, k.group, h.others j hj]
  · rw [group_modHub, k.group, h.group]

theorem withRetired_cores (h : (s.group gid).queue = []) : (withRetired s gid).cores = s.cores := by rw [withRetired_eq h]; rfl
theorem withRetired_hub (h : (s.group gid).queue = []) : (withRetired s gid).hub = s.hub := by rw [withRetired_eq h]; rfl

theorem teamDrained_hub (s : State) (tid : Nat) :
    (teamDrained s tid).hub = { s.hub with grids := s.hub.grids.map fun x => if x.id = s.gridOf tid then { x with live := x.live - 1 } else x } := by
  rw [teamDrained, teamEnded, modHub_hub, (onlyBinds_setSlotState s tid 4).hub]

theorem teamDrained_state (s : State) (tid : Nat) : (teamDrained s tid).bindField tid 0 1 = 4 := by
  rw [State.bindField, teamDrained, teamEnded, bindRec_modHub]
  exact setSlotState_state (by omega)

/-- GROUP_RETIRE (R43, R75, R374, R377). -/
theorem retirement_group (hr : retireReady s gid = true) (hq : (s.group gid).queue = []) :
    ∃ t, exec (.groupRetire gid) s = .next t ∧ RetireKept s t gid ∧
      ((∃ i ∈ s.teamGids (s.group gid).tid, i ≠ gid ∧ (s.group i).retired = false) → t.cores = s.cores ∧ t.hub = s.hub) ∧
      ((∀ i ∈ s.teamGids (s.group gid).tid, i ≠ gid → (s.group i).retired = true) → s.bindField (s.group gid).tid 0 1 = 2 →
        t.bindField (s.group gid).tid 0 1 = 4 ∧
        t.hub = { s.hub with grids := s.hub.grids.map fun x => if x.id = s.gridOf (s.group gid).tid then { x with live := x.live - 1 } else x }) := by
  have hkept := retireKept_withRetired hq
  refine ⟨_, execGroupRetire_ready hr, ?_, fun ⟨i, him, hne, hi⟩ => ?_, fun hall hst => ?_⟩
  · split
    · exact hkept.teamDrained _
    · exact hkept
  · have hnot : ¬ (withRetired s gid).allRetired (s.group gid).tid = true := by
      rw [withRetired_allRetired hq]
      intro hall
      rw [hall i him hne] at hi
      cases hi
    rw [if_neg (by simp [hnot])]
    exact ⟨withRetired_cores hq, withRetired_hub hq⟩
  · have hlast : ((withRetired s gid).allRetired (s.group gid).tid && (withRetired s gid).bindField (s.group gid).tid 0 1 == 2) = true := by
      rw [(withRetired_allRetired hq _).mpr hall, withRetired_bindField hq, hst]
      rfl
    have hgrid : (withRetired s gid).gridOf (s.group gid).tid = s.gridOf (s.group gid).tid := by
      rw [State.gridOf, withRetired_bindField hq]
      rfl
    rw [if_pos hlast]
    refine ⟨teamDrained_state _ _, ?_⟩
    rw [teamDrained_hub, withRetired_hub hq, hgrid]

/-! ## TEAM_RELEASE -/

theorem exec_teamRelease (core slot : Nat) (s : State) : exec (.teamRelease core slot) s = execTeamRelease core slot s := rfl

/-- A released slot is no team's any more; no slot becomes a team's. -/
theorem releaseSlots_notHeld (s : State) (core i j : Nat) (h : i = j ∨ (s.core core).slots.getD j .free ≠ .held tid) :
    ((releaseSlots s core i 1).core core).slots.getD j .free ≠ .held tid := by
  rw [releaseSlots, core_modCore]
  dsimp only
  rw [getD_mapIdx]
  split
  · split
    · exact nofun
    · rename_i hl hn
      exact h.resolve_left fun e => hn (by omega)
  · rename_i hl
    rw [List.getD_eq_getElem?_getD, List.getElem?_eq_none (by omega)]
    exact nofun

theorem foldl_releaseSlots_notHeld (l : List Nat) (core j : Nat) : ∀ s : State, j ∈ l ∨ (s.core core).slots.getD j .free ≠ .held tid →
    ((l.foldl (fun t i => releaseSlots t core i 1) s).core core).slots.getD j .free ≠ .held tid := by
  induction l with
  | nil => exact fun s h => h.resolve_left List.not_mem_nil
  | cons i r ih =>
    intro s h
    refine ih _ ?_
    rcases h with h | h
    · rcases List.mem_cons.mp h with rfl | h
      · exact .inr (releaseSlots_notHeld s core j j (.inl rfl))
      · exact .inl h
    · exact .inr (releaseSlots_notHeld s core i j (.inr h))

/-- The slots that a team holds. -/
def slotsHeldBy (s : State) (tid : Nat) : List Nat := (List.range 64).filter fun i => (s.core (tid / 32)).slots.getD i .free == .held tid

/-- The state in which a team's slots have been released. -/
def slotsReleased (s : State) (tid : Nat) : State := (slotsHeldBy s tid).foldl (fun t i => releaseSlots t (tid / 32) i 1) s

theorem slotsReleased_notHeld (s : State) (tid : Nat) {i : Nat} (hi : i < 64) :
    ((slotsReleased s tid).core (tid / 32)).slots.getD i .free ≠ .held tid := by
  refine foldl_releaseSlots_notHeld _ _ _ s ?_
  by_cases h : (s.core (tid / 32)).slots.getD i .free = .held tid
  · exact .inl (List.mem_filter.mpr ⟨List.mem_range.mpr hi, beq_iff_eq.mpr h⟩)
  · exact .inr h

theorem slotsReleased_directory (s : State) (tid : Nat) : ((slotsReleased s tid).core (tid / 32)).directory = (s.core (tid / 32)).directory := by
  refine List.foldlRecOn (motive := fun t : State => (t.core (tid / 32)).directory = (s.core (tid / 32)).directory) _ _ rfl fun t ht i _ => ?_
  rw [← ht, releaseSlots, core_modCore]

/-- What the core and the hub are freed of before the slot's STATE is written. -/
def roomCleared (s : State) (tid : Nat) : State :=
  ((slotsReleased s tid).modCore (tid / 32) fun k =>
    { k with slabs := k.slabs.filter fun e => e.2.tid ≠ tid, banks := releaseBanks k.banks tid, releasing := k.releasing.filter (fun r => (s.group r.gid).tid ≠ tid),
             bankChange := k.bankChange.filter fun b => (s.group b.1).tid ≠ tid }).modHub fun h => { h with arrivals := h.arrivals.filter fun a => a.tid ≠ tid }

theorem clearTeam_eq (s : State) (tid : Nat) :
    clearTeam s tid = { setSlotState (roomCleared s tid) tid 0 with
      teams := sdel (setSlotState (roomCleared s tid) tid 0).teams tid
      groups := (setSlotState (roomCleared s tid) tid 0).groups.filter fun e => e.2.tid ≠ tid || decide (e.1 / 64 ≠ tid) } := by
  unfold clearTeam roomCleared slotsReleased slotsHeldBy
  rfl

/-- A core that no longer holds anything of a team. -/
structure TeamLeft (t : State) (tid : Nat) : Prop where
  state : t.bindField tid 0 1 = 0
  slabs : ∀ e ∈ (t.core (tid / 32)).slabs, e.2.tid ≠ tid
  slots : ∀ i, i < 64 → (t.core (tid / 32)).slots.getD i .free ≠ .held tid
  arrivals : ∀ a ∈ t.hub.arrivals, a.tid ≠ tid

theorem clearTeam_core (s : State) (tid k : Nat) : (clearTeam s tid).core k = (setSlotState (roomCleared s tid) tid 0).core k := by
  rw [State.core, State.core, clearTeam_eq]

theorem clearTeam_left (s : State) (tid : Nat) : TeamLeft (clearTeam s tid) tid := by
  have k := onlyBinds_setSlotState (roomCleared s tid) tid 0
  have hcore := (clearTeam_core s tid (tid / 32)).trans (k.core (tid / 32))
  refine ⟨?_, ?_, fun i hi => ?_, ?_⟩
  · have e : (clearTeam s tid).bindField tid 0 1 = (setSlotState (roomCleared s tid) tid 0).bindField tid 0 1 := by
      rw [State.bindField, State.bindField, State.bindRec, State.bindRec, clearTeam_core]
    rw [e]
    exact setSlotState_state (by omega)
  · rw [hcore, roomCleared, core_modHub, core_modCore]
    intro e he
    simpa using (List.mem_filter.mp he).2
  · rw [hcore, roomCleared, core_modHub, core_modCore]
    exact slotsReleased_notHeld s tid hi
  · have e : (clearTeam s tid).hub = (roomCleared s tid).hub := by
      rw [clearTeam_eq, ← k.hub]
    rw [e, roomCleared, modHub_hub]
    intro a ha
    simpa using (List.mem_filter.mp ha).2

theorem clearTeam_directory (s : State) (tid : Nat) : ((clearTeam s tid).core (tid / 32)).directory = (s.core (tid / 32)).directory := by
  rw [clearTeam_core, (onlyBinds_setSlotState (roomCleared s tid) tid 0).core, roomCleared, core_modHub, core_modCore]
  exact slotsReleased_directory s tid

theorem removeSubs_directory (s : State) (tid : Nat) : ∀ d ∈ ((removeSubs s tid).core (tid / 32)).directory, d.tid ≠ tid := by
  rw [removeSubs, core_modCore]
  intro d hd
  simpa using (List.mem_filter.mp hd).2

/-- The state after a team's tasks are cancelled. -/
def tasksCancelled (s : State) (core tid : Nat) : State := (s.teamTasks tid).foldl (fun t x => cancelTask t core x.id) s

theorem execTeamRelease_ready (h : drainReady s core slot = true) :
    exec (.teamRelease core slot) s = .next (clearTeam (removeSubs (tasksCancelled s core (core * 32 + slot)) (core * 32 + slot)) (core * 32 + slot)) := by
  rw [exec_teamRelease, execTeamRelease, if_pos h]
  rfl

/-- GROUP_RETIRE and TEAM_RELEASE (R43, R75, R367, R374). -/
theorem retirement_holds : retirement := by
  refine ⟨fun gid s hr => ?_, fun gid s hr hq => ?_, fun core slot s _ hr => ?_, fun core slot s hs hr => ?_⟩
  · rw [exec_groupRetire, execGroupRetire, hr]
    rfl
  · obtain ⟨t, ht, hk, hsome, hlast⟩ := retirement_group hr hq
    exact ⟨t, ht, hk.mem, hk.teams, hk.dies, hk.homes, hk.referee, hk.others, hk.group, hsome, hlast⟩
  · rw [exec_teamRelease, execTeamRelease, hr]
    rfl
  · have e : (core * 32 + slot) / 32 = core := by omega
    obtain ⟨hstate, hslabs, hslots, harrivals⟩ :=
      clearTeam_left (removeSubs (tasksCancelled s core (core * 32 + slot)) (core * 32 + slot)) (core * 32 + slot)
    have hdir := removeSubs_directory (tasksCancelled s core (core * 32 + slot)) (core * 32 + slot)
    rw [← clearTeam_directory] at hdir
    rw [e] at hslabs hslots hdir
    refine ⟨_, execTeamRelease_ready hr, ?_, hslabs, hdir, hslots, harrivals, fun hwf => ?_⟩
    · rw [State.slotState, slotRec_tid _ _ hs]
      exact hstate
    · have h : InvAfter (exec (.teamRelease core slot) s) := inv_execTeamRelease hwf
      rwa [execTeamRelease_ready hr] at h

/-! ## PACER_RECORD_WRITE and PQPOP -/

theorem exec_pacerRecordWrite (core slot : Nat) (bytes : List Byte) (s : State) :
    exec (.pacerRecordWrite core slot bytes) s = execPacerRecordWrite core slot bytes s := rfl
theorem exec_pqpop (die : Nat) (s : State) : exec (.pqpop die) s = execPqpop die s := rfl

/-- A record is written only into a free slot, and a refused slot is freed; PQPOP takes the oldest entry (R367, R371). -/
theorem pacerAccess_holds : pacerAccess := by
  refine ⟨fun core slot bytes s hc hs => ⟨fun h0 hl h1 => ?_, fun h80 => ?_, fun hw hf => ?_⟩, fun die s => ?_⟩
  · have e : exec (.pacerRecordWrite core slot bytes) s = .next (s.setSlotRec core slot bytes) := by
      rw [exec_pacerRecordWrite, execPacerRecordWrite, if_pos ⟨hc, hs⟩, if_pos ⟨h0, hl, h1⟩]
    refine ⟨_, e, rfl, rfl, rfl, rfl, rfl, rfl, ?_, fun i hi => ?_⟩
    · rw [slotRec_setSlotRec, if_pos rfl]
    · rw [slotRec_setSlotRec, if_neg hi.symm]
  · have e : exec (.pacerRecordWrite core slot [0]) s = .next (s.putState core slot 0) := by
      rw [exec_pacerRecordWrite, execPacerRecordWrite, if_pos ⟨hc, hs⟩, if_neg (by simp), if_pos ⟨h80, rfl⟩]
    have hrec : (s.putState core slot 0).slotRec core slot = setField (s.slotRec core slot) 0 1 0 := by
      rw [State.putState, slotRec_setSlotRec, if_pos rfl]
    refine ⟨_, e, rfl, rfl, ?_, ?_⟩
    · rw [State.slotState, hrec, recField_setState]
    · rw [hrec, setState_drop _ _ (Nat.le_refl 1)]
  · rw [exec_pacerRecordWrite, execPacerRecordWrite, if_pos ⟨hc, hs⟩, if_neg hw, if_neg hf]
  · refine ⟨_, exec_pqpop die s, rfl, rfl, rfl, rfl, fun p r hq => ?_, fun hq => ?_⟩
    · rw [die_modDie, hq]
      rfl
    · rw [die_modDie, hq]

/-! ## What leaves groups and bind records as they are -/

/-- Groups and bind records are as before. -/
structure PlacedKept (s t : State) : Prop where
  groups : t.groups = s.groups
  binds : ∀ k, (t.core k).binds = (s.core k).binds

theorem PlacedKept.refl (s : State) : PlacedKept s s := ⟨rfl, fun _ => rfl⟩

theorem PlacedKept.trans (h : PlacedKept s t) (k : PlacedKept t u) : PlacedKept s u :=
  ⟨k.groups.trans h.groups, fun i => (k.binds i).trans (h.binds i)⟩

theorem PlacedKept.group (h : PlacedKept s t) (i : Nat) : t.group i = s.group i := congrArg (fun l => sget Group.reset l i) h.groups

theorem PlacedKept.bindRec (h : PlacedKept s t) (tid : Nat) : t.bindRec tid = s.bindRec tid := congrArg (fun b => sget bindReset b (tid % 32)) (h.binds (tid / 32))

theorem PlacedKept.bindField (h : PlacedKept s t) (tid off n : Nat) : t.bindField tid off n = s.bindField tid off n := by
  rw [State.bindField, h.bindRec]
  rfl

theorem PlacedKept.isRestore (h : PlacedKept s t) (tid : Nat) : t.isRestore tid = s.isRestore tid := by
  rw [State.isRestore, h.bindField]
  rfl

theorem PlacedKept.modTeam (h : PlacedKept s t) {f : Team → Team} : PlacedKept s (t.modTeam tid f) := ⟨h.groups, h.binds⟩
theorem PlacedKept.modDie (h : PlacedKept s t) {d : Nat} {f : Die → Die} : PlacedKept s (t.modDie d f) := ⟨h.groups, h.binds⟩
theorem PlacedKept.modHub (h : PlacedKept s t) {f : Hub → Hub} : PlacedKept s (t.modHub f) := ⟨h.groups, h.binds⟩

theorem PlacedKept.modCore (h : PlacedKept s t) {c : Nat} {f : Core → Core} (hf : ∀ k, (f k).binds = k.binds) : PlacedKept s (t.modCore c f) := by
  refine ⟨h.groups, fun i => ?_⟩
  by_cases e : c = i
  · subst e
    rw [core_modCore, hf, h.binds]
  · rw [core_modCore_ne _ _ _ _ e, h.binds]

/-- What the memory system does keeps them. -/
theorem PlacedKept.after (h : PlacedKept s t) (T : Traffic t u) : PlacedKept s u :=
  h.trans ⟨T.groups, fun k => by rw [T.cores k]⟩

theorem PlacedKept.foldl {α : Type} {f : State → α → State} {l : List α} (h : PlacedKept s t) (hf : ∀ u x, PlacedKept s u → PlacedKept s (f u x)) :
    PlacedKept s (l.foldl f t) :=
  List.foldlRecOn (motive := PlacedKept s) l f h fun u hu x _ => hf u x hu

theorem PlacedKept.leaveCache (h : PlacedKept s t) {bank : Nat} {m : Bank} : PlacedKept s (leaveCache t core bank m) :=
  .modCore (h.after (traffic_cleanLines t core _ true)) fun _ => rfl

theorem PlacedKept.takeBank (h : PlacedKept s t) {m : Bank} : PlacedKept s (takeBank t core m).1 := h.leaveCache

theorem PlacedKept.openPages {n fuel : Nat} (h : PlacedKept s t) : PlacedKept s (openPages core n fuel t) := by
  induction fuel generalizing t with
  | zero => exact h
  | succ fuel ih =>
    unfold Machine.openPages
    split
    · exact ih h.takeBank
    · exact h

theorem PlacedKept.takePages {n : Nat} (h : PlacedKept s t) : PlacedKept s (takePages t tid n) := by
  unfold Machine.takePages
  dsimp only
  refine .modTeam (.modCore h.openPages ?_)
  exact fun _ => rfl

theorem PlacedKept.takeGrown {n : Nat} (h : PlacedKept s t) : PlacedKept s (takeGrown tid n t) := by
  induction n generalizing t with
  | zero => exact h
  | succ n ih => exact ih h.takeBank.modTeam

theorem PlacedKept.takeFifos (h : PlacedKept s t) : PlacedKept s (takeFifos t tid) := by
  unfold Machine.takeFifos
  refine h.foldl fun u f hu => ?_
  split
  · exact hu.takeBank
  · exact hu

/-- A fresh team is given its room. -/
theorem takeRoom_kept (s : State) (hr : s.isRestore tid = false) : PlacedKept s (takeRoom s tid) := by
  have h : PlacedKept s s := .refl s
  unfold takeRoom
  rw [hr]
  simp only [Bool.false_eq_true, if_false]
  refine .modTeam (.modHub (.modDie (.foldl (.modCore ?_ ?_) fun _ _ hu => .modCore hu ?_)))
  · exact h.takePages.takeGrown.takeFifos
  · exact fun _ => rfl
  · exact fun _ => rfl

theorem takeRoom_room (s : State) (tid : Nat) : ((takeRoom s tid).team tid).room = true := by
  unfold takeRoom
  split
  rw [team_modTeam]

theorem invalFor_kept (s : State) (tid : Nat) : PlacedKept s (invalFor s tid) := by
  unfold invalFor
  exact (PlacedKept.refl s).foldl fun u c hu => .modCore (hu.after (traffic_cleanLines u c _ true)) fun _ => rfl

theorem markCores_kept (s : State) (tid : Nat) : PlacedKept s (markCores s tid) := by
  unfold markCores
  exact (PlacedKept.refl s).modHub

/-! ## Placing a fresh team -/

/-- Each of a team's groups as it was written. -/
theorem foldl_setGroup (f : Nat → Group) (base n : Nat) (s : State) :
    ∀ g, g < n → ((List.range n).foldl (fun t g => t.setGroup (base + g) (f g)) s).group (base + g) = f g := by
  induction n with
  | zero => exact fun g hg => absurd hg (Nat.not_lt_zero g)
  | succ n ih =>
    intro g hg
    rw [List.range_succ, List.foldl_append, List.foldl_cons, List.foldl_nil]
    rcases Nat.lt_succ_iff_lt_or_eq.mp hg with hlt | rfl
    · rw [group_setGroup_ne _ _ _ _ (by omega), ih g hlt]
    · rw [group_setGroup]

/-- The groups of a fresh team in the state whose lines have been invalidated. -/
def freshGroups (s : State) (tid : Nat) : State :=
  (List.range (recField (s.bindRec tid) 4 2)).foldl (fun t g => t.setGroup (tid * 64 + g) (freshGroup (s.bindRec tid) tid g)) (invalFor s tid)

theorem foldl_setGroup_cores {α : Type} (n : α → Nat) (f : α → Group) (l : List α) (s : State) : (l.foldl (fun t g => t.setGroup (n g) (f g)) s).cores = s.cores :=
  List.foldlRecOn (motive := fun t : State => t.cores = s.cores) l _ rfl fun _ ht _ _ => ht

theorem freshGroups_bindRec (s : State) (tid : Nat) : (freshGroups s tid).bindRec tid = s.bindRec tid := by
  rw [← (invalFor_kept s tid).bindRec tid, State.bindRec, State.bindRec, State.core, State.core, freshGroups, foldl_setGroup_cores]

theorem placeFresh_bindRec (s : State) (tid : Nat) : (placeFresh s tid).bindRec tid = s.bindRec tid := freshGroups_bindRec s tid

theorem placeFresh_group (s : State) (tid g : Nat) (hg : g < s.bindField tid 4 2) :
    (placeFresh s tid).group (tid * 64 + g) = freshGroup (s.bindRec tid) tid g := by
  unfold placeFresh
  rw [group_setTeam]
  exact foldl_setGroup _ _ _ _ g hg

theorem placeFresh_team (s : State) (tid : Nat) : ((placeFresh s tid).team tid).filling = true ∧ ((placeFresh s tid).team tid).room = false := by
  unfold placeFresh
  rw [team_setTeam]
  exact ⟨rfl, rfl⟩

/-- The state in which a team's record says RUN and its grid knows its cores. -/
def recordRunning (s : State) (tid : Nat) : State := markCores (setSlotState s tid 2) tid

theorem recordRunning_bindRec (s : State) (tid : Nat) : (recordRunning s tid).bindRec tid = setField (s.bindRec tid) 0 1 2 :=
  ((markCores_kept (setSlotState s tid 2) tid).bindRec tid).trans (setSlotState_bindRec s tid 2)

theorem recordRunning_bindField (s : State) (tid n : Nat) {off : Nat} (h : 1 ≤ off) : (recordRunning s tid).bindField tid off n = s.bindField tid off n := by
  rw [State.bindField, recordRunning_bindRec, recField_setState_ne _ _ _ h]
  rfl

theorem placeTeam_fresh (h : s.isRestore tid = false) : placeTeam s tid = placeFresh (recordRunning s tid) tid := by
  have hr : (recordRunning s tid).isRestore tid = false := by
    rw [State.isRestore, recordRunning_bindField s tid 1 (by omega)]
    exact h
  unfold placeTeam
  exact if_neg (by rw [show markCores (setSlotState s tid 2) tid = recordRunning s tid from rfl, hr]; exact Bool.false_ne_true)

/-- A placed fresh team, given its room where its core has it. -/
def settledIn (s : State) (tid : Nat) : State :=
  if !roomReady (placeTeam s tid) tid then placeTeam s tid else (takeRoom (placeTeam s tid) tid).modTeam tid fun x => { x with filling := false }

theorem placeTeam_isRestore (h : s.isRestore tid = false) : (placeTeam s tid).isRestore tid = false := by
  rw [placeTeam_fresh h, State.isRestore, State.bindField, placeFresh_bindRec, ← State.bindField, recordRunning_bindField s tid 1 (by omega)]
  exact h

theorem settledIn_kept (h : s.isRestore tid = false) : PlacedKept (placeTeam s tid) (settledIn s tid) := by
  unfold settledIn
  split
  · exact .refl _
  · exact (takeRoom_kept _ (placeTeam_isRestore h)).modTeam

theorem settledIn_bindRec (h : s.isRestore tid = false) : (settledIn s tid).bindRec tid = setField (s.bindRec tid) 0 1 2 := by
  rw [(settledIn_kept h).bindRec, placeTeam_fresh h, placeFresh_bindRec, recordRunning_bindRec]

theorem settledIn_group (h : s.isRestore tid = false) {g : Nat} (hg : g < s.bindField tid 4 2) :
    (settledIn s tid).group (tid * 64 + g) = freshGroup ((settledIn s tid).bindRec tid) tid g := by
  rw [(settledIn_kept h).group, (settledIn_kept h).bindRec, placeTeam_fresh h, placeFresh_bindRec, placeFresh_group]
  rwa [recordRunning_bindField s tid 2 (by omega)]

theorem settledIn_team (h : s.isRestore tid = false) : ((settledIn s tid).team tid).filling = !roomReady (placeTeam s tid) tid ∧
    ((settledIn s tid).team tid).room = roomReady (placeTeam s tid) tid := by
  unfold settledIn
  by_cases hr : roomReady (placeTeam s tid) tid = true
  · rw [hr]
    simp only [Bool.not_true, Bool.false_eq_true, if_false, team_modTeam, takeRoom_room, and_self]
  · rw [Bool.not_eq_true] at hr
    rw [hr, placeTeam_fresh h]
    exact placeFresh_team _ _

/-! ## COMMIT -/

theorem exec_commit (die : Nat) (v : Word) (s : State) : exec (.commit die v) s = execCommit die v s := rfl

/-- The home slot that a COMMIT names. -/
def commitTid (die : Nat) (v : Word) : Nat := (die * 40 + v.toNat % 64) * 32 + v.toNat / 64 % 32

theorem execCommit_taken {die : Nat} {v : Word} (hv : v.toNat % 64 < 40) (hd : (s.die die).down = false) (hc : (s.die die).committing = none) :
    exec (.commit die v) s = .next (commitTeam s die (commitTid die v)) := by
  rw [exec_commit, execCommit, if_pos ⟨hv, hd, hc⟩]
  rfl

/-- A COMMIT ends with the STATE of the record in COMMITST (R371). -/
def commitEnds (u : State) (die tid : Nat) : State :=
  u.modDie die fun d => { d with commitSt := BitVec.ofNat 32 (u.bindField tid 0 1), committing := none }

theorem commitTeam_unbound {die : Nat} (h : s.bindField tid 0 1 ≠ 1) : commitTeam s die tid = commitEnds s die tid := by
  unfold commitTeam
  rw [if_neg (fun e => h e.1), if_pos h]
  rfl

theorem commitTeam_waits {die : Nat} (h : s.bindField tid 0 1 = 1) (hw : areaWaits s tid = true) :
    commitTeam s die tid = s.modDie die fun d => { d with commitSt := 0x80000001, committing := some tid } := by
  unfold commitTeam
  rw [if_pos ⟨h, hw⟩, h]
  rfl

theorem commitTeam_refused {die k : Nat} (h : s.bindField tid 0 1 = 1) (hw : areaWaits s tid = false) (hk : dispatchCode s tid none = some k) :
    commitTeam s die tid = commitEnds (setSlotState s tid (0x80 + k)) die tid := by
  unfold commitTeam
  rw [if_neg (by simp [hw]), if_neg (by simp [h]), hk]
  rfl

/-- A fresh team has no save area to wait for. -/
theorem areaWaits_fresh (h : s.isRestore tid = false) : areaWaits s tid = false := by
  unfold areaWaits
  rw [show (s.bindField tid 3 1).testBit 1 = false from h, Bool.false_and]

theorem commitTeam_accepted {die : Nat} (h : s.bindField tid 0 1 = 1) (hk : dispatchCode s tid none = none) (hr : s.isRestore tid = false) :
    commitTeam s die tid = commitEnds (settledIn s tid) die tid := by
  unfold commitTeam
  rw [if_neg (by simp [areaWaits_fresh hr]), if_neg (by simp [h]), hk, hr]
  simp only [Bool.false_eq_true, if_false]
  rfl

theorem commitEnds_die (u : State) (die tid : Nat) : ((commitEnds u die tid).die die).commitSt = BitVec.ofNat 32 (u.bindField tid 0 1) := by
  rw [commitEnds, die_modDie]

theorem commitEnds_bindRec (u : State) (die tid i : Nat) : (commitEnds u die tid).bindRec i = u.bindRec i := rfl
theorem commitEnds_group (u : State) (die tid i : Nat) : (commitEnds u die tid).group i = u.group i := rfl
theorem commitEnds_team (u : State) (die tid i : Nat) : (commitEnds u die tid).team i = u.team i := rfl

/-- A refused record says why in STATE, and nothing else changes (R370). -/
theorem commit_refused (s : State) (die tid : Nat) {k : Nat} (hk : k < 128) :
    let t := commitEnds (setSlotState s tid (0x80 + k)) die tid
    t.mem = s.mem ∧ t.groups = s.groups ∧ t.teams = s.teams ∧ t.hub = s.hub ∧ t.bindField tid 0 1 = 0x80 + k ∧
      (t.die die).commitSt = BitVec.ofNat 32 (0x80 + k) := by
  have h := onlyBinds_setSlotState s tid (0x80 + k)
  have hst : (setSlotState s tid (0x80 + k)).bindField tid 0 1 = 0x80 + k := setSlotState_state (by omega)
  refine ⟨?_, ?_, ?_, ?_, ?_, ?_⟩
  · rw [commitEnds, modDie_mem, h.mem]
  · rw [commitEnds, modDie_groups, h.groups]
  · rw [commitEnds, modDie_teams, h.teams]
  · rw [commitEnds, modDie_hub, h.hub]
  · rw [State.bindField, commitEnds_bindRec]
    exact hst
  · rw [commitEnds_die, hst]

/-- An accepted fresh team runs, with its groups at their launch (R369, R377). -/
theorem commit_accepted (s : State) (die tid : Nat) (hr : s.isRestore tid = false) :
    let t := commitEnds (settledIn s tid) die tid
    t.bindField tid 0 1 = 2 ∧ (t.die die).commitSt = 2 ∧ (t.team tid).filling = !roomReady (placeTeam s tid) tid ∧
      (t.team tid).room = roomReady (placeTeam s tid) tid ∧ ∀ g, g < s.bindField tid 4 2 → t.group (tid * 64 + g) = freshGroup (t.bindRec tid) tid g := by
  have hst : (settledIn s tid).bindField tid 0 1 = 2 := by rw [State.bindField, settledIn_bindRec hr, recField_setState]
  obtain ⟨hfilling, hroom⟩ := settledIn_team hr
  refine ⟨?_, ?_, ?_, ?_, fun g hg => ?_⟩
  · rw [State.bindField, commitEnds_bindRec]
    exact hst
  · rw [commitEnds_die, hst]
    rfl
  · rw [commitEnds_team, hfilling]
  · rw [commitEnds_team, hroom]
  · rw [commitEnds_group, commitEnds_bindRec]
    exact settledIn_group hr hg

/-- Every slice of a fresh group at its launch (02 R41). -/
theorem freshGroup_slice (b : List Byte) (tid g : Nat) {i : Nat} (hi : i < 64) :
    (freshGroup b tid g).slice i = Slice.launch (BitVec.ofNat 64 (recField b 0x20 8) &&& ~~~3#64) := by
  rw [Group.slice, freshGroup, List.getD_eq_getElem?_getD, List.getElem?_replicate, if_pos hi]
  rfl

theorem freshGroup_uget (b : List Byte) (tid g : Nat) {i : Nat} (hi : i < 4) : uget (freshGroup b tid g) i = BitVec.ofNat 32 (recField b (0x60 + 4 * i) 4) := by
  match i, hi with
  | 0, _ => rfl
  | 1, _ => rfl
  | 2, _ => rfl
  | 3, _ => rfl

theorem exec_commit_ignored {die : Nat} {v : Word} (hign : 40 ≤ v.toNat % 64 ∨ (s.die die).down = true ∨ (s.die die).committing ≠ none) :
    exec (.commit die v) s = .next s := by
  have hn : ¬ (v.toNat % 64 < 40 ∧ (s.die die).down = false ∧ (s.die die).committing = none) := by
    rintro ⟨hv, hd, hc⟩
    rcases hign with h | h | h
    · omega
    · rw [hd] at h
      cases h
    · exact h hc
  rw [exec_commit, execCommit, if_neg hn]

/-- COMMIT (R369 to R371, R377). -/
theorem commits_holds : commits := by
  refine ⟨fun die v s hign => exec_commit_ignored hign, fun die v s hv hd hc => ?_, fun b tid g i hi => ?_, fun b tid g i hi => freshGroup_uget b tid g hi⟩
  · have hends {t : State} (e : commitTeam s die (commitTid die v) = t) : exec (.commit die v) s = .next t :=
      (execCommit_taken hv hd hc).trans (congrArg Host.Outcome.next e)
    refine ⟨fun hb => ?_, fun hb hw => ?_, fun k hb hw hk hk128 => ?_, fun hb hk hr => ?_⟩
    · exact ⟨_, hends (commitTeam_unbound hb), rfl, rfl, rfl, rfl, rfl, commitEnds_die s die _⟩
    · exact ⟨_, hends (commitTeam_waits hb hw), rfl, rfl, rfl, rfl, rfl, die_modDie s die _⟩
    · exact ⟨_, hends (commitTeam_refused hb hw hk), commit_refused s die _ hk128⟩
    · obtain ⟨hst, hcommit, hfilling, hroom, hgroups⟩ := commit_accepted s die (commitTid die v) hr
      have e := commitTeam_accepted (die := die) (tid := commitTid die v) hb hk hr
      refine ⟨_, hends e, hst, hcommit, hfilling, hroom, fun hwf => ?_, hgroups⟩
      rw [← e]
      exact inv_commitTeam hwf
  · rw [freshGroup_slice b tid g hi]
    exact ⟨rfl, rfl, rfl, rfl, rfl, rfl, rfl, rfl, rfl⟩

end Sys2Proof.Machine

namespace Sys2Proof
open Machine

/-- Settles O48: retirement and release, the pacer's accesses, and the cases of COMMIT. -/
theorem teamsAndDispatch : Obligations.TeamsAndDispatch := ⟨retirement_holds, pacerAccess_holds, commits_holds⟩

end Sys2Proof
end

section
/-! Integers and bits of an element (03 R82 to R87).

The model computes on patterns as numbers. A signed pattern is the integer of the bit vector it spells (`val_signed`), so the library's laws of `BitVec` give the bits of what is
shifted or extended with copies of the sign; every other operation is read bit by bit from the library's laws of `Nat.testBit`. -/
namespace Sys2Proof.Machine

/-! ## Elements -/

theorem elem_lt (x w i : Nat) : elem x w i < 2 ^ w := Nat.mod_lt _ (Nat.two_pow_pos w)

/-- The only element of a pattern no wider than the element is the pattern. -/
theorem elem_zero_of_lt {x w : Nat} (h : x < 2 ^ w) : elem x w 0 = x := by
  rw [elem, Nat.mul_zero, Nat.pow_zero, Nat.div_one, Nat.mod_eq_of_lt h]

/-! ## The integer of a pattern -/

/-- val gives back its pattern. -/
theorem val_emod {x w : Nat} (sg : Bool) (h : x < 2 ^ w) : (val x w sg % (2 ^ w : Int)).toNat = x := by
  have hx : ((x : Int) % (2 ^ w : Int)).toNat = x := by
    rw [Int.emod_eq_of_lt (by positivity) (by exact_mod_cast h), Int.toNat_natCast]
  unfold val
  split
  · rw [Int.sub_emod_right, hx]
  · exact hx

/-- A signed pattern stands for the integer of its bit vector. -/
theorem val_signed {x w : Nat} (h : x < 2 ^ w) : val x w true = (BitVec.ofNat w x).toInt := by
  have hmsb : (BitVec.ofNat w x).msb = x.testBit (w - 1) := by
    rw [BitVec.msb_eq_getLsbD_last, BitVec.getLsbD_ofNat]
    rcases Nat.eq_zero_or_pos w with rfl | hw
    · rw [show x = 0 by omega]
      rfl
    · rw [decide_eq_true (by omega), Bool.true_and]
  rw [BitVec.toInt_eq_msb_cond, hmsb, BitVec.toNat_ofNat, Nat.mod_eq_of_lt h, val, Bool.true_and]
  push_cast
  rfl

/-- A field of n bits extended to w bits, as its sign says. -/
theorem testBit_extend {x n w j : Nat} (sg : Bool) (h : x < 2 ^ n) (hnw : n ≤ w) (hj : j < w) :
    (val x n sg % (2 ^ w : Int)).toNat.testBit j = if j < n then x.testBit j else sg && x.testBit (n - 1) := by
  cases sg with
  | false =>
    have hv : (val x n false % (2 ^ w : Int)).toNat = x := by
      simpa [val] using val_emod false (h.trans_le (Nat.pow_le_pow_right (by decide) hnw))
    rw [hv]
    split
    · rfl
    · exact Nat.testBit_lt_two_pow (h.trans_le (Nat.pow_le_pow_right (by decide) (by omega)))
  | true =>
    have hv : (val x n true % (2 ^ w : Int)).toNat = ((BitVec.ofNat n x).signExtend w).toNat := by
      rw [val_signed h, BitVec.signExtend, BitVec.toNat_ofInt]
      push_cast
      rfl
    rw [hv, BitVec.testBit_toNat, BitVec.getLsbD_signExtend, decide_eq_true hj, Bool.true_and, Bool.true_and, BitVec.msb_eq_getLsbD_last,
      BitVec.getLsbD_ofNat, BitVec.getLsbD_ofNat]
    split
    · rename_i hjn
      rw [decide_eq_true hjn, Bool.true_and]
    · rcases Nat.eq_zero_or_pos n with rfl | hn
      · rw [show x = 0 by omega]
        simp
      · rw [decide_eq_true (by omega), Bool.true_and]

/-! ## Shifts (R86) -/

theorem testBit_shl {w x k j : Nat} (hj : j < w) : (shl w x k).testBit j = (decide (k ≤ j) && x.testBit (j - k)) := by
  unfold shl
  split
  · rw [Nat.testBit_mod_two_pow, decide_eq_true hj, Bool.true_and, Nat.testBit_mul_two_pow]
  · rw [decide_eq_false (by omega), Nat.zero_testBit, Bool.false_and]

theorem shr_eq {w x : Nat} (k : Nat) (h : x < 2 ^ w) : shr w x k = x / 2 ^ k := by
  unfold shr
  split
  · rfl
  · exact (Nat.div_eq_of_lt (h.trans_le (Nat.pow_le_pow_right (by decide) (by omega)))).symm

theorem testBit_shr {w x : Nat} (k j : Nat) (h : x < 2 ^ w) : (shr w x k).testBit j = x.testBit (j + k) := by
  rw [shr_eq k h, Nat.testBit_div_two_pow]

/-- SAR shifts the bit vector arithmetically. -/
theorem sar_eq_sshiftRight {w x : Nat} (k : Nat) (h : x < 2 ^ w) : sar w x k = ((BitVec.ofNat w x).sshiftRight (min k (w - 1))).toNat := by
  rw [sar, val_signed h, BitVec.sshiftRight, BitVec.toNat_ofInt, Int.shiftRight_eq_div_pow]
  push_cast
  rfl

theorem testBit_sar {w x j : Nat} (k : Nat) (h : x < 2 ^ w) (hj : j < w) :
    (sar w x k).testBit j = x.testBit (if j + k < w then j + k else w - 1) := by
  have hbit : ∀ i, i < w → (BitVec.ofNat w x).getLsbD i = x.testBit i := fun i hi => by
    rw [BitVec.getLsbD_ofNat, decide_eq_true hi, Bool.true_and]
  rw [sar_eq_sshiftRight k h, BitVec.testBit_toNat, BitVec.getLsbD_sshiftRight, decide_eq_false (by omega), Bool.not_false, Bool.true_and,
    BitVec.msb_eq_getLsbD_last, ← apply_ite (BitVec.ofNat w x).getLsbD]
  have hpos : (if min k (w - 1) + j < w then min k (w - 1) + j else w - 1) = if j + k < w then j + k else w - 1 := by
    split <;> split <;> omega
  rw [hpos]
  exact hbit _ (by split <;> omega)

theorem testBit_rol {w x j : Nat} (k : Nat) (h : x < 2 ^ w) (hj : j < w) : (rol w x k).testBit j = x.testBit ((j + w - k % w) % w) := by
  have hr : k % w < w := Nat.mod_lt _ (by omega)
  have hhigh : x / 2 ^ (w - k % w) < 2 ^ (k % w) := by
    rw [Nat.div_lt_iff_lt_mul (Nat.two_pow_pos _), ← Nat.pow_add, show k % w + (w - k % w) = w by omega]
    exact h
  have hsum : (rol w x k).testBit j = (2 ^ (k % w) * x + x / 2 ^ (w - k % w)).testBit j := by
    rw [rol, Nat.testBit_mod_two_pow, decide_eq_true hj, Bool.true_and, Nat.mul_comm]
  rw [hsum, Nat.testBit_two_pow_mul_add _ hhigh]
  split
  · rw [Nat.testBit_div_two_pow, Nat.mod_eq_of_lt (show j + w - k % w < w by omega), show j + (w - k % w) = j + w - k % w by omega]
  · rw [show j + w - k % w = j - k % w + w by omega, Nat.add_mod_right, Nat.mod_eq_of_lt (show j - k % w < w by omega)]

/-! ## Complement, reversal and counts (R84, R85) -/

theorem testBit_ones_sub {w x : Nat} (j : Nat) (h : x < 2 ^ w) : (ones w - x).testBit j = (decide (j < w) && !x.testBit j) := by
  rw [ones, Nat.sub_sub, Nat.add_comm 1 x, Nat.testBit_two_pow_sub_succ h]

/-- Doubling and adding a bit puts the bit lowest. -/
theorem testBit_double_add (r : Nat) (b : Bool) (j : Nat) : (r * 2 + b.toNat).testBit j = if j = 0 then b else r.testBit (j - 1) := by
  have h := Nat.testBit_two_pow_mul_add r (show b.toNat < 2 ^ 1 from b.toNat_lt) j
  rw [Nat.pow_one, Nat.mul_comm] at h
  rw [h]
  rcases Nat.eq_zero_or_pos j with rfl | hj
  · cases b <;> rfl
  · rw [if_neg (by omega), if_neg (by omega)]

theorem testBit_revBits (w x j : Nat) : (revBits w x).testBit j = (decide (j < w) && x.testBit (w - 1 - j)) := by
  induction w generalizing j with
  | zero => simp [revBits]
  | succ w ih =>
    have hstep : revBits (w + 1) x = revBits w x * 2 + (x.testBit w).toNat := by
      rw [revBits, List.range_succ, List.foldl_append]
      rfl
    rw [hstep, testBit_double_add]
    split
    · subst_vars
      simp
    · rw [ih, show w - 1 - (j - 1) = w + 1 - 1 - j by omega, decide_eq_decide.mpr (show j - 1 < w ↔ j < w + 1 by omega)]

theorem popBits_eq_countP (w x : Nat) : popBits w x = (List.range w).countP fun i => x.testBit i := List.countP_eq_length_filter.symm

theorem popBits_lt (w x : Nat) : popBits w x < 2 ^ w := by
  have h : popBits w x ≤ w := by simpa [popBits] using List.length_filter_le (fun i => x.testBit i) (List.range w)
  exact h.trans_lt Nat.lt_two_pow_self

/-- The bits above the highest one that is set are the leading zeros. -/
theorem leadBits_spec {w x : Nat} (h : x < 2 ^ w) : leadBits w x ≤ w ∧ (∀ j, w - leadBits w x ≤ j → x.testBit j = false) ∧
    (leadBits w x < w → x.testBit (w - 1 - leadBits w x) = true) := by
  unfold leadBits
  by_cases hx : x = 0
  · subst hx
    simp
  · have hlog : x.log2 < w := (Nat.log2_lt hx).mpr h
    rw [if_neg hx]
    refine ⟨by omega, fun j hj => ?_, fun _ => ?_⟩
    · exact Nat.testBit_lt_two_pow (Nat.lt_log2_self.trans_le (Nat.pow_le_pow_right (by decide) (by omega)))
    · rw [show w - 1 - (w - 1 - x.log2) = x.log2 by omega]
      exact Nat.testBit_log2 hx

/-! ## Bit fields (R87) -/

/-- A field cut out of a pattern. -/
theorem testBit_field (x pos n j : Nat) : (x / 2 ^ pos % 2 ^ n).testBit j = (decide (j < n) && x.testBit (pos + j)) := by
  rw [Nat.testBit_mod_two_pow, Nat.testBit_div_two_pow, Nat.add_comm]

/-- A pattern is what lies above a field, the field, and what lies below it. -/
theorem field_split (x pos n : Nat) : x = 2 ^ pos * (2 ^ n * (x / 2 ^ pos / 2 ^ n) + x / 2 ^ pos % 2 ^ n) + x % 2 ^ pos := by
  rw [Nat.div_add_mod, Nat.div_add_mod]

/-- A pattern with another field in the place of its own, as BFI writes it. -/
theorem testBit_putField (x y pos n j : Nat) :
    (x - x / 2 ^ pos % 2 ^ n * 2 ^ pos + y % 2 ^ n * 2 ^ pos).testBit j = if pos ≤ j ∧ j < pos + n then y.testBit (j - pos) else x.testBit j := by
  have hput : x - x / 2 ^ pos % 2 ^ n * 2 ^ pos + y % 2 ^ n * 2 ^ pos =
      2 ^ pos * (2 ^ n * (x / 2 ^ pos / 2 ^ n) + y % 2 ^ n) + x % 2 ^ pos := by
    have hx := field_split x pos n
    rw [Nat.mul_add, Nat.mul_comm (2 ^ pos) (x / 2 ^ pos % 2 ^ n)] at hx
    rw [Nat.mul_add, Nat.mul_comm (2 ^ pos) (y % 2 ^ n)]
    omega
  have hlow : x % 2 ^ pos < 2 ^ pos := Nat.mod_lt _ (Nat.two_pow_pos _)
  have hfield : y % 2 ^ n < 2 ^ n := Nat.mod_lt _ (Nat.two_pow_pos _)
  rw [hput, Nat.testBit_two_pow_mul_add _ hlow, Nat.testBit_two_pow_mul_add _ hfield]
  by_cases hj : j < pos
  · rw [if_pos hj, if_neg (by omega), Nat.testBit_mod_two_pow, decide_eq_true hj, Bool.true_and]
  · by_cases hn : j - pos < n
    · rw [if_neg hj, if_pos hn, if_pos (by omega), Nat.testBit_mod_two_pow, decide_eq_true hn, Bool.true_and]
    · rw [if_neg hj, if_neg hn, if_neg (by omega), Nat.testBit_div_two_pow, Nat.testBit_div_two_pow, show j - pos - n + n + pos = j by omega]

end Sys2Proof.Machine
end

section
/-! What the instructions of 03 have in common: the fields of a word, and one law for each way to write registers.

`Computes i d f` says that the vector result of i is f in the active lanes. It holds of every instruction of the shape vecOp, and the statements' forms follow from it:
by elements, by bits of elements, by bits, and as a word. -/
namespace Sys2Proof.Machine

variable {i : Instr} {d : Nat}

/-! ## The fields of a word (01 R16) -/

/-- A word of four bytes. -/
theorem encode_bytes {o x y z : BitVec 8} (h : encodeNat i = asm (o.toNat * 2 ^ 24) [put x 16, put y 8, put z 0]) : encode i = o ++ x ++ y ++ z := by
  apply BitVec.eq_of_toNat_eq
  have ho := o.isLt
  have hx := x.isLt
  have hy := y.isLt
  have hz := z.isLt
  rw [encode, h]
  simp only [asm, put, List.sum_cons, List.sum_nil, Option.getD_some, BitVec.toNat_ofNat, BitVec.toNat_append]
  rw [← Nat.shiftLeft_add_eq_or_of_lt hz, ← Nat.shiftLeft_add_eq_or_of_lt hy, ← Nat.shiftLeft_add_eq_or_of_lt hx]
  simp only [Nat.shiftLeft_eq]
  omega

/-- The opcode of a word whose fields lie below it. -/
theorem wOp_encode {op : Nat} {fs : List Nat} (h : encodeNat i = asm (op * 2 ^ 24) fs) (hop : op < 256) (hfs : fs.sum < 2 ^ 24) : wOp (encode i) = op := by
  rw [encode, h, wOp, asm, Option.getD_some, BitVec.toNat_ofNat]
  omega

theorem wOp_bytes {o x y z : BitVec 8} (h : encodeNat i = asm (o.toNat * 2 ^ 24) [put x 16, put y 8, put z 0]) : wOp (encode i) = o.toNat :=
  wOp_encode h o.isLt (Nat.lt_of_le_of_lt (Laws.fields_le x 16 (Laws.fields_le y 8 (Laws.fields_le z 0 (Nat.le_refl 0)))) (by decide))

/-! ## Results that agree -/

theorem VecResult.congr {s t : State} {c : Ctx} {lanes wide : Nat → Bool} {f f' : Nat → Nat} (h : VecResult s t c d lanes wide f)
    (e : ∀ l, l < 256 → lanes l = true → BitVec.ofNat 32 (f' l) = BitVec.ofNat 32 (f l) ∧
      (wide l = true → BitVec.ofNat 32 (f' l / 2 ^ 32) = BitVec.ofNat 32 (f l / 2 ^ 32))) : VecResult s t c d lanes wide f' where
  writes := h.writes
  low l hl ha := (h.low l hl ha).trans (e l hl ha).1.symm
  high l hl ha hw := (h.high l hl ha hw).trans ((e l hl ha).2 hw).symm
  lowKept := h.lowKept
  highKept := h.highKept

theorem LaneResult.congr {s t : State} {c : Ctx} {lanes : Nat → Bool} {f f' : Nat → Word} (h : LaneResult s t c d lanes f)
    (e : ∀ l, l < 256 → lanes l = true → f' l = f l) : LaneResult s t c d lanes f' where
  writes := h.writes
  value l hl ha := (h.value l hl ha).trans (e l hl ha).symm
  kept := h.kept

theorem PredResult.congr {s t : State} {c : Ctx} {p : Nat} {lanes f f' : Nat → Bool} (h : PredResult s t c p lanes f)
    (e : ∀ l, l < 256 → lanes l = true → f' l = f l) : PredResult s t c p lanes f' where
  writes := h.writes
  discard := h.discard
  value hp l hl ha := by rw [h.value hp l hl ha, e l hl ha]
  kept := h.kept

/-- A register pair, or a register, holds only the bits of the lane's type. -/
theorem VecResult.truncate {s t : State} {c : Ctx} {lanes : Nat → Bool} {g : Group} {f : Nat → Nat} (h : VecResult s t c d lanes (laneWide g) f) :
    VecResult s t c d lanes (laneWide g) fun l => f l % 2 ^ laneBitsOf g l := by
  refine h.congr fun l _ _ => ?_
  unfold laneBitsOf
  by_cases hw : laneWide g l = true
  · rw [if_pos hw]
    refine ⟨BitVec.eq_of_toNat_eq ?_, fun _ => BitVec.eq_of_toNat_eq ?_⟩ <;> simp only [BitVec.toNat_ofNat] <;> omega
  · rw [if_neg hw]
    exact ⟨BitVec.eq_of_toNat_eq (by simp only [BitVec.toNat_ofNat, Nat.mod_mod]), fun h => absurd h hw⟩

/-! ## The group in which the issue number has advanced -/

theorem counted_isActive_eq (g : Group) (c k : Ctx) : isActive (counted g c) k = isActive g k := funext fun l => counted_isActive g c k l
theorem counted_runs_eq (g : Group) (c k : Ctx) : runs (counted g c) k = runs g k := funext fun l => counted_runs g c k l
theorem counted_laneWide_eq (g : Group) (c : Ctx) : laneWide (counted g c) = laneWide g := funext fun l => counted_laneWide g c l

/-! ## Vector results -/

/-- In every state in which the instruction's word issues, its vector result in the active lanes is f. -/
def Computes (i : Instr) (d : Nat) (f : Group → Ctx → Nat → Nat) : Prop :=
  ∀ s c, issuer s = some c → issues (encode i) s = true →
    Completes i s fun t => VecResult s t c d (isActive (s.group c.gid) c) (laneWide (s.group c.gid)) (f (s.group c.gid) c)

/-- What is written by lane, and does not look at the count of issues. -/
theorem computes_of_vwrite {f : Group → Ctx → Nat → Nat}
    (he : ∀ s, exec i s = issueRegs (encode i) s fun c g _ => vwrite g c d (isActive g c) (laneWide g) (f g c))
    (hf : ∀ g c, f (counted g c) c = f g c) : Computes i d f := by
  intro s c hc hi
  refine ⟨_, (he s).trans (issueRegs_completes _ hc hi), ?_⟩
  rw [hf, counted_isActive_eq, counted_laneWide_eq]
  refine vwrite_result s c d _ _ _ fun l hl ha hw => ?_
  rw [isActive, Bool.and_eq_true] at ha
  exact wide_ctxSlices hl ha.1 hw

/-- The shape vecOp. -/
theorem computes_of_vecOp {f : Group → Word → Nat → Nat} (he : ∀ s, exec i s = vecOp (encode i) d f s) (hf : ∀ g c, f (counted g c) = f g) :
    Computes i d fun g _ l => f g (laneMode g l) l := by
  refine computes_of_vwrite he fun g c => ?_
  rw [hf]
  exact funext fun l => by rw [counted_laneMode]

/-- A property of the result, which may rest on the element type that the instruction accepts. -/
theorem Computes.vecSays {f : Group → Ctx → Nat → Nat} {p : Group → Ctx → Nat → Nat → Prop} (h : Computes i d f)
    (hp : ∀ g c l, l < 256 → isActive g c l = true → etypeOk (wOp (encode i)) (laneEt g l) = true → p g c l (f g c l % 2 ^ laneBitsOf g l)) :
    VecSays i d p := by
  intro s c hc hi
  obtain ⟨t, ht, hr⟩ := h s c hc hi
  refine ⟨t, ht, _, hr.truncate, fun l hl ha => ⟨Nat.mod_lt _ (Nat.two_pow_pos _), hp _ c l hl ha ?_⟩⟩
  rw [isActive, Bool.and_eq_true] at ha
  exact issues_etype hc hi hl ha.1

theorem Computes.wordSays {f : Group → Ctx → Nat → Nat} (h : Computes i d f) : WordSays i d f := h.vecSays fun _ _ _ _ _ _ => rfl

theorem Computes.bitsSay {f : Group → Ctx → Nat → Nat} {bit : Group → Nat → Nat → Bool} (h : Computes i d f)
    (hb : ∀ g c l j, etypeOk (wOp (encode i)) (laneEt g l) = true → j < laneBitsOf g l → (f g c l).testBit j = bit g l j) : BitsSay i d bit :=
  h.vecSays fun g c l _ _ het j hj => by rw [Nat.testBit_mod_two_pow, decide_eq_true hj, Bool.true_and, hb g c l j het hj]

/-! ## One-register and predicate results -/

/-- A 32-bit result in the active lanes. -/
theorem laneSays_of_vput {f f' : State → Group → Ctx → Nat → Word}
    (he : ∀ s, exec i s = issueRegs (encode i) s fun c g t => vput g d fun l => if isActive g c l then some (f t g c l) else none)
    (hf : ∀ s c l, f (countIssue s c) (counted (s.group c.gid) c) c l = f' s (s.group c.gid) c l) : LaneSays i d f' := by
  intro s c hc hi
  refine ⟨_, (he s).trans (issueRegs_completes _ hc hi), ?_⟩
  rw [counted_isActive_eq]
  exact (vput_result s c d _ _).congr fun l _ _ => (hf s c l).symm

/-- A predicate in the active lanes, which may rest on the element type that the instruction accepts. -/
theorem predSays_of_pput {p : Nat} {f f' : Group → Ctx → Nat → Bool}
    (he : ∀ s, exec i s = issueRegs (encode i) s fun c g _ => pput g p fun l => if isActive g c l then some (f g c l) else none)
    (hf : ∀ g c l, etypeOk (wOp (encode i)) (laneEt g l) = true → f (counted g c) c l = f' g c l) : PredSays i p f' := by
  intro s c hc hi
  refine ⟨_, (he s).trans (issueRegs_completes _ hc hi), ?_⟩
  rw [counted_isActive_eq]
  refine (pput_result s c p _ _).congr fun l hl ha => (hf _ c l ?_).symm
  rw [isActive, Bool.and_eq_true] at ha
  exact issues_etype hc hi hl ha.1

/-! ## Elements (03 R82) -/

theorem laneSrc_lt (g : Group) (code l : Nat) : laneSrc g code l < 2 ^ laneBitsOf g l := by
  unfold laneSrc readN laneBitsOf
  split
  · exact (readV64 g code l).isLt
  · exact (readV g code l).isLt

theorem srcElem_lt (g : Group) (code l e : Nat) : srcElem g code l e < 2 ^ etWidth (laneEt g l) := elem_lt _ _ _

/-- A type of the class SCALAR has one element, the whole operand. -/
theorem etWidth_of_scalar {g : Group} {l : Nat} (h : (laneEt g l == 0 || laneEt g l == 1 || laneEt g l == 6 || laneEt g l == 7) = true) :
    etWidth (laneEt g l) = laneBitsOf g l := by
  have hbits : laneBitsOf g l = if etWide (laneEt g l) then 64 else 32 := rfl
  have hcases : laneEt g l = 0 ∨ laneEt g l = 1 ∨ laneEt g l = 6 ∨ laneEt g l = 7 := by simpa [or_assoc] using h
  rw [hbits]
  rcases hcases with h | h | h | h <;> rw [h] <;> rfl

/-- Elementwise work on three operands of the lane's width. -/
theorem Computes.elems {x y z : Group → Nat → Nat} {f : Group → Nat → Nat → Nat → Nat → Nat} {p : Group → Nat → Nat → Nat → Prop}
    (h : Computes i d fun g _ l => mapElems (laneMode g l) (x g l) (y g l) (z g l) (f g l))
    (hp : ∀ g l e, e < etCount (laneEt g l) → p g l e
      (f g l (elem (x g l) (etWidth (laneEt g l)) e) (elem (y g l) (etWidth (laneEt g l)) e) (elem (z g l) (etWidth (laneEt g l)) e) % 2 ^ etWidth (laneEt g l))) :
    VecSays i d fun g _ l v => ∀ e, e < etCount (laneEt g l) → p g l e (elem v (etWidth (laneEt g l)) e) := by
  refine h.vecSays fun g _ l _ _ _ e he => ?_
  obtain ⟨hlt, hel⟩ := mapElems_elem (laneMode g l) (x g l) (y g l) (z g l) (f g l)
  have hbits : laneBitsOf g l = if etWide (mEtype (laneMode g l)) then 64 else 32 := rfl
  rw [hbits, Nat.mod_eq_of_lt hlt]
  exact (hel e he).symm ▸ hp g l e he

/-- Elementwise work that is said bit by bit. -/
theorem Computes.elemBits {x y z : Group → Nat → Nat} {f : Group → Nat → Nat → Nat → Nat → Nat} {bit : Group → Nat → Nat → Nat → Bool}
    (h : Computes i d fun g _ l => mapElems (laneMode g l) (x g l) (y g l) (z g l) (f g l))
    (hb : ∀ g l e j, j < etWidth (laneEt g l) →
      (f g l (elem (x g l) (etWidth (laneEt g l)) e) (elem (y g l) (etWidth (laneEt g l)) e) (elem (z g l) (etWidth (laneEt g l)) e)).testBit j = bit g l e j) :
    ElemBitsSay i d bit := by
  have hs := h.elems (p := fun g l e v => ∀ j, j < etWidth (laneEt g l) → v.testBit j = bit g l e j) fun g l e _ j hj => by
    rw [Nat.testBit_mod_two_pow, decide_eq_true hj, Bool.true_and]
    exact hb g l e j hj
  intro s c hc hi
  obtain ⟨t, ht, v, hv, hp⟩ := hs s c hc hi
  exact ⟨t, ht, v, hv, fun l hl ha => ⟨(hp l hl ha).1, fun e j he => (hp l hl ha).2 e he j⟩⟩

end Sys2Proof.Machine
end

section
/-! Vector integer instructions (O1 to O5).

One law for each shape of the model (vecArith, vecUnary, vecBits, vecShift, vecShiftImm) turns an instruction of that shape into its statement, given what the function of the
shape does to an element. -/
namespace Sys2Proof.Machine

variable {i : Instr} {d a b : Nat}

/-! ## Arithmetic on exact integers (R83) -/

/-- The integer of element e of a pattern, under the type of a lane. -/
def elemInt (g : Group) (l e x : Nat) : Int := val (elem x (etWidth (laneEt g l)) e) (etWidth (laneEt g l)) (etSigned (laneEt g l))

/-- Exact work on the integers of the elements, fitted once. -/
theorem Computes.intElems {x y z : Group → Nat → Nat} {sat : Bool} {f : Group → Nat → Int → Int → Int → Int}
    (h : Computes i d fun g _ l => intElems (laneMode g l) sat (x g l) (y g l) (z g l) (f g l)) :
    ElemsSay i d fun g l e => fitLane g l sat (f g l (elemInt g l e (x g l)) (elemInt g l e (y g l)) (elemInt g l e (z g l))) :=
  let value (g : Group) (l n : Nat) : Int := val n (etWidth (laneEt g l)) (etSigned (laneEt g l))
  Computes.elems (f := fun g l n m k => fitLane g l sat (f g l (value g l n) (value g l m) (value g l k)))
    (p := fun g l e v => v = fitLane g l sat (f g l (elemInt g l e (x g l)) (elemInt g l e (y g l)) (elemInt g l e (z g l))))
    h fun _ _ _ _ => Nat.mod_eq_of_lt (fit_lt _ _ _ _)

theorem vecArith_says {sat : Bool} (f : Int → Int → Int → Int) (he : ∀ s, exec i s = vecArith (encode i) d a b sat f s) :
    ElemsSay i d fun g l e => fitLane g l sat (f (srcInt g a l e) (srcInt g b l e) (srcInt g d l e)) :=
  Computes.intElems (f := fun _ _ => f) (computes_of_vecOp he fun _ _ => rfl)

theorem mulh_computes (d a b : BitVec 8) : Computes (.mulh d a b) d.toNat fun g _ l =>
    intElems (laneMode g l) false (laneSrc g a.toNat l) (laneSrc g b.toNat l) 0 fun x y _ => x * y / 2 ^ etWidth (laneEt g l) :=
  computes_of_vecOp (f := fun g m l => intElems m false (readN g a.toNat (etWide (mEtype m)) l) (readN g b.toNat (etWide (mEtype m)) l) 0
    fun x y _ => x * y / 2 ^ etWidth (mEtype m)) (fun _ => rfl) fun _ _ => rfl

/-! ## One-source elementwise work (R84) -/

theorem vecUnary_computes {f : Nat → Nat → Nat} (he : ∀ s, exec i s = vecUnary (encode i) d a f s) :
    Computes i d fun g _ l => mapElems (laneMode g l) (laneSrc g a l) 0 0 fun x _ _ => f (etWidth (laneEt g l)) x :=
  computes_of_vecOp he fun _ _ => rfl

theorem vecUnary_says {f : Nat → Nat → Nat} {p : Group → Nat → Nat → Nat → Prop} (he : ∀ s, exec i s = vecUnary (encode i) d a f s)
    (hp : ∀ g l e, p g l e (f (etWidth (laneEt g l)) (srcElem g a l e) % 2 ^ etWidth (laneEt g l))) :
    VecSays i d fun g _ l v => ∀ e, e < etCount (laneEt g l) → p g l e (elem v (etWidth (laneEt g l)) e) :=
  (vecUnary_computes he).elems fun g l e _ => hp g l e

theorem vecUnary_bits {f : Nat → Nat → Nat} {bit : Group → Nat → Nat → Nat → Bool} (he : ∀ s, exec i s = vecUnary (encode i) d a f s)
    (hb : ∀ g l e j, j < etWidth (laneEt g l) → (f (etWidth (laneEt g l)) (srcElem g a l e)).testBit j = bit g l e j) : ElemBitsSay i d bit :=
  (vecUnary_computes he).elemBits hb

/-! ## Work on the whole word (R85) -/

theorem vecBits_says {f : Nat → Nat → Nat → Nat} {bit : Group → Nat → Nat → Bool} (he : ∀ s, exec i s = vecBits (encode i) d a b f s)
    (hb : ∀ g l j, j < laneBitsOf g l → (f (laneBitsOf g l) (laneSrc g a l) (laneSrc g b l)).testBit j = bit g l j) : BitsSay i d bit :=
  (computes_of_vecOp he fun _ _ => rfl).bitsSay fun g _ l j _ hj => hb g l j hj

/-- The complement of an operand, bit by bit. -/
theorem testBit_ones_laneSrc (g : Group) (code l : Nat) {j : Nat} (hj : j < laneBitsOf g l) :
    (ones (laneBitsOf g l) - laneSrc g code l).testBit j = !(laneSrc g code l).testBit j := by
  rw [testBit_ones_sub j (laneSrc_lt g code l), decide_eq_true hj, Bool.true_and]

/-! ## Shifts (R86, R91) -/

/-- A wide type has one element. -/
theorem etCount_of_wide {et : Nat} (h : etWide et = true) : etCount et = 1 := by
  have hcases : et = 6 ∨ et = 7 ∨ et = 11 := by simpa [etWide, or_assoc] using h
  rcases hcases with rfl | rfl | rfl <;> rfl

/-- The amount by which a register shift moves element e: packed types take it from the same element of b, which is then a 32-bit operand. -/
theorem shiftAmount_eq (g : Group) (b l e : Nat) :
    (if etCount (laneEt g l) = 1 then (readV g b l).toNat else elem (readV g b l).toNat (etWidth (laneEt g l)) e) = shiftAmount g b l e := by
  unfold shiftAmount
  split
  · rfl
  · rename_i h
    have hw : laneWide g l = false := Bool.eq_false_iff.mpr fun hw => h (etCount_of_wide hw)
    rw [srcElem, laneSrc, hw]
    rfl

theorem vecShift_bits {f : Nat → Nat → Nat → Nat} {bit : Nat → Nat → Nat → Nat → Bool} (he : ∀ s, exec i s = vecShift (encode i) d a b f s)
    (hb : ∀ w x k j, x < 2 ^ w → j < w → (f w x k).testBit j = bit w x k j) :
    ElemBitsSay i d fun g l e j => bit (etWidth (laneEt g l)) (srcElem g a l e) (shiftAmount g b l e) j :=
  Computes.elemBits (x := fun g l => laneSrc g a l) (y := fun g l => (readV g b l).toNat) (z := fun _ _ => 0)
    (f := fun g l x y _ => f (etWidth (laneEt g l)) x (if etCount (laneEt g l) = 1 then (readV g b l).toNat else y))
    (computes_of_vecOp he fun _ _ => rfl) fun g l e j hj => by
      rw [shiftAmount_eq]
      exact hb _ _ _ j (srcElem_lt g a l e) hj

theorem vecShiftImm_bits {k : Nat} {f : Nat → Nat → Nat → Nat} {bit : Nat → Nat → Nat → Nat → Bool} (he : ∀ s, exec i s = vecShiftImm (encode i) d a k f s)
    (hb : ∀ w x k j, x < 2 ^ w → j < w → (f w x k).testBit j = bit w x k j) :
    ElemBitsSay i d fun g l e j => bit (etWidth (laneEt g l)) (srcElem g a l e) k j :=
  vecUnary_bits he fun g l e j hj => hb _ _ _ j (srcElem_lt g a l e) hj

end Sys2Proof.Machine

namespace Sys2Proof
open Machine

/-- Settles O1: six instructions of the shape vecArith; MULH, which fits the high half, is elementwise work on integers too. -/
theorem vectorArithmetic : Obligations.VectorArithmetic := by
  intro d a b
  refine ⟨vecArith_says (fun x y _ => x + y) fun _ => rfl, vecArith_says (fun x y _ => x - y) fun _ => rfl, vecArith_says (fun x y _ => x * y) fun _ => rfl, ?_,
    vecArith_says (fun x y z => x * y + z) fun _ => rfl, ?_, ?_⟩
  · exact Computes.intElems (z := fun _ _ => 0) (f := fun g l x y _ => x * y / 2 ^ etWidth (laneEt g l)) (mulh_computes d a b)
  · simpa only [min_def] using vecArith_says (i := .min d a b) (fun x y _ => min x y) fun _ => rfl
  · simpa only [max_def] using vecArith_says (i := .max d a b) (fun x y _ => max x y) fun _ => rfl

/-- Settles O2: each is work on the whole word, whose bits the library gives. -/
theorem vectorBitwise : Obligations.VectorBitwise := by
  intro d a b
  refine ⟨encode_bytes rfl, encode_bytes rfl, encode_bytes rfl, encode_bytes rfl, ?_, ?_, ?_, ?_⟩
  · exact vecBits_says (f := fun _ x y => x &&& y) (fun _ => rfl) fun _ _ j _ => Nat.testBit_and _ _ j
  · exact vecBits_says (f := fun _ x y => x ||| y) (fun _ => rfl) fun _ _ j _ => Nat.testBit_or _ _ j
  · exact vecBits_says (f := fun _ x y => x ^^^ y) (fun _ => rfl) fun _ _ j _ => Nat.testBit_xor _ _ j
  · refine vecBits_says (f := fun w x y => x &&& (ones w - y)) (fun _ => rfl) fun g l j hj => ?_
    rw [Nat.testBit_and, testBit_ones_laneSrc g _ l hj]

end Sys2Proof
end

section
/-! Selection, predicates, bit fields and shifts (O3, O4). -/
namespace Sys2Proof.Machine

/-! ## Selection and predicates (R88 to R90) -/

/-- The conditions of CMP and UCMP (R89). -/
theorem intCond_eq (cond : BitVec 4) (x y : Int) : intCond cond.toNat x y =
    if cond = 0 then decide (x = y) else if cond = 1 then decide (x ≠ y) else if cond = 2 then decide (x < y)
    else if cond = 3 then decide (x ≤ y) else if cond = 4 then decide (y < x) else decide (y ≤ x) := by
  obtain ⟨n⟩ := cond
  fin_cases n <;> rfl

/-- The operations of PLOG (R90). -/
theorem boolOp_eq (op : BitVec 4) (x y : Bool) : boolOp op.toNat x y = if op = 0 then x && y else if op = 1 then x || y else x ^^ y := by
  obtain ⟨n⟩ := op
  fin_cases n <;> rfl

/-- The guard fields that read no predicate (01 R25): p7 reads true, and its complement false. -/
theorem guardTrue_const (g : Group) (l : Nat) :
    (mGuard (laneMode g l) = 7 → guardTrue g l = true) ∧ (mGuard (laneMode g l) = 15 → guardTrue g l = false) := by
  have h : guardTrue g l = readP g (mGuard (laneMode g l)) l := rfl
  rw [h]
  exact ⟨fun h7 => by rw [h7]; rfl, fun h15 => by rw [h15]; rfl⟩

theorem wOp_cmp (cond pd : BitVec 4) (a b : BitVec 8) : wOp (encode (.cmp cond pd a b)) = 0x19 :=
  wOp_encode rfl (by decide) (Nat.lt_of_le_of_lt
    (Laws.fields_le cond 20 (Laws.fields_le pd 16 (Laws.fields_le a 8 (Laws.fields_le b 0 (Nat.le_refl 0))))) (by decide))

/-- An operand of a SCALAR instruction is its only element. -/
theorem srcInt_scalar {g : Group} {l : Nat} (code : Nat) (h : etWidth (laneEt g l) = laneBitsOf g l) :
    srcInt g code l 0 = val (laneSrc g code l) (etWidth (laneEt g l)) (etSigned (laneEt g l)) := by
  rw [srcInt, srcElem, elem_zero_of_lt (h ▸ laneSrc_lt g code l)]

theorem cmp_says (cond pd : BitVec 4) (a b : BitVec 8) :
    PredSays (.cmp cond pd a b) pd.toNat fun g _ l => intCond cond.toNat (srcInt g a.toNat l 0) (srcInt g b.toNat l 0) := by
  refine predSays_of_pput (f := fun g _ l => intCond cond.toNat (val (laneSrc g a.toNat l) (etWidth (laneEt g l)) (etSigned (laneEt g l)))
    (val (laneSrc g b.toNat l) (etWidth (laneEt g l)) (etSigned (laneEt g l)))) (fun _ => rfl) fun g c l het => ?_
  rw [wOp_cmp] at het
  have hw := etWidth_of_scalar het
  simp only [laneSrc, laneEt, counted_readN, counted_laneWide, counted_laneMode]
  rw [srcInt_scalar _ hw, srcInt_scalar _ hw]
  rfl

theorem plog_says (op pd pa pb : BitVec 4) : PredSays (.plog op pd pa pb) pd.toNat fun g _ l => boolOp op.toNat (readP g pa.toNat l) (readP g pb.toNat l) :=
  predSays_of_pput (f := fun g _ l => boolOp op.toNat (readP g pa.toNat l) (readP g pb.toNat l)) (fun _ => rfl) fun _ _ _ _ => rfl

/-- SEL writes the running lanes, whatever their guard (R88). -/
theorem sel_completes {s : State} {c : Ctx} {d a b : BitVec 8} (hc : issuer s = some c) (hi : issues (encode (.sel d a b)) s = true) :
    Completes (.sel d a b) s fun t => VecResult s t c d.toNat (runs (s.group c.gid) c) (laneWide (s.group c.gid))
      fun l => laneSrc (s.group c.gid) (if guardTrue (s.group c.gid) l then a.toNat else b.toNat) l := by
  have he : exec (.sel d a b) s = execSel d a b s := rfl
  refine ⟨_, he.trans (issueRegs_completes _ hc hi), ?_⟩
  simp only [counted_runs_eq, counted_laneWide_eq, counted_guardTrue, counted_readN]
  exact vwrite_result s c _ _ _ _ fun l hl hr hw => wide_ctxSlices hl hr hw

/-! ## Bit fields (R87) -/

theorem wOp_bfe (d a b : BitVec 8) : wOp (encode (.bfe d a b)) = 0x16 := wOp_bytes (o := 0x16) rfl
theorem wOp_bfi (d a b : BitVec 8) : wOp (encode (.bfi d a b)) = 0x17 := wOp_bytes (o := 0x17) rfl

/-- A field that BFE and BFI name ends within the operand, where it has any bits. -/
theorem fieldOf_le {b : Word} {w : Nat} (h : (fieldOf b w).2 ≠ 0) : (fieldOf b w).1 + (fieldOf b w).2 ≤ w := by
  unfold fieldOf at *
  dsimp only at *
  omega

/-- What BFE makes of an operand x under an element type: the field that b names, as wide as the operand. -/
def bfeOf (et x : Nat) (b : Word) : Nat :=
  let p := fieldOf b (etWidth et)
  if p.2 = 0 then 0 else (val (x / 2 ^ p.1 % 2 ^ p.2) p.2 (etSigned et) % (2 ^ etWidth et : Int)).toNat

/-- What BFI makes of the operand old under an element type: the field that b names is taken from x. -/
def bfiOf (et old x : Nat) (b : Word) : Nat :=
  let p := fieldOf b (etWidth et)
  if p.2 = 0 then old else old - old / 2 ^ p.1 % 2 ^ p.2 * 2 ^ p.1 + x % 2 ^ p.2 * 2 ^ p.1

theorem testBit_bfeOf {et j : Nat} (x : Nat) (b : Word) (hj : j < etWidth et) :
    let p := fieldOf b (etWidth et)
    (bfeOf et x b).testBit j = if j < p.2 then x.testBit (p.1 + j) else etSigned et && decide (p.2 ≠ 0) && x.testBit (p.1 + p.2 - 1) := by
  intro p
  by_cases hz : p.2 = 0
  · have hv : bfeOf et x b = 0 := if_pos hz
    rw [hv, Nat.zero_testBit, if_neg (by omega), decide_eq_false (not_not.mpr hz), Bool.and_false, Bool.false_and]
  · have hv : bfeOf et x b = (val (x / 2 ^ p.1 % 2 ^ p.2) p.2 (etSigned et) % (2 ^ etWidth et : Int)).toNat := if_neg hz
    have hle : p.1 + p.2 ≤ etWidth et := fieldOf_le hz
    have hlast : (x / 2 ^ p.1 % 2 ^ p.2).testBit (p.2 - 1) = x.testBit (p.1 + p.2 - 1) := by
      rw [testBit_field, decide_eq_true (by omega), Bool.true_and, show p.1 + (p.2 - 1) = p.1 + p.2 - 1 by omega]
    rw [hv, testBit_extend _ (Nat.mod_lt _ (Nat.two_pow_pos _)) (by omega) hj, hlast, decide_eq_true hz, Bool.and_true]
    split
    · rename_i hf
      rw [testBit_field, decide_eq_true hf, Bool.true_and]
    · rfl

theorem testBit_bfiOf (et old x : Nat) (b : Word) (j : Nat) :
    let p := fieldOf b (etWidth et)
    (bfiOf et old x b).testBit j = if p.1 ≤ j ∧ j < p.1 + p.2 then x.testBit (j - p.1) else old.testBit j := by
  intro p
  by_cases hz : p.2 = 0
  · have hv : bfiOf et old x b = old := if_pos hz
    rw [hv, if_neg (by omega)]
  · have hv : bfiOf et old x b = old - old / 2 ^ p.1 % 2 ^ p.2 * 2 ^ p.1 + x % 2 ^ p.2 * 2 ^ p.1 := if_neg hz
    rw [hv, testBit_putField]

/-- R87. -/
theorem bitFields_holds : bitFields := by
  intro d a b
  have hbfe : Computes (.bfe d a b) d.toNat fun g _ l => bfeOf (laneEt g l) (laneSrc g a.toNat l) (readV g b.toNat l) :=
    computes_of_vecOp (f := fun g m l => bfeOf (mEtype m) (readN g a.toNat (etWide (mEtype m)) l) (readV g b.toNat l)) (fun _ => rfl) fun _ _ => rfl
  have hbfi : Computes (.bfi d a b) d.toNat fun g _ l => bfiOf (laneEt g l) (laneSrc g d.toNat l) (laneSrc g a.toNat l) (readV g b.toNat l) :=
    computes_of_vecOp (f := fun g m l => bfiOf (mEtype m) (readN g d.toNat (etWide (mEtype m)) l) (readN g a.toNat (etWide (mEtype m)) l) (readV g b.toNat l))
      (fun _ => rfl) fun _ _ => rfl
  refine ⟨hbfe.bitsSay fun g _ l j het hj => ?_, hbfi.bitsSay fun g _ l j het hj => ?_⟩
  · rw [wOp_bfe] at het
    have hw := etWidth_of_scalar het
    rw [testBit_bfeOf _ _ (hw ▸ hj), hw]
    rfl
  · rw [wOp_bfi] at het
    rw [testBit_bfiOf, etWidth_of_scalar het]
    rfl

/-- R86. -/
theorem vectorShifts_holds : vectorShifts := by
  intro d a b
  refine ⟨?_, ?_, ?_, ?_⟩
  · exact vecShift_bits (bit := fun _ x k j => decide (k ≤ j) && x.testBit (j - k)) (fun _ => rfl) fun _ _ _ _ _ hj => testBit_shl hj
  · exact vecShift_bits (bit := fun _ x k j => x.testBit (j + k)) (fun _ => rfl) fun _ _ k j hx _ => testBit_shr k j hx
  · exact vecShift_bits (bit := fun w x k j => x.testBit (if j + k < w then j + k else w - 1)) (fun _ => rfl) fun _ _ k _ hx hj => testBit_sar k hx hj
  · exact vecShift_bits (bit := fun w x k j => x.testBit ((j + w - k % w) % w)) (fun _ => rfl) fun _ _ k _ hx hj => testBit_rol k hx hj

/-! ## One source, and immediate forms (R84, R91) -/

theorem natAbs_eq_ite (x : Int) : (x.natAbs : Int) = if 0 ≤ x then x else -x := by
  split <;> omega

/-- R84. -/
theorem vectorOneSource_holds : vectorOneSource := by
  intro d a
  refine ⟨?_, ?_, ?_, ?_, ?_, ?_, ?_⟩
  · simpa only [natAbs_eq_ite] using vecArith_says (i := .abs d a) (fun x _ _ => (x.natAbs : Int)) fun _ => rfl
  · exact vecArith_says (fun x _ _ => -x) fun _ => rfl
  · exact vecBits_says (b := a.toNat) (f := fun w x _ => ones w - x) (fun _ => rfl) fun g l _ hj => testBit_ones_laneSrc g a.toNat l hj
  · refine vecUnary_says (f := popBits) (p := fun g l e v => v = _) (fun _ => rfl) fun g l e => ?_
    rw [Nat.mod_eq_of_lt (popBits_lt _ _), popBits_eq_countP]
  · refine vecUnary_says (f := leadBits) (p := fun g l e n => n ≤ etWidth (laneEt g l) ∧
      (∀ j, etWidth (laneEt g l) - n ≤ j → j < etWidth (laneEt g l) → (srcElem g a.toNat l e).testBit j = false) ∧
      (n < etWidth (laneEt g l) → (srcElem g a.toNat l e).testBit (etWidth (laneEt g l) - 1 - n) = true)) (fun _ => rfl) fun g l e => ?_
    obtain ⟨hle, hzero, hone⟩ := leadBits_spec (srcElem_lt g a.toNat l e)
    rw [Nat.mod_eq_of_lt (hle.trans_lt Nat.lt_two_pow_self)]
    exact ⟨hle, fun j hj _ => hzero j hj, hone⟩
  · refine vecUnary_bits (f := revBits) (fun _ => rfl) fun g l e j hj => ?_
    rw [testBit_revBits, decide_eq_true hj, Bool.true_and]
  · exact vecBits_says (b := a.toNat) (f := fun _ x _ => x) (fun _ => rfl) fun _ _ _ _ => rfl

/-- R91. -/
theorem vectorImmediates_holds : vectorImmediates := by
  refine ⟨fun d a imm => ⟨?_, ?_, ?_, ?_, ?_, ?_⟩, fun d imm => ⟨?_, ?_⟩⟩
  · exact Computes.intElems (x := fun g l => laneSrc g a.toNat l) (y := fun _ _ => 0) (z := fun _ _ => 0) (f := fun _ _ x _ _ => x + imm.toInt)
      (computes_of_vecOp (f := fun g m l => intElems m true (readN g a.toNat (etWide (mEtype m)) l) 0 0 fun x _ _ => x + imm.toInt) (fun _ => rfl) fun _ _ => rfl)
  · exact vecShiftImm_bits (bit := fun _ x k j => decide (k ≤ j) && x.testBit (j - k)) (fun _ => rfl) fun _ _ _ _ _ hj => testBit_shl hj
  · exact vecShiftImm_bits (bit := fun _ x k j => x.testBit (j + k)) (fun _ => rfl) fun _ _ k j hx _ => testBit_shr k j hx
  · exact vecShiftImm_bits (bit := fun w x k j => x.testBit (if j + k < w then j + k else w - 1)) (fun _ => rfl) fun _ _ k _ hx hj => testBit_sar k hx hj
  · exact vecBits_says (b := a.toNat) (f := fun _ x _ => x &&& imm.toNat) (fun _ => rfl) fun _ _ j _ => Nat.testBit_and _ _ j
  · exact vecBits_says (b := a.toNat) (f := fun _ x _ => x ||| imm.toNat) (fun _ => rfl) fun _ _ j _ => Nat.testBit_or _ _ j
  · exact laneSays_of_vput (f := fun _ _ _ _ => imm.signExtend 32) (fun _ => rfl) fun _ _ _ => rfl
  · refine laneSays_of_vput (f := fun _ g _ l => imm ++ (readV g d.toNat l).setWidth 16) (fun _ => rfl) fun s c l => ?_
    rw [BitVec.setWidth_eq_extractLsb' (by decide)]
    rfl

end Sys2Proof.Machine

namespace Sys2Proof
open Machine

/-- Settles O3: SEL writes by lane where the lane runs, CMP and PLOG write a predicate where it is active. -/
theorem selectAndPredicates : Obligations.SelectAndPredicates := by
  refine ⟨fun d a b => encode_bytes rfl, guardTrue_const, fun d a b s c hc hi => ?_, fun cond pd a b => ?_, fun op pd pa pb => ?_⟩
  · obtain ⟨t, ht, hr⟩ := sel_completes hc hi
    exact ⟨t, ht, _, hr, fun _ _ _ => rfl⟩
  · simpa only [intCond_eq] using cmp_says cond pd a b
  · simpa only [boolOp_eq] using plog_says op pd pa pb

/-- Settles O4: the shifts move bits of one element; a bit field is cut out and extended, or put in place. -/
theorem vectorShiftsAndFields : Obligations.VectorShiftsAndFields := ⟨vectorShifts_holds, bitFields_holds⟩

/-- Settles O5: the same laws of shapes, with one source or an immediate. -/
theorem vectorOneSourceAndImmediates : Obligations.VectorOneSourceAndImmediates := ⟨vectorOneSource_holds, vectorImmediates_holds⟩

end Sys2Proof
end

section
/-! Lane instructions (O6, O7): copies from a chosen lane, votes, reductions over the active lanes. -/
namespace Sys2Proof.Machine

variable {i : Instr} {d a : Nat} {g : Group} {c : Ctx}

/-! ## Copies (R94) -/

/-- A copy of a from the lane that pick names, or from the reader itself (R93). -/
theorem laneCopy_says {pick : Group → Nat → Nat} (he : ∀ s, exec i s = laneCopy (encode i) d a pick s) (hpick : ∀ g c, pick (counted g c) = pick g) :
    WordSays i d fun g c l => readN g a (laneWide g l) (sourceLane g c l (pick g l)) := by
  refine Computes.wordSays (computes_of_vwrite he fun g c => funext fun l => ?_)
  rw [hpick, sourceLane, sourceLane, counted_runs, counted_laneWide, counted_readN]

/-! ## The active lanes as a list and as a set (R95) -/

theorem lanesOf_activeSet (g : Group) (c : Ctx) : lanesOf (activeSet g c) = (List.range 256).filter (isActive g c) :=
  List.filter_congr fun l hl => laneSet_bit _ l (List.mem_range.mp hl)

/-- Two sets of lanes are equal when they hold the same lanes. -/
theorem laneSet_eq_iff {p q : Nat → Bool} : laneSet p = laneSet q ↔ ∀ l, l < 256 → p l = q l := by
  refine ⟨fun h l hl => ?_, fun h => BitVec.eq_of_getLsbD_eq fun l hl => ?_⟩
  · rw [← laneSet_bit p l hl, ← laneSet_bit q l hl, h]
  · rw [laneSet_bit p l hl, laneSet_bit q l hl, h l hl]

theorem laneSet_never : laneSet (fun _ => false) = 0 :=
  BitVec.eq_of_getLsbD_eq fun l hl => by rw [laneSet_bit _ l hl]; exact BitVec.getLsbD_zero.symm

/-- Some active lane votes. -/
theorem ballot_ne_zero (g : Group) (c : Ctx) (p : Nat) : (ballot g c p != 0) = (List.range 256).any fun k => isActive g c k && readP g p k := by
  rw [Bool.eq_iff_iff, bne_iff_ne, ne_eq, ← laneSet_never, ballot, laneSet_eq_iff, List.any_eq_true]
  simp

/-- Every active lane votes. -/
theorem ballot_eq_activeSet (g : Group) (c : Ctx) (p : Nat) :
    (ballot g c p == activeSet g c) = (List.range 256).all fun k => !isActive g c k || readP g p k := by
  rw [Bool.eq_iff_iff, beq_iff_eq, ballot, activeSet, laneSet_eq_iff, List.all_eq_true]
  refine forall_congr' fun k => ?_
  rw [List.mem_range]
  cases isActive g c k <;> simp

theorem counted_ballot (g : Group) (c k : Ctx) (p : Nat) : ballot (counted g c) k p = ballot g k p := by
  unfold ballot
  simp only [counted_isActive, counted_readP]

/-- The part of the ballot that VOTE.BAL gives a lane. -/
theorem ballot_window (g : Group) (c : Ctx) (p l j : Nat) (hj : j < 32) :
    ((ballot g c p >>> (32 * (l % 8))).setWidth 32).getLsbD j = (isActive g c (32 * (l % 8) + j) && readP g p (32 * (l % 8) + j)) := by
  rw [BitVec.getLsbD_setWidth, decide_eq_true hj, Bool.true_and, BitVec.getLsbD_ushiftRight, ballot, laneSet_bit _ _ (by omega)]

/-! ## Reductions and scans (R96) -/

/-- Each active lane combines a over the active lanes that it selects. -/
theorem laneFold_says {op : Nat} {sel : Nat → Nat → Bool} (he : ∀ s, exec i s = laneFold (encode i) d a op sel s) :
    WordSays i d fun g c l =>
      combine op (laneMode g l) (((List.range 256).filter fun k => isActive g c k && sel k l).map fun k => readN g a (laneWide g l) k) := by
  have h : Computes i d fun g c l => combine op (laneMode g l) (((lanesOf (activeSet g c)).filter fun k => sel k l).map fun k => readN g a (laneWide g l) k) :=
    computes_of_vwrite he fun g c => funext fun l => by
      rw [counted_activeSet, counted_laneMode, counted_laneWide]
      simp only [counted_readN]
  simpa only [lanesOf_activeSet, List.filter_filter, Bool.and_comm] using h.wordSays

/-! ## MATCH (R97) -/

/-- The lowest active lane whose a equals that of lane l. -/
def matchLane (g : Group) (c : Ctx) (a l : Nat) : Nat :=
  ((lanesOf (activeSet g c)).find? fun k => readN g a (laneWide g l) k == readN g a (laneWide g l) l).getD l

theorem counted_matchLane (g : Group) (c k : Ctx) (a l : Nat) : matchLane (counted g c) k a l = matchLane g k a l := by
  unfold matchLane
  simp only [counted_activeSet, counted_laneWide, counted_readN]

/-- An active lane finds a lane, since its own a equals itself. -/
theorem matchLane_spec {l : Nat} (hl : l < 256) (ha : isActive g c l = true) : matchLane g c a l ≤ l ∧ isActive g c (matchLane g c a l) = true ∧
    readN g a (laneWide g l) (matchLane g c a l) = readN g a (laneWide g l) l ∧
    ∀ k, k < matchLane g c a l → isActive g c k = true → readN g a (laneWide g l) k ≠ readN g a (laneWide g l) l := by
  have hfind : (lanesOf (activeSet g c)).find? (fun k => readN g a (laneWide g l) k == readN g a (laneWide g l) l) =
      (List.range 256).find? fun k => decide (isActive g c k = true ∧ readN g a (laneWide g l) k = readN g a (laneWide g l) l) := by
    rw [lanesOf_activeSet, List.find?_filter]
    simp only [beq_iff_eq]
  obtain ⟨m, hm⟩ : ∃ m, (List.range 256).find? (fun k => decide (isActive g c k = true ∧ readN g a (laneWide g l) k = readN g a (laneWide g l) l)) = some m :=
    Option.isSome_iff_exists.mp (List.find?_isSome.mpr ⟨l, List.mem_range.mpr hl, decide_eq_true ⟨ha, rfl⟩⟩)
  have hmatch : matchLane g c a l = m := by rw [matchLane, hfind, hm, Option.getD_some]
  obtain ⟨hp, -, hlow⟩ := List.find?_range_eq_some.mp hm
  obtain ⟨hma, hmr⟩ := of_decide_eq_true hp
  rw [hmatch]
  refine ⟨Nat.le_of_not_lt fun h => ?_, hma, hmr, fun k hk hka hkr => ?_⟩
  · simpa [ha] using hlow l h
  · simpa [hka, hkr] using hlow k hk

end Sys2Proof.Machine

namespace Sys2Proof
open Machine

/-- Settles O6: three choices of the lane to read, one law (`laneCopy_says`). -/
theorem laneCopies : Obligations.LaneCopies := by
  intro d a b
  refine ⟨encode_bytes rfl, encode_bytes rfl, encode_bytes rfl, ?_, ?_, ?_⟩
  · exact laneCopy_says (pick := fun g l => (readV g b.toNat l).toNat) (fun _ => rfl) fun _ _ => rfl
  · exact laneCopy_says (pick := fun _ l => l ^^^ b.toNat) (fun _ => rfl) fun _ _ => rfl
  · exact laneCopy_says (pick := fun _ _ => b.toNat) (fun _ => rfl) fun _ _ => rfl

/-- Settles O7: the votes are facts about the ballot as a set of lanes, REDU and SCAN are one fold, and MATCH finds the lowest lane (`matchLane_spec`). -/
theorem laneReductions : Obligations.LaneReductions := by
  intro d a
  refine ⟨encode_bytes rfl, ?_, ?_, fun s c hc hi => ?_, fun o => ?_, fun e o => ?_, fun s c hc hi => ?_⟩
  · refine predSays_of_pput (f := fun g c _ => ballot g c (a.toNat % 16) != 0) (fun _ => rfl) fun g c l _ => ?_
    rw [counted_ballot, ballot_ne_zero]
  · refine predSays_of_pput (f := fun g c _ => ballot g c (a.toNat % 16) == activeSet g c) (fun _ => rfl) fun g c l _ => ?_
    rw [counted_ballot, counted_activeSet, ballot_eq_activeSet]
  · obtain ⟨t, ht, hr⟩ := laneSays_of_vput (i := .voteBal d a) (f := fun _ g c l => (ballot g c (a.toNat % 16) >>> (32 * (l % 8))).setWidth 32)
      (f' := fun _ g c l => (ballot g c (a.toNat % 16) >>> (32 * (l % 8))).setWidth 32) (fun _ => rfl) (fun s c l => by rw [counted_ballot]) s c hc hi
    exact ⟨t, ht, _, hr, fun l j _ hj => ballot_window _ c _ l j hj⟩
  · simpa only [Bool.and_true] using laneFold_says (i := .redu d a o) fun _ => rfl
  · exact laneFold_says fun _ => rfl
  · obtain ⟨t, ht, hr⟩ := laneSays_of_vput (i := .laneMatch d a) (f := fun _ g c l => BitVec.ofNat 32 (matchLane g c a.toNat l))
      (f' := fun _ g c l => BitVec.ofNat 32 (matchLane g c a.toNat l)) (fun _ => rfl) (fun s c l => by rw [counted_matchLane]) s c hc hi
    exact ⟨t, ht, matchLane (s.group c.gid) c a.toNat, hr, fun l hl ha => matchLane_spec hl ha⟩

end Sys2Proof
end

section
/-! Uniform instructions (O8 to O10).

One law for each shape of the model (uniOp, uniArith, uniBits, uniShift) gives a uniform result at the width of the class. The trap of a split gang comes before
the rest of every uniform instruction (`issueUniform_split`), and before the checks of one that goes through the operand log. -/
namespace Sys2Proof.Machine

variable {i : Instr} {d a b : Nat} {s : State} {c : Ctx}

/-! ## Operands and results of the class (R99) -/

theorem uBits_pos (g : Group) : 0 < uBits g := by
  unfold uBits
  split <;> decide

theorem readUN_lt (s : State) (g : Group) (c : Ctx) (code : Nat) : readUN s g c code < 2 ^ uBits g := by
  unfold readUN uBits
  split
  · exact (readU64 s g c code).isLt
  · exact (readU s g c code).isLt

/-- The low bits of an operand's integer are the operand. -/
theorem uniLow_uniInt (s : State) (g : Group) (c : Ctx) (code : Nat) : uniLow g (uniInt s g c code) = readUN s g c code :=
  val_emod (uSigned g) (readUN_lt s g c code)

theorem UniSays.congr {f f' : State → Group → Ctx → Nat} (h : UniSays i d f) (e : ∀ s g c, f' s g c = f s g c) : UniSays i d f' := by
  have hf : f' = f := funext fun s => funext fun g => funext fun c => e s g c
  rwa [hf]

theorem uniOp_says {f : State → Group → Ctx → Nat} (he : ∀ s, exec i s = uniOp (encode i) d f s)
    (hf : ∀ s g c, f (countIssue s c) (counted g c) c = f s g c) : UniSays i d f := by
  intro s c hc hi hu
  refine ⟨_, (he s).trans (issueUniform_body d _ hc hi hu), ?_⟩
  rw [hf]
  exact writeUN_result s c d _

/-- Arithmetic on exact integers (R100). -/
theorem uniArith_says (f : Int → Int → Int → Int) (he : ∀ s, exec i s = uniArith (encode i) d a b f s) :
    UniSays i d fun s g c => uniLow g (f (uniInt s g c a) (uniInt s g c b) (uniInt s g c d)) :=
  uniOp_says he fun s g c => by simp only [uniLow, uniInt, countIssue_readUN, counted_uBits, counted_uSigned]

theorem uniBits_says (f : Nat → Nat → Nat) (he : ∀ s, exec i s = uniBits (encode i) d a b f s) :
    UniSays i d fun s g c => f (readUN s g c a) (readUN s g c b) :=
  uniOp_says he fun s g c => by simp only [countIssue_readUN]

theorem uniShift_says (f : Nat → Nat → Nat → Nat) (he : ∀ s, exec i s = uniShift (encode i) d a b f s) :
    UniSays i d fun s g c => f (uBits g) (readUN s g c a) (readU s g c b).toNat :=
  uniOp_says he fun s g c => by simp only [countIssue_readUN, countIssue_readU, counted_uBits]

/-! ## Shifts (R86, R100) -/

/-- The low bits of a shifted pattern. -/
theorem shl_eq_uniLow (g : Group) (x k : Nat) : shl (uBits g) x k = if k < uBits g then uniLow g ((x : Int) * 2 ^ k) else 0 := by
  unfold shl uniLow
  split
  · exact_mod_cast (Int.toNat_natCast (x * 2 ^ k % 2 ^ uBits g)).symm
  · rfl

theorem sar_eq_uniLow (g : Group) (x k : Nat) : sar (uBits g) x k = uniLow g (val x (uBits g) true / 2 ^ (if k < uBits g then k else uBits g - 1)) := by
  have hk : min k (uBits g - 1) = if k < uBits g then k else uBits g - 1 := by
    have := uBits_pos g
    split <;> omega
  rw [sar, hk, uniLow]

/-! ## Compares and single registers (R101, R102) -/

/-- Setting or clearing the bits of a mask. -/
theorem getLsbD_setMask {n : Nat} (x m : BitVec n) (v : Bool) (k : Nat) :
    (if v then x ||| m else x &&& ~~~m).getLsbD k = if m.getLsbD k then v else x.getLsbD k := by
  cases v with
  | true =>
    rw [if_pos rfl, BitVec.getLsbD_or]
    cases m.getLsbD k <;> simp
  | false =>
    rw [if_neg (by decide), BitVec.getLsbD_and, BitVec.getLsbD_not]
    by_cases hk : k < n
    · cases m.getLsbD k <;> simp [hk]
    · rw [BitVec.getLsbD_of_ge x k (by omega), Bool.false_and]
      cases m.getLsbD k <;> rfl

/-- A uniform predicate after a write by its P-field. -/
theorem qput_bit (g : Group) (q n : Nat) (v : Bool) (hn : n < 3) :
    (qput g q v).uq.getLsbD n = if q % 8 = n then v ^^ decide (8 ≤ q % 16) else g.uq.getLsbD n := by
  by_cases h3 : q % 8 = 3
  · rw [qput, if_pos h3, if_neg (by omega)]
  · have hbit : (1#3 <<< (q % 8)).getLsbD n = decide (q % 8 = n) := by
      rw [← BitVec.twoPow_eq, BitVec.getLsbD_twoPow, Bool.and_eq_right_iff_imp]
      exact fun h => decide_eq_true (of_decide_eq_true h ▸ hn)
    rw [qput, if_neg h3, getLsbD_setMask, hbit]
    simp only [decide_eq_true_eq]

theorem qput_eq (g : Group) (q : Nat) (v : Bool) : qput g q v = { g with uq := (qput g q v).uq } := by
  unfold qput
  split <;> rfl

/-- A uniform predicate written by qput. -/
theorem qput_result (s : State) (c : Ctx) (q : Nat) (v : Bool) :
    QResult s (retire (countIssue s c) c (qput (counted (s.group c.gid) c) q v)) c q v := by
  obtain ⟨hv, hp, hu, hq⟩ := retire_regs (countIssue s c) c (qput (counted (s.group c.gid) c) q v)
  have he := qput_eq (counted (s.group c.gid) c) q v
  refine ⟨⟨retire_frame s c _ (s.group c.gid).vregs (s.group c.gid).preds (s.group c.gid).uregs _ he, ?_, ?_, ?_, ?_⟩, ?_, ?_⟩
  · intro n l _
    rw [vget_congr hv, he]
    rfl
  · intro n _
    rw [hp, he]
    rfl
  · intro n _
    rw [uget_congr hu, he]
    rfl
  · intro n hn
    rw [atReg, beq_eq_false_iff_ne] at hn
    rw [hq]
    by_cases h : n < 3
    · rw [qput_bit _ _ _ _ h, if_neg (Ne.symm hn), counted_uq]
    · rw [BitVec.getLsbD_of_ge _ _ (by omega), BitVec.getLsbD_of_ge _ _ (by omega)]
  · intro h3
    rw [hq, qput, if_pos h3, counted_uq]
  · intro hlt
    rw [hq, qput_bit _ _ _ _ hlt, if_pos rfl]

/-- One uniform register written by uput. -/
theorem uput_result (s : State) (c : Ctx) (d : Nat) (x : Word) :
    UniResult s (retire (countIssue s c) c (uput (counted (s.group c.gid) c) d x)) c d false x.toNat := by
  obtain ⟨hv, hp, hu, hq⟩ := retire_regs (countIssue s c) c (uput (counted (s.group c.gid) c) d x)
  refine ⟨⟨retire_frame s c _ (s.group c.gid).vregs (s.group c.gid).preds _ (s.group c.gid).uq rfl, ?_, ?_, ?_, ?_⟩, ?_, nofun⟩
  · intro n l _
    rw [vget_congr hv]
    rfl
  · intro n _
    rw [hp]
    rfl
  · intro n hn
    rw [if_neg (by decide), atReg, beq_eq_false_iff_ne] at hn
    rw [uget_congr hu, uget_uput_ne _ _ _ _ (Ne.symm hn), counted_uget]
  · intro n _
    rw [hq]
    rfl
  · rw [uget_congr hu, uget_uput_self, BitVec.ofNat_toNat, BitVec.setWidth_eq]

theorem uni32Says_of_uput {f f' : Group → Word}
    (he : ∀ s, exec i s = issueUniform (encode i) d s fun c g t => .next (retire t c (uput g d (f g))))
    (hf : ∀ g c, f (counted g c) = f' g) : Uni32Says i d fun _ g _ => f' g := by
  intro s c hc hi hu
  refine ⟨_, (he s).trans (issueUniform_body d _ hc hi hu), ?_⟩
  rw [hf]
  exact uput_result s c d _

theorem ucmp_completes {cond p : BitVec 4} {a b : BitVec 8} (hc : issuer s = some c) (hi : issues (encode (.ucmp cond p a b)) s = true)
    (hu : uniformSplit (s.group c.gid) c = false) :
    Completes (.ucmp cond p a b) s fun t => QResult s t c p.toNat
      (intCond cond.toNat (uniInt s (s.group c.gid) c a.toNat) (uniInt s (s.group c.gid) c b.toNat)) := by
  have he : exec (.ucmp cond p a b) s = execUcmp cond p a b s := rfl
  refine ⟨_, he.trans (issueUniform_body _ _ hc hi hu), ?_⟩
  simp only [counted_uBits, counted_uSigned, countIssue_readUN]
  exact qput_result s c _ _

/-- R101, R102. -/
theorem uniformMovesAndCompare_holds : uniformMovesAndCompare := by
  refine ⟨fun cond p a b s c hc hi hu => ?_, fun d a b => ?_, fun d a => ?_, fun d imm => ⟨?_, ?_⟩⟩
  · simpa only [intCond_eq] using ucmp_completes hc hi hu
  · have hq (g : Group) : readQ g 0 = g.uq.getLsbD 0 := Bool.xor_false _
    have h := uniOp_says (i := .usel d a b) (f := fun s g c => readUN s g c (if readQ g 0 then a.toNat else b.toNat)) (fun _ => rfl)
      fun s g c => by rw [counted_readQ, countIssue_readUN]
    simpa only [hq] using h
  · exact uniBits_says (b := a.toNat) (fun x _ => x) fun _ => rfl
  · exact uni32Says_of_uput (f := fun _ => imm.signExtend 32) (fun _ => rfl) fun _ _ => rfl
  · refine uni32Says_of_uput (f := fun g => imm ++ (uget g d.toNat).setWidth 16) (fun _ => rfl) fun g c => ?_
    rw [BitVec.setWidth_eq_extractLsb' (by decide), counted_uget]

/-! ## GETSR (R103) -/

/-- What GETSR gives a lane. -/
def getsrOf (s : State) (g : Group) (c : Ctx) (a : BitVec 8) (l : Nat) : Word :=
  match a.toNat with
  | 0xC0 => BitVec.ofNat 32 l
  | 0xC1 => BitVec.ofNat 32 (l / 4)
  | 0xD0 => laneMode g l
  | n => readU s g c n

theorem getsrOf_eq (s : State) (g : Group) (c : Ctx) (a : BitVec 8) (l : Nat) : getsrOf s g c a l =
    if a = 0xC0 then BitVec.ofNat 32 l else if a = 0xC1 then BitVec.ofNat 32 (l / 4) else if a = 0xD0 then laneMode g l else readU s g c a.toNat := by
  have hval (x : BitVec 8) : a = x ↔ a.toNat = x.toNat := BitVec.toNat_inj.symm
  rw [getsrOf]
  simp only [hval]
  split
  next h => rw [h]; rfl
  next h => rw [h]; rfl
  next h => rw [h]; rfl
  next h0 h1 h2 => exact ((if_neg h0).trans ((if_neg h1).trans (if_neg h2))).symm

/-- R103. -/
theorem getSpecialRegister_holds : getSpecialRegister := by
  intro d a
  refine laneSays_of_vput (f := fun s g c l => getsrOf s g c a l) (fun _ => rfl) fun s c l => ?_
  rw [getsrOf_eq, countIssue_readU, counted_laneMode]
  rfl

/-! ## The trap of a split gang (R78) -/

/-- The instruction raises UNIFORM_SPLIT for the running lanes wherever its gang lacks a live slice. -/
def TrapsSplit (i : Instr) (code : Nat) : Prop :=
  ∀ s c, issuer s = some c → issues (encode i) s = true → uniformSplit (s.group c.gid) c = true → Raises i s c (gangTrap (s.group c.gid) c 4 code 0)

theorem issueUniform_traps {code : Nat} (body : State → Ctx → Group → State → Result) (he : ∀ s, exec i s = issueUniform (encode i) code s (body s)) :
    TrapsSplit i code := fun s _ hc hi hu => (he s).trans (issueUniform_split code (body s) hc hi hu)

theorem uniOp_traps {f : State → Group → Ctx → Nat} (he : ∀ s, exec i s = uniOp (encode i) d f s) : TrapsSplit i d :=
  issueUniform_traps (fun _ c g t => .next (retire t c (writeUN g d (f t g c)))) he

theorem uniArith_traps {f : Int → Int → Int → Int} (he : ∀ s, exec i s = uniArith (encode i) d a b f s) : TrapsSplit i d := uniOp_traps he
theorem uniBits_traps {f : Nat → Nat → Nat} (he : ∀ s, exec i s = uniBits (encode i) d a b f s) : TrapsSplit i d := uniOp_traps he
theorem uniShift_traps {f : Nat → Nat → Nat → Nat} (he : ∀ s, exec i s = uniShift (encode i) d a b f s) : TrapsSplit i d := uniOp_traps he
theorem bankcfg_traps {op : Nat} {p : BitVec 4} (he : ∀ s, exec i s = bankcfg (encode i) op p s) : TrapsSplit i p.toNat := issueUniform_traps _ he

theorem issueMem_traps {code : Nat} {store : Bool} {plan : Ctx → Group → State → LogPlan} {pre : Ctx → Group → State → LogOp → Option TrapInfo}
    (he : ∀ s, exec i s = issueMem (encode i) (some code) store s plan pre) : TrapsSplit i code := by
  intro s c hc hi hu
  rw [Raises, he, issueMem, issueMemWhen, issue_body _ hc hi]
  simp only [counted_uniformSplit, hu, if_true, Option.orElse_some, trapAt, gangTrap, counted_runSet]

end Sys2Proof.Machine

namespace Sys2Proof
open Machine

/-- Settles O8: each instruction has the shape of one law above; the shifts, UMIN and UMAX then give the low bits of what the statement names. -/
theorem uniformArithmetic : Obligations.UniformArithmetic := by
  intro d a b
  refine ⟨uniArith_says (fun x y _ => x + y) fun _ => rfl, uniArith_says (fun x y _ => x - y) fun _ => rfl, uniArith_says (fun x y _ => x * y) fun _ => rfl,
    uniArith_says (fun x y z => x * y + z) fun _ => rfl, uniBits_says (fun x y => x &&& y) fun _ => rfl, uniBits_says (fun x y => x ||| y) fun _ => rfl,
    uniBits_says (fun x y => x ^^^ y) fun _ => rfl, ?_, ?_, ?_, ?_, ?_, uniArith_says (b := a.toNat) (fun x _ _ => x + b.toInt) fun _ => rfl⟩
  · exact (uniShift_says shl fun _ => rfl).congr fun s g c => (shl_eq_uniLow g _ _).symm
  · exact (uniShift_says shr fun _ => rfl).congr fun s g c => (shr_eq _ (readUN_lt s g c _)).symm
  · exact (uniShift_says sar fun _ => rfl).congr fun s g c => (sar_eq_uniLow g _ _).symm
  · refine (uniArith_says (fun x y _ => min x y) fun _ => rfl).congr fun s g c => ?_
    rw [min_def, apply_ite (uniLow g), uniLow_uniInt, uniLow_uniInt]
  · refine (uniArith_says (fun x y _ => max x y) fun _ => rfl).congr fun s g c => ?_
    rw [max_def, apply_ite (uniLow g), uniLow_uniInt, uniLow_uniInt]

/-- Settles O9: a uniform instruction makes the check first (`issueUniform_traps`), one that goes through the operand log before its own checks (`issueMem_traps`). -/
theorem uniformSplitTraps : Obligations.UniformSplitTraps := by
  refine ⟨fun d a b => ?_, fun d imm => ?_, fun cond p a b => ?_, fun d p imm => ?_, fun d a b => ?_, fun p q a b f => ?_⟩
  · exact ⟨uniArith_traps fun s => show execUadd d a b s = _ from rfl,
      uniArith_traps fun s => show execUsub d a b s = _ from rfl,
      uniArith_traps fun s => show execUmul d a b s = _ from rfl,
      uniArith_traps fun s => show execUmad d a b s = _ from rfl,
      uniBits_traps fun s => show execUand d a b s = _ from rfl,
      uniBits_traps fun s => show execUor d a b s = _ from rfl,
      uniBits_traps fun s => show execUxor d a b s = _ from rfl,
      uniShift_traps fun s => show execUshl d a b s = _ from rfl,
      uniShift_traps fun s => show execUshr d a b s = _ from rfl,
      uniShift_traps fun s => show execUsar d a b s = _ from rfl,
      uniArith_traps fun s => show execUmin d a b s = _ from rfl,
      uniArith_traps fun s => show execUmax d a b s = _ from rfl,
      uniArith_traps fun s => show execUaddi d a b s = _ from rfl,
      uniOp_traps fun s => show execUsel d a b s = _ from rfl,
      uniBits_traps fun s => show execUmov d a s = _ from rfl⟩
  · exact ⟨issueUniform_traps _ fun s => show execUmovi d imm s = _ from rfl,
      issueUniform_traps _ fun s => show execUmovhi d imm s = _ from rfl⟩
  · exact issueUniform_traps _ fun s => show execUcmp cond p a b s = _ from rfl
  · exact ⟨issueUniform_traps _ fun s => show execBatch d s = _ from rfl,
      issueUniform_traps _ fun s => show execSclaim d p imm s = _ from rfl⟩
  · exact ⟨issueMem_traps fun s => show execLdu d a b s = _ from rfl,
      issueMem_traps fun s => show execFaopen d a b s = _ from rfl⟩
  · exact ⟨bankcfg_traps fun s => show execBankcfgGrow p s = _ from rfl,
      bankcfg_traps fun s => show execBankcfgShrink p s = _ from rfl,
      bankcfg_traps fun s => show execBankcfgFifo p f s = _ from rfl,
      bankcfg_traps fun s => show execBankcfgUnfifo p f s = _ from rfl,
      issueMem_traps fun s => show execBind f p a b s = _ from rfl,
      issueMem_traps fun s => show execUnbind p a s = _ from rfl,
      issueMem_traps fun s => show execKvapp p a b s = _ from rfl,
      issueMem_traps fun s => show execPin p a s = _ from rfl,
      issueMem_traps fun s => show execUnpin p a s = _ from rfl,
      issueMem_traps fun s => show execSlabld a b q s = _ from rfl⟩

/-- Settles O10: the moves are shapes of the uniform instructions, UCMP writes by qput, GETSR by lane. -/
theorem uniformMoves : Obligations.UniformMoves := ⟨uniformMovesAndCompare_holds, getSpecialRegister_holds⟩

end Sys2Proof
end

section
/-! Float instructions in general (04 R112, R121): when the trap is taken, what is written, and the elements of a result.

The model forms a result from the group in which the issue number has advanced, and reads elements at the width of the format. `Accepts` says what the decode checks leave of a lane
that runs; under it the result is the statement's (`floatElems_eq`, `bitElems_eq`), and `floatSays_of_vwrite` is the one law for every float instruction that writes a register. -/
namespace Sys2Proof.Machine

variable {i : Instr} {d : Nat} {w : Word} {s : State} {c : Ctx} {g : Group} {l : Nat}

/-! ## What the decode checks leave of a lane that runs -/

/-- The element type of a lane passes checks 11 and 12 of 01 R35. -/
structure Accepts (w : Word) (g : Group) (l : Nat) : Prop where
  etype : etypeOk (wOp w) (laneEt g l) = true
  fields : check12 w (laneEt g l) false = false

/-- A condition that no slice of the context meets is not met by the slice of a lane that runs. -/
theorem sliceSet_empty {p : Nat → Bool} (hl : l < 256) (h : sliceSet p = 0) : p (l / 4) = false := by
  rw [← sliceSet_bit p (l / 4) (by omega), h]
  exact BitVec.getLsbD_zero

/-- Check 12 of 01 R35 is the last of the decode checks. -/
theorem issues_check12 (hc : issuer s = some c) (hi : issues w s = true) (hl : l < 256) (hr : runs (s.group c.gid) c l = true) :
    check12 w (laneEt (s.group c.gid) l) false = false := by
  simp only [issues, hc, Bool.and_eq_true, Option.isNone_iff_eq_none] at hi
  have hd := hi.1
  unfold decodeCheck at hd
  simp only [] at hd
  have hslices := (ite_none (ite_none (ite_none (ite_none (ite_none (ite_none hd).2).2).2).2).2).2
  have hwhole := (orElse_none (orElse_none hslices).2).2
  have hlast := (orElse_none (ite_none (ite_none (ite_none (ite_none hwhole).2).2).2).2).2
  split at hlast
  · rename_i hempty
    have h := sliceSet_empty hl hempty
    rw [runs_ctxSlices hl hr, Bool.true_and, Bool.or_eq_false_iff] at h
    exact h.2
  · cases hlast

theorem issues_accepts (hc : issuer s = some c) (hi : issues w s = true) (hl : l < 256) (hr : runs (s.group c.gid) c l = true) :
    Accepts w (s.group c.gid) l := ⟨issues_etype hc hi hl hr, issues_check12 hc hi hl hr⟩

theorem runs_of_isActive (h : isActive g c l = true) : runs g c l = true := by
  rw [isActive, Bool.and_eq_true] at h
  exact h.1

/-! ## Lanes and elements in which an invalid operation arises (R112) -/

/-- The element that names a trap exists where some element is invalid, as no operand has more than four. -/
theorem firstInvalid_isSome {es : List Elem} (h : ∀ e ∈ es, e.idx < 4) : (firstInvalid es).isSome = es.any fun e => e.kind != 0 := by
  rw [Bool.eq_iff_iff, firstInvalid, List.findSome?_isSome_iff, List.any_eq_true]
  simp only [List.find?_isSome, Bool.and_eq_true, beq_iff_eq, List.mem_range]
  constructor
  · rintro ⟨_, _, e, he, -, hk⟩
    exact ⟨e, he, hk⟩
  · rintro ⟨e, he, hk⟩
    exact ⟨e.idx, h e he, e, he, rfl, hk⟩

/-- The lowest lane of a set is the one below which the set has none. -/
theorem lowestLane_laneSet {p : Nat → Bool} (hl : l < 256) (hp : p l = true) (hlow : ∀ k, k < l → p k = false) : lowestLane (laneSet p) = l := by
  have hfind : (List.range 256).find? (fun i => (laneSet p).getLsbD i) = some l := by
    rw [List.find?_range_eq_some]
    refine ⟨by rw [laneSet_bit p l hl, hp], List.mem_range.mpr hl, fun k hk => ?_⟩
    rw [laneSet_bit p k (by omega), hlow k hk]
    rfl
  rw [lowestLane, hfind, Option.getD_some]

/-- The result of an instruction, as the model forms it when the instruction issues, is the statement's in every lane that runs. -/
def SameResult (w : Word) (res ref : Group → Nat → List Elem) : Prop :=
  ∀ g c l, Accepts w g l → (∀ e ∈ ref g l, e.idx < 4) ∧ res (counted g c) l = ref g l

/-- The lanes that trap, as the model finds them, are the statement's. -/
theorem SameResult.lanes {res ref : Group → Nat → List Elem} (h : SameResult w res ref) (hc : issuer s = some c) (hi : issues w s = true) :
    (laneSet fun l => isActive (counted (s.group c.gid) c) c l && mFpx (laneMode (counted (s.group c.gid) c) l) &&
      (firstInvalid (res (counted (s.group c.gid) c) l)).isSome) = laneSet (fpHit (s.group c.gid) c (ref (s.group c.gid))) := by
  rw [laneSet_eq_iff]
  intro l hl
  rw [fpHit, counted_isActive, counted_laneMode]
  by_cases ha : isActive (s.group c.gid) c l = true
  · obtain ⟨hidx, hres⟩ := h _ c l (issues_accepts hc hi hl (runs_of_isActive ha))
    rw [hres, firstInvalid_isSome hidx]
  · rw [Bool.eq_false_iff.mpr ha]
    rfl

/-- With no invalid operation in a lane that has FPX set, a float instruction writes. -/
theorem floatIssue_writes {res ref : Group → Nat → List Elem} {write : Ctx → Group → Group} (h : SameResult w res ref) (hc : issuer s = some c)
    (hi : issues w s = true) (hn : ∀ l, l < 256 → fpHit (s.group c.gid) c (ref (s.group c.gid)) l = false) :
    floatIssue w res write s = .next (retire (countIssue s c) c (write c (counted (s.group c.gid) c))) := by
  have hempty : laneSet (fpHit (s.group c.gid) c (ref (s.group c.gid))) = 0 := by
    rw [← laneSet_never, laneSet_eq_iff]
    exact hn
  rw [floatIssue, issue_body _ hc hi]
  simp only [h.lanes hc hi, if_pos hempty]

/-- An invalid operation in a lane that has FPX set raises FP_INVALID, which names the lowest such lane and its lowest element. -/
theorem floatIssue_raises {res ref : Group → Nat → List Elem} {write : Ctx → Group → Group} {e : Elem} (h : SameResult w res ref) (hc : issuer s = some c)
    (hi : issues w s = true) (hl : l < 256) (hhit : fpHit (s.group c.gid) c (ref (s.group c.gid)) l = true)
    (hlow : ∀ k, k < l → fpHit (s.group c.gid) c (ref (s.group c.gid)) k = false) (he : firstInvalid (ref (s.group c.gid) l) = some e) :
    floatIssue w res write s = .next (raiseTrap (countIssue s c) c w
      { code := 7, cause := e.idx * 16 + e.kind, fmask := laneSet (fpHit (s.group c.gid) c (ref (s.group c.gid))), lane := l, addr := 0, opw := 0 }) := by
  have hsome : laneSet (fpHit (s.group c.gid) c (ref (s.group c.gid))) ≠ 0 := fun h0 => by
    have hbit := laneSet_bit (fpHit (s.group c.gid) c (ref (s.group c.gid))) l hl
    rw [h0, hhit] at hbit
    exact absurd hbit (by rw [BitVec.ofNat_eq_ofNat, BitVec.getLsbD_zero]; decide)
  have hact : isActive (s.group c.gid) c l = true := by
    rw [fpHit, Bool.and_eq_true, Bool.and_eq_true] at hhit
    exact hhit.1.1
  have hres := (h _ c l (issues_accepts hc hi hl (runs_of_isActive hact))).2
  rw [floatIssue, issue_body _ hc hi]
  simp only [h.lanes hc hi, if_neg hsome, lowestLane_laneSet hl hhit hlow, hres, he, trapAt]

/-! ## Vector results -/

/-- A float instruction that writes by lane. -/
theorem floatSays_of_vwrite {res ref : Group → Nat → List Elem} {wide : Group → Nat → Bool} {value value' : Group → Nat → Nat}
    (he : ∀ s, exec i s = floatIssue (encode i) res (fun c g => vwrite g c d (isActive g c) (wide g) (value g)) s)
    (hres : SameResult (encode i) res ref) (hvalue : ∀ g c l, Accepts (encode i) g l → value (counted g c) l = value' g l)
    (hwide : ∀ g c, wide (counted g c) = wide g)
    (hctx : ∀ g c l, l < 256 → runs g c l = true → wide g l = true → (ctxSlices c).any (fun i => wide g (4 * i)) = true) :
    FloatSays i d ref wide value' := by
  intro s c hc hi
  refine ⟨fun hn => ⟨_, (he s).trans (floatIssue_writes hres hc hi hn), ?_⟩, fun l e hl hhit hlow hf => (he s).trans (floatIssue_raises hres hc hi hl hhit hlow hf)⟩
  rw [counted_isActive_eq, hwide]
  refine (vwrite_result s c d _ _ _ fun l hl ha => hctx _ c l hl (runs_of_isActive ha)).congr fun l hl ha => ?_
  rw [hvalue _ c l (issues_accepts hc hi hl (runs_of_isActive ha))]
  exact ⟨rfl, fun _ => rfl⟩

/-- A float instruction that writes every element of its own type. -/
theorem floatOp_says {res ref : Group → Nat → List Elem} (he : ∀ s, exec i s = floatOp (encode i) d res s) (hres : SameResult (encode i) res ref) :
    FloatSays i d ref laneWide fun g l => packBits (etWidth (laneEt g l)) (ref g l) :=
  floatSays_of_vwrite (value := fun g l => packBits (etWidth (laneEt g l)) (res g l)) he hres
    (fun g c l ha => by rw [(hres g c l ha).2, laneEt, counted_laneMode]; rfl) counted_laneWide_eq fun _ _ _ hl hr hw => wide_ctxSlices hl hr hw

/-! ## Formats of the float instructions (R105) -/

/-- The opcodes of the float instructions with operands of their own type (R122 to R126, R128, R132). -/
def floatOps : List Nat :=
  [0x30, 0x31, 0x32, 0x33, 0x34, 0x35, 0x36, 0x37, 0x38, 0x39, 0x3A, 0x3B, 0x3C, 0x3D, 0x3E, 0x3F, 0x40, 0x41, 0x43, 0x46]

theorem mEtype_lt (m : Word) : mEtype m < 16 := Nat.mod_lt _ (by decide)

/-- The types that a float instruction accepts are formats as wide as their elements. -/
theorem fmtOf_width : ∀ op ∈ floatOps, ∀ et < 16, etypeOk op et = true → (fmtOf et).w = etWidth et := by decide

theorem laneFmt_width (hop : wOp w ∈ floatOps) (het : etypeOk (wOp w) (laneEt g l) = true) : (laneFmt g l).w = etWidth (laneEt g l) :=
  fmtOf_width _ hop _ (mEtype_lt _) het

theorem Accepts.width (h : Accepts w g l) (hop : wOp w ∈ floatOps) : (laneFmt g l).w = etWidth (laneEt g l) := laneFmt_width hop h.etype

/-- The opcode of a word of an opcode and two fields. -/
theorem wOp_two {o x y : BitVec 8} (h : encodeNat i = asm (o.toNat * 2 ^ 24) [put x 16, put y 8]) : wOp (encode i) = o.toNat :=
  wOp_encode h o.isLt (Nat.lt_of_le_of_lt (Laws.fields_le x 16 (Laws.fields_le y 8 (Nat.le_refl 0))) (by decide))

/-! ## The elements of a result -/

/-- No operand holds more than four elements. -/
theorem etCount_le (et : Nat) : etCount et ≤ 4 := by
  by_cases hwide : etWide et = true
  · rw [etCount_of_wide hwide]
    decide
  · have hwidth : 8 ≤ etWidth et := by
      unfold etWidth
      split_ifs <;> decide
    rw [etCount, if_neg hwide]
    exact Nat.div_le_div_left hwidth (by decide)

theorem elemList_idx {el : Nat → Nat × Nat} : ∀ e ∈ elemList g l el, e.idx < 4 := by
  intro e he
  obtain ⟨k, hk, rfl⟩ := List.mem_map.mp he
  exact (List.mem_range.mp hk).trans_le (etCount_le _)

/-- Elementwise float work reads the elements of the statement. -/
theorem floatElems_eq {x a b : Nat} {f : Word → Fmt → FV → FV → FV → Nat × Nat} (hw : (laneFmt g l).w = etWidth (laneEt g l)) :
    floatElems g x a b l f = elemList g l fun e => f (laneMode g l) (laneFmt g l) (fpElem g a l e) (fpElem g b l e) (fpElem g x l e) := by
  unfold floatElems elemList fpElem srcElem
  rw [← hw]
  rfl

theorem bitElems_eq {a : Nat} {f : Fmt → Nat → Nat} (hw : (laneFmt g l).w = etWidth (laneEt g l)) :
    bitElems g a l f = elemList g l fun e => (f (laneFmt g l) (srcElem g a l e), 0) := by
  unfold bitElems elemList srcElem
  rw [← hw]
  rfl

theorem counted_floatElems (g : Group) (c : Ctx) (x a b l : Nat) (f : Word → Fmt → FV → FV → FV → Nat × Nat) :
    floatElems (counted g c) x a b l f = floatElems g x a b l f := by
  unfold floatElems
  simp only [counted_laneMode, counted_readN]

theorem counted_bitElems (g : Group) (c : Ctx) (a l : Nat) (f : Fmt → Nat → Nat) : bitElems (counted g c) a l f = bitElems g a l f := by
  unfold bitElems
  simp only [counted_laneMode, counted_readN]

/-- Elementwise float work on values. -/
theorem floatElems_says {x a b : Nat} {f : Word → Fmt → FV → FV → FV → Nat × Nat} (hop : wOp (encode i) ∈ floatOps)
    (he : ∀ s, exec i s = floatOp (encode i) d (fun g l => floatElems g x a b l f) s) :
    FpSays i d fun g l e => f (laneMode g l) (laneFmt g l) (fpElem g a l e) (fpElem g b l e) (fpElem g x l e) :=
  floatOp_says he fun g c l ha => ⟨elemList_idx, (counted_floatElems g c x a b l f).trans (floatElems_eq (ha.width hop))⟩

/-- Elementwise work on encodings, in which no invalid operation arises. -/
theorem bitElems_says {a : Nat} {f : Fmt → Nat → Nat} (hop : wOp (encode i) ∈ floatOps)
    (he : ∀ s, exec i s = floatOp (encode i) d (fun g l => bitElems g a l f) s) :
    FpSays i d fun g l e => (f (laneFmt g l) (srcElem g a l e), 0) :=
  floatOp_says he fun g c l ha => ⟨elemList_idx, (counted_bitElems g c a l f).trans (bitElems_eq (ha.width hop))⟩

end Sys2Proof.Machine
end

section
/-! Two-source floats, signs, classes and comparisons (O11, O12). -/
namespace Sys2Proof.Machine

variable {i : Instr} {d : Nat} {s : State} {c : Ctx} {g : Group} {l : Nat}

/-! ## The bits of packed elements -/

/-- Elements that fit their width stand side by side. -/
theorem testBit_packBits {w n : Nat} {b k : Nat → Nat} (hw : 0 < w) (hb : ∀ e, e < n → b e < 2 ^ w) (j : Nat) :
    (packBits w ((List.range n).map fun e => { idx := e, bits := b e, kind := k e })).testBit j = (decide (j / w < n) && (b (j / w)).testBit (j % w)) := by
  induction n generalizing j with
  | zero => simp [packBits]
  | succ n ih =>
    have ih := ih fun e he => hb e (by omega)
    have hlow : packBits w ((List.range n).map fun e => { idx := e, bits := b e, kind := k e }) < 2 ^ (w * n) :=
      Nat.lt_pow_two_of_testBit _ fun j hj => by
        rw [ih, decide_eq_false (Nat.not_lt.mpr ((Nat.le_div_iff_mul_le hw).mpr (Nat.mul_comm w n ▸ hj))), Bool.false_and]
    have hstep : packBits w ((List.range (n + 1)).map fun e => { idx := e, bits := b e, kind := k e }) =
        2 ^ (w * n) * b n + packBits w ((List.range n).map fun e => { idx := e, bits := b e, kind := k e }) := by
      rw [packBits, List.range_succ, List.map_append, List.foldl_append, Nat.add_comm, Nat.mul_comm]
      rfl
    have hj := Nat.div_add_mod j w
    rw [hstep, Nat.testBit_two_pow_mul_add _ hlow]
    rcases lt_trichotomy (j / w) n with hlt | heq | hgt
    · have hbelow : j < w * n := (Nat.div_lt_iff_lt_mul hw).mp hlt |>.trans_eq (Nat.mul_comm n w)
      rw [if_pos hbelow, ih, decide_eq_true hlt, decide_eq_true (by omega)]
    · subst heq
      rw [if_neg (by omega), decide_eq_true (by omega), Bool.true_and]
      congr 1
      omega
    · have habove : w * (n + 1) ≤ j := (Nat.mul_le_mul_left w hgt).trans (Nat.mul_div_le j w)
      rw [Nat.mul_succ] at habove
      rw [if_neg (by omega), decide_eq_false (by omega), Bool.false_and]
      exact Nat.testBit_lt_two_pow ((hb n (by omega)).trans_le (Nat.pow_le_pow_right (by decide) (by omega)))

theorem etWidth_pos (et : Nat) : 0 < etWidth et := by
  unfold etWidth
  split_ifs <;> decide

/-- An instruction in which no invalid operation arises computes. -/
theorem FloatSays.computes {ref : Group → Nat → List Elem} {value : Group → Nat → Nat} (h : FloatSays i d ref laneWide value)
    (hk : ∀ g l, ∀ e ∈ ref g l, e.kind = 0) : Computes i d fun g _ l => value g l := by
  intro s c hc hi
  refine (h s c hc hi).1 fun l _ => ?_
  have hvalid : ((ref (s.group c.gid) l).any fun e => e.kind != 0) = false := by
    rw [List.any_eq_false]
    exact fun e he => by rw [hk _ l e he]; decide
  rw [fpHit, hvalid, Bool.and_false]

/-- Work on encodings, said bit by bit. -/
theorem FpSays.elemBits {f : Group → Nat → Nat → Nat} {bit : Group → Nat → Nat → Nat → Bool} (h : FpSays i d fun g l e => (f g l e, 0))
    (hlt : ∀ g l e, etypeOk (wOp (encode i)) (laneEt g l) = true → f g l e < 2 ^ etWidth (laneEt g l))
    (hb : ∀ g l e j, etypeOk (wOp (encode i)) (laneEt g l) = true → j < etWidth (laneEt g l) → (f g l e).testBit j = bit g l e j) :
    ElemBitsSay i d bit := by
  have hcomputes := FloatSays.computes h fun g l e he => by
    obtain ⟨_, -, rfl⟩ := List.mem_map.mp he
    rfl
  refine hcomputes.vecSays fun g _ l _ _ het e j hcount hj => ?_
  have hpos := etWidth_pos (laneEt g l)
  have hin : etWidth (laneEt g l) * e + j < laneBitsOf g l := by
    have hbits : laneBitsOf g l = etWidth (laneEt g l) * etCount (laneEt g l) := (et_bits _).symm
    have hnext := Nat.mul_le_mul_left (etWidth (laneEt g l)) hcount
    rw [Nat.mul_succ] at hnext
    omega
  rw [elem, testBit_field, decide_eq_true hj, Bool.true_and, Nat.testBit_mod_two_pow, decide_eq_true hin, Bool.true_and]
  unfold elemList
  rw [testBit_packBits hpos fun e _ => hlt g l e het, Nat.mul_add_div hpos, Nat.div_eq_of_lt hj, Nat.mul_add_mod, Nat.mod_eq_of_lt hj, Nat.add_zero,
    decide_eq_true hcount, Bool.true_and]
  exact hb g l e j het hj

/-! ## FDOT2 (R127) -/

/-- The one element of FDOT2: the sum of two products of halves and the 32-bit d. -/
def fdot2Elems (d a b : Nat) (g : Group) (l : Nat) : List Elem :=
  let half (code k : Nat) : FV := fpVal (laneFmt g l) (mFtz (laneMode g l)) (elem (readV g code l).toNat 16 k)
  let z : FV := fpVal (fmtOf 8) (mFtz (laneMode g l)) (readV g d l).toNat
  let r := sumIn (laneMode g l) (fmtOf 8) [half a 0, half b 0, half a 1, half b 1, z] [mulFV (half a 0) (half b 0), mulFV (half a 1) (half b 1), (z, 0)]
  [{ idx := 0, bits := r.1, kind := r.2 }]

theorem fdot2_sameResult (d a b : BitVec 8) :
    SameResult (encode (.fdot2 d a b)) (fdot2Elems d.toNat a.toNat b.toNat) (fdot2Elems d.toNat a.toNat b.toNat) := by
  refine fun g c l _ => ⟨fun e he => ?_, ?_⟩
  · rw [List.mem_singleton.mp he]
    exact Nat.zero_lt_succ 3
  · unfold fdot2Elems laneFmt laneEt
    simp only [counted_laneMode, counted_readV]

/-! ## Signs (R123) -/

/-- Clearing the highest bit. -/
theorem testBit_clearTop {w x j : Nat} (hj : j < w) : (x % 2 ^ (w - 1)).testBit j = (x.testBit j && decide (j + 1 ≠ w)) := by
  rw [Nat.testBit_mod_two_pow, Bool.and_comm, decide_eq_decide.mpr (show j < w - 1 ↔ j + 1 ≠ w by omega)]

/-- Adding the highest bit within the width inverts it. -/
theorem testBit_addTop {w x j : Nat} (hj : j < w) : ((x + 2 ^ (w - 1)) % 2 ^ w).testBit j = (x.testBit j ^^ decide (j + 1 = w)) := by
  rw [Nat.testBit_mod_two_pow, decide_eq_true hj, Bool.true_and, Nat.add_comm]
  by_cases h : j + 1 = w
  · rw [show w - 1 = j by omega, Nat.testBit_two_pow_add_eq, decide_eq_true h, Bool.xor_true]
  · rw [Nat.testBit_two_pow_add_gt (by omega), decide_eq_false h, Bool.xor_false]

theorem fabs_says (d a : BitVec 8) : ElemBitsSay (.fabs d a) d.toNat fun g l e j => (srcElem g a.toNat l e).testBit j && decide (j + 1 ≠ etWidth (laneEt g l)) := by
  have hop : wOp (encode (.fabs d a)) ∈ floatOps := by rw [wOp_two (o := 0x36) rfl]; decide
  refine (bitElems_says (a := a.toNat) (f := fun fm x => x % 2 ^ (fm.w - 1)) hop fun _ => rfl).elemBits (fun g l e _ => ?_) fun g l e j het hj => ?_
  · exact (Nat.mod_le _ _).trans_lt (srcElem_lt g a.toNat l e)
  · rw [laneFmt_width hop het, testBit_clearTop hj]

theorem fneg_says (d a : BitVec 8) : ElemBitsSay (.fneg d a) d.toNat fun g l e j => (srcElem g a.toNat l e).testBit j ^^ decide (j + 1 = etWidth (laneEt g l)) := by
  have hop : wOp (encode (.fneg d a)) ∈ floatOps := by rw [wOp_two (o := 0x37) rfl]; decide
  refine (bitElems_says (a := a.toNat) (f := fun fm x => (x + 2 ^ (fm.w - 1)) % 2 ^ fm.w) hop fun _ => rfl).elemBits (fun g l e het => ?_) fun g l e j het hj => ?_
  · rw [laneFmt_width hop het]
    exact Nat.mod_lt _ (Nat.two_pow_pos _)
  · rw [laneFmt_width hop het, testBit_addTop hj]

/-! ## Classes (R125) -/

theorem classBit_lt (fm : Fmt) (x : Nat) : classBit fm x < 16 := by
  unfold classBit
  split <;> split_ifs <;> decide

/-- FCLASS: 16 bits an element, of which the class's is set. -/
theorem testBit_classes {a j : Nat} (hw : (laneFmt g l).w = etWidth (laneEt g l)) :
    (packBits 16 (bitElems g a l fun fm x => 2 ^ classBit fm x)).testBit j =
      decide (j / 16 < etCount (laneEt g l) ∧ j % 16 = classBit (laneFmt g l) (srcElem g a l (j / 16))) := by
  rw [bitElems_eq hw]
  unfold elemList
  rw [testBit_packBits (by decide) fun e _ => Nat.pow_lt_pow_right (by decide) (classBit_lt _ _), Nat.testBit_two_pow, Bool.decide_and]
  exact congrArg _ (decide_eq_decide.mpr eq_comm)

theorem fclass_completes {d a : BitVec 8} (hc : issuer s = some c) (hi : issues (encode (.fclass d a)) s = true) :
    Completes (.fclass d a) s fun t => ∃ f : Nat → Nat, LaneResult s t c d.toNat (isActive (s.group c.gid) c) (fun l => BitVec.ofNat 32 (f l)) ∧
      ∀ l, l < 256 → isActive (s.group c.gid) c l = true → ∀ j, j < 32 →
        (f l).testBit j = decide (j / 16 < etCount (laneEt (s.group c.gid) l) ∧
          j % 16 = classBit (laneFmt (s.group c.gid) l) (srcElem (s.group c.gid) a.toNat l (j / 16))) := by
  have hop : wOp (encode (.fclass d a)) ∈ floatOps := by rw [wOp_two (o := 0x39) rfl]; decide
  let classes (g : Group) (l : Nat) : Nat := packBits 16 (bitElems g a.toNat l fun fm x => 2 ^ classBit fm x)
  obtain ⟨t, ht, hr⟩ := laneSays_of_vput (i := .fclass d a) (d := d.toNat) (f := fun _ g _ l => BitVec.ofNat 32 (classes g l))
    (f' := fun _ g _ l => BitVec.ofNat 32 (classes g l)) (fun _ => rfl) (fun s c l => by simp only [classes, counted_bitElems]) s c hc hi
  exact ⟨t, ht, classes (s.group c.gid), hr, fun l hl ha j _ => testBit_classes ((issues_accepts hc hi hl (runs_of_isActive ha)).width hop)⟩

/-! ## Comparisons (R124) -/

theorem wOp_fcmp (cond p : BitVec 4) (a b : BitVec 8) : wOp (encode (.fcmp cond p a b)) = 0x38 := by
  refine wOp_encode rfl (by decide) ?_
  exact Nat.lt_of_le_of_lt (Laws.fields_le cond 20 (Laws.fields_le p 16 (Laws.fields_le a 8 (Laws.fields_le b 0 (Nat.le_refl 0))))) (by decide)

/-- FCMP compares scalars: the only element of an operand is the operand. -/
theorem fcmp_operand {cond p : BitVec 4} {a b : BitVec 8} (h : Accepts (encode (.fcmp cond p a b)) g l) (code : Nat) :
    srcElem g code l 0 = readN g code (laneWide g l) l := by
  have hwidth : laneBitsOf g l = etWidth (laneEt g l) := by
    have hscalar := h.etype
    rw [wOp_fcmp] at hscalar
    have hbits : ∀ et < 16, etypeOk 0x38 et = true → (if etWide et then 64 else 32) = etWidth et := by decide
    exact hbits _ (mEtype_lt _) hscalar
  exact elem_zero_of_lt (hwidth ▸ laneSrc_lt g code l)

/-- The outcome of FCMP in a lane. -/
def fcmpLane (cond : Nat) (g : Group) (a b l : Nat) : Bool × Nat := fcmpOut cond (fpElem g a l 0) (fpElem g b l 0)

/-- The one element of FCMP: no bits, but the kind of invalid operation. -/
def fcmpElems (cond : Nat) (a b : Nat) (g : Group) (l : Nat) : List Elem := [{ idx := 0, bits := 0, kind := (fcmpLane cond g a b l).2 }]

theorem fpHit_fcmp (cond a b : Nat) (g : Group) (c : Ctx) :
    fpHit g c (fcmpElems cond a b g) = fun l => isActive g c l && mFpx (laneMode g l) && (fcmpLane cond g a b l).2 != 0 := by
  funext l
  rw [fpHit, fcmpElems, List.any_cons, List.any_nil, Bool.or_false]

/-- The outcome as the model reads it when the instruction issues. -/
def fcmpRead (cond : Nat) (g : Group) (a b l : Nat) : Bool × Nat :=
  let value (code : Nat) : FV := fpVal (laneFmt g l) (mFtz (laneMode g l)) (readN g code (laneWide g l) l)
  fcmpOut cond (value a) (value b)

theorem exec_fcmp (cond p : BitVec 4) (a b : BitVec 8) (s : State) : exec (.fcmp cond p a b) s =
    floatIssue (encode (.fcmp cond p a b)) (fun g l => [{ idx := 0, bits := 0, kind := (fcmpRead cond.toNat g a.toNat b.toNat l).2 }])
      (fun c g => pput g p.toNat fun l => if isActive g c l then some (fcmpRead cond.toNat g a.toNat b.toNat l).1 else none) s := rfl

theorem fcmpRead_eq {cond p : BitVec 4} {a b : BitVec 8} (h : Accepts (encode (.fcmp cond p a b)) g l) :
    fcmpRead cond.toNat (counted g c) a.toNat b.toNat l = fcmpLane cond.toNat g a.toNat b.toNat l := by
  unfold fcmpRead fcmpLane fpElem laneFmt laneEt
  rw [fcmp_operand h, fcmp_operand h]
  simp only [counted_laneMode, counted_laneWide, counted_readN]

theorem fcmp_sameResult (cond p : BitVec 4) (a b : BitVec 8) :
    SameResult (encode (.fcmp cond p a b)) (fun g l => [{ idx := 0, bits := 0, kind := (fcmpRead cond.toNat g a.toNat b.toNat l).2 }])
      (fcmpElems cond.toNat a.toNat b.toNat) := by
  refine fun g c l ha => ⟨fun e he => ?_, ?_⟩
  · rw [List.mem_singleton.mp he]
    exact Nat.zero_lt_succ 3
  · simp only [fcmpRead_eq ha, fcmpElems]

theorem fcmp_completes {cond p : BitVec 4} {a b : BitVec 8} (hc : issuer s = some c) (hi : issues (encode (.fcmp cond p a b)) s = true)
    (hn : ∀ l, l < 256 → fpHit (s.group c.gid) c (fcmpElems cond.toNat a.toNat b.toNat (s.group c.gid)) l = false) :
    Completes (.fcmp cond p a b) s fun t =>
      PredResult s t c p.toNat (isActive (s.group c.gid) c) fun l => (fcmpLane cond.toNat (s.group c.gid) a.toNat b.toNat l).1 := by
  refine ⟨_, (exec_fcmp cond p a b s).trans (floatIssue_writes (fcmp_sameResult cond p a b) hc hi hn), ?_⟩
  rw [counted_isActive_eq]
  refine (pput_result s c p.toNat _ _).congr fun l hl ha => ?_
  rw [fcmpRead_eq (issues_accepts hc hi hl (runs_of_isActive ha))]

theorem fcmp_raises {cond p : BitVec 4} {a b : BitVec 8} (hc : issuer s = some c) (hi : issues (encode (.fcmp cond p a b)) s = true) (hl : l < 256)
    (hhit : fpHit (s.group c.gid) c (fcmpElems cond.toNat a.toNat b.toNat (s.group c.gid)) l = true)
    (hlow : ∀ k, k < l → fpHit (s.group c.gid) c (fcmpElems cond.toNat a.toNat b.toNat (s.group c.gid)) k = false) :
    let bad := laneSet (fpHit (s.group c.gid) c (fcmpElems cond.toNat a.toNat b.toNat (s.group c.gid)))
    Raises (.fcmp cond p a b) s c
      { code := 7, cause := (fcmpLane cond.toNat (s.group c.gid) a.toNat b.toNat l).2, fmask := bad, lane := l, addr := 0, opw := 0 } := by
  have hkind : ((fcmpLane cond.toNat (s.group c.gid) a.toNat b.toNat l).2 != 0) = true := by
    rw [fpHit_fcmp, Bool.and_eq_true] at hhit
    exact hhit.2
  have hfirst : firstInvalid (fcmpElems cond.toNat a.toNat b.toNat (s.group c.gid) l) =
      some { idx := 0, bits := 0, kind := (fcmpLane cond.toNat (s.group c.gid) a.toNat b.toNat l).2 } := by
    simp [firstInvalid, fcmpElems, List.range_succ, hkind]
  have hraise := floatIssue_raises (fcmp_sameResult cond p a b) hc hi hl hhit hlow hfirst
    (write := fun c g => pput g p.toNat fun l => if isActive g c l then some (fcmpRead cond.toNat g a.toNat b.toNat l).1 else none)
  simp only [Nat.zero_mul, Nat.zero_add] at hraise
  exact (exec_fcmp cond p a b s).trans hraise

end Sys2Proof.Machine

namespace Sys2Proof
open Machine

/-- Settles O11: elementwise work on values (`floatElems_says`); FDOT2 has one element, read from halves. -/
theorem floatTwoSource : Obligations.FloatTwoSource := by
  intro d a b
  have hop {i : Instr} {o : BitVec 8} (h : encodeNat i = asm (o.toNat * 2 ^ 24) [put d 16, put a 8, put b 0]) (ho : o.toNat ∈ floatOps) :
      wOp (encode i) ∈ floatOps := by rwa [wOp_bytes h]
  refine ⟨?_, ?_, ?_, ?_, ?_, ?_, ?_⟩
  · exact floatElems_says (f := fun m fm x y _ => sumIn m fm [x, y] [(x, 0), (y, 0)]) (hop (o := 0x30) rfl (by decide)) fun _ => rfl
  · exact floatElems_says (f := fun m fm x y _ => sumIn m fm [x, y] [(x, 0), (y.neg, 0)]) (hop (o := 0x31) rfl (by decide)) fun _ => rfl
  · exact floatElems_says (f := fun m fm x y _ => roundIn m fm (mulFV x y).1 [sigKind [x, y], (mulFV x y).2]) (hop (o := 0x32) rfl (by decide)) fun _ => rfl
  · exact floatElems_says (f := fun m fm x y z => sumIn m fm [x, y, z] [mulFV x y, (z, 0)]) (hop (o := 0x33) rfl (by decide)) fun _ => rfl
  · exact floatElems_says (f := fun _ fm x y _ => ((fpRound fm (minFV x y) 0 false false).1, sigKind [x, y])) (hop (o := 0x34) rfl (by decide)) fun _ => rfl
  · exact floatElems_says (f := fun _ fm x y _ => ((fpRound fm (maxFV x y) 0 false false).1, sigKind [x, y])) (hop (o := 0x35) rfl (by decide)) fun _ => rfl
  · exact floatOp_says (res := fdot2Elems d.toNat a.toNat b.toNat) (fun _ => rfl) (fdot2_sameResult d a b)

/-- Settles O12: FABS, FNEG and FCLASS are work on encodings, read bit by bit (`testBit_packBits`); FCMP writes a predicate or traps as every float instruction does. -/
theorem floatSignsAndClasses : Obligations.FloatSignsAndClasses := by
  refine ⟨fun d a => ⟨fabs_says d a, fneg_says d a, fun s c hc hi => fclass_completes hc hi⟩, fun cond p a b s c hc hi => ⟨fun hn => ?_, fun l hl ha hx hk hlow => ?_⟩⟩
  · refine fcmp_completes hc hi fun l hl => ?_
    rw [fpHit_fcmp, Bool.eq_false_iff]
    intro hhit
    simp only [Bool.and_eq_true, bne_iff_ne, fcmpLane] at hhit
    obtain ⟨⟨ha, hx⟩, hk⟩ := hhit
    exact hk (hn l hl ha hx)
  · have hhit := fpHit_fcmp cond.toNat a.toNat b.toNat (s.group c.gid) c
    have hraise := fcmp_raises (l := l) hc hi hl (by simp only [hhit, fcmpLane, ha, hx, bne_iff_ne.mpr hk, Bool.and_self]) (by rw [hhit]; exact hlow)
    rwa [hhit] at hraise

end Sys2Proof
end

section
/-! Rounding and roots (04 R108, R126): what roundMag does to an exact magnitude, and the quotients and roots that are cut to a few bits more than a format holds.

Rounding divides a magnitude by a unit that is a power of two (`roundUnits`); `RoundedTo` says of the multiple what the statement says, and does not change when magnitude and unit
are scaled together. -/
namespace Sys2Proof.Machine

/-! ## Powers of two -/

theorem pow2_eq_zpow (k : Int) : pow2 k = (2 : Rat) ^ k := by
  unfold pow2
  split
  · rename_i h
    rw [← zpow_natCast, Int.toNat_of_nonneg h]
  · rename_i h
    rw [one_div, ← zpow_natCast, ← zpow_neg, Int.toNat_of_nonneg (by omega), neg_neg]

theorem pow2_pos (k : Int) : 0 < pow2 k := by
  rw [pow2_eq_zpow]
  positivity

theorem pow2_add (j k : Int) : pow2 (j + k) = pow2 j * pow2 k := by
  simp only [pow2_eq_zpow]
  exact zpow_add₀ (by decide) j k

theorem pow2_natCast (n : Nat) : pow2 n = ((2 ^ n : Nat) : Rat) := by
  rw [pow2_eq_zpow, zpow_natCast]
  push_cast
  rfl

/-- A power of two as a multiple of one that is no larger. -/
theorem pow2_eq_mul {j k : Int} (h : j ≤ k) : pow2 k = ((2 ^ (k - j).toNat : Nat) : Rat) * pow2 j := by
  rw [← pow2_natCast, ← pow2_add, Int.toNat_of_nonneg (by omega), sub_add_cancel]

/-! ## Rounding (R108) -/

/-- The number of units, of 2^sh each, to which m is rounded. -/
def roundUnits (neg : Bool) (m sh rnd : Nat) : Nat :=
  let r := m % 2 ^ sh
  m / 2 ^ sh + if r = 0 then 0 else (roundsUp neg (m / 2 ^ sh) rnd (decide (2 ^ sh < 2 * r)) (decide (2 * r = 2 ^ sh))).toNat

theorem roundMag_exact {q e : Int} (h : q ≤ e) (neg : Bool) (m rnd : Nat) : roundMag neg m false e q rnd = m * 2 ^ (e - q).toNat := by
  rw [roundMag, if_pos h]

/-- Far below half a unit only the sign and the mode matter. -/
theorem roundUnits_tiny {m sh : Nat} (hm : m ≠ 0) (h : 2 * m < 2 ^ sh) (neg : Bool) (rnd : Nat) :
    roundUnits neg m sh rnd = if roundsUp neg 0 rnd false false then 1 else 0 := by
  have hlt : m < 2 ^ sh := by omega
  simp only [roundUnits, Nat.div_eq_of_lt hlt, Nat.mod_eq_of_lt hlt, if_neg hm, decide_eq_false (show ¬2 ^ sh < 2 * m by omega), decide_eq_false h.ne,
    Nat.zero_add]
  cases roundsUp neg 0 rnd false false <;> rfl

/-- The model's three cases below the unit (zero, tiny, any other) are one. -/
theorem roundMag_divides {q e : Int} (h : e < q) (neg : Bool) (m rnd : Nat) : roundMag neg m false e q rnd = roundUnits neg m (q - e).toNat rnd := by
  have hsh : 0 < (q - e).toNat := by omega
  unfold roundMag
  rw [if_neg (by omega)]
  generalize (q - e).toNat = sh at hsh
  have hhalf : 2 ^ sh = 2 * 2 ^ (sh - 1) := by rw [← Nat.pow_succ', Nat.succ_eq_add_one, Nat.sub_add_cancel hsh]
  have hgt : decide (2 ^ (sh - 1) < m % 2 ^ sh) = decide (2 ^ sh < 2 * (m % 2 ^ sh)) := decide_eq_decide.mpr (by omega)
  have htie : decide (m % 2 ^ sh = 2 ^ (sh - 1)) = decide (2 * (m % 2 ^ sh) = 2 ^ sh) := decide_eq_decide.mpr (by omega)
  simp only [and_true, Bool.and_false, Bool.or_false, Bool.not_false, Bool.and_true, hgt, htie]
  by_cases hzero : m = 0
  · subst hzero
    simp [roundUnits]
  rw [if_neg hzero]
  by_cases htiny : m.log2 + 2 < sh
  · have hlow : 2 * m < 2 ^ sh := by
      have hlog : m < 2 ^ (m.log2 + 1) := Nat.lt_log2_self
      have hpow : 2 ^ (m.log2 + 2) ≤ 2 ^ sh := Nat.pow_le_pow_right (by decide) (by omega)
      rw [Nat.pow_succ] at hpow
      omega
    rw [if_pos htiny, roundUnits_tiny hzero hlow]
  · rw [if_neg htiny]
    simp only [roundUnits]
    split <;> rfl

/-- What R108 says of the multiple n of a unit to which x is rounded. -/
def RoundedTo (neg : Bool) (rnd : Nat) (x unit : Rat) (n : Nat) : Prop :=
  let y : Rat := n * unit
  ((rnd = 1 ∨ (rnd = 2 ∧ neg = false) ∨ (rnd = 3 ∧ neg = true)) → y ≤ x ∧ x < y + unit) ∧
  (((rnd = 2 ∧ neg = true) ∨ (rnd = 3 ∧ neg = false)) → x ≤ y ∧ y < x + unit) ∧
  ((rnd = 0 ∨ rnd = 4) → 2 * (x - y) ≤ unit ∧ 2 * (y - x) ≤ unit) ∧
  (rnd = 0 → (2 * (x - y) = unit ∨ 2 * (y - x) = unit) → n % 2 = 0) ∧
  (rnd = 4 → 2 * (x - y) ≠ unit)

theorem RoundedTo.scale {neg : Bool} {rnd n : Nat} {x unit t : Rat} (h : RoundedTo neg rnd x unit n) (ht : 0 < t) : RoundedTo neg rnd (x * t) (unit * t) n := by
  obtain ⟨hdown, hup, hnear, heven, haway⟩ := h
  have hle {p q : Rat} : p * t ≤ q * t ↔ p ≤ q := mul_le_mul_iff_left₀ ht
  have hlt {p q : Rat} : p * t < q * t ↔ p < q := mul_lt_mul_iff_left₀ ht
  have heq {p q : Rat} : p * t = q * t ↔ p = q := mul_left_inj' ht.ne'
  unfold RoundedTo
  simp only [← mul_assoc, ← add_mul, ← sub_mul, hle, hlt, heq, ne_eq]
  exact ⟨hdown, hup, hnear, heven, haway⟩

/-- An exact multiple is rounded to itself. -/
theorem roundedTo_self (neg : Bool) (rnd n : Nat) {unit : Rat} (hu : 0 < unit) : RoundedTo neg rnd (n * unit) unit n := by
  unfold RoundedTo
  simp only [sub_self, mul_zero, le_refl, true_and, or_self]
  exact ⟨fun _ => by linarith, fun _ => by linarith, fun _ => ⟨hu.le, hu.le⟩, fun _ h => absurd h hu.ne, fun _ => hu.ne⟩

theorem roundsUp_toward {neg : Bool} {rnd : Nat} (h : rnd = 1 ∨ (rnd = 2 ∧ neg = false) ∨ (rnd = 3 ∧ neg = true)) (n : Nat) (gt tie : Bool) :
    roundsUp neg n rnd gt tie = false := by
  obtain rfl | ⟨rfl, rfl⟩ | ⟨rfl, rfl⟩ := h <;> rfl

theorem roundsUp_away {neg : Bool} {rnd : Nat} (h : (rnd = 2 ∧ neg = true) ∨ (rnd = 3 ∧ neg = false)) (n : Nat) (gt tie : Bool) :
    roundsUp neg n rnd gt tie = true := by
  obtain ⟨rfl, rfl⟩ | ⟨rfl, rfl⟩ := h <;> rfl

/-- To the nearest: what lies above half a unit goes up, what lies below it goes down. -/
theorem roundsUp_nearest {rnd : Nat} (h : rnd = 0 ∨ rnd = 4) (neg : Bool) (n u r : Nat) :
    if roundsUp neg n rnd (decide (u < 2 * r)) (decide (2 * r = u)) = true then u ≤ 2 * r else 2 * r ≤ u := by
  rcases lt_trichotomy (2 * r) u with hlt | heq | hgt
  · have hdown : roundsUp neg n rnd (decide (u < 2 * r)) (decide (2 * r = u)) = false := by
      obtain rfl | rfl := h <;> simp [roundsUp, hlt.ne, hlt.le]
    rw [hdown]
    exact hlt.le
  · split <;> omega
  · have hup : roundsUp neg n rnd (decide (u < 2 * r)) (decide (2 * r = u)) = true := by
      obtain rfl | rfl := h <;> simp [roundsUp, hgt]
    rw [hup]
    exact hgt.le

/-- Only a tie is half a unit away from one of the two multiples around it. -/
theorem half_is_tie {n r u : Nat} (up : Bool) (hr : 0 < r) (hru : r < u)
    (h : 2 * ((n : Rat) * u + r - (n + up.toNat : Nat) * u) = u ∨ 2 * ((n + up.toNat : Nat) * u - ((n : Rat) * u + r)) = u) : 2 * r = u := by
  have hr' : (0 : Rat) < r := by exact_mod_cast hr
  have hru' : (r : Rat) < u := by exact_mod_cast hru
  have htie : 2 * (r : Rat) = u := by
    cases up with
    | false =>
      push_cast [Bool.toNat_false] at h
      obtain h | h := h <;> linarith
    | true =>
      push_cast [Bool.toNat_true] at h
      obtain h | h := h <;> linarith
  exact_mod_cast htie

/-- What lies between two multiples is rounded to one of them. -/
theorem roundedTo_between (neg : Bool) (rnd n : Nat) {r u : Nat} (hr : 0 < r) (hru : r < u) :
    RoundedTo neg rnd ((n : Rat) * u + r) u (n + (roundsUp neg n rnd (decide (u < 2 * r)) (decide (2 * r = u))).toNat) := by
  have hr' : (0 : Rat) < r := by exact_mod_cast hr
  have hru' : (r : Rat) < u := by exact_mod_cast hru
  have hnear := fun h => roundsUp_nearest (rnd := rnd) h neg n u r
  have htie0 : rnd = 0 → 2 * r = u → (n + (roundsUp neg n rnd (decide (u < 2 * r)) (decide (2 * r = u))).toNat) % 2 = 0 := by
    rintro rfl h
    simp only [roundsUp, h]
    rcases Nat.mod_two_eq_zero_or_one n with hn | hn
    · simp [hn]
    · simp [hn, Nat.add_mod]
  have htie4 : rnd = 4 → 2 * r = u → roundsUp neg n rnd (decide (u < 2 * r)) (decide (2 * r = u)) = true := by
    rintro rfl h
    simp [roundsUp, h]
  unfold RoundedTo
  refine ⟨fun h => ?_, fun h => ?_, fun h => ?_, fun h => ?_, fun h => ?_⟩
  · rw [roundsUp_toward h]
    push_cast [Bool.toNat_false]
    constructor <;> linarith
  · rw [roundsUp_away h]
    push_cast [Bool.toNat_true]
    constructor <;> linarith
  · have hnear := hnear h
    split at hnear
    · rename_i hup
      have hnear' : (u : Rat) ≤ 2 * r := by exact_mod_cast hnear
      rw [hup]
      push_cast [Bool.toNat_true]
      constructor <;> linarith
    · rename_i hup
      have hnear' : 2 * (r : Rat) ≤ u := by exact_mod_cast hnear
      rw [Bool.eq_false_iff.mpr hup]
      push_cast [Bool.toNat_false]
      constructor <;> linarith
  · exact fun hhalf => htie0 h (half_is_tie _ hr hru hhalf)
  · intro hhalf
    have hup := htie4 h (half_is_tie _ hr hru (.inl hhalf))
    rw [hup] at hhalf
    push_cast [Bool.toNat_true] at hhalf
    linarith

theorem roundUnits_spec (neg : Bool) (m sh rnd : Nat) : RoundedTo neg rnd m ((2 ^ sh : Nat) : Rat) (roundUnits neg m sh rnd) := by
  have hm : (m : Rat) = (m / 2 ^ sh : Nat) * (2 ^ sh : Nat) + (m % 2 ^ sh : Nat) := by
    exact_mod_cast (Nat.div_add_mod' m (2 ^ sh)).symm
  simp only [roundUnits]
  rw [hm]
  split
  · rename_i hrem
    rw [hrem, Nat.cast_zero, add_zero]
    exact roundedTo_self neg rnd _ (by positivity)
  · rename_i hrem
    exact roundedTo_between neg rnd _ (Nat.pos_of_ne_zero hrem) (Nat.mod_lt _ (Nat.two_pow_pos sh))

/-- R108. -/
theorem roundMag_spec (neg : Bool) (m : Nat) (e q : Int) (rnd : Nat) : RoundedTo neg rnd (m * pow2 e) (pow2 q) (roundMag neg m false e q rnd) := by
  by_cases h : q ≤ e
  · rw [roundMag_exact h, pow2_eq_mul h, ← mul_assoc, ← Nat.cast_mul]
    exact roundedTo_self neg rnd _ (pow2_pos q)
  · have h : e < q := by omega
    rw [roundMag_divides h, pow2_eq_mul h.le]
    exact (roundUnits_spec neg m _ rnd).scale (pow2_pos e)

end Sys2Proof.Machine
end

section
/-! Quotients and roots (04 R126): FRCP, FRSQ and FSQRT round a magnitude that is cut to a few bits more than a format holds, with a mark for what was cut.

Each is an integer quotient or root: a number A that does not exceed the number B it aims at, while the next one, C, does. `roundsTo_of_mag` turns this into the statement. -/
namespace Sys2Proof.Machine

variable {m : Word} {fm : Fmt} {neg : Bool}

/-! ## The integer square root -/

/-- One bit of the integer square root: bit k - 1 - i is kept when the square still does not exceed n. -/
def isqrtStep (n k r i : Nat) : Nat := if (r + 2 ^ (k - 1 - i)) * (r + 2 ^ (k - 1 - i)) ≤ n then r + 2 ^ (k - 1 - i) else r

/-- After j bits the root is known up to 2^(k - j). -/
theorem isqrtSteps_spec {n k : Nat} (h : n < 2 ^ k * 2 ^ k) {j : Nat} (hj : j ≤ k) :
    let r := (List.range j).foldl (isqrtStep n k) 0
    r * r ≤ n ∧ n < (r + 2 ^ (k - j)) * (r + 2 ^ (k - j)) := by
  induction j with
  | zero => simpa using h
  | succ j ih =>
    obtain ⟨hlow, hhigh⟩ := ih (by omega)
    have hbit : 2 ^ (k - j) = 2 ^ (k - (j + 1)) + 2 ^ (k - (j + 1)) := by
      rw [← Nat.two_mul, ← Nat.pow_succ', show Nat.succ (k - (j + 1)) = k - j by omega]
    rw [List.range_succ, List.foldl_append, List.foldl_cons, List.foldl_nil, isqrtStep, show k - 1 - j = k - (j + 1) by omega]
    split
    · rename_i hle
      refine ⟨hle, ?_⟩
      rwa [Nat.add_assoc, ← hbit]
    · rename_i hgt
      exact ⟨hlow, Nat.lt_of_not_le hgt⟩

theorem isqrt_spec (n : Nat) : isqrt n * isqrt n ≤ n ∧ n < (isqrt n + 1) * (isqrt n + 1) := by
  have hn : n < 2 ^ (n.log2 / 2 + 1) * 2 ^ (n.log2 / 2 + 1) := by
    rw [← Nat.pow_add]
    exact Nat.lt_log2_self.trans_le (Nat.pow_le_pow_right (by decide) (by omega))
  have h := isqrtSteps_spec hn (Nat.le_refl _)
  rwa [Nat.sub_self, Nat.pow_zero] at h

theorem le_isqrt {k n : Nat} (h : k * k ≤ n) : k ≤ isqrt n :=
  Nat.le_of_lt_succ (Nat.mul_self_lt_mul_self_iff.mp (h.trans_lt (isqrt_spec n).2))

/-! ## What a cut magnitude stands for -/

/-- A magnitude whose value under p is A units, where B units are aimed at and the next magnitude gives C units, more than that. -/
theorem roundsTo_of_mag {x : Mag} {p : Rat → Rat} {t unit : Rat} {A B C : Nat} (hu : 0 < unit) (hq : 2 ^ (fm.fb + 3) ≤ x.m) (hst : x.st = (A != B))
    (hA : p (x.m * pow2 x.e) = A * unit) (hB : t = B * unit) (hC : p ((x.m + 1) * pow2 x.e) = C * unit) (hAB : A ≤ B) (hBC : B < C) :
    RoundsTo m fm neg p t (roundM m fm neg x) := by
  refine ⟨x.m, x.st, x.e, hq, ?_, rfl⟩
  rw [hA, hB, hC, hst]
  split
  · rename_i hne
    have hlt : A < B := Nat.lt_of_le_of_ne hAB (bne_iff_ne.mp hne)
    exact ⟨mul_lt_mul_of_pos_right (by exact_mod_cast hlt) hu, mul_lt_mul_of_pos_right (by exact_mod_cast hBC) hu⟩
  · rename_i heq
    have heq : A = B := by simpa using heq
    rw [heq]

/-! ## FRCP -/

theorem recipMag_rounds {n : Nat} (hn : n ≠ 0) (e : Int) :
    RoundsTo m fm neg (fun y => y * (n * pow2 e)) 1 (roundM m fm neg (recipMag n e (fm.fb + 4))) := by
  have hpos : 0 < n := Nat.pos_of_ne_zero hn
  let N := fm.fb + 4 + n.log2 + 1
  let q := 2 ^ N / n
  have hunit : pow2 (-e - (N : Nat)) * pow2 e = pow2 (-(N : Nat)) := by rw [← pow2_add, show -e - (N : Nat) + e = -(N : Nat) by ring]
  have hone : (1 : Rat) = (2 ^ N : Nat) * pow2 (-(N : Nat)) := by rw [← pow2_natCast, ← pow2_add, add_neg_cancel]; rfl
  have hbits : 2 ^ (fm.fb + 3) ≤ q := by
    rw [Nat.le_div_iff_mul_le hpos]
    calc 2 ^ (fm.fb + 3) * n ≤ 2 ^ (fm.fb + 3) * 2 ^ (n.log2 + 1) := Nat.mul_le_mul_left _ Nat.lt_log2_self.le
      _ = 2 ^ (fm.fb + 3 + (n.log2 + 1)) := (Nat.pow_add _ _ _).symm
      _ ≤ 2 ^ N := Nat.pow_le_pow_right (by decide) (by omega)
  have hdiv : n * q + 2 ^ N % n = 2 ^ N := Nat.div_add_mod _ _
  refine roundsTo_of_mag (A := n * q) (B := 2 ^ N) (C := n * (q + 1)) (pow2_pos (-(N : Nat))) hbits ?_ ?_ hone ?_ (by omega) ?_
  · show (2 ^ N % n != 0) = (n * q != 2 ^ N)
    rw [Bool.eq_iff_iff, bne_iff_ne, bne_iff_ne]
    omega
  · show (q : Rat) * pow2 (-e - (N : Nat)) * (n * pow2 e) = _
    rw [← hunit]
    push_cast
    ring
  · show ((q : Rat) + 1) * pow2 (-e - (N : Nat)) * (n * pow2 e) = _
    rw [← hunit]
    push_cast
    ring
  · have hmod : 2 ^ N % n < n := Nat.mod_lt _ hpos
    rw [Nat.mul_succ]
    omega

/-! ## FSQRT and FRSQ -/

/-- A magnitude with an even exponent: its integer, and its exponent. -/
def evenMag (n : Nat) (e : Int) : Nat := if e % 2 != 0 then 2 * n else n

def evenExp (e : Int) : Int := if e % 2 != 0 then e - 1 else e

theorem evenExp_half (e : Int) : evenExp e = evenExp e / 2 + evenExp e / 2 := by
  unfold evenExp
  split
  · rename_i hodd
    have hodd := bne_iff_ne.mp hodd
    omega
  · rename_i heven
    have heven : e % 2 = 0 := by simpa using heven
    omega

theorem evenMag_pos {n : Nat} (hn : n ≠ 0) (e : Int) : 0 < evenMag n e := by
  unfold evenMag
  split <;> omega

theorem evenMag_value (n : Nat) (e : Int) : (n : Rat) * pow2 e = evenMag n e * pow2 (evenExp e) := by
  unfold evenMag evenExp
  split
  · have htwo : pow2 e = 2 * pow2 (e - 1) := by
      conv_lhs => rw [show e = 1 + (e - 1) by ring, pow2_add]
      rfl
    rw [htwo]
    push_cast
    ring
  · rfl

theorem sqrtMag_rounds {n : Nat} (hn : n ≠ 0) (e : Int) :
    RoundsTo m fm neg (fun y => y * y) (n * pow2 e) (roundM m fm neg (sqrtMag n e (fm.fb + 4))) := by
  let k := fm.fb + 4
  let B := evenMag n e * 4 ^ k
  let h := (evenExp e - 2 * (k : Nat)) / 2
  obtain ⟨hlow, hhigh⟩ := isqrt_spec B
  have hexp : evenExp e = h + h + 2 * (k : Nat) := by
    have := evenExp_half e
    omega
  have hvalue : (n : Rat) * pow2 e = B * pow2 (h + h) := by
    rw [evenMag_value, hexp, pow2_add, show (2 * (k : Nat) : Int) = ((2 * k : Nat) : Int) by push_cast; rfl, pow2_natCast, Nat.pow_mul]
    show _ = ((evenMag n e * 4 ^ k : Nat) : Rat) * _
    push_cast
    ring
  have hbits : 2 ^ (fm.fb + 3) ≤ isqrt B := by
    refine (Nat.pow_le_pow_right (by decide) (by omega)).trans (le_isqrt (k := 2 ^ k) ?_)
    rw [← Nat.mul_pow]
    exact Nat.le_mul_of_pos_left _ (evenMag_pos hn e)
  refine roundsTo_of_mag (A := isqrt B * isqrt B) (B := B) (C := (isqrt B + 1) * (isqrt B + 1)) (pow2_pos (h + h)) hbits rfl ?_ hvalue ?_ hlow hhigh
  · show ((isqrt B : Nat) : Rat) * pow2 h * (isqrt B * pow2 h) = _
    rw [pow2_add]
    push_cast
    ring
  · show (((isqrt B : Nat) : Rat) + 1) * pow2 h * ((isqrt B + 1) * pow2 h) = _
    rw [pow2_add]
    push_cast
    ring

theorem rsqrtMag_rounds {n : Nat} (hn : n ≠ 0) (e : Int) :
    RoundsTo m fm neg (fun y => y * y * (n * pow2 e)) 1 (roundM m fm neg (rsqrtMag n e (fm.fb + 4))) := by
  let M := evenMag n e
  let N := fm.fb + 4 + M.log2 + 1
  let h := evenExp e / 2
  let r := isqrt (4 ^ N / M)
  have hM : 0 < M := evenMag_pos hn e
  obtain ⟨hlow, hhigh⟩ := isqrt_spec (4 ^ N / M)
  have hunit : pow2 (-h - (N : Nat)) * pow2 (-h - (N : Nat)) * pow2 (evenExp e) = pow2 (-(2 * N : Nat)) := by
    rw [← pow2_add, ← pow2_add, evenExp_half e]
    congr 1
    push_cast
    ring
  have hone : (1 : Rat) = (4 ^ N : Nat) * pow2 (-(2 * N : Nat)) := by
    rw [show 4 ^ N = 2 ^ (2 * N) from (Nat.pow_mul 2 2 N).symm, ← pow2_natCast, ← pow2_add, add_neg_cancel]
    rfl
  have hbits : 2 ^ (fm.fb + 3) ≤ r := by
    refine (Nat.pow_le_pow_right (by decide) (by omega)).trans (le_isqrt (k := 2 ^ (fm.fb + 4)) ?_)
    rw [Nat.le_div_iff_mul_le hM, ← Nat.pow_add]
    calc 2 ^ (fm.fb + 4 + (fm.fb + 4)) * M ≤ 2 ^ (fm.fb + 4 + (fm.fb + 4)) * 2 ^ (M.log2 + 1) := Nat.mul_le_mul_left _ Nat.lt_log2_self.le
      _ = 2 ^ (fm.fb + 4 + (fm.fb + 4) + (M.log2 + 1)) := (Nat.pow_add _ _ _).symm
      _ ≤ 2 ^ (2 * N) := Nat.pow_le_pow_right (by decide) (by omega)
      _ = 4 ^ N := Nat.pow_mul 2 2 N
  refine roundsTo_of_mag (A := r * r * M) (B := 4 ^ N) (C := (r + 1) * (r + 1) * M) (pow2_pos (-(2 * N : Nat))) hbits rfl ?_ hone ?_
    ((Nat.le_div_iff_mul_le hM).mp hlow) ((Nat.div_lt_iff_lt_mul hM).mp hhigh)
  · show (r : Rat) * pow2 (-h - (N : Nat)) * (r * pow2 (-h - (N : Nat))) * (n * pow2 e) = _
    rw [evenMag_value n e, ← hunit]
    push_cast
    ring
  · show ((r : Rat) + 1) * pow2 (-h - (N : Nat)) * ((r + 1) * pow2 (-h - (N : Nat))) * (n * pow2 e) = _
    rw [evenMag_value n e, ← hunit]
    push_cast
    ring

end Sys2Proof.Machine
end

section
/-! Values of the float functions (04 R126): special cases, what is rounded, and where a value is known exactly. -/
namespace Sys2Proof.Machine

variable {m : Word} {fm : Fmt} {neg : Bool} {n : Nat} {e : Int}

/-! ## Values that are integers or powers of two -/

/-- The natural number that a magnitude is, where it is one. -/
def natValue (n : Nat) (e : Int) : Option Nat :=
  if 0 ≤ e then some (n * 2 ^ e.toNat) else if n % 2 ^ (-e).toNat = 0 then some (n / 2 ^ (-e).toNat) else none

theorem natValue_eq_some {j : Nat} : natValue n e = some j ↔ (n : Rat) * pow2 e = j := by
  unfold natValue
  split_ifs with he hdiv
  · obtain ⟨k, rfl⟩ := Int.eq_ofNat_of_zero_le he
    rw [Option.some.injEq, Int.toNat_natCast, pow2_natCast]
    exact_mod_cast Iff.rfl
  all_goals
    obtain ⟨k, rfl⟩ : ∃ k : Nat, e = -k := ⟨(-e).toNat, by omega⟩
    have hvalue : (n : Rat) * pow2 (-k) = j ↔ n = j * 2 ^ k := by
      rw [← mul_left_inj' (pow2_pos k).ne', mul_assoc, ← pow2_add, neg_add_cancel, pow2_natCast, show pow2 0 = 1 from rfl, mul_one]
      exact_mod_cast Iff.rfl
    rw [neg_neg, Int.toNat_natCast] at hdiv
    rw [hvalue]
  · rw [neg_neg, Int.toNat_natCast, Option.some.injEq, Nat.div_eq_iff_eq_mul_left (Nat.two_pow_pos k) (Nat.dvd_of_mod_eq_zero hdiv)]
  · refine ⟨nofun, fun h => absurd ?_ hdiv⟩
    rw [h, Nat.mul_mod_left]

theorem integerOf_eq (neg : Bool) (n : Nat) (e : Int) : integerOf neg n e = (natValue n e).map fun j : Nat => if neg then -(j : Int) else j := by
  unfold integerOf natValue
  split_ifs <;> rfl

theorem integerOf_value {k : Int} (h : (n : Rat) * pow2 e = k.natAbs) (hneg : k < 0 → neg = true) (hpos : 0 < k → neg = false) :
    integerOf neg n e = some k := by
  rw [integerOf_eq, natValue_eq_some.mpr h, Option.map_some, Option.some.injEq]
  cases neg with
  | true => have hk : ¬0 < k := fun hk => absurd (hpos hk) nofun; simp only [if_true]; omega
  | false => have hk : ¬k < 0 := fun hk => absurd (hneg hk) nofun; simp only [Bool.false_eq_true, if_false]; omega

theorem integerOf_none (h : ∀ k : Nat, (n : Rat) * pow2 e ≠ k) : integerOf neg n e = none := by
  rw [integerOf_eq, Option.eq_none_iff_forall_ne_some.mpr fun k hk => h k (natValue_eq_some.mp hk), Option.map_none]

theorem powerOf_two_pow (j : Nat) (e : Int) : powerOf (2 ^ j) e = some (e + j) := by rw [powerOf, Nat.log2_two_pow, if_pos rfl]

theorem powerOf_none (h : ∀ j, n ≠ 2 ^ j) : powerOf n e = none := if_neg (h _)

/-! ## FEXP2 and FLOG2 by what is known of the operand -/

theorem fexp2_integer {k : Int} (h : integerOf neg n e = some k) : fexp2 m fm (.fin neg n e) = fpRoundMag fm false 1 false k (mRnd m) false (mFtz m) := by
  simp only [fexp2, unlessNan, FV.isNan, h, Bool.false_eq_true, if_false]

theorem fexp2_bounds (h : integerOf neg n e = none) :
    fexp2 m fm (.fin neg n e) = (roundFunction fm (exp2Bounds neg n e) (mRnd m) (mFtz m) (keyOf (.fin neg n e)), 0) := by
  simp only [fexp2, unlessNan, FV.isNan, h, Bool.false_eq_true, if_false]

theorem flog2_power {k : Int} (hn : n ≠ 0) (h : powerOf n e = some k) :
    flog2 m fm (.fin false n e) = fpRound fm (.fin (decide (k < 0)) k.natAbs 0) (mRnd m) false (mFtz m) := by
  simp only [flog2, unlessNan, FV.isNan, h, if_neg hn, Bool.false_eq_true, if_false]

theorem flog2_bounds (hn : n ≠ 0) (h : powerOf n e = none) :
    flog2 m fm (.fin false n e) = (roundFunction fm (log2Bounds n e) (mRnd m) (mFtz m) (keyOf (.fin false n e)), 0) := by
  simp only [flog2, unlessNan, FV.isNan, h, if_neg hn, Bool.false_eq_true, if_false]

/-! ## The functions of a nonzero finite operand -/

theorem frcp_fin (hn : n ≠ 0) : frcp m fm (.fin neg n e) = roundM m fm neg (recipMag n e (fm.fb + 4)) := if_neg hn
theorem frsq_neg (hn : n ≠ 0) : frsq m fm (.fin true n e) = (fm.nan, 4) := if_neg hn
theorem frsq_pos (hn : n ≠ 0) : frsq m fm (.fin false n e) = roundM m fm false (rsqrtMag n e (fm.fb + 4)) := if_neg hn
theorem fsqrt_neg (hn : n ≠ 0) : fsqrt m fm (.fin true n e) = (fm.nan, 4) := if_neg hn
theorem fsqrt_pos (hn : n ≠ 0) : fsqrt m fm (.fin false n e) = roundM m fm false (sqrtMag n e (fm.fb + 4)) := if_neg hn
theorem flog2_neg (hn : n ≠ 0) : flog2 m fm (.fin true n e) = (fm.nan, 5) := if_neg hn

theorem rndInt_fin (hn : n ≠ 0) : rndInt m fm (.fin neg n e) =
    fpRound fm (if 0 ≤ e then .fin neg n e else .fin neg (roundMag neg n false e 0 (mRnd m)) 0) 0 false false := by
  by_cases he : 0 ≤ e
  · rw [if_pos he]
    exact if_pos (.inr he)
  · rw [if_neg he]
    exact if_neg (not_or.mpr ⟨hn, he⟩)

/-- The functions that a NaN operand passes through. -/
theorem function_nan : ∀ f ∈ [frcp, frsq, fsqrt, fexp2, flog2, fsin, fcos, ftanh, rndInt], ∀ sig, f m fm (.nan sig) = (fm.nan, if sig then 1 else 0) := by
  intro f hf sig
  have hsig : sigKind [.nan sig] = if sig then 1 else 0 := by cases sig <;> rfl
  rw [← hsig]
  simp only [List.mem_cons, List.not_mem_nil, or_false] at hf
  obtain rfl | rfl | rfl | rfl | rfl | rfl | rfl | rfl | rfl := hf <;> rfl

/-- R126. -/
theorem functionValues_holds : functionValues := by
  intro m fm
  refine ⟨function_nan, fun neg e => ?_, fun neg n e hn => ?_, fun neg n e k h hneg hpos => fexp2_integer (integerOf_value h hneg hpos),
    fun j e => flog2_power (Nat.two_pow_pos j).ne' (powerOf_two_pow j e), fun neg n e hn => ?_⟩
  · exact ⟨rfl, rfl, rfl, rfl, rfl, rfl, rfl, rfl, rfl, rfl, rfl, rfl, rfl, rfl, rfl, rfl, rfl⟩
  · rw [frcp_fin hn, frsq_neg hn, frsq_pos hn, fsqrt_neg hn, fsqrt_pos hn, flog2_neg hn, rndInt_fin hn]
    exact ⟨recipMag_rounds hn e, rfl, rsqrtMag_rounds hn e, rfl, sqrtMag_rounds hn e, rfl, rfl⟩
  · refine ⟨fun h => fexp2_bounds (integerOf_none h), fun h hneg => ?_, if_neg hn, if_neg hn, if_neg hn⟩
    subst hneg
    exact flog2_bounds hn (powerOf_none h)

end Sys2Proof.Machine
end

section
/-! Float functions and conversions (O13): the instructions of one source and FSCALE are elementwise work on values; CVT and CVTR write the elements of a part. -/
namespace Sys2Proof.Machine

variable {i : Instr} {d : Nat} {w : Word} {s : State} {c : Ctx} {g : Group} {l : Nat}

/-! ## Functions of one source (R126, R132) -/

theorem floatUnary_says {o x y : BitVec 8} {f : Word → Fmt → FV → Nat × Nat} (h : encodeNat i = asm (o.toNat * 2 ^ 24) [put x 16, put y 8])
    (ho : o.toNat ∈ floatOps) (he : ∀ s, exec i s = floatUnary (encode i) x.toNat y.toNat f s) :
    FpSays i x.toNat fun g l e => f (laneMode g l) (laneFmt g l) (fpElem g y.toNat l e) :=
  floatElems_says (f := fun m fm v _ _ => f m fm v) (by rwa [wOp_two h]) he

/-! ## FSCALE (R128) -/

/-- A value scaled by 2^k and rounded. -/
def scaleOf (k : Int) (m : Word) (fm : Fmt) (x : FV) : Nat × Nat :=
  unlessNan fm x (match x with
    | .fin neg n e => fpRound fm (.fin neg n (e + k)) (mRnd m) false (mFtz m)
    | v => fpRound fm v (mRnd m) false (mFtz m))

theorem fscale_says (d a b : BitVec 8) :
    FpSays (.fscale d a b) d.toNat fun g l e => scaleOf (readV g b.toNat l).toInt (laneMode g l) (laneFmt g l) (fpElem g a.toNat l e) := by
  have hop : wOp (encode (.fscale d a b)) ∈ floatOps := by rw [wOp_bytes (o := 0x43) rfl]; decide
  refine floatOp_says (res := fun g l => floatElems g a.toNat a.toNat a.toNat l fun m fm x _ _ => scaleOf (readV g b.toNat l).toInt m fm x) (fun _ => rfl)
    fun g c l ha => ⟨elemList_idx, (counted_floatElems g c _ _ _ l _).trans (floatElems_eq (ha.width hop))⟩

/-- R126, R128, R132. -/
theorem floatFunctions_holds : floatFunctions := by
  refine ⟨fun d a => ?_, fun d a b => ?_⟩
  · exact ⟨floatUnary_says (o := 0x3A) rfl (by decide) fun _ => rfl, floatUnary_says (o := 0x3B) rfl (by decide) fun _ => rfl,
      floatUnary_says (o := 0x3C) rfl (by decide) fun _ => rfl, floatUnary_says (o := 0x3D) rfl (by decide) fun _ => rfl,
      floatUnary_says (o := 0x3E) rfl (by decide) fun _ => rfl, floatUnary_says (o := 0x3F) rfl (by decide) fun _ => rfl,
      floatUnary_says (o := 0x40) rfl (by decide) fun _ => rfl, floatUnary_says (o := 0x41) rfl (by decide) fun _ => rfl,
      floatUnary_says (o := 0x46) rfl (by decide) fun _ => rfl⟩
  · have hscale := fscale_says d a b
    have hel (k : Int) (m : Word) (fm : Fmt) (x : FV) : scaleOf k m fm x = if x.isNan then (fm.nan, sigKind [x]) else
        fpRound fm (match x with | .fin neg n e => .fin neg n (e + k) | v => v) (mRnd m) false (mFtz m) := by cases x <;> rfl
    simp only [hel] at hscale
    exact hscale

/-! ## The part of a conversion (R130, R131) -/

theorem wB_cvt (d a : BitVec 8) (p : BitVec 2) (t : BitVec 4) : wB (encode (.cvt d a p t)) = p.toNat * 16 + t.toNat := by
  have henc : encodeNat (.cvt d a p t) = asm 1140850688 [put d 16, put a 8, put p 4, put t 0] := rfl
  rw [encode, henc, wB]
  simp only [asm, put, List.sum_cons, List.sum_nil, Option.getD_some, BitVec.toNat_ofNat]
  omega

theorem wB_cvtr (d a : BitVec 8) (m : BitVec 3) (p : BitVec 1) (t : BitVec 4) :
    wB (encode (.cvtr d a m p t)) = m.toNat * 32 + p.toNat * 16 + t.toNat := by
  have henc : encodeNat (.cvtr d a m p t) = asm 1157627904 [put d 16, put a 8, put m 5, put p 4, put t 0] := rfl
  rw [encode, henc, wB]
  simp only [asm, put, List.sum_cons, List.sum_nil, Option.getD_some, BitVec.toNat_ofNat]
  omega

theorem wOp_cvt (d a : BitVec 8) (p : BitVec 2) (t : BitVec 4) : wOp (encode (.cvt d a p t)) = 0x44 := by
  refine wOp_encode rfl (by decide) ?_
  exact Nat.lt_of_le_of_lt (Laws.fields_le d 16 (Laws.fields_le a 8 (Laws.fields_le p 4 (Laws.fields_le t 0 (Nat.le_refl 0))))) (by decide)

theorem wOp_cvtr (d a : BitVec 8) (m : BitVec 3) (p : BitVec 1) (t : BitVec 4) : wOp (encode (.cvtr d a m p t)) = 0x45 := by
  refine wOp_encode rfl (by decide) ?_
  exact Nat.lt_of_le_of_lt (Laws.fields_le d 16 (Laws.fields_le a 8 (Laws.fields_le m 5 (Laws.fields_le p 4 (Laws.fields_le t 0 (Nat.le_refl 0)))))) (by decide)

/-- Check 12 of CVT: the part exists. -/
theorem check12_cvt {et : Nat} {p : Bool} (h : check12 w et p = false) (hop : wOp w = 0x44) : wB w / 16 % 4 < cvtParts et (wB w % 16) := by
  by_contra hlt
  have hbad : (wOp w == 0x44 && (decide (14 ≤ wB w % 16) || decide (cvtParts et (wB w % 16) ≤ wB w / 16 % 4))) = true := by
    rw [hop, decide_eq_true (Nat.le_of_not_lt hlt), Bool.or_true]
    rfl
  rw [check12, hbad] at h
  simp at h

/-- The same of CVTR. -/
theorem check12_cvtr {et : Nat} {p : Bool} (h : check12 w et p = false) (hop : wOp w = 0x45) : wB w / 16 % 2 < cvtParts et (wB w % 16) := by
  by_contra hlt
  have hbad : (wOp w == 0x45 && (decide (14 ≤ wB w % 16) || decide (5 ≤ wB w / 32) || decide (cvtParts et (wB w % 16) ≤ wB w / 16 % 2))) = true := by
    rw [hop, decide_eq_true (Nat.le_of_not_lt hlt), Bool.or_true]
    rfl
  rw [check12, hbad] at h
  simp at h

/-- The elements of a part that exists are elements of the operand. -/
theorem cvtElems_idx {a dst part rnd : Nat} (h : part < cvtParts (laneEt g l) dst) : ∀ e ∈ cvtElems g a dst part rnd l, e.idx < 4 := by
  intro e he
  obtain ⟨k, hk, rfl⟩ := List.mem_map.mp he
  have hk : k < min (etCount (laneEt g l)) (etCount dst) := List.mem_range.mp hk
  have hdst := etCount_le dst
  show (if etCount dst ≤ etCount (laneEt g l) then k else part * min (etCount (laneEt g l)) (etCount dst) + k) < 4
  split
  · omega
  · rename_i hgt
    have hmin : min (etCount (laneEt g l)) (etCount dst) = etCount (laneEt g l) := by omega
    have hmax : max (etCount (laneEt g l)) (etCount dst) = etCount dst := by omega
    rw [cvtParts, hmin, hmax] at h
    have hparts : (part + 1) * etCount (laneEt g l) ≤ etCount dst := (Nat.mul_le_mul_right _ h).trans (Nat.div_mul_le_self _ _)
    rw [Nat.succ_mul] at hparts
    rw [hmin] at hk ⊢
    omega

theorem counted_cvtElems (g : Group) (c : Ctx) (a dst part rnd l : Nat) : cvtElems (counted g c) a dst part rnd l = cvtElems g a dst part rnd l := by
  unfold cvtElems
  simp only [counted_laneMode, counted_readN]

/-! ## CVT and CVTR -/

/-- Element e.idx of t replaced. -/
def putElem (dst t : Nat) (e : Elem) : Nat :=
  t - elem t (etWidth dst) e.idx * 2 ^ (etWidth dst * e.idx) + e.bits * 2 ^ (etWidth dst * e.idx)

theorem cvtOp_says {a dst part : Nat} {rnd : Word → Nat} (he : ∀ s, exec i s = cvtOp (encode i) d a dst part rnd s)
    (hpart : ∀ et, check12 (encode i) et false = false → part < cvtParts et dst) :
    FloatSays i d (fun g l => cvtElems g a dst part (rnd (laneMode g l)) l) (fun _ _ => etWide dst)
      fun g l => (cvtElems g a dst part (rnd (laneMode g l)) l).foldl (putElem dst) (readN g d (etWide dst) l) := by
  have hsame (g : Group) (c : Ctx) (l : Nat) : cvtElems (counted g c) a dst part (rnd (laneMode (counted g c) l)) l = cvtElems g a dst part (rnd (laneMode g l)) l := by
    rw [counted_cvtElems, counted_laneMode]
  refine floatSays_of_vwrite (value := fun g l => (cvtElems g a dst part (rnd (laneMode g l)) l).foldl (putElem dst) (readN g d (etWide dst) l)) he
    (fun g c l ha => ⟨cvtElems_idx (hpart _ ha.fields), hsame g c l⟩) (fun g c l _ => ?_) (fun _ _ => rfl) fun g c l hl hr hw => ?_
  · rw [hsame, counted_readN]
  · exact List.any_eq_true.mpr ⟨l / 4, List.contains_iff_mem.mp (runs_ctxSlices hl hr), hw⟩

/-- R131. -/
theorem conversions_holds : conversions := by
  refine ⟨fun d a part ty => ?_, fun d a rm part ty => ?_⟩
  · refine cvtOp_says (rnd := mRnd) (fun s => show execCvt d a part ty s = _ from rfl) fun et h => ?_
    have hfield := check12_cvt h (wOp_cvt d a part ty)
    rwa [wB_cvt, show (part.toNat * 16 + ty.toNat) / 16 % 4 = part.toNat by omega, show (part.toNat * 16 + ty.toNat) % 16 = ty.toNat by omega] at hfield
  · refine cvtOp_says (rnd := fun _ => rm.toNat) (fun s => show execCvtr d a rm part ty s = _ from rfl) fun et h => ?_
    have hfield := check12_cvtr h (wOp_cvtr d a rm part ty)
    rwa [wB_cvtr, show (rm.toNat * 32 + part.toNat * 16 + ty.toNat) / 16 % 2 = part.toNat by omega,
      show (rm.toNat * 32 + part.toNat * 16 + ty.toNat) % 16 = ty.toNat by omega] at hfield

/-! ## One element of a conversion (R131) -/

theorem loEnd_le_hiEnd (w : Nat) (sg : Bool) : loEnd w sg ≤ hiEnd w sg := by
  have h1 : (0 : Int) < 2 ^ (w - 1) := by positivity
  have h2 : (0 : Int) < 2 ^ w := by positivity
  cases sg
  · show (0 : Int) ≤ 2 ^ w - 1
    omega
  · show (-(2 ^ (w - 1)) : Int) ≤ 2 ^ (w - 1) - 1
    omega

/-- A float rounded to an integral value, as a clamped integer: invalid when it does not fit. -/
theorem cvtElem_toInt {src dst rnd x n : Nat} {sat ftz neg : Bool} {e : Int} (hsrc : 8 ≤ src) (hdst : dst < 8)
    (hx : fpVal (fmtOf src) ftz x = .fin neg n e) :
    let r : Int := if neg then -(roundMag neg n false e 0 rnd) else roundMag neg n false e 0 rnd
    cvtElem src dst rnd sat ftz x = (fit r (etWidth dst) (etSigned dst) true,
      if loEnd (etWidth dst) (etSigned dst) ≤ r ∧ r ≤ hiEnd (etWidth dst) (etSigned dst) ∨ sat = true then 0 else 8) := by
  intro r
  have hle := loEnd_le_hiEnd (etWidth dst) (etSigned dst)
  have hcvt : cvtElem src dst rnd sat ftz x =
      if r < loEnd (etWidth dst) (etSigned dst) then ((loEnd (etWidth dst) (etSigned dst) % (2 ^ etWidth dst : Int)).toNat, if sat then 0 else 8)
      else if hiEnd (etWidth dst) (etSigned dst) < r then ((hiEnd (etWidth dst) (etSigned dst) % (2 ^ etWidth dst : Int)).toNat, if sat then 0 else 8)
      else ((r % (2 ^ etWidth dst : Int)).toNat, 0) := by
    simp only [cvtElem, if_neg (Nat.not_lt.mpr hsrc), if_pos hdst, hx]
    rfl
  rw [hcvt, fit, if_pos rfl]
  generalize loEnd (etWidth dst) (etSigned dst) = lo at hle
  generalize hiEnd (etWidth dst) (etSigned dst) = hi at hle
  by_cases hlow : r < lo
  · rw [if_pos hlow, max_eq_right hlow.le, min_eq_left hle]
    simp only [not_le.mpr hlow, false_and, false_or]
  · by_cases hhigh : hi < r
    · rw [if_neg hlow, if_pos hhigh, max_eq_left (not_lt.mp hlow), min_eq_right hhigh.le]
      simp only [not_le.mpr hhigh, and_false, false_or]
    · rw [if_neg hlow, if_neg hhigh, max_eq_left (not_lt.mp hlow), min_eq_left (not_lt.mp hhigh), if_pos (.inl ⟨not_lt.mp hlow, not_lt.mp hhigh⟩)]

theorem fmtOf_e4m3 (et : Nat) : (fmtOf et).e4m3 = decide (et = 12) := by
  unfold fmtOf
  split <;> simp_all

/-- An infinity keeps its sign, but in E4M3, which has none. -/
theorem fpRound_inf (dst rnd : Nat) (sat ftz neg : Bool) : fpRound (fmtOf dst) (.inf neg) rnd sat ftz =
    if dst ≠ 12 then ((fmtOf dst).sign neg (fmtOf dst).infBits, 0) else if sat then ((fmtOf dst).sign neg 0x7E, 0) else (0x7F, 9) := by
  by_cases h : dst = 12
  · subst h
    rfl
  · rw [if_pos h, fpRound, fmtOf_e4m3, decide_eq_false h]
    rfl

/-- R131. -/
theorem elementConversions_holds : elementConversions := by
  refine ⟨fun g a dst part rnd l => ⟨?_, fun i hi => ?_⟩, fun src dst rnd x sat ftz => ⟨fun hs hd => ?_, fun hs hd => ?_, fun hs hd => ?_, fun hs hd => ?_⟩⟩
  · simp [cvtElems, laneEt]
  · have hrange : (List.range (min (etCount (mEtype (laneMode g l))) (etCount dst)))[i]? = some i := List.getElem?_range hi
    rw [cvtElems, List.getElem?_map, hrange, Option.map_some]
    exact ⟨_, rfl, rfl, rfl⟩
  · simp only [cvtElem, if_pos hs, if_pos hd]
  · simp only [cvtElem, if_pos hs, if_neg (Nat.not_lt.mpr hd)]
  · simp only [cvtElem, if_neg (Nat.not_lt.mpr hs), if_neg (Nat.not_lt.mpr hd)]
    refine ⟨fun sig hf => ?_, fun neg hf => ?_, fun neg n e hf => ?_⟩
    · rw [hf]
    · rw [hf]
      exact fpRound_inf dst rnd sat ftz neg
    · rw [hf]
  · refine ⟨fun sig hf => ?_, fun neg hf => ?_, fun neg n e hf => cvtElem_toInt hs hd hf⟩
    · simp only [cvtElem, if_neg (Nat.not_lt.mpr hs), if_pos hd, hf]
      cases sig <;> rfl
    · simp only [cvtElem, if_neg (Nat.not_lt.mpr hs), if_pos hd, hf]
      rfl

end Sys2Proof.Machine

namespace Sys2Proof
open Machine

/-- Settles O13: the functions are elementwise work on values, roundMag is division by a power of two (`roundMag_spec`), and the conversions go element by element. -/
theorem floatFunctionsAndConversions : Obligations.FloatFunctionsAndConversions :=
  ⟨floatFunctions_holds, roundMag_spec, functionValues_holds, conversions_holds, elementConversions_holds⟩

end Sys2Proof
end

section
/-! What the memory instructions capture when they issue (O20, O21).

`memSaysWhen_of_plan`: an instruction whose meaning is `issueMemWhen` says what its plan says, since issuing changes nothing that the plan reads (`Steady`). Each
instruction is then its plan written out. -/
namespace Sys2Proof.Machine

variable {i : Instr} {kind : State → Group → Ctx → MemKind} {active : Group → Ctx → LaneMask} {addr : State → Group → Ctx → Nat → DWord}
  {data : State → Group → Ctx → Nat → BitVec 128} {checks : State → Group → Ctx → LogOp → Option TrapInfo} {waits : State → Group → Ctx → Bool}

/-! ## The general law -/

/-- What a memory instruction captures does not look at the count of issues. -/
structure Steady (kind : State → Group → Ctx → MemKind) (active : Group → Ctx → LaneMask) (addr : State → Group → Ctx → Nat → DWord)
    (data : State → Group → Ctx → Nat → BitVec 128) : Prop where
  kind : ∀ s g c, kind (countIssue s c) (counted g c) c = kind s g c
  active : ∀ g c, active (counted g c) c = active g c
  addr : ∀ s g c l, addr (countIssue s c) (counted g c) c l = addr s g c l
  data : ∀ s g c l, data (countIssue s c) (counted g c) c l = data s g c l

/-- The plan of an instruction that captures what four functions give. -/
def planOf (kind : State → Group → Ctx → MemKind) (active : Group → Ctx → LaneMask) (addr : State → Group → Ctx → Nat → DWord)
    (data : State → Group → Ctx → Nat → BitVec 128) (c : Ctx) (g : Group) (s : State) : LogPlan :=
  { kind := kind s g c, active := active g c, addr := addr s g c, data := data s g c }

theorem Steady.planOf_counted (h : Steady kind active addr data) (s : State) (g : Group) (c : Ctx) :
    planOf kind active addr data c (counted g c) (countIssue s c) = planOf kind active addr data c g s := by
  unfold planOf
  rw [h.kind, h.active, funext (h.addr s g c), funext (h.data s g c)]

/-- An instruction of the shape issueMemWhen raises the trap that its checks find. -/
theorem issueMemWhen_raises {w : Word} {s : State} {c : Ctx} {u : Option Nat} {store : Bool} {plan : Ctx → Group → State → LogPlan}
    {pre : Ctx → Group → State → LogOp → Option TrapInfo} {hold : Ctx → Group → State → Bool} {f : TrapInfo} (hc : issuer s = some c)
    (hi : issues w s = true) (hu : u.isSome = true → uniformSplit (s.group c.gid) c = false)
    (hf : pre c (counted (s.group c.gid) c) (countIssue s c)
      (mkOp (countIssue s c) c (counted (s.group c.gid) c) w (plan c (counted (s.group c.gid) c) (countIssue s c))) = some f) :
    issueMemWhen w u store s plan pre hold = .next (raiseTrap (countIssue s c) c w f) := by
  rw [issueMemWhen, issue_body _ hc hi]
  cases u with
  | none => simp only [hf, Option.orElse_none, trapAt]
  | some code => simp only [counted_uniformSplit, hu rfl, hf, Bool.false_eq_true, if_false, Option.orElse_none, trapAt]

/-- What a plan captures is what the instruction captures, checks and logs. -/
theorem memSaysWhen_of_plan {u : Option Nat} {store : Bool}
    (he : ∀ s, exec i s = issueMemWhen (encode i) u store s (planOf kind active addr data) (fun c g s o => checks s g c o) fun c g s => waits s g c)
    (hs : Steady kind active addr data) : MemSaysWhen i u.isSome store kind active addr data checks waits := by
  intro s c hc hi g captured checked hu
  have hp := hs.planOf_counted s g c
  refine ⟨fun f hf => ?_, fun hok hw => ?_⟩
  · refine (he s).trans (issueMemWhen_raises hc hi hu ?_)
    rw [hp]
    exact hf _ (mkOp_captures s c (encode i) (planOf kind active addr data c g s))
  · obtain ⟨hsome, hnone⟩ := issueMemWhen_completes u store (planOf kind active addr data) (fun c g s o => checks s g c o) (fun c g s => waits s g c) hc hi _ hp
      (fun code h => hu (by rw [h]; rfl)) hok hw
    refine ⟨fun ha => ?_, fun ha => ?_⟩
    · obtain ⟨t, ht, hop⟩ := hsome ha
      exact ⟨t, (he s).trans ht, hop⟩
    · obtain ⟨t, ht, hidle⟩ := hnone ha
      exact ⟨t, (he s).trans ht, hidle⟩

/-- The same where nothing is waited for. -/
theorem memSays_of_plan {u : Option Nat} {store : Bool}
    (he : ∀ s, exec i s = issueMem (encode i) u store s (planOf kind active addr data) fun c g s o => checks s g c o)
    (hs : Steady kind active addr data) : MemSays i u.isSome store kind active addr data checks :=
  memSaysWhen_of_plan he hs

/-! ## Operands that are captured -/

theorem counted_readRegs (g : Group) (c : Ctx) (d n l : Nat) : readRegs (counted g c) d n l = readRegs g d n l := rfl

/-- One value for every lane, and the active lanes' own addresses and data. -/
theorem steady_lanes {k : Group → Ctx → MemKind} {f : Group → Nat → DWord} {v : Group → Nat → BitVec 128} (hk : ∀ g c, k (counted g c) c = k g c)
    (hf : ∀ g c, f (counted g c) = f g) (hv : ∀ g c, v (counted g c) = v g) : Steady (fun _ g c => k g c) activeSet (fun _ g _ l => f g l) fun _ g _ l => v g l where
  kind _ g c := hk g c
  active g c := counted_activeSet g c c
  addr _ g c l := congrFun (hf g c) l
  data _ g c l := congrFun (hv g c) l

/-- A uniform access captures its operands for the gang's running lanes. -/
theorem steady_uniform {k : State → Group → Ctx → MemKind} {f : State → Group → Ctx → DWord} {v : State → Group → Ctx → BitVec 128}
    (hk : ∀ s g c, k (countIssue s c) (counted g c) c = k s g c) (hf : ∀ s g c, f (countIssue s c) (counted g c) c = f s g c)
    (hv : ∀ s g c, v (countIssue s c) (counted g c) c = v s g c) : Steady k runSet (fun s g c _ => f s g c) fun s g c _ => v s g c where
  kind := hk
  active g c := counted_runSet g c c
  addr s g c _ := hf s g c
  data s g c _ := hv s g c

/-! ## Loads and stores (R150, R151, R154, R155) -/

theorem load_says {w : Nat} {d a imm : BitVec 8} (he : ∀ s, exec i s = issueLoad (encode i) w d a imm s) :
    MemSays i false false (fun _ _ _ => .load w d.toNat) activeSet (laneAddr a imm w) noData fun s g _ o => memCheck s g o (plainSpec w .load) :=
  memSays_of_plan (u := none) he (steady_lanes (fun _ _ => rfl) (fun _ _ => rfl) fun _ _ => rfl)

theorem store_says {w : Nat} {d a imm : BitVec 8} (he : ∀ s, exec i s = issueStore (encode i) w d a imm s) :
    MemSays i false true (fun _ _ _ => .store w) activeSet (laneAddr a imm w)
      (fun _ g _ l => BitVec.ofNat 128 (readRegs g d.toNat (max (w / 4) 1) l % 2 ^ (8 * w))) fun s g _ o => memCheck s g o (plainSpec w .store) :=
  memSays_of_plan (u := none) he (steady_lanes (fun _ _ => rfl) (fun _ _ => rfl) fun _ _ => rfl)

/-- R150, R151, R154. -/
theorem loadsIssue_holds : loadsIssue := by
  intro d a imm
  refine ⟨load_says fun _ => rfl, load_says fun _ => rfl, load_says fun _ => rfl, load_says fun _ => rfl, load_says fun _ => rfl, ?_, ?_⟩
  · exact memSays_of_plan (u := some d.toNat) (fun _ => rfl)
      (steady_uniform (fun s g c => by rw [counted_uWide]) (fun s g c => by rw [countIssue_readU64]) fun _ _ _ => rfl)
  · exact memSays_of_plan (u := none) (fun _ => rfl) (steady_lanes (fun _ _ => rfl) (fun _ _ => rfl) fun _ _ => rfl)

/-- R150, R151, R155. -/
theorem storesIssue_holds : storesIssue := by
  intro d a imm
  refine ⟨store_says fun _ => rfl, store_says fun _ => rfl, store_says fun _ => rfl, store_says fun _ => rfl, store_says fun _ => rfl, ?_, ?_⟩
  · exact memSays_of_plan (u := none) (fun _ => rfl)
      (steady_uniform (fun s g c => by rw [counted_uWide]) (fun s g c => by rw [countIssue_readU64])
        fun s g c => by rw [counted_uWide, countIssue_readU64, countIssue_readU])
  · exact memSays_of_plan (u := none) (fun _ => rfl) (steady_lanes (fun _ _ => rfl) (fun _ _ => rfl) fun _ _ => rfl)

/-! ## Atomics and ordered adds (R157, R160, R161) -/

theorem atomic_says {op : Nat} {d a b : BitVec 8} (he : ∀ s, exec i s = issueAtomic (encode i) op d a b s) :
    MemSays i false true (fun _ g c => .atomic (if (lanesOf (activeSet g c)).any (laneWide g) then op + 8 else op) d.toNat) activeSet (lanePair a)
      (fun _ g _ l => BitVec.ofNat 128 (readRegs g b.toNat ((if op = 7 then 2 else 1) * (if laneWide g l then 2 else 1)) l))
      fun s g _ o => memCheck s g o { align := fun x => x.n, noWindow := false, win := .other, locks := true, lockLine := false } :=
  memSays_of_plan (u := none) he (steady_lanes (fun g c => by rw [counted_activeSet, counted_laneWide_eq]) (fun _ _ => rfl)
    fun g c => funext fun l => by rw [counted_laneWide, counted_readRegs])

/-- R157, R160, R161. -/
theorem atomicsIssue_holds : atomicsIssue := by
  intro d a b
  refine ⟨atomic_says fun _ => rfl, atomic_says fun _ => rfl, atomic_says fun _ => rfl, atomic_says fun _ => rfl, atomic_says fun _ => rfl,
    atomic_says fun _ => rfl, atomic_says fun _ => rfl, atomic_says fun _ => rfl, ?_, ?_⟩
  · exact memSays_of_plan (u := none) (fun _ => rfl)
      (steady_lanes (fun _ _ => rfl) (fun _ _ => rfl) fun g c => funext fun l => by rw [counted_laneWide, counted_readRegs])
  · exact memSays_of_plan (u := some (d.toNat % 16)) (fun _ => rfl)
      (steady_uniform (f := fun s g c => readU64 s g c a.toNat) (fun s g c => by rw [counted_uniformEt, countIssue_readU])
        (fun s g c => countIssue_readU64 s g c c _) fun _ _ _ => rfl)

/-! ## Standing loads and sync objects (R181, R185, R210 to R213) -/

theorem rel_says {add : Bool} {d a : BitVec 8} {sc : BitVec 3} (he : ∀ s, exec i s = issueRel (encode i) add d a sc s) :
    MemSays i false true (fun _ _ _ => .rel add sc.toNat) activeSet (lanePair a) (fun _ g _ l => (readV64 g d.toNat l).setWidth 128)
      fun s g _ o => memCheck s g o syncSpec :=
  memSays_of_plan (u := none) he (steady_lanes (fun _ _ => rfl) (fun _ _ => rfl) fun _ _ => rfl)

/-- R181, R185, R210 to R213. -/
theorem synchronisationIssues_holds : synchronisationIssues := by
  refine ⟨fun sc q p a imm => ?_, fun p a imm => ?_, fun r p a b => ?_, fun p a => ?_, fun d a sc => ⟨?_, rel_says fun _ => rfl, rel_says fun _ => rfl⟩⟩
  · exact memSays_of_plan (u := none) (fun _ => rfl) (steady_lanes (fun _ _ => rfl) (fun _ _ => rfl) fun _ _ => rfl)
  · exact memSays_of_plan (u := none) (fun _ => rfl) (steady_lanes (f := fun _ _ => 0) (v := fun g l => (readV64 g a.toNat l + imm.signExtend 64 * BitVec.ofNat 64 16).setWidth 128) (fun _ _ => rfl) (fun _ _ => rfl)
        fun _ _ => rfl)
  · exact memSays_of_plan (u := some p.toNat) (fun _ => rfl)
      (steady_uniform (f := fun s g c => readU64 s g c a.toNat) (fun s g c => by rw [countIssue_readU64, countIssue_readU64])
        (fun s g c => countIssue_readU64 s g c c _) fun _ _ _ => rfl)
  · exact memSays_of_plan (u := some p.toNat) (fun _ => rfl)
      (steady_uniform (f := fun s g c => readU64 s g c a.toNat) (fun _ _ _ => rfl) (fun s g c => countIssue_readU64 s g c c _) fun _ _ _ => rfl)
  · exact memSays_of_plan (u := none) (fun _ => rfl) (steady_lanes (fun _ _ => rfl) (fun _ _ => rfl) fun _ _ => rfl)

end Sys2Proof.Machine

namespace Sys2Proof
open Machine

/-- Settles O20: a load or store is its plan written out (`memSays_of_plan`). -/
theorem loadsAndStoresIssue : Obligations.LoadsAndStoresIssue := ⟨loadsIssue_holds, storesIssue_holds⟩

/-- Settles O21: so are the atomics, the ordered adds, and the instructions of sync objects and standing loads. -/
theorem atomicsAndSynchronisationIssue : Obligations.AtomicsAndSynchronisationIssue := ⟨atomicsIssue_holds, synchronisationIssues_holds⟩

end Sys2Proof
end

section
/-! What the checks of an access find, prefetches, and votes that fail (O22). -/
namespace Sys2Proof.Machine

variable {s : State} {g : Group} {o : LogOp} {k : CheckSpec} {c : Ctx} {i : Instr}

/-! ## The outcomes of memCheck, in the order of its checks -/

/-- The range lock that an access may not overlap (07 R223). -/
def accLock (s : State) (g : Group) (o : LogOp) (k : CheckSpec) (a : Acc) : Option Lock :=
  let va := if k.lockLine then a.va / 128 * 128 else a.va
  let n := if k.lockLine then 128 else a.n
  if k.locks then s.lockHit (dieOf g.core) (s.asid g.tid) va n o.kind.writes else none

theorem accLock_eq (s : State) (g : Group) (o : LogOp) (k : CheckSpec) (a : Acc) :
    (if !k.locks then none
      else if k.lockLine then s.lockHit (dieOf g.core) (s.asid g.tid) (a.va / 128 * 128) 128 o.kind.writes
      else s.lockHit (dieOf g.core) (s.asid g.tid) a.va a.n o.kind.writes) = accLock s g o k a := by
  unfold accLock
  cases k.locks <;> cases k.lockLine <;> rfl

/-- A check that some access fails names the first of them. -/
theorem filter_of_find? {α : Type} {l : List α} {p : α → Bool} {a : α} (h : l.find? p = some a) : ∃ r, l.filter p = a :: r := by
  rwa [← List.head?_filter, List.head?_eq_some_iff] at h

theorem filter_of_passes {α : Type} {l : List α} {p : α → Bool} (h : ∀ a ∈ l, p a = false) : l.filter p = [] :=
  List.filter_eq_nil_iff.mpr fun a ha => by rw [h a ha]; decide

/-- The trap of the accesses that satisfy a condition. -/
theorem accTrap_filter (o : LogOp) (code cause : Nat) (addr : DWord) (l : List Acc) (p : Acc → Bool) (opw : Word) :
    accTrap o code cause addr (l.filter p) opw =
      { code := code, cause := cause, fmask := laneSet fun x => l.any fun a => p a && o.accLane a x,
        lane := lowestLane (laneSet fun x => l.any fun a => p a && o.accLane a x), addr := addr, opw := opw } := by
  simp only [accTrap, List.any_filter]

section
variable (hmis : ∀ a ∈ s.accesses o, (a.va % k.align a != 0) = false)
  (hwin : ∀ a ∈ s.accesses o, (k.noWindow && ((s.team g.tid).offset (BitVec.ofNat 64 a.va)).isSome) = false)
  (href : ∀ a ∈ s.accesses o, (winCheck (s.team g.tid) a k.win o.kind.isUniform).isSome = false)

theorem memCheck_misaligned {a : Acc} (h : (s.accesses o).find? (fun a => a.va % k.align a != 0) = some a) :
    memCheck s g o k = some (accTrap o 8 1 (BitVec.ofNat 64 a.va) ((s.accesses o).filter fun a => a.va % k.align a != 0) 0) := by
  obtain ⟨r, hr⟩ := filter_of_find? h
  simp only [memCheck, hr]

include hmis

theorem memCheck_forbidden {a : Acc} (h : (s.accesses o).find? (fun a => k.noWindow && ((s.team g.tid).offset (BitVec.ofNat 64 a.va)).isSome) = some a) :
    memCheck s g o k = some (accTrap o 8 3 (BitVec.ofNat 64 a.va)
      ((s.accesses o).filter fun a => k.noWindow && ((s.team g.tid).offset (BitVec.ofNat 64 a.va)).isSome) 0) := by
  obtain ⟨r, hr⟩ := filter_of_find? h
  simp only [memCheck, filter_of_passes hmis, hr]

include hwin

theorem memCheck_refused {a : Acc} {code cause off : Nat}
    (h : (s.accesses o).find? (fun a => (winCheck (s.team g.tid) a k.win o.kind.isUniform).isSome) = some a)
    (hw : winCheck (s.team g.tid) a k.win o.kind.isUniform = some (code, cause, off)) :
    memCheck s g o k = some (accTrap o code cause (winAddr code a.va off) (((s.accesses o).filter fun a => (winCheck (s.team g.tid) a k.win o.kind.isUniform).isSome).filter
      fun b => (winCheck (s.team g.tid) b k.win o.kind.isUniform).map (fun e => (e.1, e.2.1)) == some (code, cause)) 0) := by
  obtain ⟨r, hr⟩ := filter_of_find? h
  simp only [memCheck, filter_of_passes hmis, filter_of_passes hwin, hr, hw]

include href

theorem memCheck_locked {a : Acc} {x : Lock} (h : (s.accesses o).find? (fun a => (accLock s g o k a).isSome) = some a) (hx : accLock s g o k a = some x) :
    memCheck s g o k = some (accTrap o 0x0D (lockCause x) (BitVec.ofNat 64 a.va) ((s.accesses o).filter fun a => (accLock s g o k a).isSome)
      (lockWord x (dieOf g.core))) := by
  obtain ⟨r, hr⟩ := filter_of_find? h
  simp only [memCheck, accLock_eq, filter_of_passes hmis, filter_of_passes hwin, filter_of_passes href, hr, hx]

theorem memCheck_passes (h : ∀ a ∈ s.accesses o, (accLock s g o k a).isSome = false) : memCheck s g o k = none := by
  simp only [memCheck, accLock_eq, filter_of_passes hmis, filter_of_passes hwin, filter_of_passes href, filter_of_passes h]

end

theorem map_beq_some_and_isSome {α β : Type} [BEq β] (x : Option α) (f : α → β) (y : β) : ((x.map f == some y) && x.isSome) = (x.map f == some y) := by
  cases x with
  | none => rw [Option.isSome_none, Bool.and_false]; rfl
  | some v => rw [Option.isSome_some, Bool.and_true]

theorem lockCause_eq (x : Lock) : lockCause x = x.owner.engine * 2 ^ 12 + if x.write then 2 ^ 11 else 0 := by
  unfold lockCause
  cases x.write <;> rfl

/-! ## What lies at a window offset (R137) -/

theorem winCheck_inside {t : Team} {a : Acc} {op : WinOp} {uniform : Bool} {off : Nat} (h : t.offset (BitVec.ofNat 64 a.va) = some off) :
    winCheck t a op uniform = (windowError t off a.n op uniform).map fun e => (e.1, e.2, off) := by
  simp only [winCheck, h]

section
variable {t : Team} {off n : Nat}

theorem place_storage (h : off + n ≤ t.scrSize) : t.place off n = .scratch := by
  rw [Team.place, if_pos h]

/-- A register of a FIFO that is configured. -/
def atRegister (t : Team) (off n : Nat) : Prop :=
  0x4000000 ≤ off ∧ off < 0x4040000 ∧ (t.fifos.getD ((off - 0x4000000) / 0x10000) none).isSome = true ∧ off % 0x10000 + n ≤ 0x24

theorem place_nothing (hs : ¬ off + n ≤ t.scrSize) (hr : ¬ atRegister t off n) : t.place off n = .none := by
  rw [Team.place, if_neg hs]
  by_cases hrange : 0x4000000 ≤ off ∧ off < 0x4040000
  · rw [if_pos hrange]
    refine (ite_eq_left_iff.mpr fun hf => ?_)
    rw [Bool.not_eq_true, Option.isNone_eq_false_iff] at hf
    have hover : ¬ off % 0x10000 + n ≤ 0x24 := fun h => hr ⟨hrange.1, hrange.2, hf, h⟩
    rw [if_neg (by omega), if_neg (by omega), if_neg (by omega), if_neg hover]
  · rw [if_neg hrange]

theorem place_register (hs : ¬ off + n ≤ t.scrSize) (hr : atRegister t off n) :
    t.place off n =
      if off % 0x10000 + n ≤ 0x10 then .push ((off - 0x4000000) / 0x10000)
      else if 0x10 ≤ off % 0x10000 ∧ off % 0x10000 + n ≤ 0x20 then .pop ((off - 0x4000000) / 0x10000)
      else if 0x20 ≤ off % 0x10000 then .count ((off - 0x4000000) / 0x10000)
      else .several ((off - 0x4000000) / 0x10000) := by
  obtain ⟨hlo, hhi, hf, hn⟩ := hr
  rw [Team.place, if_neg hs, if_pos ⟨hlo, hhi⟩]
  simp only [Option.isNone_eq_false_iff.mpr hf, Bool.false_eq_true, if_false, hn, and_true, if_true]

/-- A plain access: a load or a store of one lane. -/
theorem not_plain_iff {op : WinOp} {uniform : Bool} :
    ¬ ((op = .load ∨ op = .store) ∧ uniform = false) ↔ op = .other ∨ op = .hub ∨ uniform = true := by
  cases op <;> cases uniform <;> decide

theorem windowError_register_notPlain {op : WinOp} {uniform : Bool} (hs : ¬ off + n ≤ t.scrSize) (hr : atRegister t off n)
    (hp : ¬ ((op = .load ∨ op = .store) ∧ uniform = false)) : windowError t off n op uniform = some (8, 3) := by
  rw [not_plain_iff] at hp
  have hcount : op = .other ∨ op = .hub ∨ op = .store ∨ uniform = true := by tauto
  rw [windowError, place_register hs hr]
  by_cases h1 : off % 0x10000 + n ≤ 0x10
  · simp only [if_pos h1, if_pos hp]
  · by_cases h2 : 0x10 ≤ off % 0x10000 ∧ off % 0x10000 + n ≤ 0x20
    · simp only [if_neg h1, if_pos h2, if_pos hp]
    · by_cases h3 : 0x20 ≤ off % 0x10000
      · simp only [if_neg h1, if_neg h2, if_pos h3, if_pos hcount]
      · simp only [if_neg h1, if_neg h2, if_neg h3]

section
variable {op : WinOp} {uniform : Bool} (hs : ¬ off + n ≤ t.scrSize) (hr : atRegister t off n) (hp : (op = .load ∨ op = .store) ∧ uniform = false)
include hs hr hp

theorem windowError_push (h : off % 0x10000 + n ≤ 0x10) :
    windowError t off n op uniform = if n ≠ 16 then some (8, 2) else if op = .store then none else some (8, 3) := by
  have hno : ¬ (op = .other ∨ op = .hub ∨ uniform = true) := fun hn => not_plain_iff.mpr hn hp
  rw [windowError, place_register hs hr]
  simp only [if_pos h, if_neg hno]

theorem windowError_pop (hn : 1 ≤ n) (hlo : 0x10 ≤ off % 0x10000) (h : off % 0x10000 + n ≤ 0x20) :
    windowError t off n op uniform = if n ≠ 16 then some (8, 2) else if op = .load then none else some (8, 3) := by
  have hno : ¬ (op = .other ∨ op = .hub ∨ uniform = true) := fun hn => not_plain_iff.mpr hn hp
  rw [windowError, place_register hs hr]
  simp only [if_neg (show ¬ off % 0x10000 + n ≤ 0x10 by omega), if_pos (And.intro hlo h), if_neg hno]

theorem windowError_count (hn : 1 ≤ n) (h : 0x20 ≤ off % 0x10000) :
    windowError t off n op uniform = if op = .store then some (8, 3) else if n ≠ 4 then some (8, 2) else none := by
  obtain ⟨hop, hu⟩ := hp
  rw [windowError, place_register hs hr]
  simp only [if_neg (show ¬ off % 0x10000 + n ≤ 0x10 by omega), if_neg (show ¬ (0x10 ≤ off % 0x10000 ∧ off % 0x10000 + n ≤ 0x20) by omega), if_pos h]
  rcases hop with rfl | rfl <;> simp [hu]

omit hp in
theorem windowError_several
    (h : (off % 0x10000 < 0x10 ∧ 0x10 < off % 0x10000 + n) ∨ (off % 0x10000 < 0x20 ∧ 0x20 < off % 0x10000 + n)) :
    windowError t off n op uniform = some (8, 3) := by
  rw [windowError, place_register hs hr]
  simp only [if_neg (show ¬ off % 0x10000 + n ≤ 0x10 by omega), if_neg (show ¬ (0x10 ≤ off % 0x10000 ∧ off % 0x10000 + n ≤ 0x20) by omega),
    if_neg (show ¬ 0x20 ≤ off % 0x10000 by omega)]

end

end

/-- R137, R147, R148, R223. -/
theorem accessChecks_holds : accessChecks := by
  refine ⟨fun s g o k => ?_, fun t a op uniform off h => winCheck_inside h, fun t off n op uniform hn => ?_⟩
  · intro accesses t misaligned forbidden refusal lock record passes
    have hlock : lock = accLock s g o k := rfl
    refine ⟨fun a ha => ?_, fun hmis => ⟨fun a ha => ?_, fun hwin => ⟨fun a code cause off ha hr => ?_, fun href => ⟨fun a x ha hx => ?_, fun hl => ?_⟩⟩⟩⟩
    · rw [memCheck_misaligned ha, accTrap_filter]
      rfl
    · rw [memCheck_forbidden hmis ha, accTrap_filter]
      rfl
    · rw [memCheck_refused hmis hwin ha hr, List.filter_filter, accTrap_filter]
      simp only [map_beq_some_and_isSome]
      rfl
    · rw [memCheck_locked hmis hwin href ha hx, accTrap_filter, lockCause_eq]
      rfl
    · exact memCheck_passes hmis hwin href hl
  · intro storage register at_ plain error
    refine ⟨fun h => ?_, fun hs hr => ?_, fun hs hr => ⟨fun hp => ?_, fun hp h => ?_, fun hp hlo h => ?_, fun hp h => ?_, fun hp h => ?_⟩⟩
    · exact show windowError t off n op uniform = _ by rw [windowError, place_storage h]
    · exact show windowError t off n op uniform = _ by rw [windowError, place_nothing hs hr]
    · exact windowError_register_notPlain hs hr hp
    · exact windowError_push hs hr hp h
    · exact windowError_pop hs hr hp hn hlo h
    · exact windowError_count hs hr hp hn h
    · exact windowError_several hs hr h

end Sys2Proof.Machine
end

section
/-! Misaligned accesses, prefetches, and votes that fail (O22). -/
namespace Sys2Proof.Machine

variable {s : State} {g : Group} {o : LogOp} {c : Ctx} {i : Instr}

/-! ## The lowest lane of a set -/

theorem find?_lanesOf {m : LaneMask} {p : Nat → Bool} {l : Nat} (hl : l < 256) (hm : m.getLsbD l = true) (hp : p l = true)
    (hlow : ∀ k, k < l → m.getLsbD k = true → p k = false) : (lanesOf m).find? p = some l := by
  rw [lanesOf, List.find?_filter, List.find?_range_eq_some]
  refine ⟨by rw [hm, hp]; rfl, List.mem_range.mpr hl, fun k hk => ?_⟩
  cases hb : m.getLsbD k with
  | false => rfl
  | true => rw [hlow k hk hb]; rfl

/-! ## Misaligned accesses (R147) -/

theorem accLane_lane (hu : o.kind.isUniform = false) (hs : o.kind ≠ .sxst) (a : Acc) (l : Nat) : o.accLane a l = (o.active.getLsbD l && l == a.lane) := by
  unfold LogOp.accLane
  rw [hu, Bool.false_or]
  split
  · exact absurd ‹_› hs
  · rfl

/-- An operation whose lanes each access w bytes, where some lanes' addresses are no multiple of w. -/
theorem memCheck_plain_misaligned {w : Nat} {op : WinOp} {bad : Nat → Bool} {l : Nat} {x : DWord} (hu : o.kind.isUniform = false) (hs : o.kind ≠ .sxst)
    (hacc : s.accesses o = (lanesOf o.active).map fun l => ⟨l, o.ea l, w⟩)
    (hbad : ∀ k, k < 256 → bad k = (o.active.getLsbD k && o.ea k % w != 0)) (hl : l < 256) (hb : bad l = true) (hlow : ∀ k, k < l → bad k = false)
    (hx : o.ea l = x.toNat) :
    memCheck s g o (plainSpec w op) = some { code := 8, cause := 1, fmask := laneSet bad, lane := l, addr := x, opw := 0 } := by
  have hboth := hb
  rw [hbad l hl, Bool.and_eq_true] at hboth
  obtain ⟨hact, hmis⟩ := hboth
  have hfind : (s.accesses o).find? (fun a => a.va % (plainSpec w op).align a != 0) = some ⟨l, o.ea l, w⟩ := by
    rw [hacc, List.find?_map, find?_lanesOf hl hact hmis fun k hk hm => ?_]
    · rfl
    · have h := hlow k hk
      rwa [hbad k (by omega), hm, Bool.true_and] at h
  have hmask : (laneSet fun k => (s.accesses o).any fun a => (a.va % (plainSpec w op).align a != 0) && o.accLane a k) = laneSet bad := by
    refine laneSet_eq_iff.mpr fun k hk => ?_
    simp only [accLane_lane hu hs, hacc, List.any_map, Function.comp_def, hbad k hk]
    rw [Bool.eq_iff_iff]
    simp only [List.any_eq_true, Bool.and_eq_true, beq_iff_eq, lanesOf, List.mem_filter, List.mem_range]
    exact ⟨fun ⟨j, _, hj, ha, e⟩ => e ▸ ⟨e ▸ ha, hj⟩, fun ⟨ha, hj⟩ => ⟨k, ⟨hk, ha⟩, hj, ha, rfl⟩⟩
  rw [memCheck_misaligned hfind, accTrap_filter, hmask, lowestLane_laneSet hl hb hlow, hx, BitVec.ofNat_toNat, BitVec.setWidth_eq]

/-- The instruction raises ALIGN for the active lanes whose addresses are no multiple of w bytes. -/
def TrapsMisaligned (i : Instr) (a imm : BitVec 8) (w : Nat) : Prop :=
  ∀ s c, issuer s = some c → issues (encode i) s = true →
    let g := s.group c.gid
    let bad (l : Nat) : Bool := isActive g c l && (laneAddr a imm w s g c l).toNat % w != 0
    ∀ l, l < 256 → bad l = true → (∀ k, k < l → bad k = false) →
      Raises i s c { code := 8, cause := 1, fmask := laneSet bad, lane := l, addr := laneAddr a imm w s g c l, opw := 0 }

/-- A memory instruction whose lanes each access w bytes does. -/
theorem plain_misaligned {w : Nat} {a imm : BitVec 8} {store : Bool} {op : WinOp} {k : MemKind} {data : State → Group → Ctx → Nat → BitVec 128}
    (hsays : MemSays i false store (fun _ _ _ => k) activeSet (laneAddr a imm w) data fun s g _ o => memCheck s g o (plainSpec w op))
    (hu : k.isUniform = false) (hs : k ≠ .sxst)
    (hacc : ∀ (s : State) (o : LogOp), o.kind = k → s.accesses o = (lanesOf o.active).map fun l => ⟨l, o.ea l, w⟩) : TrapsMisaligned i a imm w := by
  intro s c hc hi g bad l hl hb hlow
  refine (hsays s c hc hi nofun).1 _ fun o ho => ?_
  have haddr (k' : Nat) (hk : k' < 256) : o.ea k' = (laneAddr a imm w s g c k').toNat := ho.addr k' hk fun h => absurd (hu.symm.trans h) Bool.false_ne_true
  refine memCheck_plain_misaligned (by rw [ho.kind, hu]) (by rw [ho.kind]; exact hs) (hacc _ o ho.kind) (fun k' hk => ?_) hl hb hlow (haddr l hl)
  rw [ho.active, activeSet, laneSet_bit _ _ hk, haddr k' hk]

theorem accesses_load {w d : Nat} (h : o.kind = .load w d) : s.accesses o = (lanesOf o.active).map fun l => ⟨l, o.ea l, w⟩ := by
  simp only [State.accesses, h]

theorem accesses_store {w : Nat} (h : o.kind = .store w) : s.accesses o = (lanesOf o.active).map fun l => ⟨l, o.ea l, w⟩ := by
  simp only [State.accesses, h]

theorem load_misaligned {w : Nat} {d a imm : BitVec 8} (he : ∀ s, exec i s = issueLoad (encode i) w d a imm s) : TrapsMisaligned i a imm w :=
  plain_misaligned (load_says he) rfl nofun fun _ _ => accesses_load

theorem store_misaligned {w : Nat} {d a imm : BitVec 8} (he : ∀ s, exec i s = issueStore (encode i) w d a imm s) : TrapsMisaligned i a imm w :=
  plain_misaligned (store_says he) rfl nofun fun _ _ => accesses_store

/-- R147. -/
theorem misalignedAccessTraps_holds : misalignedAccessTraps := by
  intro d a imm
  exact ⟨load_misaligned (d := d) fun _ => rfl, load_misaligned (d := d) fun _ => rfl, load_misaligned (d := d) fun _ => rfl,
    load_misaligned (d := d) fun _ => rfl, store_misaligned (d := d) fun _ => rfl, store_misaligned (d := d) fun _ => rfl,
    store_misaligned (d := d) fun _ => rfl, store_misaligned (d := d) fun _ => rfl⟩

/-! ## Prefetches (R156) -/

theorem traffic_prefLane (s : State) (g : Group) (t va : Nat) : Traffic s (prefLane s g t va) := by
  unfold prefLane
  refine .ite (.refl s) ?_
  split
  · rename_i s1 h he
    have hs : Traffic s s1 := by have := traffic_reach s (s.xctx g.tid g.core g.priv) (va / 128 * 128) 0; rwa [he] at this
    exact .ite hs (.ite hs (.ite (hs.trans (traffic_l1Load _ _ _ _ _ _ _ _)) (hs.trans (traffic_lineRequest _ _ _ _ _))))
  · exact .refl s
  · exact .refl s

/-- Traffic between the issue and the retiring of a gang that changes no register leaves its group, the logs and everything else that PREF must leave. -/
theorem prefetchNeverTraps_holds : prefetchNeverTraps := by
  intro t a imm s c hc hi
  have he : exec (.pref t a imm) s = execPref t a imm s := rfl
  refine ⟨_, he.trans (issue_body _ hc hi), ?_⟩
  generalize hu : (lanesOf (activeSet (counted (s.group c.gid) c) c)).foldl
    (fun u l => prefLane u (counted (s.group c.gid) c) t.toNat (vea (counted (s.group c.gid) c) a imm 128 l).toNat) (countIssue s c) = u
  have htr : Traffic (countIssue s c) u := hu ▸ Traffic.foldl (fun _ _ => traffic_prefLane _ _ _ _) _ _
  have hflow := retire_onward s c
  have hgroup : (retire u c (counted (s.group c.gid) c)).group c.gid = (retire (countIssue s c) c (counted (s.group c.gid) c)).group c.gid := by
    rw [retire, retire, group_setGroup, group_setGroup]
  refine ⟨hgroup ▸ hflow.group, hgroup ▸ hflow.regs, htr.teams.trans hflow.beyond.teams, htr.referee.trans hflow.beyond.referee, fun j hj => ?_, fun k => ?_,
    fun i hl hb => hgroup ▸ hflow.slices i hl hb, fun i hb => hgroup ▸ hflow.others i hb⟩
  · have hother := hflow.beyond.groups j hj
    rw [retire, group_setGroup_ne _ _ _ _ (Ne.symm hj)] at hother ⊢
    rw [← hother, State.group, htr.groups]
    rfl
  · have hcore := congrArg Core.log (htr.cores k)
    have hissue := congrArg Core.log (countIssue_core s c k)
    exact hcore.trans hissue

/-! ## Votes (R80) -/

/-- Lanes in ascending order of which some lane is the lowest that differs from the first. -/
theorem voteFails_of_disagree {lanes : List Nat} {n : Nat} {rd : Nat → Nat → Word} {l i : Nat} (hsort : lanes.Pairwise (· < ·))
    (h : Disagree lanes n rd l i) : voteFails lanes n rd = some (l, i) := by
  obtain ⟨hmem, hlow, hi, hne, hfirst⟩ := h
  cases lanes with
  | nil => exact absurd hmem List.not_mem_nil
  | cons l0 r =>
    rw [List.headD_cons] at hlow hne hfirst
    have hr : l ∈ r := (List.mem_cons.mp hmem).resolve_left fun e => hne (by rw [e])
    obtain ⟨as, bs, rfl⟩ := List.append_of_mem hr
    have hdiff : ((List.range n).any fun j => rd j l != rd j l0) = true := List.any_eq_true.mpr ⟨i, List.mem_range.mpr hi, bne_iff_ne.mpr hne⟩
    have hlane : (as ++ l :: bs).find? (fun k => (List.range n).any fun j => rd j k != rd j l0) = some l := by
      rw [List.find?_eq_some_iff_append]
      refine ⟨hdiff, as, bs, rfl, fun k hk => ?_⟩
      have hkl : k < l := (List.pairwise_append.mp (List.pairwise_cons.mp hsort).2).2.2 k hk l List.mem_cons_self
      rw [Bool.not_eq_true', List.any_eq_false]
      exact fun j hj => by
        rw [hlow k (List.mem_cons_of_mem _ (List.mem_append_left _ hk)) hkl j (List.mem_range.mp hj), bne_self_eq_false]
        exact Bool.false_ne_true
    have hreg : (List.range n).find? (fun j => rd j l != rd j l0) = some i := by
      rw [List.find?_range_eq_some]
      exact ⟨bne_iff_ne.mpr hne, List.mem_range.mpr hi, fun j hj => by rw [hfirst j hj, bne_self_eq_false]; rfl⟩
    rw [voteFails, hlane, Option.map_some, hreg, Option.getD_some]

theorem voteFails_of_agree {lanes : List Nat} {n : Nat} {rd : Nat → Nat → Word} (h : ∀ x ∈ lanes, ∀ j, j < n → rd j x = rd j (lanes.headD 0)) :
    voteFails lanes n rd = none := by
  cases lanes with
  | nil => rfl
  | cons l0 r =>
    have hnone : r.find? (fun k => (List.range n).any fun j => rd j k != rd j l0) = none := by
      rw [List.find?_eq_none]
      intro k hk hd
      obtain ⟨j, hj, hd⟩ := List.any_eq_true.mp hd
      exact bne_iff_ne.mp hd (h k (List.mem_cons_of_mem _ hk) j (List.mem_range.mp hj))
    rw [voteFails, hnone, Option.map_none]

theorem lanesOf_sorted (m : LaneMask) : (lanesOf m).Pairwise (· < ·) := List.pairwise_lt_range.filter _

/-- The active lanes of a set of 16, in ascending order. -/
def setLanes (p : Nat → Bool) (m : Nat) : List Nat := (List.range 16).filterMap fun j => if p (16 * m + j) then some (16 * m + j) else none

theorem setLanes_sorted (p : Nat → Bool) (m : Nat) : (setLanes p m).Pairwise (· < ·) := by
  refine List.pairwise_lt_range.filterMap _ fun j k hjk x hx y hy => ?_
  rw [Option.ite_none_right_eq_some, Option.some.injEq] at hx hy
  omega

theorem setLanes_congr {p q : Nat → Bool} {m : Nat} (hm : m < 16) (h : ∀ l, l < 256 → p l = q l) : setLanes p m = setLanes q m :=
  List.filterMap_congr fun j hj => by
    have hj := List.mem_range.mp hj
    rw [h (16 * m + j) (by omega)]

/-- The lowest set of 16 lanes that does not agree gives the trap. -/
theorem sxVote_of_disagree {a : BitVec 8} {m l i : Nat} (hm : m < 16)
    (hlow : ∀ k, k < m → ∀ x ∈ setLanes o.active.getLsbD k, ∀ j, j < 2 → readV g (a.toNat + j) x = readV g (a.toNat + j) ((setLanes o.active.getLsbD k).headD 0))
    (h : Disagree (setLanes o.active.getLsbD m) 2 (fun j l => readV g (a.toNat + j) l) l i) :
    sxVote g o a = some { code := 5, cause := i * 16 + 2, fmask := laneSet (fun k => (setLanes o.active.getLsbD (k / 16)).contains k &&
      (List.range 2).any fun j => readV g (a.toNat + j) k != readV g (a.toNat + j) ((setLanes o.active.getLsbD (k / 16)).headD 0)), lane := l, addr := 0, opw := 0 } := by
  have hfind : (List.range 16).findSome? (fun m => (voteFails (setLanes o.active.getLsbD m) 2 fun j l => readV g (a.toNat + j) l).map fun h =>
      voteTrap (setLanes o.active.getLsbD m) 2 2 (fun j l => readV g (a.toNat + j) l) h) =
      some (voteTrap (setLanes o.active.getLsbD m) 2 2 (fun j l => readV g (a.toNat + j) l) (l, i)) := by
    rw [List.findSome?_eq_some_iff]
    refine ⟨List.range m, m, (List.range (15 - m)).map (m + 1 + ·), ?_, ?_, fun k hk => ?_⟩
    · rw [show 16 = (m + 1) + (15 - m) by omega, List.range_add, List.range_succ]
      simp
    · rw [voteFails_of_disagree (setLanes_sorted _ _) h, Option.map_some]
    · rw [voteFails_of_agree (hlow k (List.mem_range.mp hk)), Option.map_none]
  unfold sxVote
  simp only [setLanes] at hfind ⊢
  simp only [hfind]
  rfl

/-- R80. -/
theorem votesMismatch_holds : votesMismatch := by
  refine ⟨fun a b s c l i hc hi h => ?_, fun a q b s c l hc hi h => ?_, fun d a imm s c m l i hc hi hm hlow h => ?_⟩
  · have hv := voteFails_of_disagree (lanesOf_sorted _) h
    have he : exec (.tpost a b) s = execTpost a b s := rfl
    rw [Raises, he, execTpost, issuePost, issue_body _ hc hi, postWork]
    simp only [counted_runSet, counted_readV, hv, voteTrap, trapAt]
  · have hv := voteFails_of_disagree (lanesOf_sorted _) h
    have he : exec (.barw a q b) s = execBarw a q b s := rfl
    rw [Raises, he, execBarw, issue_body _ hc hi]
    simp only [counted_runSet, counted_readV, hv, voteTrap, trapAt]
    simp
  · have hsxst : MemSays (.sxst d a imm) false true (fun _ _ _ => .sxst) activeSet (laneAddr a imm 2) (fun _ g _ l => (readV g d.toNat l).setWidth 128)
        fun s g _ o => (sxVote g o a).orElse fun _ => memCheck s g o sxSpec := by
      obtain ⟨-, -, -, -, -, -, h⟩ := storesIssue_holds d a imm
      exact h
    refine (hsxst s c hc hi nofun).1 _ fun o ho => ?_
    have hset (k : Nat) (hk : k < 16) : setLanes o.active.getLsbD k = setLanes (isActive (s.group c.gid) c) k :=
      setLanes_congr hk fun l hl => by rw [ho.active, activeSet, laneSet_bit _ _ hl]
    have hvote := sxVote_of_disagree (g := counted (s.group c.gid) c) (o := o) (a := a) hm
      (fun k hk x hx j hj => by
        rw [hset k (by omega)] at hx ⊢
        exact hlow k hk x hx j hj)
      (by rw [hset m hm]; exact h)
    refine (congrArg (Option.orElse · _) hvote).trans ?_
    rw [Option.orElse_some]
    congr 2
    refine laneSet_eq_iff.mpr fun k hk => ?_
    rw [hset (k / 16) (by omega)]
    rfl

end Sys2Proof.Machine

namespace Sys2Proof
open Machine

/-- Settles O22: `memCheck` has one outcome for each of its checks in their order, a misaligned plain access is the first of them, PREF's work is traffic, and a
vote fails at the lowest lane that disagrees (`voteFails_of_disagree`). -/
theorem alignmentTraps : Obligations.AlignmentTraps := ⟨misalignedAccessTraps_holds, accessChecks_holds, prefetchNeverTraps_holds, votesMismatch_holds⟩

end Sys2Proof
end

section
/-! FIFO pushes and pops (O25), and what writing consecutive registers gives. -/
namespace Sys2Proof.Machine

variable {s : State} {g : Group} {o : LogOp}

/-! ## Consecutive registers -/

theorem writeRegs_eq (g : Group) (d : Nat) (f : Nat → Option Nat) (n : Nat) : writeRegs g d f n = { g with vregs := (writeRegs g d f n).vregs } := by
  induction n with
  | zero => rfl
  | succ n ih =>
    rw [writeRegs, vput_eq, ih]

/-- Register r of lane k after a write of n registers from d on. -/
theorem vget_writeRegs (g : Group) (d : Nat) (f : Nat → Option Nat) (n : Nat) {r k : Nat} (hk : k < 256) :
    vget (writeRegs g d f n) r k = if d ≤ r ∧ r < d + n then ((f k).map fun x => BitVec.ofNat 32 (x / 2 ^ (32 * (r - d)))).getD (vget g r k) else vget g r k := by
  induction n with
  | zero => rw [if_neg (by omega)]; rfl
  | succ n ih =>
    rw [writeRegs]
    by_cases hr : d + n = r
    · subst hr
      rw [vget_vput _ _ _ _ _ hk, if_pos rfl, if_pos (by omega), ih, if_neg (by omega), Nat.add_sub_cancel_left]
    · rw [vget_vput_ne _ _ _ _ _ hr, ih]
      by_cases hin : d ≤ r ∧ r < d + n
      · rw [if_pos hin, if_pos (by omega)]
      · rw [if_neg hin, if_neg (by omega)]

/-! ## The order of service (R138, R360) -/

section
variable {core id l f r : Nat} {q : List (BitVec 128)} (hfind : s.findOp core id = some o) (hw : o.walked = true) (hb : unblocked s o = true)
  (hf : (s.team (s.group o.gid).tid).fifos.getD f none = some q) (hl : fifoLeft s o = some (l, f, r))
include hfind hw hb hf hl

/-- A push goes on just when a place is free, a pop just when there is an entry. -/
theorem fifoStep_eq (push : Bool) :
    fifoStep core id push s = if (if r = 0 then push && decide (q.length < 8192) else !push && !q.isEmpty) = true then serveFifo s o l f r else s := by
  have hready : fifoReady s o push = if (if r = 0 then push && decide (q.length < 8192) else !push && !q.isEmpty) = true then some (l, f, r) else none := by
    simp only [fifoReady, hw, hb, Bool.not_true, Bool.or_self, Bool.false_eq_true, if_false, hl, hf]
  rw [fifoStep, hfind]
  simp only [hready]
  by_cases h : (if r = 0 then push && decide (q.length < 8192) else !push && !q.isEmpty) = true
  · simp only [if_pos h]
  · simp only [if_neg h]

end

/-- The operation as it owes one lane less. -/
def servedLane (o : LogOp) (l : Nat) : LogOp := { o with left := o.left &&& ~~~(1#256 <<< l) }

theorem serveFifo_push {l f : Nat} {q : List (BitVec 128)} (hf : (s.team (s.group o.gid).tid).fifos.getD f none = some q) :
    serveFifo s o l f 0 = logPut (s.modTeam (s.group o.gid).tid fun x => { x with fifos := lset x.fifos f (some (q ++ [BitVec.ofNat 128 (o.value l)])) })
      (s.group o.gid).core o (servedLane o l) := by
  simp only [serveFifo, hf, if_true]
  rfl

/-- Only registers of a group differ. -/
def RegsOnly (g h : Group) : Prop := h = { g with vregs := h.vregs, preds := h.preds, uregs := h.uregs, uq := h.uq }

theorem RegsOnly.groupKept {g h : Group} (e : RegsOnly g h) : GroupKept g h := by
  rw [e]
  exact ⟨rfl, rfl, rfl, rfl, rfl, rfl, rfl, rfl, rfl, rfl, rfl, rfl, rfl, rfl, rfl, rfl, rfl, rfl⟩

theorem RegsOnly.slices {g h : Group} (e : RegsOnly g h) : h.slices = g.slices := by rw [e]
theorem RegsOnly.issueNo {g h : Group} (e : RegsOnly g h) : h.issueNo = g.issueNo := by rw [e]

theorem writeRegs_regsOnly (g : Group) (d : Nat) (f : Nat → Option Nat) (n : Nat) : RegsOnly g (writeRegs g d f n) := by
  rw [RegsOnly, writeRegs_eq]

/-- The state after a pop: the FIFO has lost its oldest entry, and the lane holds it in four registers from d on. -/
def popped (s : State) (o : LogOp) (l f d : Nat) (x : BitVec 128) (rest : List (BitVec 128)) : State :=
  putOp ((s.modTeam (s.group o.gid).tid fun t => { t with fifos := lset t.fifos f (some rest) }).modGroup o.gid fun g =>
    writeRegs g d (fun i => if i = l then some x.toNat else none) 4) (servedLane o l)

theorem serveFifo_pop {l f r w d : Nat} {x : BitVec 128} {rest : List (BitVec 128)} (hf : (s.team (s.group o.gid).tid).fifos.getD f none = some (x :: rest))
    (hr : r ≠ 0) (hk : o.kind = .load w d) :
    serveFifo s o l f r = popped s o l f d x rest := by
  obtain ⟨⟩ := o
  subst hk
  simp only [serveFifo, hf, if_neg hr]
  rfl

theorem quarter_eq (x : BitVec 128) (i : Nat) : BitVec.ofNat 32 (x.toNat / 2 ^ (32 * i)) = x.extractLsb' (32 * i) 32 := by
  rw [BitVec.extractLsb', Nat.shiftRight_eq_div_pow]

section
variable (s : State) (o : LogOp) (l f d : Nat) (x : BitVec 128) (rest : List (BitVec 128))

theorem popped_group : (popped s o l f d x rest).group o.gid = writeRegs (s.group o.gid) d (fun i => if i = l then some x.toNat else none) 4 := by
  rw [popped, putOp, group_modCore, group_modGroup, group_modTeam]

theorem popped_group_ne {j : Nat} (h : j ≠ o.gid) : (popped s o l f d x rest).group j = s.group j := by
  rw [popped, putOp, group_modCore, group_modGroup_ne _ _ _ _ (Ne.symm h), group_modTeam]

theorem popped_fifos : ((popped s o l f d x rest).team (s.group o.gid).tid).fifos = lset (s.team (s.group o.gid).tid).fifos f (some rest) := by
  rw [popped, putOp, team_modCore, team_modGroup, team_modTeam]

theorem popped_log : ((popped s o l f d x rest).core (s.group o.gid).core).log =
    (s.core (s.group o.gid).core).log.map fun p => if p.id = o.id then servedLane o l else p := by
  have hcore : (writeRegs (s.group o.gid) d (fun i => if i = l then some x.toNat else none) 4).core = (s.group o.gid).core := by rw [writeRegs_eq]
  have hgid : (servedLane o l).gid = o.gid := rfl
  rw [popped, putOp, hgid, group_modGroup, group_modTeam, hcore, core_modCore, core_modGroup, core_modTeam]
  rfl

end

end Sys2Proof.Machine

namespace Sys2Proof
open Machine

/-- Settles O25: `fifoStep_eq` says when the lane is served, `serveFifo_push` and `serveFifo_pop` what serving it does. -/
theorem fifosServeOneLane : Obligations.FifosServeOneLane := by
  intro core id s o l f q hfind hcore hw hb hl hf
  refine ⟨fun hleft hroom => ?_, fun hleft hfull => ?_, fun x rest w d hleft hq hk => ?_, fun n hleft hq => ?_⟩
  · refine ⟨_, congrArg Host.Outcome.next ?_, rfl⟩
    rw [fifoStep_eq hfind hw hb hf hleft, if_pos (by rw [if_pos rfl, decide_eq_true hroom]; rfl), serveFifo_push hf, hcore]
    rfl
  · refine congrArg Host.Outcome.next ?_
    rw [fifoStep_eq hfind hw hb hf hleft, if_neg (by rw [if_pos rfl, decide_eq_false (by omega)]; decide)]
  · subst hq
    refine ⟨popped s o l f d x rest, congrArg Host.Outcome.next ((fifoStep_eq hfind hw hb hf hleft false).trans ((if_pos rfl).trans (serveFifo_pop hf (by decide) hk))), ?_⟩
    have heq := writeRegs_eq (s.group o.gid) d (fun i => if i = l then some x.toNat else none) 4
    refine ⟨popped_fifos s o l f d x rest, rfl, fun j hj => popped_group_ne s o l f d x rest hj, ?_, ?_, hcore ▸ popped_log s o l f d x rest, fun i hi => ?_,
      fun n k hk hn => ?_, fun n _ => ?_, fun n _ => ?_, ?_⟩ <;> rw [popped_group]
    · exact (writeRegs_regsOnly _ _ _ _).groupKept
    · exact (writeRegs_regsOnly _ _ _ _).slices
    · rw [vget_writeRegs _ _ _ _ hl, if_pos (by omega), if_pos rfl, Option.map_some, Option.getD_some, Nat.add_sub_cancel_left, quarter_eq]
    · rw [vget_writeRegs _ _ _ _ hk]
      refine ite_eq_right_iff.mpr fun hin => ?_
      rw [if_neg (by omega), Option.map_none, Option.getD_none]
    · rw [uget, heq, uget]
    · rw [heq]
    · rw [heq]
  · refine congrArg Host.Outcome.next ?_
    rw [fifoStep_eq hfind hw hb hf hleft, if_neg (by rw [if_neg (by omega), hq]; decide)]

end Sys2Proof
end

section
/-! What performing a logged operation does in general: the events that perform it, what they leave as it was, and the registers afterwards.

An operation is performed between two stages that leave its group alone: `PerformKept` names what such a stage keeps, and `Served` follows from the one step that takes
the operation from the log (`served_finishOp`) whatever such stages come before or after it. -/
namespace Sys2Proof.Machine

variable {s t u : State} {o : LogOp} {g h : Group}

/-! ## The events -/

theorem exec_storePerformed {core id : Nat} (hfind : s.findOp core id = some o) (hready : opReady s o = true) :
    exec (.storePerformed core id) s = .next (performStore s o) := by
  have he : exec (.storePerformed core id) s = execStorePerformed core id s := rfl
  rw [he, execStorePerformed, performOp, hfind]
  simp only [hready, if_true]

theorem exec_atomicReply {core id : Nat} (hfind : s.findOp core id = some o) (hready : opReady s o = true) :
    exec (.atomicReply core id) s = .next (replyAtomic s o) := by
  have he : exec (.atomicReply core id) s = execAtomicReply core id s := rfl
  rw [he, execAtomicReply, performOp, hfind]
  simp only [hready, if_true]

/-! ## What a stage keeps -/

/-- What a stage of performing an operation leaves as it was: the groups, the logs and what lies outside the package's memory system. -/
structure PerformKept (s t : State) : Prop where
  wf : Memory.wf s.mem → Memory.wf t.mem
  groups : t.groups = s.groups
  logs : ∀ k, (t.core k).log = (s.core k).log
  referee : t.referee = s.referee
  cur : t.cur = s.cur
  inputs : t.inputs = s.inputs
  time : t.time = s.time

theorem Traffic.performKept (h : Traffic s t) : PerformKept s t :=
  ⟨h.wf, h.groups, fun k => by rw [h.cores k], h.referee, h.cur, h.inputs, h.time⟩

theorem PerformKept.refl (s : State) : PerformKept s s := (Traffic.refl s).performKept

theorem PerformKept.trans (h : PerformKept s t) (k : PerformKept t u) : PerformKept s u where
  wf e := k.wf (h.wf e)
  groups := k.groups.trans h.groups
  logs i := (k.logs i).trans (h.logs i)
  referee := k.referee.trans h.referee
  cur := k.cur.trans h.cur
  inputs := k.inputs.trans h.inputs
  time := k.time.trans h.time

theorem performKept_modHub (s : State) (f : Hub → Hub) : PerformKept s (s.modHub f) := ⟨id, rfl, fun _ => rfl, rfl, rfl, rfl, rfl⟩
theorem performKept_modTeam (s : State) (tid : Nat) (f : Team → Team) : PerformKept s (s.modTeam tid f) := ⟨id, rfl, fun _ => rfl, rfl, rfl, rfl, rfl⟩

theorem PerformKept.group (h : PerformKept s t) (j : Nat) : t.group j = s.group j := by rw [State.group, h.groups, State.group]

/-! ## The operation leaves the log -/

@[simp] theorem finishOp_mem (s : State) (o : LogOp) : (finishOp s o).mem = s.mem := rfl
@[simp] theorem finishOp_teams (s : State) (o : LogOp) : (finishOp s o).teams = s.teams := rfl
@[simp] theorem finishOp_hub (s : State) (o : LogOp) : (finishOp s o).hub = s.hub := rfl
@[simp] theorem finishOp_team (s : State) (o : LogOp) (j : Nat) : (finishOp s o).team j = s.team j := rfl

theorem finishOp_group (s : State) (o : LogOp) : (finishOp s o).group o.gid = uncountOp (s.group o.gid) o.kind o.gang o.active := by
  rw [finishOp, group_modGroup, dropOp, group_modCore]

theorem finishOp_regs (s : State) (o : LogOp) : ((finishOp s o).group o.gid).vregs = (s.group o.gid).vregs ∧
    ((finishOp s o).group o.gid).preds = (s.group o.gid).preds ∧ ((finishOp s o).group o.gid).uregs = (s.group o.gid).uregs ∧
    ((finishOp s o).group o.gid).uq = (s.group o.gid).uq := by
  rw [finishOp_group]
  exact ⟨rfl, rfl, rfl, rfl⟩

theorem finishOp_core (s : State) (o : LogOp) (k : Nat) :
    (finishOp s o).core k = if (s.group o.gid).core = k then { s.core k with log := (s.core k).log.filter fun p => decide (p.id ≠ o.id) } else s.core k := by
  rw [finishOp, core_modGroup, dropOp]
  split
  · rename_i h
    subst h
    rw [core_modCore]
  · rename_i h
    rw [core_modCore_ne _ _ _ _ h]

theorem finishOp_l1Find (s : State) (o : LogOp) (k asid vmid vline : Nat) : ((finishOp s o).core k).l1Find asid vmid vline = (s.core k).l1Find asid vmid vline := by
  rw [finishOp_core]
  split <;> rfl

theorem served_finishOp (s : State) (o : LogOp) : Served s (finishOp s o) o where
  wf := id
  groups j hj := by rw [finishOp, group_modGroup_ne _ _ _ _ (Ne.symm hj)]; rfl
  group := by
    rw [finishOp_group]
    exact ⟨rfl, rfl, rfl, rfl, rfl, rfl, rfl, rfl, rfl, rfl, rfl, rfl, rfl, rfl, rfl, rfl, rfl, rfl⟩
  issueNo := by rw [finishOp_group]; rfl
  counted i hi hb := by rw [finishOp_group, uncountOp, slice_mapSlices, if_pos ⟨hi, hb⟩]
  others i hb := by rw [finishOp_group, uncountOp, slice_mapSlices, hb, if_neg (by simp)]
  log := by rw [finishOp_core, if_pos rfl]
  logs k hk := by rw [finishOp_core, if_neg (Ne.symm hk)]
  referee := rfl
  cur := rfl
  inputs := rfl
  time := rfl

theorem Served.after_stage (k : PerformKept s u) (h : Served u t o) : Served s t o where
  wf e := h.wf (k.wf e)
  groups j hj := (h.groups j hj).trans (k.group j)
  group := k.group o.gid ▸ h.group
  issueNo := k.group o.gid ▸ h.issueNo
  counted i hi hb := by have := h.counted i (by rwa [k.group]) hb; rwa [k.group] at this
  others i hb := by have := h.others i hb; rwa [k.group] at this
  log := by have := h.log; rwa [k.group, k.logs] at this
  logs i hi := (h.logs i (by rwa [k.group])).trans (k.logs i)
  referee := h.referee.trans k.referee
  cur := h.cur.trans k.cur
  inputs := h.inputs.trans k.inputs
  time := h.time.trans k.time

theorem Served.then_stage (h : Served s t o) (k : PerformKept t u) : Served s u o where
  wf e := k.wf (h.wf e)
  groups j hj := (k.group j).trans (h.groups j hj)
  group := (k.group o.gid).symm ▸ h.group
  issueNo := (k.group o.gid).symm ▸ h.issueNo
  counted i hi hb := (k.group o.gid).symm ▸ h.counted i hi hb
  others i hb := (k.group o.gid).symm ▸ h.others i hb
  log := (k.logs _).trans h.log
  logs i hi := (k.logs i).trans (h.logs i hi)
  referee := k.referee.trans h.referee
  cur := k.cur.trans h.cur
  inputs := k.inputs.trans h.inputs
  time := k.time.trans h.time

theorem GroupKept.regsOnly {k : Group} (a : GroupKept g h) (e : RegsOnly h k) : GroupKept g k := by
  rw [e]
  exact ⟨a.core, a.part, a.tid, a.num, a.role, a.budget, a.queue, a.frame, a.parked, a.parkSerial, a.solo, a.openBatch, a.openLeft, a.closed, a.posts,
    a.postNo, a.withdrawn, a.retired⟩

/-- The results of an operation go to its group's registers. -/
theorem Served.then_regs {f : Group → Group} (a : Served s t o) (hf : ∀ x, RegsOnly x (f x)) : Served s (t.modGroup o.gid f) o where
  wf := a.wf
  groups j hj := (group_modGroup_ne _ _ _ _ (Ne.symm hj)).trans (a.groups j hj)
  group := by rw [group_modGroup]; exact a.group.regsOnly (hf _)
  issueNo := by rw [group_modGroup, (hf _).issueNo, a.issueNo]
  counted i hi hb := by rw [group_modGroup, Group.slice, (hf _).slices]; exact a.counted i hi hb
  others i hb := by rw [group_modGroup, Group.slice, (hf _).slices]; exact a.others i hb
  log := a.log
  logs := a.logs
  referee := a.referee
  cur := a.cur
  inputs := a.inputs
  time := a.time

theorem finishOp_regsKept (s : State) (o : LogOp) : RegsKept (s.group o.gid) ((finishOp s o).group o.gid) := by
  obtain ⟨hv, hp, hu, hq⟩ := finishOp_regs s o
  exact ⟨fun n l _ => vget_congr hv n l, fun n _ => by rw [hp], fun n _ => uget_congr hu n, hq⟩

/-! ## Registers that are written -/

theorem vput_regsOnly (g : Group) (n : Nat) (f : Nat → Option Word) : RegsOnly g (vput g n f) := rfl

theorem pput_regsOnly (g : Group) (p : Nat) (f : Nat → Option Bool) : RegsOnly g (pput g p f) := by
  rw [RegsOnly, pput_eq]

theorem qput_regsOnly (g : Group) (q : Nat) (v : Bool) : RegsOnly g (qput g q v) := by
  rw [RegsOnly, qput_eq]

theorem RegsOnly.trans {k : Group} (a : RegsOnly g h) (b : RegsOnly h k) : RegsOnly g k := by
  rw [RegsOnly] at a b ⊢
  rw [b, a]

end Sys2Proof.Machine
end

section
/-! Bytes: little-endian values, the pieces of an access, and stores at the homes while no move is under way.

`Asks` names what a request for a line keeps: no byte, no move, no core changes. A store then puts its bytes where its address says (`storeAt_stored`). -/
namespace Sys2Proof.Machine

variable {s t u : State}

/-! ## Little-endian values -/

@[simp] theorem length_leBytes (n x : Nat) : (leBytes n x).length = n := by
  induction n generalizing x with
  | zero => rfl
  | succ n ih => rw [leBytes, List.length_cons, ih]

theorem getD_leBytes {n i : Nat} (x : Nat) (hi : i < n) : (leBytes n x).getD i 0 = BitVec.ofNat 8 (x / 2 ^ (8 * i)) := by
  induction n generalizing x i with
  | zero => exact absurd hi (Nat.not_lt_zero i)
  | succ n ih =>
    cases i with
    | zero => rw [leBytes, List.getD_cons_zero, Nat.mul_zero, Nat.pow_zero, Nat.div_one]
    | succ i =>
      rw [leBytes, List.getD_cons_succ, ih _ (by omega), Nat.div_div_eq_div_mul, Nat.mul_succ, Nat.pow_add, Nat.mul_comm (2 ^ (8 * i))]

/-- A byte of a value written at an address. -/
theorem bget_bputs_leBytes {m : List Host.Cell} (hm : Memory.wf m) (a n x k : Nat) :
    bget (bputs m a (leBytes n x)) k = if a ≤ k ∧ k < a + n then BitVec.ofNat 8 (x / 2 ^ (8 * (k - a))) else bget m k := by
  rw [bget_bputs _ _ _ _ hm, length_leBytes]
  refine ite_congr rfl (fun h => ?_) fun _ => rfl
  rw [getD_leBytes _ (by omega)]

/-! ## The pieces of an access -/

/-- An access within one line is one piece. -/
theorem pieces_within {va n : Nat} (h0 : 0 < va % 128 + n) (h : va % 128 + n ≤ 128) : pieces va n = [(va, n)] := by
  have hcount : (va % 128 + n + 127) / 128 = 1 := by omega
  have hlo : max va (va / 128 * 128 + 128 * 0) = va := by omega
  have hlen : min (va + n) (va / 128 * 128 + 128 * (0 + 1)) - va = n := by omega
  rw [pieces, hcount, List.range_one, List.map_singleton]
  simp only [hlo, hlen]

/-- An access of no bytes at the start of a line has no piece. -/
theorem pieces_empty {va n : Nat} (h0 : ¬ 0 < va % 128 + n) : pieces va n = [] := by
  have hcount : (va % 128 + n + 127) / 128 = 0 := by omega
  rw [pieces, hcount]
  rfl

/-- The first piece lies at the address of the access. -/
theorem pieces_head {va n : Nat} (hn : 0 < n) : ∃ k r, pieces va n = (va, k) :: r := by
  obtain ⟨m, hm⟩ : ∃ m, (va % 128 + n + 127) / 128 = m + 1 := ⟨(va % 128 + n + 127) / 128 - 1, by omega⟩
  rw [pieces, hm, List.range_succ_eq_map, List.map_cons]
  exact ⟨_, _, by rw [show max va (va / 128 * 128 + 128 * 0) = va by omega]⟩

/-! ## Requests for lines -/

/-- A request for a line changes directories, leases, L2s and counts: no byte of memory, no move and no core. -/
structure Asks (s t : State) : Prop where
  mem : t.mem = s.mem
  moves : t.hub.moves = s.hub.moves
  cores : t.cores = s.cores

theorem Asks.refl (s : State) : Asks s s := ⟨rfl, rfl, rfl⟩
theorem Asks.trans (a : Asks s t) (b : Asks t u) : Asks s u := ⟨b.mem.trans a.mem, b.moves.trans a.moves, b.cores.trans a.cores⟩

theorem Asks.ite {p : Prop} [Decidable p] (a : Asks s t) (b : Asks s u) : Asks s (if p then t else u) := by
  split
  · exact a
  · exact b

theorem Asks.foldl {α : Type} {f : State → α → State} (hf : ∀ s x, Asks s (f s x)) : ∀ (l : List α) (s : State), Asks s (l.foldl f s)
  | [], s => .refl s
  | x :: r, s => (hf s x).trans (Asks.foldl hf r (f s x))

theorem asks_modHome (s : State) (h : Nat) (f : Home → Home) : Asks s (s.modHome h f) := ⟨rfl, rfl, rfl⟩
theorem asks_modDie (s : State) (d : Nat) (f : Die → Die) : Asks s (s.modDie d f) := ⟨rfl, rfl, rfl⟩
theorem asks_modHub (s : State) (f : Hub → Hub) (h : ∀ x, (f x).moves = x.moves) : Asks s (s.modHub f) := ⟨rfl, h s.hub, rfl⟩

theorem asks_countAccess (s : State) (part pa : Nat) : Asks s (countAccess s part pa) := .ite (asks_modHub _ _ fun _ => rfl) (.refl s)
theorem asks_leaveLine (s : State) (line agent : Nat) : Asks s (leaveLine s line agent) :=
  .ite ((asks_modHome _ _ _).trans (asks_modDie _ _ _)) (asks_modHome _ _ _)
theorem asks_setLine (s : State) (line : Nat) (x : LineState) : Asks s (s.setLine line x) := asks_modHome _ _ _

theorem asks_cleanLine (s : State) (line : Nat) : Asks s (cleanLine s line) := by
  unfold cleanLine
  split
  · exact .ite ((asks_setLine _ _ _).trans (asks_modDie _ _ _)) (asks_setLine _ _ _)
  · exact .refl s

theorem asks_l2Put (s : State) (die line : Nat) : Asks s (l2Put s die line) := by
  unfold l2Put
  refine .ite (.refl s) (Asks.trans (.ite (.refl s) ?_) (asks_modDie _ _ _))
  split
  · exact asks_leaveLine _ _ _
  · exact .refl s

theorem asks_grantLease (s : State) (agent pa : Nat) (write : Bool) : Asks s (grantLease s agent pa write) := .ite (.refl s) (asks_modHome _ _ _)

theorem asks_grantLine (s : State) (agent line : Nat) (v : LineUse) : Asks s (grantLine s agent line v) := by
  have hput (x : State) : Asks x (if agent < 4 then l2Put x agent line else x) := .ite (asks_l2Put _ _ _) (.refl x)
  cases v with
  | share =>
    exact (((Asks.ite (.refl s) (asks_cleanLine _ _)).trans (.ite (.refl _) (asks_setLine _ _ _))).trans (hput _)).trans (asks_grantLease _ _ _ _)
  | own => exact (((Asks.foldl (fun x a => asks_leaveLine x line a) _ s).trans (asks_setLine _ _ _)).trans (hput _)).trans (asks_grantLease _ _ _ _)
  | homeRead => exact asks_cleanLine _ _
  | homeStore => exact Asks.foldl (fun x a => asks_leaveLine x line a) _ s

theorem asks_lineRequest (s : State) (part agent pa : Nat) (v : LineUse) : Asks s (lineRequest s part agent pa v) := by
  unfold lineRequest upstreamRequest
  refine .ite (asks_modHub _ _ fun _ => rfl) (.ite (.refl s) (.ite (asks_modDie _ _ _) (Asks.trans ?_ (asks_grantLine _ _ _ _))))
  exact (asks_countAccess _ _ _).trans (.ite (asks_modDie _ _ _) (.refl _))

/-! ## Stores at the homes -/

theorem asks_pushWord (s : State) (w : Nat) : Asks s (pushWord s w) := by
  unfold pushWord
  exact .ite (.refl s) ⟨rfl, rfl, rfl⟩

theorem asks_applyWord (keep : Bool) (s : State) (w : Nat) : Asks s (applyWord keep s w) := by
  unfold applyWord
  refine Asks.trans ?_ (asks_pushWord _ _)
  exact (asks_modHome _ _ _).trans (.ite (.refl _) (asks_modHub _ _ fun _ => rfl))

/-- A write changes no move and no core. -/
theorem performWrite_keeps (s : State) (x : HomeWrite) : (performWrite s x).hub.moves = s.hub.moves ∧ (performWrite s x).cores = s.cores := by
  have hwords (v : State) (ws : List Nat) : Asks v (ws.foldl (applyWord x.keep) v) := Asks.foldl (fun _ _ => asks_applyWord _ _ _) ws v
  unfold performWrite
  simp only []
  split
  · exact ⟨(hwords _ _).moves, (hwords _ _).cores⟩
  · exact ⟨(hwords _ _).moves, (hwords _ _).cores⟩

theorem performWrite_mem (s : State) (x : HomeWrite) : (performWrite s x).mem =
    ((x.cells.map fun e => (s.route e.1, e.2)).filter fun e => regionOf e.1 != .upstream && !inRecordArea e.1).foldl (fun m e => bput m e.1 e.2) s.mem := by
  have hwords (v : State) (ws : List Nat) : Asks v (ws.foldl (applyWord x.keep) v) := Asks.foldl (fun _ _ => asks_applyWord _ _ _) ws v
  unfold performWrite
  simp only []
  split
  · exact (hwords _ _).mem
  · exact (hwords _ _).mem

theorem route_eq (hm : s.hub.moves = []) (pa : Nat) : s.route pa = pa := by
  rw [State.route, hm]
  rfl

theorem stallMove_eq (hm : s.hub.moves = []) (pa : Nat) : s.stallMove pa = none := by
  rw [State.stallMove, hm]
  rfl

theorem storeAt_eq (hm : s.hub.moves = []) (own : Bool) (x : HomeWrite) :
    storeAt own s x = performWrite (if own then s else (s.linesOf x.cells).foldl (fun t l => grantLine t 0 l .homeStore) s) x := by
  have hstall : x.cells.findSome? (fun e => s.stallMove e.1) = none := List.findSome?_eq_none_iff.mpr fun e _ => stallMove_eq hm e.1
  unfold storeAt
  rw [hstall]

theorem foldl_cellsOf (bs : List Byte) (m : List Host.Cell) (pa : Nat) : (cellsOf pa bs).foldl (fun m e => bput m e.1 e.2) m = bputs m pa bs := by
  induction bs generalizing m pa with
  | nil => rfl
  | cons b r ih =>
    have htail : cellsOf pa (b :: r) = (pa, b) :: cellsOf (pa + 1) r := by
      rw [cellsOf, List.mapIdx_cons, cellsOf]
      refine congrArg _ (List.mapIdx_eq_mapIdx_iff.mpr fun i hi => ?_)
      rw [Nat.add_assoc, Nat.add_comm 1]
    rw [htail, List.foldl_cons, ih, bputs]

theorem mem_cellsOf {bs : List Byte} {pa : Nat} {e : Nat × Byte} (h : e ∈ cellsOf pa bs) : ∃ i, i < bs.length ∧ e.1 = pa + i := by
  obtain ⟨i, hi, rfl⟩ := List.mem_mapIdx.mp h
  exact ⟨i, hi, rfl⟩

/-- The bytes of a plain store are what memory then holds. -/
theorem performWrite_stored {keep : Bool} {pa : Nat} {bs : List Byte} (h : plainBytes s pa bs.length) :
    (performWrite s { cells := cellsOf pa bs, keep := keep }).mem = bputs s.mem pa bs := by
  obtain ⟨hm, -, hplain⟩ := h
  have hroute : (cellsOf pa bs).map (fun e => (s.route e.1, e.2)) = cellsOf pa bs := by
    simp only [route_eq hm, Prod.mk.eta, List.map_id']
  have hall : (cellsOf pa bs).filter (fun e => regionOf e.1 != .upstream && !inRecordArea e.1) = cellsOf pa bs := by
    refine List.filter_eq_self.mpr fun e he => ?_
    obtain ⟨i, hi, hpa⟩ := mem_cellsOf he
    obtain ⟨hup, hrec⟩ := hplain i hi
    rw [hpa, hrec, bne_iff_ne.mpr hup]
    rfl
  rw [performWrite_mem, hroute, hall, foldl_cellsOf]

theorem plainBytes.asks {pa n : Nat} (h : plainBytes s pa n) (a : Asks s t) : plainBytes t pa n := by
  obtain ⟨hm, hwf, hplain⟩ := h
  exact ⟨a.moves.trans hm, a.mem.symm ▸ hwf, hplain⟩

/-- Part of the bytes of a plain range. -/
theorem plainBytes.sub {pa n off k : Nat} (h : plainBytes s pa n) (hk : off + k ≤ n) : plainBytes s (pa + off) k := by
  obtain ⟨hm, hwf, hplain⟩ := h
  exact ⟨hm, hwf, fun i hi => by rw [Nat.add_assoc]; exact hplain (off + i) (by omega)⟩

theorem storeAt_mem {own keep : Bool} {pa : Nat} {bs : List Byte} (h : plainBytes s pa bs.length) :
    (storeAt own s { cells := cellsOf pa bs, keep := keep }).mem = bputs s.mem pa bs := by
  have hasks : Asks s (if own then s else (s.linesOf (cellsOf pa bs)).foldl (fun t l => grantLine t 0 l .homeStore) s) :=
    .ite (.refl s) (Asks.foldl (fun x l => asks_grantLine x 0 l .homeStore) _ s)
  rw [storeAt_eq h.1, performWrite_stored (h.asks hasks), hasks.mem]

/-- The same after requests for lines. -/
theorem Asks.storeAt_mem {own keep : Bool} {pa : Nat} {bs : List Byte} (a : Asks s t) (h : plainBytes s pa bs.length) :
    (storeAt own t { cells := cellsOf pa bs, keep := keep }).mem = bputs s.mem pa bs := by
  rw [Machine.storeAt_mem (h.asks a), a.mem]

theorem storeAt_moves (hm : s.hub.moves = []) (own : Bool) (x : HomeWrite) : (storeAt own s x).hub.moves = [] := by
  have hasks : Asks s (if own then s else (s.linesOf x.cells).foldl (fun t l => grantLine t 0 l .homeStore) s) :=
    .ite (.refl s) (Asks.foldl (fun x l => asks_grantLine x 0 l .homeStore) _ s)
  rw [storeAt_eq hm, (performWrite_keeps _ _).1, hasks.moves, hm]

/-- A write at the homes changes no core, even where it waits. -/
theorem storeAt_cores (own : Bool) (s : State) (x : HomeWrite) : (storeAt own s x).cores = s.cores := by
  have hasks : Asks s (if own then s else (s.linesOf x.cells).foldl (fun t l => grantLine t 0 l .homeStore) s) :=
    .ite (.refl s) (Asks.foldl (fun x l => asks_grantLine x 0 l .homeStore) _ s)
  unfold storeAt
  split
  · split <;> rfl
  · rw [(performWrite_keeps _ _).2, hasks.cores]

/-- Memory holds the bytes that a plain store puts there. -/
theorem storedAt_of_mem {pa : Nat} {bs : List Byte} (hwf : Memory.wf s.mem) (h : t.mem = bputs s.mem pa bs) : storedAt s t pa bs := by
  intro a
  rw [h, bget_bputs _ _ _ _ hwf]

theorem pstore_mem {pa n x : Nat} (h : plainBytes s pa n) : (s.pstore pa n x).mem = bputs s.mem pa (leBytes n x) :=
  storeAt_mem (by rwa [length_leBytes])

/-- A value stored at a home on request. -/
theorem request_pstore_mem {part agent pa n x pa' : Nat} {v : LineUse} (h : plainBytes s pa n) :
    ((lineRequest s part agent pa' v).pstore pa n x).mem = bputs s.mem pa (leBytes n x) :=
  (asks_lineRequest s part agent pa' v).storeAt_mem (by rwa [length_leBytes])

/-- A store of a die at its own L2 puts the same bytes into memory. -/
theorem l2Store_mem {part die pa : Nat} {bs : List Byte} (h : plainBytes s pa bs.length) : (l2Store s part die pa bs).mem = bputs s.mem pa bs := by
  have hasks := asks_lineRequest s part die pa .own
  unfold l2Store
  simp only []
  split
  · exact (hasks.trans (asks_modDie _ _ _)).storeAt_mem h
  · exact hasks.storeAt_mem h

end Sys2Proof.Machine
end

section
/-! Ordered adds (O27): the order in which a queue is applied, and what opening a queue, contributing to it and applying it do. -/
namespace Sys2Proof.Machine

variable {s t u : State} {o : LogOp} {q : AddQueue}

/-! ## The order of a queue (R162) -/

/-- Contributions with different keys may be put in place in either order. -/
theorem insertKey_comm {e f : Nat × DWord} (hne : e.1 ≠ f.1) (l : List (Nat × DWord)) : insertKey e (insertKey f l) = insertKey f (insertKey e l) := by
  induction l with
  | nil =>
    simp only [insertKey]
    by_cases h : e.1 < f.1
    · rw [if_pos h, if_neg (by omega)]
    · rw [if_neg h, if_pos (by omega)]
  | cons x r ih =>
    simp only [insertKey]
    by_cases he : e.1 < x.1 <;> by_cases hf : f.1 < x.1
    · by_cases h : e.1 < f.1
      · simp only [if_pos he, if_pos hf, insertKey, if_pos h, if_neg (show ¬ f.1 < e.1 by omega)]
      · simp only [if_pos he, if_pos hf, insertKey, if_neg h, if_pos (show f.1 < e.1 by omega)]
    · simp only [if_pos he, if_neg hf, insertKey, if_neg (show ¬ f.1 < e.1 by omega)]
    · simp only [if_neg he, if_pos hf, insertKey, if_neg (show ¬ e.1 < f.1 by omega)]
    · simp only [if_neg he, if_neg hf, insertKey, ih]

/-- The sum does not depend on the order of arrival. -/
theorem total_perm {items : List (Nat × DWord)} (hnd : (q.items.map (·.1)).Nodup) (hp : q.items.Perm items) (start : Nat) :
    q.total start = ({ q with items := items } : AddQueue).total start := by
  have hsort : q.items.foldl (fun l e => insertKey e l) [] = items.foldl (fun l e => insertKey e l) [] := by
    refine hp.foldl_eq' (fun e he f hf l => ?_) []
    by_cases hef : e = f
    · rw [hef]
    · exact (insertKey_comm (fun hk => hef (List.inj_on_of_nodup_map hnd he hf hk)) l).symm
  rw [AddQueue.total, AddQueue.total, hsort]

/-! ## What the hub's stores leave of the dies -/

/-- Of the dies only the lines of the L2s differ. -/
def L2Only (s t : State) : Prop := ∀ k, t.die k = { s.die k with l2 := (t.die k).l2 }

theorem L2Only.of_dies (h : t.dies = s.dies) : L2Only s t := fun k => by rw [State.die, h, State.die]
theorem L2Only.refl (s : State) : L2Only s s := .of_dies rfl
theorem L2Only.trans (a : L2Only s t) (b : L2Only t u) : L2Only s u := fun k => by rw [b k, a k]

theorem L2Only.ite {p : Prop} [Decidable p] (a : L2Only s t) (b : L2Only s u) : L2Only s (if p then t else u) := by
  split
  · exact a
  · exact b

theorem L2Only.foldl {α : Type} {f : State → α → State} (hf : ∀ s x, L2Only s (f s x)) : ∀ (l : List α) (s : State), L2Only s (l.foldl f s)
  | [], s => .refl s
  | x :: r, s => (hf s x).trans (L2Only.foldl hf r (f s x))

theorem l2Only_modDie (s : State) (d : Nat) (f : Die → Die) (hf : ∀ k, f k = { k with l2 := (f k).l2 }) : L2Only s (s.modDie d f) := by
  intro k
  by_cases h : d = k
  · subst h
    rw [die_modDie]
    exact hf _
  · rw [die_modDie_ne _ _ _ _ h]

theorem l2Only_leaveLine (s : State) (line agent : Nat) : L2Only s (leaveLine s line agent) :=
  .ite ((L2Only.of_dies rfl).trans (l2Only_modDie _ _ _ fun _ => rfl)) (.of_dies rfl)

theorem l2Only_grantStore (s : State) (agent line : Nat) : L2Only s (grantLine s agent line .homeStore) :=
  L2Only.foldl (fun x a => l2Only_leaveLine x line a) _ s

theorem l2Only_countAccess (s : State) (part pa : Nat) : L2Only s (countAccess s part pa) := .ite (.of_dies rfl) (.refl s)

/-- A request of the hub, which has no L2 of its own, for a store at a home. -/
theorem l2Only_hubRequest (s : State) (part agent pa : Nat) (ha : 4 ≤ agent) : L2Only s (lineRequest s part agent pa .homeStore) := by
  have hlt : ¬ agent < 4 := by omega
  unfold lineRequest upstreamRequest
  simp only [reduceCtorEq, false_and, if_false, hlt, decide_false, Bool.false_and, Bool.false_eq_true]
  exact .ite (.of_dies rfl) (.ite (.refl s) ((l2Only_countAccess _ _ _).trans (l2Only_grantStore _ _ _)))

theorem pushWord_dies (s : State) (w : Nat) : (pushWord s w).dies = s.dies := by
  unfold pushWord
  simp only []
  split <;> rfl

theorem applyWord_dies (keep : Bool) (s : State) (w : Nat) : (applyWord keep s w).dies = s.dies := by
  unfold applyWord
  rw [pushWord_dies]
  split <;> rfl

theorem performWrite_dies (s : State) (x : HomeWrite) : (performWrite s x).dies = s.dies := by
  have hwords (v : State) (ws : List Nat) : (ws.foldl (applyWord x.keep) v).dies = v.dies := by
    induction ws generalizing v with
    | nil => rfl
    | cons w r ih => rw [List.foldl_cons, ih, applyWord_dies]
  unfold performWrite
  simp only []
  split
  · exact hwords _ _
  · exact hwords _ _

theorem l2Only_pstore (hm : s.hub.moves = []) (pa n x : Nat) : L2Only s (s.pstore pa n x) := by
  rw [State.pstore, State.pwrite, homeStore, storeAt_eq hm]
  exact (L2Only.foldl (fun x l => l2Only_grantStore x 0 l) _ s).trans (.of_dies (performWrite_dies _ _))

/-! ## The hub's stores: the word and the flag of a queue -/

/-- A value that the hub stores: bytes of memory change, and in the dies only lines of the L2s. -/
structure HubStored (s t : State) (pa : Nat) (bs : List Byte) : Prop where
  traffic : Traffic s t
  mem : t.mem = bputs s.mem pa bs
  moves : t.hub.moves = []
  cores : t.cores = s.cores
  l2 : L2Only s t

theorem hubStored_request {pa n : Nat} (h : plainBytes s pa n) (part x : Nat) :
    HubStored s ((lineRequest s part 6 pa .homeStore).pstore pa n x) pa (leBytes n x) where
  traffic := (traffic_lineRequest _ _ _ _ _).trans (traffic_pstore _ _ _ _)
  mem := request_pstore_mem h
  moves := storeAt_moves ((asks_lineRequest _ _ _ _ _).moves.trans h.1) _ _
  cores := (storeAt_cores _ _ _).trans (asks_lineRequest _ _ _ _ _).cores
  l2 := (l2Only_hubRequest s part 6 pa (by decide)).trans (l2Only_pstore ((asks_lineRequest _ _ _ _ _).moves.trans h.1) _ _ _)

theorem HubStored.plainBytes {pa pa' n : Nat} {bs : List Byte} (a : HubStored s t pa bs) (h : Machine.plainBytes s pa' n) : Machine.plainBytes t pa' n := by
  obtain ⟨-, hwf, hplain⟩ := h
  exact ⟨a.moves, a.traffic.wf hwf, hplain⟩

theorem HubStored.adds {pa : Nat} {bs : List Byte} (a : HubStored s t pa bs) : t.hub.adds = s.hub.adds := by rw [a.traffic.hub]

/-- Bytes of a queue's word, and of its flag. -/
def AddQueue.bytes (q : AddQueue) : Nat := if q.f64 then 8 else 4

theorem flag_eq (q : AddQueue) : q.flag = (q.addr + q.bytes, q.bytes) := by
  unfold AddQueue.flag AddQueue.bytes
  cases q.f64 <;> rfl

theorem hubStored_flag (h : plainBytes s (q.addr + q.bytes) q.bytes) (x : Nat) : HubStored s (storeFlag s q x) (q.addr + q.bytes) (leBytes q.bytes x) := by
  rw [storeFlag, flag_eq]
  exact hubStored_request h _ _

theorem bputs_append (a b : List Byte) (m : List Host.Cell) (pa : Nat) : bputs m pa (a ++ b) = bputs (bputs m pa a) (pa + a.length) b := by
  induction a generalizing m pa with
  | nil => rfl
  | cons x r ih => rw [List.cons_append, bputs, ih, bputs, List.length_cons, Nat.add_assoc, Nat.add_comm 1]

/-! ## Applying a full queue (R162) -/

theorem orderedAddApply_completes {n : Nat} (hq : s.hub.adds[n]? = some q) (hfull : q.items.length = q.count) (hp : plainBytes s q.addr (2 * q.bytes)) :
    Completes (.orderedAddApply n) s fun t =>
      storedAt s t q.addr (leBytes q.bytes (q.total (s.pread q.addr q.bytes)) ++ leBytes q.bytes 1) ∧ t.hub.adds = ldrop s.hub.adds n ∧
      t.groups = s.groups ∧ t.teams = s.teams ∧ t.cores = s.cores ∧ L2Only s t := by
  have hword := hubStored_request (hp.sub (off := 0) (k := q.bytes) (by omega)) (addPart s q) (q.total (s.pread q.addr q.bytes))
  rw [Nat.add_zero] at hword
  have hflag := hubStored_flag (hword.plainBytes (hp.sub (off := q.bytes) (k := q.bytes) (by omega))) 1
  have hready : addReady s n = true := by
    simp only [addReady, hq, hfull, decide_true, stallMove_eq hp.1, Option.isNone_none, Bool.and_self]
  have he : exec (.orderedAddApply n) s = execOrderedAddApply n s := rfl
  refine ⟨_, he.trans (by simp only [execOrderedAddApply, hready, if_true, hq]; rfl), storedAt_of_mem hp.2.1 ?_, ?_, ?_, ?_, ?_, ?_⟩
  · rw [bputs_append, length_leBytes, ← hword.mem]
    exact hflag.mem
  · exact congrArg (ldrop · n) (hflag.adds.trans hword.adds)
  · exact hflag.traffic.groups.trans hword.traffic.groups
  · exact hflag.traffic.teams.trans hword.traffic.teams
  · exact hflag.cores.trans hword.cores
  · exact hword.l2.trans hflag.l2

/-! ## Opening a queue (R160) -/

/-- The unit opens a queue of some count at an address: none stands there, it has room, and the count is one that it takes. -/
def opens (s : State) (pa count : Nat) : Bool :=
  s.hub.adds.all (fun x => x.addr != pa) && decide (s.hub.adds.length < 256) &&
    decide (s.hub.adds.foldl (fun n x => n + x.count) 0 + count ≤ 262144) && decide (1 ≤ count) && decide (count ≤ 65536)

theorem opens_iff {pa count : Nat} : opens s pa count = true ↔ (∀ q ∈ s.hub.adds, q.addr ≠ pa) ∧ s.hub.adds.length < 256 ∧
    (s.hub.adds.map AddQueue.count).sum + count ≤ 262144 ∧ 1 ≤ count ∧ count ≤ 65536 := by
  rw [List.sum_eq_foldl, List.foldl_map]
  simp only [opens, Bool.and_eq_true, List.all_eq_true, bne_iff_ne, decide_eq_true_eq, and_assoc]

theorem doFaopen_eq {d : BitVec 4} {f64 : Bool} {count : Word} {h : Hit} {rest : List Hit} (hh : o.hits = (h :: rest) :: []) :
    doFaopen s o d f64 count =
      (if opens s h.pa count.toNat then
        storeFlag ((finishOp s o).modHub fun k => { k with adds := k.adds ++
            [{ addr := h.pa, f64 := f64, count := count.toNat, grid := s.gridOf (s.group o.gid).tid, items := [] }] })
          { addr := h.pa, f64 := f64, count := count.toNat, grid := s.gridOf (s.group o.gid).tid, items := [] } 0
      else finishOp s o).modGroup o.gid fun g => qput g d.toNat (opens s h.pa count.toNat) := by
  unfold doFaopen
  rw [hh]
  rfl

theorem qput_uq {g h : Group} (e : g.uq = h.uq) (q : Nat) (v : Bool) : (qput g q v).uq = (qput h q v).uq := by
  unfold qput
  split
  · exact e
  · simp only [e]

theorem faopen_completes {core id : Nat} {d : BitVec 4} {f64 : Bool} {count : Word} {h : Hit} {rest : List Hit} (hfind : s.findOp core id = some o)
    (hready : opReady s o = true) (hk : o.kind = .faopen d f64 count) (hh : o.hits = (h :: rest) :: []) (hp : plainBytes s h.pa (if f64 then 16 else 8)) :
    let q : AddQueue := { addr := h.pa, f64 := f64, count := count.toNat, grid := s.gridOf (s.group o.gid).tid, items := [] }
    Completes (.atomicReply core id) s fun t => Served s t o ∧
      (opens s h.pa count.toNat = true → t.hub.adds = s.hub.adds ++ [q] ∧ (t.group o.gid).uq = (qput (s.group o.gid) d.toNat true).uq ∧
        storedAt s t (h.pa + q.bytes) (leBytes q.bytes 0)) ∧
      (opens s h.pa count.toNat = false → t.hub.adds = s.hub.adds ∧ (t.group o.gid).uq = (qput (s.group o.gid) d.toNat false).uq ∧ t.mem = s.mem) := by
  intro q
  have huq := (finishOp_regs s o).2.2.2
  have hstep : exec (.atomicReply core id) s = .next (doFaopen s o d f64 count) := by
    rw [exec_atomicReply hfind hready, replyAtomic, hk]
  rw [doFaopen_eq hh] at hstep
  refine ⟨_, hstep, ?_⟩
  cases hok : opens s h.pa count.toNat with
  | false =>
    simp only [Bool.false_eq_true, if_false, false_imp_iff, true_and, true_imp_iff]
    refine ⟨(served_finishOp s o).then_regs fun x => qput_regsOnly x _ _, rfl, ?_, rfl⟩
    rw [group_modGroup, qput_uq huq]
  | true =>
    have hbytes : q.bytes + q.bytes = if f64 then 16 else 8 := by
      show (if f64 = true then 8 else 4) + (if f64 = true then 8 else 4) = _
      cases f64 <;> rfl
    have hqueue : plainBytes ((finishOp s o).modHub fun k => { k with adds := k.adds ++ [q] }) (q.addr + q.bytes) q.bytes := by
      obtain ⟨hm, hwf, hplain⟩ := hp.sub (off := q.bytes) (k := q.bytes) (by omega)
      exact ⟨hm, hwf, hplain⟩
    have hflag := hubStored_flag hqueue 0
    simp only [if_true, true_imp_iff, Bool.true_eq_false, false_imp_iff, and_true]
    refine ⟨(((served_finishOp s o).then_stage (performKept_modHub _ _)).then_stage hflag.traffic.performKept).then_regs fun x => qput_regsOnly x _ _, hflag.adds, ?_,
      storedAt_of_mem hp.2.1 hflag.mem⟩
    rw [group_modGroup, hflag.traffic.performKept.group, group_modHub, qput_uq huq]

/-! ## Contributing to a queue (R161) -/

/-- The unit refuses a contribution of a lane: no queue stands at the address, or its format or grid differ, the key is taken, or the queue is full. -/
def refuses (s : State) (o : LogOp) (l pa : Nat) : Prop :=
  ∀ q, s.hub.adds.find? (fun q => q.addr == pa) = some q →
    q.f64 ≠ o.wide l ∨ q.grid ≠ s.gridOf (s.group o.gid).tid ∨ (∃ e ∈ q.items, e.1 = addKey s o.gid l) ∨ q.count ≤ q.items.length

theorem faaddLane_refused {a : Acc} {h : Hit} (hr : refuses s o a.lane h.pa) : faaddLane s o a h = (s, false) := by
  unfold faaddLane
  split
  · rfl
  · rename_i q hq
    have hbad := hr q hq
    refine if_pos ?_
    simpa only [Bool.or_eq_true, bne_iff_ne, List.any_eq_true, beq_iff_eq, decide_eq_true_eq, or_assoc] using hbad

theorem faaddLane_accepted {a : Acc} {h : Hit} (hr : ¬ refuses s o a.lane h.pa) : faaddLane s o a h =
    (s.modHub fun k => { k with adds := k.adds.map fun x =>
      if x.addr = h.pa then { x with items := x.items ++ [(addKey s o.gid a.lane, BitVec.ofNat 64 (o.value a.lane))] } else x }, true) := by
  unfold refuses at hr
  push Not at hr
  obtain ⟨q, hq, hgood⟩ := hr
  unfold faaddLane
  rw [hq]
  refine if_neg ?_
  simp only [Bool.or_eq_true, bne_iff_ne, List.any_eq_true, beq_iff_eq, decide_eq_true_eq, or_assoc]
  push Not
  exact hgood

/-- The one lane of an operation that has one, with where its access lies. -/
theorem placed_faadd {d : BitVec 4} {h : Hit} {l : Nat} (hk : o.kind = .faadd d) (hh : o.hits = [[h]]) (hact : lanesOf o.active = [l]) :
    s.placed o = [(⟨l, o.ea l, if o.wide l then 16 else 8⟩, [h])] := by
  simp only [State.placed, State.accesses, hk, hh, hact, List.map_singleton, List.zip_cons_cons, List.zip_nil_right]

theorem faadd_completes {core id : Nat} {d : BitVec 4} {h : Hit} {l : Nat} (hfind : s.findOp core id = some o) (hready : opReady s o = true)
    (hk : o.kind = .faadd d) (hh : o.hits = [[h]]) (hact : lanesOf o.active = [l]) :
    Completes (.atomicReply core id) s fun t => Served s t o ∧ t.mem = s.mem ∧
      (refuses s o l h.pa → t.hub.adds = s.hub.adds ∧ (d.toNat % 8 ≠ 7 → ((t.group o.gid).preds.getD (d.toNat % 8) 0).getLsbD l = decide (8 ≤ d.toNat))) ∧
      (¬ refuses s o l h.pa →
        t.hub.adds = (s.hub.adds.map fun q => if q.addr = h.pa then { q with items := q.items ++ [(addKey s o.gid l, BitVec.ofNat 64 (o.value l))] } else q) ∧
        (d.toNat % 8 ≠ 7 → ((t.group o.gid).preds.getD (d.toNat % 8) 0).getLsbD l = !decide (8 ≤ d.toNat))) := by
  have hl : l < 256 := lt_of_mem_lanesOf (hact ▸ List.mem_singleton_self l)
  have hd : d.toNat % 16 = d.toNat := Nat.mod_eq_of_lt d.isLt
  have hstep : exec (.atomicReply core id) s = .next ((finishOp (faaddLane s o ⟨l, o.ea l, if o.wide l then 16 else 8⟩ h).1 o).modGroup o.gid fun g =>
      pput g d.toNat fun k => ([(l, (faaddLane s o ⟨l, o.ea l, if o.wide l then 16 else 8⟩ h).2)].find? fun e => e.1 == k).map (·.2)) := by
    rw [exec_atomicReply hfind hready, replyAtomic, hk]
    simp only [doFaadd, placed_faadd hk hh hact, List.foldl_cons, List.foldl_nil, List.nil_append]
  have hbit (g : Group) (b : Bool) (h7 : d.toNat % 8 ≠ 7) :
      ((pput g d.toNat fun k => ([(l, b)].find? fun e => e.1 == k).map (·.2)).preds.getD (d.toNat % 8) 0).getLsbD l = (b ^^ decide (8 ≤ d.toNat)) := by
    rw [pput_bit _ _ _ _ h7 hl, List.find?_singleton, beq_self_eq_true, if_pos rfl, hd]
    rfl
  refine ⟨_, hstep, ?_⟩
  by_cases hr : refuses s o l h.pa
  · rw [faaddLane_refused (a := ⟨l, o.ea l, if o.wide l then 16 else 8⟩) hr]
    refine ⟨(served_finishOp s o).then_regs fun x => pput_regsOnly x _ _, rfl, fun _ => ⟨rfl, fun h7 => ?_⟩, fun hn => absurd hr hn⟩
    rw [group_modGroup, hbit _ _ h7, Bool.false_xor]
  · rw [faaddLane_accepted (a := ⟨l, o.ea l, if o.wide l then 16 else 8⟩) hr]
    refine ⟨(Served.after_stage (performKept_modHub _ _) (served_finishOp _ o)).then_regs fun x => pput_regsOnly x _ _, rfl, fun hn => absurd hn hr,
      fun _ => ⟨rfl, fun h7 => ?_⟩⟩
    rw [group_modGroup, hbit _ _ h7, Bool.true_xor]

end Sys2Proof.Machine

namespace Sys2Proof
open Machine

/-- Settles O27: keys are put in order one at a time in whatever order they come (`insertKey_comm`); the unit's stores are `HubStored`. -/
theorem orderedAdds : Obligations.OrderedAdds := by
  refine ⟨fun q items start hnd hp => total_perm hnd hp start, fun n s q hq hfull hp => ?_, fun core id s o d f64 count h rest hfind _ hready hk hh hp => ?_,
    fun core id s o d h l hfind _ hready hk hh hact => faadd_completes hfind hready hk hh hact⟩
  · refine orderedAddApply_completes hq hfull ?_
    have hbytes : 2 * q.bytes = if q.f64 then 16 else 8 := by
      unfold AddQueue.bytes
      cases q.f64 <;> rfl
    rwa [hbytes]
  · obtain ⟨t, ht, hserved, hopen, hrefused⟩ := faopen_completes hfind hready hk hh hp
    exact ⟨t, ht, hserved, fun hok => hopen (opens_iff.mpr hok), fun hok => hrefused (Bool.eq_false_iff.mpr fun hb => hok (opens_iff.mp hb))⟩

end Sys2Proof
end

section
/-! Stores and atomics outside the team window (O26): what a store leaves in the L1 or at the home, and what an atomic does there. -/
namespace Sys2Proof.Machine

variable {s t u : State} {o : LogOp} {core asid vmid part va n x : Nat} {h : Hit}

/-! ## The lines of an L1 (05 R141, R142) -/

theorem writeBackCells_cores (s : State) (core : Nat) (x : L1Line) : (writeBackCells s core x).cores = s.cores := by
  have hasks := asks_lineRequest s x.part (dieOf core) (x.pline * 128) .own
  unfold writeBackCells
  split
  · rfl
  · simp only []
    split
    · exact (storeAt_cores _ _ _).trans hasks.cores
    · exact (storeAt_cores _ _ _).trans hasks.cores

/-- Cleaning with invalidation drops the lines it names, and no other. -/
theorem cleanLines_l1 (s : State) (core : Nat) (p : L1Line → Bool) : ((cleanLines s core p true).core core).l1 = (s.core core).l1.filter fun x => !p x := by
  have hfold (l : List L1Line) (v : State) : (l.foldl (fun t x => writeBackCells t core x) v).cores = v.cores := by
    induction l generalizing v with
    | nil => rfl
    | cons y r ih => rw [List.foldl_cons, ih, writeBackCells_cores]
  unfold cleanLines
  simp only [core_modCore, if_true]
  rw [State.core, hfold]
  rfl

/-- The L1 finds the line that was put there last under its tag. -/
theorem l1Find_l1Put (s : State) (core : Nat) (x : L1Line) : ∃ b, ((l1Put s core x).core core).l1Find x.asid x.vmid x.vline = some { x with bank := b } := by
  have hfind (l : List L1Line) : (l.find? fun y => y.asid == x.asid && y.vmid == x.vmid && y.vline == x.vline) = l.find? fun y => y.same x := rfl
  have hnew (k : Core) (b : Nat) (hk : ∀ y ∈ k.l1, y.same x = false) : ({ k with l1 := k.l1 ++ [{ x with bank := b }] } : Core).l1Find x.asid x.vmid x.vline =
      some { x with bank := b } := by
    have hself : ({ x with bank := b } : L1Line).same x = true := by simp only [L1Line.same, beq_self_eq_true, Bool.and_self]
    rw [Core.l1Find, hfind, List.find?_append, List.find?_eq_none.mpr fun y hy => by rw [hk y hy]; decide, Option.none_or, List.find?_cons, hself]
  by_cases hany : ((s.core core).l1.any fun y => y.same x) = true
  · obtain ⟨y, hy, hsame⟩ := List.any_eq_true.mp hany
    have hcomp : ((fun y : L1Line => y.same x) ∘ fun y : L1Line => if y.same x then { x with bank := y.bank } else y) = fun y => y.same x := by
      funext y
      by_cases h : y.same x = true
      · rw [Function.comp, if_pos h, h]
        simp only [L1Line.same, beq_self_eq_true, Bool.and_self]
      · rw [Function.comp, if_neg h]
    obtain ⟨z, hz⟩ : ∃ z, ((s.core core).l1.find? fun y => y.same x) = some z := Option.isSome_iff_exists.mp (List.find?_isSome.mpr ⟨y, hy, hsame⟩)
    refine ⟨z.bank, ?_⟩
    rw [l1Put, if_pos hany, core_setCore, Core.l1Find, hfind, List.find?_map, hcomp, hz, Option.map_some, if_pos (List.find?_some hz :)]
  · have hno : ∀ y ∈ (s.core core).l1, y.same x = false := by simpa only [Bool.not_eq_true, List.any_eq_false] using hany
    unfold l1Put
    rw [if_neg hany]
    simp only []
    split
    · exact ⟨_, by rw [core_modCore]; exact hnew _ _ hno⟩
    · split
      · rename_i v _
        refine ⟨v.bank, ?_⟩
        rw [core_modCore]
        refine hnew _ _ fun y hy => ?_
        rw [cleanLines_l1] at hy
        exact hno y (List.mem_filter.mp hy).1
      · exact ⟨_, by rw [core_modCore]; exact hnew _ _ hno⟩

theorem l1LineFor_tag (s : State) (core asid vmid part va pa : Nat) :
    (l1LineFor s core asid vmid part va pa).asid = asid ∧ (l1LineFor s core asid vmid part va pa).vmid = vmid ∧
    (l1LineFor s core asid vmid part va pa).vline = va / 128 := by
  unfold l1LineFor
  cases hf : (s.core core).l1Find asid vmid (va / 128) with
  | none => exact ⟨rfl, rfl, rfl⟩
  | some y =>
    have hy := List.find?_some hf
    simp only [Bool.and_eq_true, beq_iff_eq] at hy
    exact ⟨hy.1.1, hy.1.2, hy.2⟩

/-- A load of bytes that the line in the L1 holds. -/
theorem l1Load_valid {y : L1Line} (hf : (t.core core).l1Find asid vmid (va / 128) = some y) (hv : byteMask (va % 128) n &&& ~~~y.valid = 0) (k : Hit) :
    (l1Load t core asid vmid part va n k).2 = y.data.toNat / 2 ^ (8 * (va % 128)) % 2 ^ (8 * n) := by
  have hline : l1LineFor t core asid vmid part va k.pa = y := by rw [l1LineFor, hf, Option.getD_some]
  simp only [l1Load, hline, if_pos hv]

/-- A load of no bytes gives 0. -/
theorem l1Load_empty (t : State) (core asid vmid part va : Nat) (k : Hit) : (l1Load t core asid vmid part va 0 k).2 = 0 := by
  unfold l1Load
  simp only [Nat.mul_zero, Nat.pow_zero, Nat.mod_one]
  split <;> rfl

/-- Bytes put into a word are read back: off and n count bytes within it. -/
theorem lineBytes_put {N D off n x : Nat} (hn : 8 * off + 8 * n ≤ N) :
    (BitVec.ofNat N (D - D / 2 ^ (8 * off) % 2 ^ (8 * n) * 2 ^ (8 * off) + x % 2 ^ (8 * n) * 2 ^ (8 * off))).toNat / 2 ^ (8 * off) % 2 ^ (8 * n) =
      x % 2 ^ (8 * n) := by
  have hA : 0 < 2 ^ (8 * off) := Nat.two_pow_pos _
  have hB : 0 < 2 ^ (8 * n) := Nat.two_pow_pos _
  have hM : 2 ^ N = 2 ^ (8 * off) * (2 ^ (8 * n) * 2 ^ (N - 8 * off - 8 * n)) := by
    rw [← Nat.pow_add, ← Nat.pow_add, show 8 * off + (8 * n + (N - 8 * off - 8 * n)) = N by omega]
  generalize 2 ^ (8 * off) = A at *
  generalize 2 ^ (8 * n) = B at *
  have hkeep : D - D / A % B * A = A * (B * (D / A / B)) + D % A := by
    have hlow : A * (D / A) + D % A = D := Nat.div_add_mod D A
    have hmid : A * (D / A) = A * (B * (D / A / B)) + D / A % B * A := by
      conv_lhs => rw [← Nat.div_add_mod (D / A) B, Nat.mul_add, Nat.mul_comm A (D / A % B)]
    omega
  rw [BitVec.toNat_ofNat, hM, Nat.mod_mul_right_div_self, Nat.mod_mul_right_mod, hkeep]
  have hsum : A * (B * (D / A / B)) + D % A + x % B * A = A * (B * (D / A / B) + x % B) + D % A := by ring
  rw [hsum, Nat.mul_add_div hA, Nat.div_eq_of_lt (Nat.mod_lt D hA), Nat.add_zero, Nat.mul_add_mod, Nat.mod_mod]

/-- A line with n bytes of a value stored from an offset. -/
def storedLine (y : L1Line) (off n x : Nat) (h : Hit) : L1Line :=
  { y with
    valid := y.valid ||| byteMask off n,
    dirty := y.dirty ||| byteMask off n,
    data := BitVec.ofNat 1024 (y.data.toNat - y.data.toNat / 2 ^ (8 * off) % 2 ^ (8 * n) * 2 ^ (8 * off) + x % 2 ^ (8 * n) * 2 ^ (8 * off)),
    canR := h.canR, canW := h.canW, dSet := h.dSet, size := h.size }

/-- A store leaves its line in the L1. -/
theorem l1Find_l1Store (s : State) (core asid vmid part va n x : Nat) (h : Hit) :
    ∃ b, ((l1Store s core asid vmid part va n x h).core core).l1Find asid vmid (va / 128) =
      some { storedLine (l1LineFor s core asid vmid part va h.pa) (va % 128) n x h with bank := b } := by
  have hput (u : State) (y : L1Line) (hasid : y.asid = asid) (hvmid : y.vmid = vmid) (hvline : y.vline = va / 128) :
      ∃ b, ((l1Put u core y).core core).l1Find asid vmid (va / 128) = some { y with bank := b } := by
    rw [← hasid, ← hvmid, ← hvline]
    exact l1Find_l1Put u core y
  obtain ⟨hasid, hvmid, hvline⟩ := l1LineFor_tag s core asid vmid part va h.pa
  exact hput _ (storedLine (l1LineFor s core asid vmid part va h.pa) (va % 128) n x h) hasid hvmid hvline

/-- A load finds what a store has left in the L1, in every later state that still has the line. -/
theorem l1Load_l1Store (hn : va % 128 + n ≤ 128)
    (ht : (t.core core).l1Find asid vmid (va / 128) = ((l1Store s core asid vmid part va n x h).core core).l1Find asid vmid (va / 128)) (part' : Nat) (k : Hit) :
    (l1Load t core asid vmid part' va n k).2 = x % 2 ^ (8 * n) := by
  obtain ⟨b, hb⟩ := l1Find_l1Store s core asid vmid part va n x h
  have hmask (m : BitVec 128) : byteMask (va % 128) n &&& ~~~(m ||| byteMask (va % 128) n) = 0 := by
    refine BitVec.eq_of_getLsbD_eq fun i hi => ?_
    simp only [BitVec.getLsbD_and, BitVec.getLsbD_not, BitVec.getLsbD_or]
    cases (byteMask (va % 128) n).getLsbD i <;> simp
  rw [l1Load_valid (ht.trans hb) (hmask _)]
  exact lineBytes_put (by omega)

/-! ## Accesses outside the team window -/

/-- An access within one line writes one piece, or nothing where it has no bytes at the start of a line. -/
theorem writeAcc_within (hn : va % 128 + n ≤ 128) (gid l : Nat) :
    writeAcc s gid ⟨l, va, n⟩ [h] x = if 0 < va % 128 + n then writePiece s gid va n x h else s := by
  unfold writeAcc
  split
  · rename_i h0
    rw [pieces_within h0 hn]
    simp only [List.zip_cons_cons, List.zip_nil_left, List.foldl_cons, List.foldl_nil, Nat.sub_self, Nat.mul_zero, Nat.pow_zero, Nat.div_one]
  · rename_i h0
    rw [pieces_empty h0]
    rfl

theorem writePiece_traffic (gid va n x : Nat) (hattr : h.attr ≠ 3) : Traffic s (writePiece s gid va n x h) := by
  unfold writePiece
  simp only [if_neg hattr]
  split
  · exact (traffic_lineRequest _ _ _ _ _).trans (traffic_pstore _ _ _ _)
  · exact traffic_l1Store _ _ _ _ _ _ _ _ _

theorem writeAcc_traffic (hn : va % 128 + n ≤ 128) (gid l : Nat) (hattr : h.attr ≠ 3) : Traffic s (writeAcc s gid ⟨l, va, n⟩ [h] x) := by
  rw [writeAcc_within hn]
  split
  · exact writePiece_traffic _ _ _ _ hattr
  · exact Traffic.refl s

/-- A store of a page that may be cached leaves its bytes in the L1. -/
theorem writeAcc_cached {gid : Nat} (hn : va % 128 + n ≤ 128) (l : Nat) (hattr : h.attr ≠ 3) (hc : h.uncached = false) (hcore : (s.group gid).core = core)
    (ht : ∀ asid vmid vline, (t.core core).l1Find asid vmid vline = ((writeAcc s gid ⟨l, va, n⟩ [h] x).core core).l1Find asid vmid vline) (part : Nat) (k : Hit) :
    (l1Load t core (s.asid (s.group gid).tid) (s.vmid (s.group gid).tid) part va n k).2 = x % 2 ^ (8 * n) := by
  by_cases h0 : 0 < va % 128 + n
  · have hpiece : writeAcc s gid ⟨l, va, n⟩ [h] x = l1Store s core (s.asid (s.group gid).tid) (s.vmid (s.group gid).tid) (s.partOf (s.group gid).tid) va n x h := by
      rw [writeAcc_within hn, if_pos h0, writePiece]
      simp only [if_neg hattr, hc, Bool.false_eq_true, if_false, hcore]
    exact l1Load_l1Store hn ((ht _ _ _).trans (by rw [hpiece])) part k
  · obtain rfl : n = 0 := by omega
    rw [l1Load_empty, Nat.mul_zero, Nat.pow_zero, Nat.mod_one]

/-- A store of an uncached page puts its bytes into memory. -/
theorem writeAcc_uncached {gid : Nat} (hn : va % 128 + n ≤ 128) (l : Nat) (hattr : h.attr ≠ 3) (hu : h.uncached = true) (hplain : plainBytes s h.pa n) :
    (writeAcc s gid ⟨l, va, n⟩ [h] x).mem = bputs s.mem h.pa (leBytes n x) := by
  rw [writeAcc_within hn]
  split
  · rw [writePiece]
    simp only [if_neg hattr, hu, if_true]
    exact request_pstore_mem hplain
  · obtain rfl : n = 0 := by omega
    rfl

/-- A store that places one access: it stores that access's value and leaves the log. -/
theorem doStore_single {a : Acc} {hs : List Hit} (f : Acc → Nat) (hplaced : s.placed o = [(a, hs)]) (hleft : o.left.getLsbD a.lane = true ∨ o.kind.isUniform = true) :
    doStore s o f = finishOp (writeAcc s o.gid a hs (f a)) o := by
  have hown : (o.left.getLsbD a.lane || o.kind.isUniform) = true := by simpa only [Bool.or_eq_true] using hleft
  rw [doStore, hplaced, List.foldl_cons, List.foldl_nil, if_pos hown]

/-- What homesServe says of a store of n bytes. -/
theorem stores_outside (hcore : (s.group o.gid).core = core) (hn : va % 128 + n ≤ 128) (l : Nat) (hattr : h.attr ≠ 3) (ht : t = finishOp (writeAcc s o.gid ⟨l, va, n⟩ [h] x) o) :
    Served s t o ∧ t.teams = s.teams ∧ RegsKept (s.group o.gid) (t.group o.gid) ∧
      (h.uncached = false → ∀ k, (l1Load t core (s.asid (s.group o.gid).tid) (s.vmid (s.group o.gid).tid) (s.partOf (s.group o.gid).tid) va n k).2 = x % 2 ^ (8 * n)) ∧
      (h.uncached = true → plainBytes s h.pa n → storedAt s t h.pa (leBytes n x)) := by
  subst ht
  have htraffic : Traffic s (writeAcc s o.gid ⟨l, va, n⟩ [h] x) := writeAcc_traffic hn o.gid l hattr
  have hgroup := htraffic.performKept.group o.gid
  refine ⟨(served_finishOp _ o).after_stage htraffic.performKept, htraffic.teams, hgroup ▸ finishOp_regsKept _ o, fun hc k => ?_, fun hu hplain => ?_⟩
  · exact writeAcc_cached hn l hattr hc hcore (fun _ _ _ => finishOp_l1Find _ _ _ _ _ _) _ _
  · exact storedAt_of_mem hplain.2.1 (writeAcc_uncached hn l hattr hu hplain)

/-- The block of a set (R155): its lanes from the set's first on. -/
theorem sxstBlock_eq (o : LogOp) (l : Nat) :
    sxstBlock o l = sxPack ((List.range 16).map fun j => if o.active.getLsbD (16 * (l / 16) + j) then
      fpVal (fmtOf 8) (mFtz (o.mode (16 * (l / 16) + j))) (o.value (16 * (l / 16) + j)) else .fin false 0 0) (o.sx l) (mRnd (o.mode l)) := by
  rw [Nat.mul_comm]
  rfl

/-! ## Atomics -/

/-- One access of an atomic and what is known of the earlier ones. -/
def atomicStep (o : LogOp) (op : Nat) (r : State × List (Nat × Nat)) (p : Acc × List Hit) : State × List (Nat × Nat) :=
  match p.2 with
  | h :: _ => let t := atomicLane r.1 o op p.1 h; (t.1, r.2 ++ [(p.1.lane, t.2)])
  | [] => r

/-- The old values go to register d, their high halves to d + 1 where the form has one and the lane is wide. -/
def replyRegs (o : LogOp) (op d : Nat) (vs : List (Nat × Nat)) (g : Group) : Group :=
  let g1 := vput g d fun l => (laneVal vs l).map fun x => BitVec.ofNat 32 x
  if 8 ≤ op then vput g1 (d + 1) fun l => if o.wide l then (laneVal vs l).map fun x => BitVec.ofNat 32 (x / 2 ^ 32) else none else g1

theorem doAtomic_eq (s : State) (o : LogOp) (op d : Nat) : doAtomic s o op d =
    (finishOp ((s.placed o).foldl (atomicStep o op) (s, [])).1 o).modGroup o.gid (replyRegs o op d ((s.placed o).foldl (atomicStep o op) (s, [])).2) := rfl

theorem replyRegs_vregs (o : LogOp) (op d : Nat) (vs : List (Nat × Nat)) (g : Group) : replyRegs o op d vs g = { g with vregs := (replyRegs o op d vs g).vregs } := by
  unfold replyRegs
  simp only []
  split
  · rw [vput_eq, vput_eq g]
  · rw [vput_eq]

theorem replyRegs_regsOnly (o : LogOp) (op d : Nat) (vs : List (Nat × Nat)) (g : Group) : RegsOnly g (replyRegs o op d vs g) := by
  rw [RegsOnly, replyRegs_vregs]

theorem vget_replyRegs {o : LogOp} {op d : Nat} {vs : List (Nat × Nat)} {g : Group} {r k : Nat} (hk : k < 256) : vget (replyRegs o op d vs g) r k =
    if r = d then ((laneVal vs k).map fun x => BitVec.ofNat 32 x).getD (vget g r k)
    else if r = d + 1 ∧ 8 ≤ op ∧ o.wide k = true then ((laneVal vs k).map fun x => BitVec.ofNat 32 (x / 2 ^ 32)).getD (vget g r k)
    else vget g r k := by
  have hlow : vget (vput g d fun l => (laneVal vs l).map fun x => BitVec.ofNat 32 x) r k =
      if r = d then ((laneVal vs k).map fun x => BitVec.ofNat 32 x).getD (vget g r k) else vget g r k := by
    rw [vget_vput _ _ _ _ _ hk]
    by_cases hr : r = d
    · rw [if_pos hr, if_pos hr.symm, hr]
    · rw [if_neg hr, if_neg (Ne.symm hr)]
  unfold replyRegs
  simp only []
  by_cases hop : 8 ≤ op
  · rw [if_pos hop, vget_vput _ _ _ _ _ hk]
    by_cases hr : r = d + 1
    · subst hr
      rw [if_pos rfl, hlow, if_neg (Nat.succ_ne_self d), if_neg (Nat.succ_ne_self d)]
      cases o.wide k with
      | false => rw [if_neg Bool.false_ne_true, if_neg fun h => Bool.false_ne_true h.2.2, Option.getD_none]
      | true => rw [if_pos rfl, if_pos ⟨rfl, hop, rfl⟩]
    · rw [if_neg (Ne.symm hr), hlow]
      simp only [hr, false_and, if_false]
  · rw [if_neg hop, hlow]
    simp only [hop, false_and, and_false, if_false]

/-- The model's new value is R157's. -/
theorem atomicNew_eq (op w : Nat) (sg : Bool) (old y cmp : Nat) : atomicNew op w sg old y cmp = atomicValue (op % 8) w sg old y cmp := by
  have hop : op % 8 < 8 := Nat.mod_lt _ (by decide)
  unfold atomicNew atomicValue
  generalize op % 8 = k at hop
  interval_cases k <;> rfl

/-- What a lane's atomic makes of an old value. -/
def laneNew (o : LogOp) (op : Nat) (a : Acc) (old : Nat) : Nat :=
  atomicValue (op % 8) (8 * a.n) (etSigned (mEtype (o.mode a.lane))) old
    (if op % 8 = 7 then o.value a.lane / 2 ^ (8 * a.n) % 2 ^ (8 * a.n) else o.value a.lane % 2 ^ (8 * a.n)) (o.value a.lane % 2 ^ (8 * a.n))

/-- A flush of a line that the L1 does not hold writes nothing back. -/
theorem flushFor_absent {gid va : Nat} (h : (s.core (s.group gid).core).l1Find (s.asid (s.group gid).tid) (s.vmid (s.group gid).tid) (va / 128) = none) :
    ∃ f, flushFor s gid va = s.modCore (s.group gid).core f := by
  have hnone : (s.core (s.group gid).core).l1.filter (fun x => x.asid == s.asid (s.group gid).tid && x.vmid == s.vmid (s.group gid).tid && x.vline == va / 128) = [] :=
    List.filter_eq_nil_iff.mpr (List.find?_eq_none.mp h)
  simp only [flushFor, flushLine, cleanLines, hnone]
  exact ⟨_, rfl⟩

/-- The read-modify-write of a home: what it finds, what it leaves. -/
theorem homeRmw_spec {gid n : Nat} (f : Nat → Nat) (hplain : plainBytes s h.pa n) :
    Traffic s (homeRmw s gid n h f).1 ∧ (homeRmw s gid n h f).1.mem = bputs s.mem h.pa (leBytes n (f (s.pread h.pa n))) ∧ (homeRmw s gid n h f).2 = s.pread h.pa n := by
  rw [homeRmw]
  refine ⟨?_, ?_, rfl⟩
  · exact .ite ((traffic_lineRequest _ _ _ _ _).trans (traffic_pstore _ _ _ _)) (traffic_l2Store _ _ _ _ _)
  · rw [apply_ite State.mem, request_pstore_mem hplain, l2Store_mem (by rwa [length_leBytes]), ite_self]

theorem atomicLane_outside {a : Acc} (op : Nat) (hattr : h.attr ≠ 3) :
    atomicLane s o op a h = homeRmw (if h.attr = 0 then flushFor s o.gid a.va else s) o.gid a.n h (laneNew o op a) := by
  unfold atomicLane
  simp only [if_neg hattr, atomicNew_eq]
  rfl

/-- A lane's atomic outside the team window, once the L1 holds nothing of the line. -/
theorem atomicLane_spec {a : Acc} (op : Nat) (hattr : h.attr ≠ 3)
    (habsent : (s.core (s.group o.gid).core).l1Find (s.asid (s.group o.gid).tid) (s.vmid (s.group o.gid).tid) (a.va / 128) = none) (hplain : plainBytes s h.pa a.n) :
    Traffic s (atomicLane s o op a h).1 ∧ (atomicLane s o op a h).1.mem = bputs s.mem h.pa (leBytes a.n (laneNew o op a (s.pread h.pa a.n))) ∧
      (atomicLane s o op a h).2 = s.pread h.pa a.n := by
  rw [atomicLane_outside op hattr]
  split
  · have htraffic := traffic_flushFor s o.gid a.va
    obtain ⟨f, hf⟩ := flushFor_absent habsent
    rw [hf] at htraffic ⊢
    obtain ⟨hrest, hmem, hold⟩ := homeRmw_spec (s := s.modCore (s.group o.gid).core f) (gid := o.gid) (laneNew o op a) hplain
    exact ⟨htraffic.trans hrest, hmem, hold⟩
  · exact homeRmw_spec _ hplain

theorem laneVal_single (l x k : Nat) : laneVal [(l, x)] k = if k = l then some x else none := by
  rw [laneVal, List.find?_singleton]
  by_cases h : k = l
  · rw [if_pos h, if_pos (beq_iff_eq.mpr h.symm), Option.map_some]
  · rw [if_neg h, if_neg fun e => h (beq_iff_eq.mp e).symm, Option.map_none]

/-- An atomic's reply after stages that leave its group alone: served, and only vector registers differ. -/
theorem reply_kept {op d : Nat} {vs : List (Nat × Nat)} (hkept : PerformKept s u) (ht : t = (finishOp u o).modGroup o.gid (replyRegs o op d vs)) :
    Served s t o ∧ SameU (s.group o.gid) (t.group o.gid) never ∧ SameP (s.group o.gid) (t.group o.gid) never ∧ (t.group o.gid).uq = (s.group o.gid).uq ∧
      ∀ r k, k < 256 → vget (t.group o.gid) r k =
        if r = d then ((laneVal vs k).map fun x => BitVec.ofNat 32 x).getD (vget (s.group o.gid) r k)
        else if r = d + 1 ∧ 8 ≤ op ∧ o.wide k = true then ((laneVal vs k).map fun x => BitVec.ofNat 32 (x / 2 ^ 32)).getD (vget (s.group o.gid) r k)
        else vget (s.group o.gid) r k := by
  subst ht
  obtain ⟨hv, hp, hu, hq⟩ := hkept.group o.gid ▸ finishOp_regs u o
  refine ⟨((served_finishOp u o).after_stage hkept).then_regs (replyRegs_regsOnly o op d vs), ?_⟩
  rw [group_modGroup]
  refine ⟨fun n _ => ?_, fun n _ => ?_, ?_, fun r k hk => ?_⟩
  · rw [replyRegs_vregs]
    exact uget_congr hu n
  · rw [replyRegs_vregs]
    exact congrArg (fun x => List.getD x n _) hp
  · rw [replyRegs_vregs]
    exact hq
  · rw [vget_replyRegs hk, vget_congr hv]

/-! ## What the homes serve -/

theorem placed_store_single {w l : Nat} (hk : o.kind = .store w) (hh : o.hits = [[h]]) (hact : lanesOf o.active = [l]) :
    s.placed o = [(⟨l, o.ea l, w⟩, [h])] := by
  rw [State.placed, accesses_store hk, hact, hh]
  rfl

theorem placed_stu {w : Nat} {h1 : List Hit} {r : List (List Hit)} (hk : o.kind = .stu w) (hh : o.hits = h1 :: r) : s.placed o = [(⟨0, o.ea 0, w⟩, h1)] := by
  simp only [State.placed, State.accesses, hk, hh, List.zip_cons_cons, List.zip_nil_left]

theorem accesses_atomic {op d : Nat} (hk : o.kind = .atomic op d) : s.accesses o = (lanesOf o.active).map fun l => ⟨l, o.ea l, if o.wide l then 8 else 4⟩ := by
  simp only [State.accesses, hk]

theorem placed_atomic_single {op d l : Nat} (hk : o.kind = .atomic op d) (hh : o.hits = [[h]]) (hact : lanesOf o.active = [l]) :
    s.placed o = [(⟨l, o.ea l, if o.wide l then 8 else 4⟩, [h])] := by
  rw [State.placed, accesses_atomic hk, hact, hh]
  rfl

theorem performStore_store {w : Nat} (hk : o.kind = .store w) : performStore s o = doStore s o fun a => o.value a.lane := by simp only [performStore, hk]
theorem performStore_stu {w : Nat} (hk : o.kind = .stu w) : performStore s o = doStore s o fun _ => o.value 0 := by simp only [performStore, hk]
theorem performStore_sxst (hk : o.kind = .sxst) : performStore s o = doStore s o fun a => sxstBlock o a.lane := by simp only [performStore, hk]
theorem replyAtomic_atomic {op d : Nat} (hk : o.kind = .atomic op d) : replyAtomic s o = doAtomic s o op d := by simp only [replyAtomic, hk]

/-- A set's block in the team window goes to the scratchpad. -/
theorem sxst_window (hn : va % 128 + n ≤ 128) (l : Nat) (hattr : h.attr = 3) (hwf : Memory.wf (s.team (s.group o.gid).tid).scratch)
    (ht : t = finishOp (writeAcc s o.gid ⟨l, va, n⟩ [h] x) o) :
    Served s t o ∧ t.mem = s.mem ∧ ∀ a, bget (t.team (s.group o.gid).tid).scratch a =
      if h.pa ≤ a ∧ a < h.pa + n then (leBytes n x).getD (a - h.pa) 0 else bget (s.team (s.group o.gid).tid).scratch a := by
  subst ht
  by_cases h0 : 0 < va % 128 + n
  · have hwrite : writeAcc s o.gid ⟨l, va, n⟩ [h] x = s.modTeam (s.group o.gid).tid fun t => t.swrite h.pa n x := by
      rw [writeAcc_within hn, if_pos h0, writePiece]
      simp only [if_pos hattr]
    rw [hwrite]
    refine ⟨(served_finishOp _ o).after_stage (performKept_modTeam _ _ _), rfl, fun a => ?_⟩
    rw [finishOp_team, team_modTeam, Team.swrite, bget_bputs _ _ _ _ hwf, length_leBytes]
  · have hwrite : writeAcc s o.gid ⟨l, va, n⟩ [h] x = s := by rw [writeAcc_within hn, if_neg h0]
    rw [hwrite]
    refine ⟨served_finishOp s o, rfl, fun a => ?_⟩
    rw [finishOp_team, if_neg (by omega)]

theorem homesServe_holds : homesServe := by
  intro core id s o h l hfind hcore hready hhits
  have hstores (va n x : Nat) (l' : Nat) (f : Acc → Nat) (hperform : performStore s o = doStore s o f) (hplaced : s.placed o = [(⟨l', va, n⟩, [h])])
      (hleft : o.left.getLsbD l' = true ∨ o.kind.isUniform = true) (hx : f ⟨l', va, n⟩ = x) :
      exec (.storePerformed core id) s = .next (finishOp (writeAcc s o.gid ⟨l', va, n⟩ [h] x) o) := by
    rw [exec_storePerformed hfind hready, hperform, doStore_single f hplaced hleft, hx]
  refine ⟨fun w hk hact hleft hn hattr => ?_, fun w hk hn hattr => ?_, fun hk hleft => ?_, fun op d hk hop hact hwide hattr habsent hplain => ?_⟩
  case refine_1 =>
    exact ⟨_, hstores _ _ _ l _ (performStore_store hk) (placed_store_single hk hhits hact) (.inl hleft) rfl, stores_outside hcore hn l hattr rfl⟩
  case refine_2 =>
    exact ⟨_, hstores _ _ _ 0 _ (performStore_stu hk) (placed_stu hk hhits) (.inr (by rw [hk]; rfl)) rfl, stores_outside hcore hn 0 hattr rfl⟩
  case refine_3 =>
    intro n lane block hplaced
    have hexec := hstores _ _ block l _ (performStore_sxst hk) hplaced (.inl hleft) (sxstBlock_eq o l)
    exact ⟨fun hn hattr => ⟨_, hexec, stores_outside hcore hn l hattr rfl⟩, fun hn hattr hwf => ⟨_, hexec, sxst_window hn l hattr hwf rfl⟩⟩
  case refine_4 =>
    generalize hn : (if o.wide l then 8 else 4) = n at hplain ⊢
    have hplaced := placed_atomic_single (s := s) hk hhits hact
    rw [hn] at hplaced
    obtain ⟨htraffic, hmem, hold⟩ := atomicLane_spec (o := o) (a := ⟨l, o.ea l, n⟩) op hattr (hcore ▸ habsent) hplain
    refine ⟨_, (exec_atomicReply hfind hready).trans (congrArg _ ((replyAtomic_atomic hk).trans (doAtomic_eq s o op d))), ?_⟩
    rw [hplaced, List.foldl_cons, List.foldl_nil]
    simp only [atomicStep, List.nil_append]
    obtain ⟨hserved, hu, hp, hq, hv⟩ := reply_kept (op := op) (d := d) (vs := [(l, (atomicLane s o op ⟨l, o.ea l, n⟩ h).2)]) htraffic.performKept rfl
    refine ⟨hserved, htraffic.teams, hu, hp, hq, storedAt_of_mem hplain.2.1 hmem, fun r k hk => ?_⟩
    rw [hv r k hk, laneVal_single, hold]
    have hop8 : o.wide l = true → 8 ≤ op := fun hw => Nat.le_of_not_lt fun hlt => Bool.false_ne_true ((hwide hlt).symm.trans hw)
    by_cases hkl : k = l
    · subst hkl
      have hsecond : (r = d + 1 ∧ 8 ≤ op ∧ o.wide k = true) ↔ (r = d + 1 ∧ o.wide k = true) := ⟨fun h => ⟨h.1, h.2.2⟩, fun h => ⟨h.1, hop8 h.2, h.2⟩⟩
      simp only [hsecond, if_true, true_and, Option.map_some, Option.getD_some]
    · simp only [hkl, if_false, false_and, Option.map_none, Option.getD_none, ite_self]

end Sys2Proof.Machine
end

section
/-! Stores and atomics in the team window (O26): they act on the scratchpad alone, one access after another. -/
namespace Sys2Proof.Machine

variable {s t u : State} {o : LogOp} {base tid : Nat} {m : List Host.Cell} {p : Acc × List Hit}

/-! ## A state with another scratchpad -/

/-- A state differs in the scratchpad of a team alone, which is given. -/
structure Scratched (s t : State) (tid : Nat) (m : List Host.Cell) : Prop where
  rest : t = { s with teams := t.teams }
  others : ∀ j, j ≠ tid → t.team j = s.team j
  team : t.team tid = { s.team tid with scratch := m }

theorem Scratched.refl (s : State) (tid : Nat) : Scratched s s tid (s.team tid).scratch := ⟨rfl, fun _ _ => rfl, rfl⟩

theorem Scratched.group (h : Scratched s t tid m) (gid : Nat) : t.group gid = s.group gid := by rw [h.rest]; rfl

theorem Scratched.performKept (h : Scratched s t tid m) : PerformKept s t := by
  rw [h.rest]
  exact ⟨id, rfl, fun _ => rfl, rfl, rfl, rfl, rfl⟩

theorem Scratched.sread (h : Scratched s t tid m) (off n : Nat) : (t.team tid).sread off n = leNat (bgets m off n) := by rw [h.team]; rfl

theorem Scratched.swrite (h : Scratched s t tid m) (off n x : Nat) :
    Scratched s (t.modTeam tid fun k => k.swrite off n x) tid (bputs m off (leBytes n x)) where
  rest := by rw [h.rest]; rfl
  others j hj := (team_modTeam_ne _ _ _ _ (Ne.symm hj)).trans (h.others j hj)
  team := by rw [team_modTeam, h.team]; rfl

/-- What a later state has of the scratchpad when it keeps memory and teams. -/
theorem Scratched.frame (h : Scratched s u tid m) (hmem : t.mem = u.mem) (hteam : ∀ j, t.team j = u.team j) :
    t.mem = s.mem ∧ (∀ j, j ≠ tid → t.team j = s.team j) ∧ t.team tid = { s.team tid with scratch := (t.team tid).scratch } ∧ (t.team tid).scratch = m := by
  refine ⟨by rw [hmem, h.rest], fun j hj => (hteam j).trans (h.others j hj), ?_, ?_⟩
  · rw [hteam, h.team]
  · rw [hteam, h.team]

/-! ## An access in the window -/

/-- The bytes of some pieces of an access, put at their window offsets one after another. -/
def putPieces (base va x : Nat) (l : List (Nat × Nat)) (m : List Host.Cell) : List Host.Cell :=
  l.foldl (fun m q => bputs m (q.1 - base) (leBytes q.2 (x / 2 ^ (8 * (q.1 - va))))) m

/-- A value put at the window offset of an access. -/
def putAcc (base : Nat) (a : Acc) (x : Nat) (m : List Host.Cell) : List Host.Cell := putPieces base a.va x (pieces a.va a.n) m

/-- A piece of an access: the part that lies in one line. -/
def piece (va n i : Nat) : Nat × Nat :=
  (max va (va / 128 * 128 + 128 * i), min (va + n) (va / 128 * 128 + 128 * (i + 1)) - max va (va / 128 * 128 + 128 * i))

theorem pieces_eq (va n : Nat) : pieces va n = (List.range ((va % 128 + n + 127) / 128)).map (piece va n) := rfl

theorem putPieces_append (base va x : Nat) (l : List (Nat × Nat)) (q : Nat × Nat) (m : List Host.Cell) :
    putPieces base va x (l ++ [q]) m = bputs (putPieces base va x l m) (q.1 - base) (leBytes q.2 (x / 2 ^ (8 * (q.1 - va)))) := by
  rw [putPieces, List.foldl_append]
  rfl

/-- The first j pieces of an access hold its bytes up to the end of line j. -/
theorem bget_putPieces {va n x j : Nat} (hm : Memory.wf m) (hbase : base ≤ va) (hj : j ≤ (va % 128 + n + 127) / 128) :
    Memory.wf (putPieces base va x ((List.range j).map (piece va n)) m) ∧
    ∀ k, bget (putPieces base va x ((List.range j).map (piece va n)) m) k =
      if va - base ≤ k ∧ k < min (va + n) (va / 128 * 128 + 128 * j) - base then BitVec.ofNat 8 (x / 2 ^ (8 * (k - (va - base)))) else bget m k := by
  induction j with
  | zero => exact ⟨hm, fun k => (if_neg (by omega)).symm⟩
  | succ j ih =>
    obtain ⟨hwf, hbytes⟩ := ih (by omega)
    rw [List.range_succ, List.map_append, List.map_singleton, putPieces_append]
    refine ⟨wf_bputs _ _ _ hwf, fun k => ?_⟩
    rw [bget_bputs_leBytes hwf, hbytes, piece]
    simp only []
    by_cases hin : max va (va / 128 * 128 + 128 * j) - base ≤ k ∧
        k < max va (va / 128 * 128 + 128 * j) - base + (min (va + n) (va / 128 * 128 + 128 * (j + 1)) - max va (va / 128 * 128 + 128 * j))
    · have hexp : 8 * (max va (va / 128 * 128 + 128 * j) - va) + 8 * (k - (max va (va / 128 * 128 + 128 * j) - base)) = 8 * (k - (va - base)) := by omega
      rw [if_pos hin, if_pos (by omega), Nat.div_div_eq_div_mul, ← Nat.pow_add, hexp]
    · rw [if_neg hin]
      exact ite_congr (propext (by omega)) (fun _ => rfl) fun _ => rfl

theorem putAcc_wf (hm : Memory.wf m) {a : Acc} (hbase : base ≤ a.va) (x : Nat) : Memory.wf (putAcc base a x m) := by
  rw [putAcc, pieces_eq]
  exact (bget_putPieces hm hbase le_rfl).1

theorem bget_putAcc (hm : Memory.wf m) {a : Acc} (hbase : base ≤ a.va) (x k : Nat) : bget (putAcc base a x m) k =
    if a.va - base ≤ k ∧ k < a.va - base + a.n then BitVec.ofNat 8 (x / 2 ^ (8 * (k - (a.va - base)))) else bget m k := by
  rw [putAcc, pieces_eq, (bget_putPieces hm hbase le_rfl).2]
  exact ite_congr (propext (by omega)) (fun _ => rfl) fun _ => rfl

/-- An access in the window writes the scratchpad. -/
theorem writeAcc_window {gid : Nat} (hp : inWindow base p) (htid : (s.group gid).tid = tid) (ht : Scratched s t tid m) (x : Nat) :
    Scratched s (writeAcc t gid p.1 p.2 x) tid (putAcc base p.1 x m) := by
  obtain ⟨-, -, hhits⟩ := hp
  rw [writeAcc, hhits, putAcc]
  generalize pieces p.1.va p.1.n = l
  induction l generalizing t m with
  | nil => exact ht
  | cons q r ih =>
    have hpiece (y : Nat) (h : Hit) (hattr : h.attr = 3) (hpa : h.pa = q.1 - base) :
        Scratched s (writePiece t gid q.1 q.2 y h) tid (bputs m (q.1 - base) (leBytes q.2 y)) := by
      rw [writePiece]
      simp only [if_pos hattr, ht.group, htid, hpa]
      exact ht.swrite _ _ _
    exact ih (hpiece _ _ rfl rfl)

/-! ## Stores in the window -/

/-- One access of a store: it acts when the operation still owes its lane. -/
def storeStep (o : LogOp) (f : Acc → Nat) (base : Nat) (m : List Host.Cell) (p : Acc × List Hit) : List Host.Cell :=
  if o.left.getLsbD p.1.lane || o.kind.isUniform then putAcc base p.1 (f p.1) m else m

theorem doStore_window (f : Acc → Nat) (hwin : ∀ p ∈ s.placed o, inWindow base p) (htid : (s.group o.gid).tid = tid) :
    ∃ u, doStore s o f = finishOp u o ∧ Scratched s u tid ((s.placed o).foldl (storeStep o f base) (s.team tid).scratch) := by
  refine ⟨_, rfl, ?_⟩
  have hfold (l : List (Acc × List Hit)) (hl : ∀ p ∈ l, inWindow base p) (t : State) (m : List Host.Cell) (ht : Scratched s t tid m) :
      Scratched s (l.foldl (fun t p => if o.left.getLsbD p.1.lane || o.kind.isUniform then writeAcc t o.gid p.1 p.2 (f p.1) else t) t) tid
        (l.foldl (storeStep o f base) m) := by
    induction l generalizing t m with
    | nil => exact ht
    | cons p r ih =>
      obtain ⟨hp, hr⟩ := List.forall_mem_cons.mp hl
      refine ih hr _ _ ?_
      rw [storeStep]
      beta_reduce
      split
      · exact writeAcc_window hp htid ht _
      · exact ht
  exact hfold _ hwin _ _ (.refl s tid)

/-- Of a store the bytes of the last access that covers an offset remain. -/
theorem bget_stores {f : Acc → Nat} (hm : Memory.wf m) (l : List (Acc × List Hit)) (hl : ∀ p ∈ l, inWindow base p) :
    Memory.wf (l.foldl (storeStep o f base) m) ∧ ∀ k, bget (l.foldl (storeStep o f base) m) k =
      ((l.reverse.find? fun p => (o.left.getLsbD p.1.lane || o.kind.isUniform) && coversOff base p k).map fun p =>
        BitVec.ofNat 8 (f p.1 / 2 ^ (8 * (k - (p.1.va - base))))).getD (bget m k) := by
  induction l using List.reverseRecOn with
  | nil => exact ⟨hm, fun _ => rfl⟩
  | append_singleton l p ih =>
    obtain ⟨hwf, hbytes⟩ := ih fun q hq => hl q (List.mem_append_left _ hq)
    obtain ⟨hbase, -, -⟩ := hl p (List.mem_append_right _ (List.mem_singleton_self p))
    rw [List.foldl_append, List.foldl_cons, List.foldl_nil, List.reverse_append, List.reverse_singleton, List.singleton_append]
    rw [storeStep]
    by_cases hown : (o.left.getLsbD p.1.lane || o.kind.isUniform) = true
    · rw [if_pos hown]
      refine ⟨putAcc_wf hwf hbase _, fun k => ?_⟩
      rw [bget_putAcc hwf hbase, hbytes, List.find?_cons, hown, Bool.true_and, coversOff, ← Bool.decide_and]
      by_cases hin : p.1.va - base ≤ k ∧ k < p.1.va - base + p.1.n
      · rw [if_pos hin, decide_eq_true hin]
        rfl
      · rw [if_neg hin, decide_eq_false hin]
    · rw [if_neg hown]
      refine ⟨hwf, fun k => ?_⟩
      rw [hbytes, List.find?_cons, Bool.eq_false_iff.mpr hown, Bool.false_and]

/-- Finishing an operation after a change of the scratchpad: what windowServes says of every store. -/
theorem store_kept (hu : Scratched s u tid m) (ht : t = finishOp u o) :
    (Served s t o ∧ t.mem = s.mem ∧ (∀ j, j ≠ tid → t.team j = s.team j) ∧ t.team tid = { s.team tid with scratch := (t.team tid).scratch } ∧
      SameP (s.group o.gid) (t.group o.gid) never ∧ SameU (s.group o.gid) (t.group o.gid) never ∧ (t.group o.gid).uq = (s.group o.gid).uq) ∧
    SameV (s.group o.gid) (t.group o.gid) never ∧ (t.team tid).scratch = m := by
  subst ht
  obtain ⟨hmem, hothers, hteam, hscratch⟩ := hu.frame (t := finishOp u o) rfl fun _ => rfl
  obtain ⟨hv, hp, hureg, hq⟩ := hu.group o.gid ▸ finishOp_regsKept u o
  exact ⟨⟨(served_finishOp u o).after_stage hu.performKept, hmem, hothers, hteam, hp, hureg, hq⟩, hv, hscratch⟩

/-! ## Atomics in the window -/

/-- One lane's atomic on the scratchpad. -/
def windowRmw (o : LogOp) (op base : Nat) (m : List Host.Cell) (p : Acc × List Hit) : List Host.Cell :=
  bputs m (p.1.va - base) (leBytes p.1.n (laneNew o op p.1 (leNat (bgets m (p.1.va - base) p.1.n))))

/-- The old value that each access finds, by lane. -/
def windowOlds (o : LogOp) (op base : Nat) : List (Acc × List Hit) → List Host.Cell → List (Nat × Nat)
  | [], _ => []
  | p :: r, m => (p.1.lane, leNat (bgets m (p.1.va - base) p.1.n)) :: windowOlds o op base r (windowRmw o op base m p)

theorem atomicLane_window {a : Acc} {h : Hit} (op : Nat) (hattr : h.attr = 3) : atomicLane s o op a h =
    (s.modTeam (s.group o.gid).tid fun k => k.swrite h.pa a.n (laneNew o op a ((s.team (s.group o.gid).tid).sread h.pa a.n)),
      (s.team (s.group o.gid).tid).sread h.pa a.n) := by
  unfold atomicLane
  simp only [if_pos hattr, atomicNew_eq]
  rfl

theorem atomicStep_window {op : Nat} {vs : List (Nat × Nat)} (hp : inWindow base p) (hn : 0 < p.1.n) (htid : (s.group o.gid).tid = tid) (ht : Scratched s t tid m) :
    Scratched s (atomicStep o op (t, vs) p).1 tid (windowRmw o op base m p) ∧
      (atomicStep o op (t, vs) p).2 = vs ++ [(p.1.lane, leNat (bgets m (p.1.va - base) p.1.n))] := by
  obtain ⟨-, -, hhits⟩ := hp
  obtain ⟨k, r, hpieces⟩ := pieces_head (va := p.1.va) hn
  rw [hpieces, List.map_cons] at hhits
  simp only [atomicStep, hhits]
  rw [atomicLane_window op rfl, ht.group, htid, ht.sread]
  exact ⟨ht.swrite _ _ _, rfl⟩

theorem atomics_window {op : Nat} (htid : (s.group o.gid).tid = tid) (l : List (Acc × List Hit)) (hl : ∀ p ∈ l, inWindow base p ∧ 0 < p.1.n)
    (ht : Scratched s t tid m) (vs : List (Nat × Nat)) :
    Scratched s (l.foldl (atomicStep o op) (t, vs)).1 tid (l.foldl (windowRmw o op base) m) ∧
      (l.foldl (atomicStep o op) (t, vs)).2 = vs ++ windowOlds o op base l m := by
  induction l generalizing t m vs with
  | nil => exact ⟨ht, (List.append_nil vs).symm⟩
  | cons p r ih =>
    obtain ⟨⟨hp, hn⟩, hr⟩ := List.forall_mem_cons.mp hl
    obtain ⟨hstep, holds⟩ := atomicStep_window (op := op) (vs := vs) hp hn htid ht
    obtain ⟨hrest, hvs⟩ := ih hr hstep (atomicStep o op (t, vs) p).2
    refine ⟨hrest, hvs.trans ?_⟩
    rw [holds, List.append_assoc]
    rfl

theorem laneVal_windowOlds_none {op k : Nat} (l : List (Acc × List Hit)) (hk : k ∉ l.map fun p => p.1.lane) (m : List Host.Cell) :
    laneVal (windowOlds o op base l m) k = none := by
  induction l generalizing m with
  | nil => rfl
  | cons p r ih =>
    rw [List.map_cons, List.mem_cons, not_or] at hk
    rw [laneVal, windowOlds, List.find?_cons, beq_eq_false_iff_ne.mpr (Ne.symm hk.1)]
    exact ih hk.2 _

/-- Each lane finds what the accesses before its own have left. -/
theorem laneVal_windowOlds {op i : Nat} (l : List (Acc × List Hit)) (hnodup : (l.map fun p => p.1.lane).Nodup) (hi : l[i]? = some p) (m : List Host.Cell) :
    laneVal (windowOlds o op base l m) p.1.lane = some (leNat (bgets ((l.take i).foldl (windowRmw o op base) m) (p.1.va - base) p.1.n)) := by
  induction l generalizing i m with
  | nil => exact absurd hi (by simp)
  | cons q r ih =>
    rw [List.map_cons, List.nodup_cons] at hnodup
    rw [laneVal, windowOlds, List.find?_cons]
    cases i with
    | zero =>
      obtain rfl : q = p := by simpa using hi
      rw [beq_self_eq_true]
      rfl
    | succ i =>
      rw [List.getElem?_cons_succ] at hi
      have hne : q.1.lane ≠ p.1.lane := fun h => hnodup.1 (h ▸ List.mem_map_of_mem (List.mem_of_getElem? hi))
      rw [beq_eq_false_iff_ne.mpr hne]
      exact ih hnodup.2 hi _

/-- The accesses of an atomic that are placed belong to different active lanes. -/
theorem placed_atomic_lanes {op d : Nat} (hk : o.kind = .atomic op d) : ((s.placed o).map fun p => p.1.lane).Sublist (lanesOf o.active) := by
  have hzip (l : List Nat) (f : Nat → Acc) (hf : ∀ x, (f x).lane = x) (hs : List (List Hit)) : (((l.map f).zip hs).map fun p => p.1.lane).Sublist l := by
    induction l generalizing hs with
    | nil => exact List.Sublist.refl _
    | cons x r ih =>
      cases hs with
      | nil => exact List.nil_sublist _
      | cons h t =>
        rw [List.map_cons, List.zip_cons_cons, List.map_cons, hf]
        exact (ih t).cons_cons x
  rw [State.placed, accesses_atomic hk]
  exact hzip _ _ (fun _ => rfl) _

theorem placed_atomic_size {op d : Nat} (hk : o.kind = .atomic op d) (hp : p ∈ s.placed o) : 0 < p.1.n := by
  have hacc : p.1 ∈ s.accesses o := (List.of_mem_zip (b := p.2) hp).1
  rw [accesses_atomic hk] at hacc
  obtain ⟨l, -, hl⟩ := List.mem_map.mp hacc
  rw [← hl]
  show 0 < if o.wide l = true then 8 else 4
  split <;> decide

/-! ## What the window serves -/

theorem windowServes_holds : windowServes := by
  intro core id s o base hfind _ hready tid hwin hwf
  refine ⟨fun w hk => ?_, fun w hk hhits => ?_, fun op d hk _ _ _ => ?_⟩
  case refine_1 =>
    obtain ⟨u, hu, hS⟩ := doStore_window (fun a => o.value a.lane) hwin (rfl : (s.group o.gid).tid = tid)
    obtain ⟨hkept, hv, hscratch⟩ := store_kept (o := o) hS rfl
    refine ⟨finishOp u o, by rw [exec_storePerformed hfind hready, performStore_store hk, hu], hkept, hv, fun k => ?_⟩
    have hown (b : Bool) : (b || o.kind.isUniform) = b := by rw [hk]; exact Bool.or_false b
    rw [hscratch, (bget_stores hwf _ hwin).2]
    simp only [hown]
    split
    · rename_i h
      rw [h]
      rfl
    · rename_i h
      rw [h]
      rfl
  case refine_2 =>
    obtain ⟨h1, r, hh⟩ := List.exists_cons_of_ne_nil hhits
    have hplaced := placed_stu (s := s) hk hh
    obtain ⟨u, hu, hS⟩ := doStore_window (fun _ => o.value 0) hwin (rfl : (s.group o.gid).tid = tid)
    obtain ⟨hkept, hv, hscratch⟩ := store_kept (o := o) hS rfl
    refine ⟨finishOp u o, by rw [exec_storePerformed hfind hready, performStore_stu hk, hu], hkept, hv, fun k => ?_⟩
    have hown : (o.left.getLsbD 0 || o.kind.isUniform) = true := by rw [hk]; exact Bool.or_true _
    obtain ⟨hbase, -, -⟩ := hwin _ (hplaced ▸ List.mem_singleton_self _)
    rw [hscratch, hplaced, List.foldl_cons, List.foldl_nil, storeStep, if_pos hown]
    exact bget_putAcc hwf hbase _ _
  case refine_3 =>
    have hl (p : Acc × List Hit) (hp : p ∈ s.placed o) : inWindow base p ∧ 0 < p.1.n := ⟨hwin p hp, placed_atomic_size hk hp⟩
    obtain ⟨hS, hvs⟩ := atomics_window (op := op) (rfl : (s.group o.gid).tid = tid) (s.placed o) hl (.refl s tid) []
    have hlanes := placed_atomic_lanes (s := s) hk
    have hnodup : ((s.placed o).map fun p => p.1.lane).Nodup := hlanes.nodup ((lanesOf_sorted o.active).imp Nat.ne_of_lt)
    have hactive (l : Nat) (hmem : l ∈ lanesOf o.active) : l < 256 ∧ o.active.getLsbD l = true := ⟨lt_of_mem_lanesOf hmem, (List.mem_filter.mp hmem).2⟩
    obtain ⟨hserved, hu, hp, hq, hregs⟩ := reply_kept (o := o) (op := op) (d := d) (vs := windowOlds o op base (s.placed o) (s.team tid).scratch) hS.performKept rfl
    obtain ⟨hmem, hothers, hteam, hscratch⟩ := hS.frame (t := (finishOp _ o).modGroup o.gid _) rfl fun _ => rfl
    refine ⟨_, ?_, ⟨hserved, hmem, hothers, hteam, hp, hu, hq⟩, hscratch, fun i p hi => ?_, fun n l hl hcase => ?_⟩
    · rw [exec_atomicReply hfind hready, replyAtomic_atomic hk, doAtomic_eq, hvs, List.nil_append]
    · have hval := laneVal_windowOlds (o := o) (op := op) (base := base) _ hnodup hi (s.team tid).scratch
      obtain ⟨hlt, -⟩ := hactive _ (hlanes.subset (List.mem_map_of_mem (List.mem_of_getElem? hi)))
      refine ⟨?_, fun hwide hop8 => ?_⟩
      · rw [hregs _ _ hlt, if_pos rfl, hval]
        rfl
      · rw [hregs _ _ hlt, if_neg (Nat.succ_ne_self d), if_pos ⟨rfl, hop8, hwide⟩, hval]
        rfl
    · rw [hregs _ _ hl]
      rcases hcase with hoff | ⟨hnd, hhigh⟩
      · have hnone : l ∉ (s.placed o).map fun p => p.1.lane := fun h => Bool.false_ne_true (hoff.symm.trans (hactive l (hlanes.subset h)).2)
        simp only [laneVal_windowOlds_none _ hnone, Option.map_none, Option.getD_none, ite_self]
      · rw [if_neg hnd, if_neg]
        rintro ⟨hn, hop8, hwide⟩
        rcases hhigh with hne | hnarrow | hlow
        · exact hne hn
        · exact Bool.false_ne_true (hnarrow.symm.trans hwide)
        · omega

end Sys2Proof.Machine

namespace Sys2Proof
open Machine

/-- Settles O26: the accesses of an operation change the scratchpad one after another, and each lane of an atomic finds what the earlier ones left; outside the
window the one access changes a line of the L1 or bytes of a home. -/
theorem storesAndAtomicsPerform : Obligations.StoresAndAtomicsPerform := by
  unfold Obligations.StoresAndAtomicsPerform
  exact ⟨windowServes_holds, homesServe_holds⟩

end Sys2Proof
end

section
/-! Standing slots and their tables (06): what a table holds after a change of one entry, the slot of a directory, subscriptions at their homes, and pushes that are
refused or taken (O34, O37). -/
namespace Sys2Proof.Machine

variable {s t : State} {p : Push} {d : DirSlot} {tid off : Nat}

/-! ## Entries of a table -/

theorem sfind_eq_none {α : Type} {m : Sparse α} {i : Nat} : sfind m i = none ↔ i ∉ m.map (·.1) := by
  induction m with
  | nil => exact ⟨fun _ => List.not_mem_nil, fun _ => rfl⟩
  | cons e r ih =>
    obtain ⟨k, v⟩ := e
    rw [sfind, List.map_cons, List.mem_cons, not_or, ← ih]
    split
    · rename_i h
      exact ⟨fun e => absurd e (Option.some_ne_none v), fun e => absurd h.symm e.1⟩
    · rename_i h
      exact ⟨fun e => ⟨Ne.symm h, e⟩, And.right⟩

/-- Changing the entries of one key. -/
theorem sfind_map_at {α : Type} (m : Sparse α) (i : Nat) (f : α → α) : sfind (m.map fun e => if e.1 = i then (e.1, f e.2) else e) i = (sfind m i).map f := by
  induction m with
  | nil => rfl
  | cons e r ih =>
    obtain ⟨k, v⟩ := e
    by_cases h : k = i
    · simp only [List.map_cons, if_pos h, sfind, Option.map_some]
    · simp only [List.map_cons, if_neg h, sfind, ih]

theorem sfind_sput {α : Type} (m : Sparse α) (i j : Nat) (x : α) : sfind (sput m i x) j = if i = j then some x else sfind m j := by
  induction m with
  | nil => rfl
  | cons e r ih =>
    obtain ⟨k, v⟩ := e
    rw [sput]
    split
    · rfl
    · split
      · subst_vars
        simp only [sfind]
        split <;> rfl
      · rename_i hlt hne
        simp only [sfind, ih]
        by_cases hk : k = j
        · rw [if_pos hk, if_pos hk, if_neg (by omega)]
        · rw [if_neg hk, if_neg hk]

/-- In a table with rising keys a removed key is unlisted. -/
theorem sfind_sdel_self {α : Type} {m : Sparse α} (h : (m.map (·.1)).Pairwise (· < ·)) (i : Nat) : sfind (sdel m i) i = none := by
  rw [sfind_eq_none]
  induction m with
  | nil => exact List.not_mem_nil
  | cons e r ih =>
    obtain ⟨k, v⟩ := e
    obtain ⟨hk, hr⟩ := List.pairwise_cons.mp h
    rw [sdel]
    split
    · rename_i hik
      rw [List.map_cons, List.mem_cons, not_or]
      exact ⟨Nat.ne_of_lt hik, fun hi => Nat.lt_asymm hik (hk i hi)⟩
    · split
      · rename_i hik
        exact fun hi => Nat.lt_irrefl i (hik ▸ hk i hi)
      · rename_i hik
        rw [List.map_cons, List.mem_cons, not_or]
        exact ⟨hik, ih hr⟩

/-- The free index of a table with rising keys is unlisted. -/
theorem sfind_freeIdx {α : Type} {m : Sparse α} (h : (m.map (·.1)).Pairwise (· < ·)) : sfind m (freeIdx 0 m) = none := by
  have hfree (i : Nat) (r : Sparse α) (hr : (r.map (·.1)).Pairwise (· < ·)) (hi : ∀ k ∈ r.map (·.1), i ≤ k) : i ≤ freeIdx i r ∧ freeIdx i r ∉ r.map (·.1) := by
    induction r generalizing i with
    | nil => exact ⟨le_rfl, List.not_mem_nil⟩
    | cons e r ih =>
      obtain ⟨k, v⟩ := e
      obtain ⟨hk, hr⟩ := List.pairwise_cons.mp hr
      have hki : i ≤ k := hi k List.mem_cons_self
      rw [freeIdx, List.map_cons, List.mem_cons, not_or]
      split
      · rename_i hik
        obtain ⟨hle, hnot⟩ := ih (i + 1) hr fun j hj => by have := hk j hj; dsimp only at this; omega
        exact ⟨by omega, by omega, hnot⟩
      · rename_i hik
        exact ⟨le_rfl, Ne.symm hik, fun hj => by have := hk i hj; dsimp only at this; omega⟩
  exact sfind_eq_none.mpr (hfree 0 m h fun _ _ => Nat.zero_le _).2

/-! ## Slots of a directory (R168) -/

/-- A change of a core that leaves the directory alone changes no slot. -/
theorem dirSlot_modCore (s : State) (c : Nat) (f : Core → Core) (hf : ∀ k, (f k).directory = k.directory) (tid off : Nat) :
    (s.modCore c f).dirSlot tid off = s.dirSlot tid off := by
  rw [State.dirSlot, State.dirSlot]
  by_cases h : c = tid / 32
  · rw [h, core_modCore, hf]
  · rw [core_modCore_ne _ _ _ _ h]

theorem dirSlot_modSlot (s : State) (tid off : Nat) {f : DirSlot → DirSlot} (hf : ∀ d, (f d).tid = d.tid ∧ (f d).off = d.off) :
    (s.modSlot tid off f).dirSlot tid off = (s.dirSlot tid off).map f := by
  rw [State.dirSlot, State.dirSlot, State.modSlot, core_modCore]
  induction (s.core (tid / 32)).directory with
  | nil => rfl
  | cons x r ih =>
    rw [List.map_cons, List.find?_cons, List.find?_cons]
    by_cases hx : x.tid = tid ∧ x.off = off
    · have hhit : ((x.tid == tid) && x.off == off) = true := by rw [hx.1, hx.2, beq_self_eq_true, beq_self_eq_true]; rfl
      rw [if_pos hx, (hf x).1, (hf x).2, hhit]
      rfl
    · have hmiss : ((x.tid == tid) && x.off == off) = false := by simpa only [Bool.and_eq_false_iff, beq_eq_false_iff_ne, not_and_or] using hx
      rw [if_neg hx, hmiss]
      exact ih

/-- A slot that is freed has no entry (R168). -/
theorem dirSlot_freeSlot (s : State) (tid off : Nat) : (s.freeSlot tid off).dirSlot tid off = none := by
  rw [State.dirSlot, State.freeSlot, core_modCore, List.find?_eq_none]
  intro x hx
  simpa only [Bool.not_eq_true', Bool.not_eq_true] using (List.mem_filter.mp hx).2

/-! ## Subscriptions at their homes (R170) -/

theorem sfind_modSub (s : State) (home idx : Nat) (f : Sub → Sub) : sfind ((s.modSub home idx f).home home).subs idx = (sfind (s.home home).subs idx).map f := by
  rw [State.modSub, home_modHome]
  exact sfind_map_at _ _ _

/-- Changing a subscription changes no sequence number. -/
theorem modSub_seqs (s : State) (home idx : Nat) (f : Sub → Sub) (k : Nat) : ((s.modSub home idx f).home k).seqs = (s.home k).seqs := by
  rw [State.modSub]
  by_cases h : home = k
  · rw [h, home_modHome]
  · rw [home_modHome_ne _ _ _ _ h]

/-! ## A push that is refused (R176) -/

/-- What refusing a push does at its core. -/
def refuseAt (s : State) (p : Push) : State :=
  (s.modSlot p.tid p.off closeSlot).modCore p.core fun k =>
    { k with refusedHomes := if k.refusedHomes.contains p.home then k.refusedHomes else k.refusedHomes ++ [p.home] }

theorem refusePush_eq (s : State) (p : Push) : refusePush s p = (refuseAt s p).modHub fun h => { h with refusals := h.refusals ++ [p] } := rfl

theorem refuseAt_slot (hslot : s.dirSlot p.tid p.off = some d) : (refuseAt s p).dirSlot p.tid p.off = some (closeSlot d) := by
  rw [refuseAt, dirSlot_modCore, dirSlot_modSlot, hslot]
  · rfl
  · exact fun _ => ⟨rfl, rfl⟩
  · exact fun _ => rfl

theorem refuseAt_core (s : State) (hcore : p.core = p.tid / 32) :
    ((refuseAt s p).core p.core).inbox = (s.core p.core).inbox ∧ p.home ∈ ((refuseAt s p).core p.core).refusedHomes := by
  rw [refuseAt, core_modCore, State.modSlot, ← hcore, core_modCore]
  refine ⟨rfl, ?_⟩
  dsimp only
  split
  · rename_i h
    exact List.contains_iff_mem.mp h
  · exact List.mem_append_right _ (List.mem_singleton_self _)

/-! ## A push that is taken (R176) -/

theorem acceptPush_inbox (s : State) (p : Push) (inbox : List Push) : ((acceptPush s p inbox).core p.core).inbox = inbox := by
  rw [acceptPush, State.modSub, core_modHome, core_modCore]

theorem acceptPush_slot (s : State) (p : Push) (inbox : List Push) (tid off : Nat) : (acceptPush s p inbox).dirSlot tid off = s.dirSlot tid off :=
  dirSlot_modCore s p.core (fun k => { k with inbox := inbox }) (fun _ => rfl) tid off

/-- Coalescing changes one entry, for the slot of the push and not yet begun. -/
theorem coalesce_entry {inbox : List Push} (h : inbox.any p.entryFor = true) :
    ∃ (i : Nat) (q : Push), inbox[i]? = some q ∧ p.entryFor q = true ∧
      (coalesce p inbox)[i]? = some { q with value := p.value, seq := p.seq, count := min 15 (q.count + p.count + 1), regions := q.regions ++ p.regions } ∧
      (coalesce p inbox).length = inbox.length ∧ ∀ j, j ≠ i → (coalesce p inbox)[j]? = inbox[j]? := by
  unfold coalesce
  dsimp only
  split
  · rename_i i hlast
    obtain ⟨hrange, hentry⟩ := List.mem_filter.mp (List.mem_of_getLast? hlast)
    have hi : inbox[i]? = some (inbox[i]'(List.mem_range.mp hrange)) := List.getElem?_eq_getElem _
    simp only [hi] at hentry
    refine ⟨i, _, hi, hentry, ?_, List.length_mapIdx, fun j hj => ?_⟩
    · rw [List.getElem?_mapIdx, hi, Option.map_some, if_pos rfl]
    · rw [List.getElem?_mapIdx]
      simp only [if_neg hj, Option.map_id']
  · rename_i hnone
    obtain ⟨q, hq, hentry⟩ := List.any_eq_true.mp h
    obtain ⟨j, hlt, rfl⟩ := List.mem_iff_getElem.mp hq
    have hmiss := List.filter_eq_nil_iff.mp (List.getLast?_eq_none_iff.mp hnone) j (List.mem_range.mpr hlt)
    simp only [List.getElem?_eq_getElem hlt] at hmiss
    exact absurd hentry hmiss

/-! ## Arrivals (R176) -/

theorem entryFor_iff {q : Push} : p.entryFor q = true ↔ q.sameSlot p = true ∧ q.begun = false := by
  rw [Push.entryFor, Bool.and_eq_true, Bool.not_eq_true']

theorem arrivePush_refused (hslot : s.dirSlot p.tid p.off = some d)
    (h : d.refuses = true ∨ s.swapped p.tid = true ∨ (¬ (s.core p.core).inbox.length < 64 ∧ ¬ ∃ q ∈ (s.core p.core).inbox, q.sameSlot p = true ∧ q.begun = false)) :
    arrivePush s p = refusePush s p := by
  simp only [arrivePush, hslot]
  by_cases hclosed : d.refuses = true ∨ s.swapped p.tid = true
  · rw [if_pos hclosed]
  · obtain ⟨hroom, hheld⟩ : _ ∧ _ := (or_assoc.mpr h).resolve_left hclosed
    have hany : ¬ (s.core p.core).inbox.any p.entryFor = true := fun hany => by
      obtain ⟨q, hq, hentry⟩ := List.any_eq_true.mp hany
      exact hheld ⟨q, hq, entryFor_iff.mp hentry⟩
    rw [if_neg hclosed, if_neg hroom, if_neg hany]

theorem arrivePush_room (hslot : s.dirSlot p.tid p.off = some d) (hopen : ¬ d.refuses = true) (hhere : ¬ s.swapped p.tid = true)
    (hroom : (s.core p.core).inbox.length < 64) : arrivePush s p = acceptPush s p ((s.core p.core).inbox ++ [p]) := by
  simp only [arrivePush, hslot]
  rw [if_neg (not_or.mpr ⟨hopen, hhere⟩), if_pos hroom]

theorem arrivePush_full (hslot : s.dirSlot p.tid p.off = some d) (hopen : ¬ d.refuses = true) (hhere : ¬ s.swapped p.tid = true)
    (hroom : ¬ (s.core p.core).inbox.length < 64) (hany : (s.core p.core).inbox.any p.entryFor = true) :
    arrivePush s p = acceptPush s p (coalesce p (s.core p.core).inbox) := by
  simp only [arrivePush, hslot]
  rw [if_neg (not_or.mpr ⟨hopen, hhere⟩), if_neg hroom, if_pos hany]

theorem exec_pushArrival {n : Nat} (hfirst : s.firstPush n = some p) (hnew : p.redelivery = false) :
    exec (.pushArrival n) s = .next (arrivePush (s.dropPush n) p) := by
  have he : exec (.pushArrival n) s = execPushArrival n s := rfl
  rw [he, execPushArrival, hfirst]
  simp only [hnew, Bool.false_eq_true, if_false]

theorem pushArrivals_holds : pushArrivals := by
  intro n s p d hfirst hnew hslot hcore inbox room held refuses
  have hslot' : (s.dropPush n).dirSlot p.tid p.off = some d := hslot
  refine ⟨_, exec_pushArrival hfirst hnew, ?_⟩
  by_cases hrefuses : refuses
  · have hstate : arrivePush (s.dropPush n) p = refusePush (s.dropPush n) p := arrivePush_refused hslot' hrefuses
    obtain ⟨hinbox, hhome⟩ := refuseAt_core (s.dropPush n) hcore
    rw [hstate, refusePush_eq]
    refine ⟨rfl, rfl, rfl, rfl, rfl, fun _ => ⟨hinbox, rfl, hhome, rfl, closeSlot d, refuseAt_slot hslot', rfl, rfl⟩, fun h => absurd hrefuses h⟩
  · obtain ⟨hopen, hrest⟩ := not_or.mp hrefuses
    obtain ⟨hhere, hroom⟩ := not_or.mp hrest
    by_cases hr : room
    · have hstate : arrivePush (s.dropPush n) p = acceptPush (s.dropPush n) p (inbox ++ [p]) := arrivePush_room hslot' hopen hhere hr
      rw [hstate]
      refine ⟨rfl, rfl, rfl, rfl, rfl, fun h => absurd h hrefuses, fun _ => ⟨rfl, ?_, fun _ => acceptPush_inbox _ _ _, fun h => absurd hr h⟩⟩
      rw [acceptPush_slot, hslot']
    · have hheld : held := not_not.mp fun h => hroom ⟨hr, h⟩
      have hany : inbox.any p.entryFor = true := by
        obtain ⟨q, hq, hentry⟩ := hheld
        exact List.any_eq_true.mpr ⟨q, hq, entryFor_iff.mpr hentry⟩
      have hstate : arrivePush (s.dropPush n) p = acceptPush (s.dropPush n) p (coalesce p inbox) := arrivePush_full hslot' hopen hhere hr hany
      obtain ⟨i, q, hq, hentry, hnewq, hlength, hothers⟩ := coalesce_entry hany
      obtain ⟨hsame, hbegun⟩ := entryFor_iff.mp hentry
      rw [hstate]
      refine ⟨rfl, rfl, rfl, rfl, rfl, fun h => absurd h hrefuses, fun _ => ⟨rfl, ?_, fun h => absurd h hr, fun _ => ?_⟩⟩
      · rw [acceptPush_slot, hslot']
      · rw [acceptPush_inbox]
        exact ⟨hlength, i, q, _, hq, hsame, hbegun, hnewq, rfl, rfl, rfl, hothers⟩

end Sys2Proof.Machine
end

section
/-! Deliveries (O37), and refusals and redeliveries (O34). -/
namespace Sys2Proof.Machine

variable {s t : State} {p : Push} {d : DirSlot} {x : Sub} {tid off core home n : Nat}

/-! ## A delivery (R169, R175, R178) -/

theorem traffic_prepareSlot (s : State) (p : Push) : Traffic s (prepareSlot s p) := by
  unfold prepareSlot
  split
  · exact .refl s
  · exact .ite (traffic_cleanLines _ _ _ _) (.refl s)

/-- Traffic leaves the slots of every directory alone. -/
theorem Traffic.dirSlot (h : Traffic s t) (tid off : Nat) : t.dirSlot tid off = s.dirSlot tid off := by
  rw [State.dirSlot, State.dirSlot, h.cores]

theorem Traffic.inbox (h : Traffic s t) (k : Nat) : (t.core k).inbox = (s.core k).inbox := by rw [h.cores]

theorem Traffic.team (h : Traffic s t) (j : Nat) : t.team j = s.team j := by rw [State.team, h.teams, State.team]

/-- Before the delivery to an acquiring slot the L1 of the core that subscribed drops what the push names. -/
theorem prepareSlot_l1 (hslot : s.dirSlot p.tid p.off = some d) (hacq : d.acq = true) :
    ∀ y ∈ ((prepareSlot s p).core (s.group d.gid).core).l1, ∀ r ∈ p.regions, y.inRanges r.1 (s.vmid p.tid) [(r.2.1, r.2.2)] = false := by
  intro y hy r hr
  simp only [prepareSlot, hslot, hacq, if_true, cleanLines_l1] at hy
  have hkept := (List.mem_filter.mp hy).2
  rw [Bool.not_eq_true', List.any_eq_false] at hkept
  exact Bool.eq_false_iff.mpr (hkept r hr)

theorem prepareSlot_plain (hslot : s.dirSlot p.tid p.off = some d) (hplain : d.acq = false) : prepareSlot s p = s := by
  simp only [prepareSlot, hslot, hplain, Bool.false_eq_true, if_false]

/-- A push that names nothing cleans nothing. -/
theorem prepareSlot_mem (hnone : p.regions = []) : (prepareSlot s p).mem = s.mem := by
  unfold prepareSlot
  split
  · rfl
  · split
    · simp only [cleanLines, hnone, List.any_nil, List.filter_false, List.foldl_nil, modCore_mem]
    · rfl

/-- The writing of a push to its slot, which is no longer to be prepared. -/
def putPush (s : State) (p : Push) (d : DirSlot) : State :=
  (writeSlot s p.tid p.off (slotBits p.value p.seq p.count d.acq true false false)).modSlot p.tid p.off fun y =>
    { y with value := p.value, seq := p.seq, count := p.count }

theorem deliverPush_eq (hslot : s.dirSlot p.tid p.off = some d) : deliverPush s p = putPush (if p.begun then s else prepareSlot s p) p d := by
  simp only [deliverPush, hslot]
  rfl

theorem putPush_slot (hslot : s.dirSlot p.tid p.off = some d) (e : DirSlot) :
    (putPush s p e).dirSlot p.tid p.off = some { d with value := p.value, seq := p.seq, count := p.count } := by
  have hwrite : (writeSlot s p.tid p.off (slotBits p.value p.seq p.count e.acq true false false)).dirSlot p.tid p.off = some d := hslot
  rw [putPush, dirSlot_modSlot, hwrite]
  · rfl
  · exact fun _ => ⟨rfl, rfl⟩

theorem modSlot_core (s : State) (tid off : Nat) (f : DirSlot → DirSlot) (k : Nat) : (s.modSlot tid off f).core k = { s.core k with directory := ((s.modSlot tid off f).core k).directory } := by
  rw [State.modSlot]
  by_cases h : tid / 32 = k
  · rw [h, core_modCore]
  · rw [core_modCore_ne _ _ _ _ h]

theorem putPush_core (s : State) (p : Push) (d : DirSlot) (k : Nat) : (putPush s p d).core k = { s.core k with directory := ((putPush s p d).core k).directory } :=
  modSlot_core (writeSlot s p.tid p.off (slotBits p.value p.seq p.count d.acq true false false)) p.tid p.off _ k

theorem putPush_team (s : State) (p : Push) (d : DirSlot) (j : Nat) :
    (putPush s p d).team j = (writeSlot s p.tid p.off (slotBits p.value p.seq p.count d.acq true false false)).team j := rfl

/-- The bits of a slot at a delivery (R167). -/
theorem slotBits_delivered (value : DWord) (seq : BitVec 16) (count : Nat) (acq : Bool) :
    slotBits value seq count acq true false false = value.toNat + seq.toNat * 2 ^ 64 + min count 15 * 2 ^ 80 + acq.toNat * 2 ^ 86 + 2 ^ 87 := by
  have hsum (a b c q r e f : Nat) : a + b + c + false.toNat * q + false.toNat * r + e + true.toNat * f = a + b + c + e + f := by
    simp only [Bool.toNat_false, Bool.toNat_true, Nat.zero_mul, Nat.add_zero, Nat.one_mul]
  exact hsum _ _ _ _ _ _ _

theorem team_writeSlot (s : State) (tid off x : Nat) : (writeSlot s tid off x).team tid = (s.team tid).swrite off 16 x := team_modTeam _ _ _

theorem team_writeSlot_ne (s : State) {tid j : Nat} (off x : Nat) (h : tid ≠ j) : (writeSlot s tid off x).team j = s.team j := team_modTeam_ne _ _ _ _ h

/-- The bytes of the scratchpad after a slot is written (R169). -/
theorem bget_writeSlot (s : State) (hwf : Memory.wf (s.team tid).scratch) (off x k : Nat) : bget ((writeSlot s tid off x).team tid).scratch k =
    if off ≤ k ∧ k < off + 16 then BitVec.ofNat 8 (x / 2 ^ (8 * (k - off))) else bget (s.team tid).scratch k := by
  rw [team_writeSlot]
  exact bget_bputs_leBytes hwf _ _ _ _

theorem exec_inboxDelivery (core : Nat) (s : State) : exec (.inboxDelivery core) s = execInboxDelivery core s := rfl

/-- A delivery that must clean first. -/
theorem inboxDelivery_prepares {rest : List Push} (hinbox : (s.core core).inbox = p :: rest) (hslot : s.dirSlot p.tid p.off = some d) (hbegun : p.begun = false)
    (hregions : p.regions ≠ []) : exec (.inboxDelivery core) s = .next ((prepareSlot s p).modCore core fun k => { k with inbox := { p with begun := true } :: rest }) := by
  have hdue : (!p.begun && !p.regions.isEmpty && (s.dirSlot p.tid p.off).isSome) = true := by
    rw [hbegun, hslot, List.isEmpty_eq_false_iff.mpr hregions]
    rfl
  rw [exec_inboxDelivery, execInboxDelivery]
  simp only [hinbox, hdue, if_true]

/-- A delivery that has nothing to clean, or has cleaned, writes its slot. -/
theorem inboxDelivery_writes {rest : List Push} (hinbox : (s.core core).inbox = p :: rest) (hready : p.begun = true ∨ p.regions = []) :
    exec (.inboxDelivery core) s = .next (deliverPush (s.modCore core fun k => { k with inbox := rest }) p) := by
  have hdue : (!p.begun && !p.regions.isEmpty && (s.dirSlot p.tid p.off).isSome) = false := by
    obtain h | h := hready
    · rw [h]
      rfl
    · rw [h, List.isEmpty_nil, Bool.not_true, Bool.and_false, Bool.false_and]
  rw [exec_inboxDelivery, execInboxDelivery]
  simp only [hinbox, hdue, Bool.false_eq_true, if_false]

theorem deliveries_holds : deliveries := by
  refine ⟨fun core s p rest d hinbox hslot hbegun hregions => ?_, ?_, fun core s hnone => ?_⟩
  · have htraffic := traffic_prepareSlot s p
    refine ⟨_, inboxDelivery_prepares hinbox hslot hbegun hregions, ?_, htraffic.groups, htraffic.teams, htraffic.wf, fun hplain => ?_, fun hacq y hy => ?_⟩
    · rw [core_modCore]
    · rw [modCore_mem, prepareSlot_plain hslot hplain]
    · refine prepareSlot_l1 hslot hacq y ?_
      by_cases h : core = (s.group d.gid).core
      · rwa [h, core_modCore] at hy
      · rwa [core_modCore_ne _ _ _ _ h] at hy
  · intro core s p rest d hinbox hslot hready hcore hwf bits
    generalize hs1 : s.modCore core (fun k => { k with inbox := rest }) = s1
    have hslot1 : s1.dirSlot p.tid p.off = some d := by
      rw [← hs1, dirSlot_modCore, hslot]
      exact fun _ => rfl
    generalize hu : (if p.begun then s1 else prepareSlot s1 p) = u
    have htraffic : Traffic s1 u := by
      rw [← hu]
      exact .ite (.refl s1) (traffic_prepareSlot s1 p)
    have hmem : u.mem = s.mem := by
      rw [← hu, apply_ite State.mem]
      obtain h | h := hready
      · rw [if_pos h, ← hs1]
        rfl
      · rw [prepareSlot_mem h, ite_self, ← hs1]
        rfl
    have hteam (j : Nat) : u.team j = s.team j := by
      rw [htraffic.team, ← hs1]
      rfl
    have hslotu : u.dirSlot p.tid p.off = some d := (htraffic.dirSlot _ _).trans hslot1
    refine ⟨putPush u p d, ?_, ?_, ?_, fun j hj => ?_, hmem, fun k => ?_, _, putPush_slot hslotu d, rfl, rfl, rfl⟩
    · rw [inboxDelivery_writes hinbox hready, hs1, deliverPush_eq hslot1, hu]
    · rw [putPush_core, htraffic.inbox, ← hs1, core_modCore]
    · exact htraffic.groups.trans (hs1 ▸ rfl)
    · rw [putPush_team, team_writeSlot_ne _ _ _ (Ne.symm hj), hteam]
    · rw [putPush_team, slotBits_delivered, bget_writeSlot u (by rwa [hteam]), hteam]
  · rw [exec_inboxDelivery, execInboxDelivery]
    simp only [hnone]

/-! ## A refusal comes back; a core signals (R176, R177) -/

theorem refusedPushReturn_holds {n : Nat} (hp : s.hub.refusals[n]? = some p) (hx : sfind (s.home p.home).subs p.idx = some x) (htid : x.tid = p.tid)
    (hoff : x.off = p.off) : Completes (.refusedPushReturn n) s fun t => t.mem = s.mem ∧ t.groups = s.groups ∧ t.cores = s.cores ∧
      t.hub = { s.hub with refusals := ldrop s.hub.refusals n } ∧
      sfind (t.home p.home).subs p.idx = some { x with st := if x.st = .live then .pending else x.st, skip := x.skip + p.count + 1 } := by
  have he : exec (.refusedPushReturn n) s = execRefusedPushReturn n s := rfl
  rw [Completes, he, execRefusedPushReturn, hp]
  refine ⟨_, rfl, rfl, rfl, rfl, rfl, ?_⟩
  rw [sfind_modSub, home_modHub, hx, Option.map_some, if_pos ⟨htid, hoff⟩]

theorem inboxSignal_holds (hrefused : (s.core core).refusedHomes ≠ []) (hroom : (s.core core).inbox.length ≤ 48) :
    Completes (.inboxSignal core) s fun t => t.mem = s.mem ∧ t.groups = s.groups ∧ t.homes = s.homes ∧ (t.core core) = { s.core core with refusedHomes := [] } ∧
      t.hub = { s.hub with signals := s.hub.signals ++ (s.core core).refusedHomes.map fun h => (h, core) } := by
  have he : exec (.inboxSignal core) s = execInboxSignal core s := rfl
  have hdue : (!(s.core core).refusedHomes.isEmpty && decide ((s.core core).inbox.length ≤ 48)) = true := by
    rw [List.isEmpty_eq_false_iff.mpr hrefused, decide_eq_true hroom]
    rfl
  rw [Completes, he, execInboxSignal]
  simp only [hdue, if_true]
  exact ⟨_, rfl, rfl, rfl, rfl, by rw [core_modHub, core_modCore], rfl⟩

/-! ## Redeliveries (R177) -/

/-- What redeliveries of a home keep: all but subscriptions and the pushes under way. -/
structure Redelivers (s t : State) (ps : List Push) : Prop where
  mem : t.mem = s.mem
  groups : t.groups = s.groups
  cores : t.cores = s.cores
  seqs : ∀ k, (t.home k).seqs = (s.home k).seqs
  hub : t.hub = { s.hub with pushNet := s.hub.pushNet ++ ps }

theorem redelivers_send (s : State) (home idx : Nat) (x : Sub) :
    Redelivers s (sendRedelivery s home idx x) [s.pushOf home idx x (sget 0 (s.home home).seqs x.word) (x.skip - 1) true] :=
  ⟨rfl, rfl, rfl, modSub_seqs s home idx fun y => { y with skip := 0 }, rfl⟩

theorem Redelivers.trans {u : State} {ps qs : List Push} (h : Redelivers s t ps) (k : Redelivers t u qs) : Redelivers s u (ps ++ qs) where
  mem := k.mem.trans h.mem
  groups := k.groups.trans h.groups
  cores := k.cores.trans h.cores
  seqs j := (k.seqs j).trans (h.seqs j)
  hub := by rw [k.hub, h.hub, ← List.append_assoc]

/-- What a redelivery to a subscription carries: the word as it stands, with the skip since the last SEQ accepted. -/
def redelivers (s : State) (home : Nat) (e : Nat × Sub) (p : Push) : Prop :=
  p.home = home ∧ p.idx = e.1 ∧ p.core = e.2.core ∧ p.tid = e.2.tid ∧ p.off = e.2.off ∧ p.seq = sget 0 (s.home home).seqs e.2.word ∧
    p.value = BitVec.ofNat 64 (leNat (bgets s.mem e.2.word 8)) ∧ p.count = min (e.2.skip - 1) 15 ∧ p.redelivery = true

/-- A list of subscriptions is redelivered to in its order. -/
theorem redelivers_foldl (home : Nat) (l : List (Nat × Sub)) (s : State) : ∃ ps, Redelivers s (l.foldl (fun t e => sendRedelivery t home e.1 e.2) s) ps ∧
    List.Forall₂ (redelivers s home) l ps := by
  induction l generalizing s with
  | nil => exact ⟨[], ⟨rfl, rfl, rfl, fun _ => rfl, by rw [List.append_nil]; rfl⟩, .nil⟩
  | cons e r ih =>
    have hsend := redelivers_send s home e.1 e.2
    obtain ⟨ps, hrest, hall⟩ := ih (sendRedelivery s home e.1 e.2)
    refine ⟨_, hsend.trans hrest, .cons ⟨rfl, rfl, rfl, rfl, rfl, rfl, rfl, rfl, rfl⟩ (hall.imp fun f q hq => ?_)⟩
    rwa [redelivers, hsend.seqs, hsend.mem] at hq

theorem redelivery_holds (hsignal : (home, core) ∈ s.hub.signals) (hback : ∀ p ∈ s.hub.refusals, ¬ (p.home = home ∧ p.core = core))
    (hquiet : ∀ e ∈ pendingSubs s home core, inFlight s home e.2 = false) :
    Completes (.redelivery home core) s fun t => t.mem = s.mem ∧ t.groups = s.groups ∧ t.cores = s.cores ∧ (∀ e ∈ t.hub.signals, e ≠ (home, core)) ∧
      ∃ ps, t.hub.pushNet = s.hub.pushNet ++ ps ∧ ps.length = (pendingSubs s home core).length ∧
        ∀ (i : Nat) (p : Push) (e : Nat × Sub), ps[i]? = some p → (pendingSubs s home core)[i]? = some e → p.home = home ∧ p.idx = e.1 ∧ p.core = core ∧ p.tid = e.2.tid ∧
          p.off = e.2.off ∧ p.seq = sget 0 (s.home home).seqs e.2.word ∧ p.value = BitVec.ofNat 64 (leNat (bgets s.mem e.2.word 8)) ∧
          p.count = min (e.2.skip - 1) 15 ∧ p.redelivery = true := by
  have hready : redeliveryReady s home core = true := by
    simp only [redeliveryReady, Bool.and_eq_true, List.contains_iff_mem, Bool.not_eq_true', List.any_eq_false, List.all_eq_true, beq_iff_eq]
    exact ⟨⟨hsignal, hback⟩, hquiet⟩
  have he : exec (.redelivery home core) s = execRedelivery home core s := rfl
  rw [Completes, he, execRedelivery, if_pos hready]
  obtain ⟨ps, hsent, hall⟩ := redelivers_foldl home (pendingSubs s home core) (s.modHub fun h => { h with signals := h.signals.filter fun x => x ≠ (home, core) })
  refine ⟨_, rfl, hsent.mem, hsent.groups, hsent.cores, fun e he => ?_, ps, by rw [hsent.hub]; rfl, hall.length_eq.symm, fun i p e hp he => ?_⟩
  · rw [hsent.hub] at he
    exact of_decide_eq_true (List.mem_filter.mp he).2
  · have hcore : e.2.core = core := by
      have h := (List.mem_filter.mp (List.mem_of_getElem? he)).2
      simp only [Bool.and_eq_true, beq_iff_eq] at h
      exact h.1
    obtain ⟨hi, rfl⟩ := List.getElem?_eq_some_iff.mp he
    obtain ⟨hj, rfl⟩ := List.getElem?_eq_some_iff.mp hp
    obtain ⟨hhome, hidx, hpcore, hrest⟩ := hall.get hi hj
    exact ⟨hhome, hidx, hpcore.trans hcore, hrest⟩

theorem exec_redeliveryAccept {n : Nat} (hfirst : s.firstPush n = some p) (hre : p.redelivery = true) :
    exec (.redeliveryAccept n) s = .next (takeRedelivery (s.dropPush n) p) := by
  have he : exec (.redeliveryAccept n) s = execRedeliveryAccept n s := rfl
  rw [he, execRedeliveryAccept, hfirst]
  simp only [hre, if_true]

/-- A redelivery that is accepted, of a subscription that has missed nothing since it was sent: slot and subscription are live again. -/
theorem takeRedelivery_accepted (hslot : s.dirSlot p.tid p.off = some d) (hx : sfind (s.home p.home).subs p.idx = some x) (htid : x.tid = p.tid) (hoff : x.off = p.off)
    (hpending : x.st = .pending) (hskip : x.skip = 0) (hroom : (s.core p.core).inbox.length < 64) (hhere : s.swapped p.tid = false) :
    takeRedelivery s p = ((acceptPush s p ((s.core p.core).inbox ++ [p])).modSlot p.tid p.off fun y =>
      { y with st := if y.st = .refused then .live else y.st, refuses := false }).modSub p.home p.idx fun y => { y with st := .live } := by
  have hsub : sfind ((acceptPush s p ((s.core p.core).inbox ++ [p])).home p.home).subs p.idx = some { x with lastSeq := p.seq } := by
    rw [acceptPush, sfind_modSub, home_modCore, hx, Option.map_some, if_pos ⟨htid, hoff⟩]
  simp only [takeRedelivery, hslot, if_pos (And.intro hroom hhere)]
  rw [State.modSlot, home_modCore, hsub]
  simp only [htid, hoff, hpending, hskip, ne_eq, not_true_eq_false, or_self, if_false, if_true]

/-- A redelivery that finds no room is refused again, and its subscription counts what it misses. -/
theorem takeRedelivery_refused (hslot : s.dirSlot p.tid p.off = some d) (hfull : 64 ≤ (s.core p.core).inbox.length ∨ s.swapped p.tid = true) :
    takeRedelivery s p = (refuseAt s p).modSub p.home p.idx fun x =>
      if x.tid = p.tid ∧ x.off = p.off then { x with st := if x.st = .live then .pending else x.st, skip := x.skip + p.count + 1 } else x := by
  have hno : ¬ ((s.core p.core).inbox.length < 64 ∧ s.swapped p.tid = false) := fun h => hfull.elim (Nat.not_le_of_lt h.1) fun hs => Bool.false_ne_true (h.2.symm.trans hs)
  simp only [takeRedelivery, hslot, if_neg hno]
  rfl

theorem redeliveryAccept_holds {n : Nat} (hfirst : s.firstPush n = some p) (hre : p.redelivery = true) (hslot : s.dirSlot p.tid p.off = some d)
    (hcore : p.core = p.tid / 32) (hx : sfind (s.home p.home).subs p.idx = some x) (htid : x.tid = p.tid) (hoff : x.off = p.off) (hpending : x.st = .pending)
    (hskip : x.skip = 0) : Completes (.redeliveryAccept n) s fun t => t.mem = s.mem ∧ t.groups = s.groups ∧ t.teams = s.teams ∧ t.hub.pushNet = ldrop s.hub.pushNet n ∧
      ((s.core p.core).inbox.length < 64 → s.swapped p.tid = false → (t.core p.core).inbox = (s.core p.core).inbox ++ [p] ∧
        (∃ e, t.dirSlot p.tid p.off = some e ∧ e.refuses = false ∧ e.st = if d.st = .refused then .live else d.st) ∧
        sfind (t.home p.home).subs p.idx = some { x with st := .live, lastSeq := p.seq }) ∧
      ((64 ≤ (s.core p.core).inbox.length ∨ s.swapped p.tid = true) → (t.core p.core).inbox = (s.core p.core).inbox ∧ p.home ∈ (t.core p.core).refusedHomes ∧
        (∃ e, t.dirSlot p.tid p.off = some e ∧ e.refuses = true) ∧ sfind (t.home p.home).subs p.idx = some { x with skip := p.count + 1 }) := by
  have hslot' : (s.dropPush n).dirSlot p.tid p.off = some d := hslot
  have hx' : sfind ((s.dropPush n).home p.home).subs p.idx = some x := hx
  refine ⟨_, exec_redeliveryAccept hfirst hre, ?_⟩
  by_cases htake : (s.core p.core).inbox.length < 64 ∧ s.swapped p.tid = false
  · obtain ⟨hroom, hhere⟩ := htake
    rw [takeRedelivery_accepted hslot' hx' htid hoff hpending hskip hroom hhere]
    refine ⟨rfl, rfl, rfl, rfl, fun _ _ => ⟨?_, ⟨{ d with st := if d.st = .refused then .live else d.st, refuses := false }, ?_, rfl, rfl⟩, ?_⟩, fun hfull => ?_⟩
    · rw [State.modSub, core_modHome, modSlot_core, acceptPush_inbox]
      rfl
    · have hmod := dirSlot_modSlot (acceptPush (s.dropPush n) p (((s.dropPush n).core p.core).inbox ++ [p])) p.tid p.off
        (f := fun y => { y with st := if y.st = .refused then .live else y.st, refuses := false }) fun _ => ⟨rfl, rfl⟩
      rw [acceptPush_slot, hslot'] at hmod
      exact hmod
    · rw [sfind_modSub, State.modSlot, home_modCore, acceptPush, sfind_modSub, home_modCore, hx', Option.map_some, if_pos ⟨htid, hoff⟩, Option.map_some]
    · exact absurd hfull (not_or.mpr ⟨Nat.not_le_of_lt hroom, by rw [hhere]; exact Bool.false_ne_true⟩)
  · have hfull : 64 ≤ (s.core p.core).inbox.length ∨ s.swapped p.tid = true := by
      rw [not_and_or, Nat.not_lt, Bool.not_eq_false] at htake
      exact htake
    obtain ⟨hinbox, hhome⟩ := refuseAt_core (s.dropPush n) hcore
    rw [takeRedelivery_refused hslot' hfull]
    refine ⟨rfl, rfl, rfl, rfl, fun hroom hhere => absurd ⟨hroom, hhere⟩ htake, fun _ => ⟨hinbox, hhome, ⟨closeSlot d, refuseAt_slot hslot', rfl⟩, ?_⟩⟩
    have hsubs : sfind ((refuseAt (s.dropPush n) p).home p.home).subs p.idx = some x := hx
    rw [sfind_modSub, hsubs, Option.map_some, if_pos ⟨htid, hoff⟩, hpending, hskip, Nat.zero_add, if_neg (fun h => nomatch h)]

end Sys2Proof.Machine

namespace Sys2Proof
open Machine

/-- Settles O37: an arriving push has one of three fates (`arrivePush_refused`, `arrivePush_room`, `arrivePush_full`); a delivery cleans first or writes its slot. -/
theorem pushesArriveAndAreDelivered : Obligations.PushesArriveAndAreDelivered := by
  unfold Obligations.PushesArriveAndAreDelivered
  exact ⟨pushArrivals_holds, deliveries_holds⟩

/-- Settles O34: a refused push at its home, the signal, the redeliveries in table order (`redelivers_foldl`), and what the core does with one. -/
theorem refusalsAndRedeliveries : Obligations.RefusalsAndRedeliveries := by
  unfold Obligations.RefusalsAndRedeliveries
  refine ⟨fun n s p x hp hx htid hoff => refusedPushReturn_holds hp hx htid hoff, fun core s hrefused hroom => inboxSignal_holds hrefused hroom,
    fun home core s hsignal hback hquiet => redelivery_holds hsignal hback hquiet,
    fun n s p d x hfirst hre hslot hcore hx htid hoff hpending hskip => redeliveryAccept_holds hfirst hre hslot hcore hx htid hoff hpending hskip⟩

end Sys2Proof
end

section
/-! The tables of subscriptions below the standing slots: what requests for lines, stores and cleans leave of them. -/
namespace Sys2Proof.Machine

variable {s t u : State}

/-! ## Requests for lines change no subscription -/

/-- The subscriptions and sequence numbers of every home are the same. -/
def SameSubs (s t : State) : Prop := ∀ k, (t.home k).subs = (s.home k).subs ∧ (t.home k).seqs = (s.home k).seqs

theorem SameSubs.refl (s : State) : SameSubs s s := fun _ => ⟨rfl, rfl⟩
theorem SameSubs.trans (a : SameSubs s t) (b : SameSubs t u) : SameSubs s u := fun k => ⟨(b k).1.trans (a k).1, (b k).2.trans (a k).2⟩

theorem SameSubs.ite {p : Prop} [Decidable p] (a : SameSubs s t) (b : SameSubs s u) : SameSubs s (if p then t else u) := by
  split
  · exact a
  · exact b

theorem SameSubs.foldl {α : Type} {f : State → α → State} (hf : ∀ s x, SameSubs s (f s x)) : ∀ (l : List α) (s : State), SameSubs s (l.foldl f s)
  | [], s => .refl s
  | x :: r, s => (hf s x).trans (SameSubs.foldl hf r (f s x))

theorem sameSubs_modHome (s : State) (h : Nat) (f : Home → Home) (hf : ∀ k, (f k).subs = k.subs ∧ (f k).seqs = k.seqs) : SameSubs s (s.modHome h f) := by
  intro k
  by_cases hk : h = k
  · rw [hk, home_modHome]
    exact hf _
  · rw [home_modHome_ne _ _ _ _ hk]
    exact ⟨rfl, rfl⟩

theorem sameSubs_modDie (s : State) (d : Nat) (f : Die → Die) : SameSubs s (s.modDie d f) := .refl s
theorem sameSubs_modHub (s : State) (f : Hub → Hub) : SameSubs s (s.modHub f) := .refl s

theorem sameSubs_countAccess (s : State) (part pa : Nat) : SameSubs s (countAccess s part pa) := .ite (sameSubs_modHub _ _) (.refl s)

theorem sameSubs_leaveLine (s : State) (line agent : Nat) : SameSubs s (leaveLine s line agent) := by
  have hhome (f : Home → Sparse LineState) : SameSubs s (s.modHome (homeOf (line * 128)) fun k => { k with lines := f k }) :=
    sameSubs_modHome _ _ _ fun _ => ⟨rfl, rfl⟩
  exact .ite ((hhome _).trans (sameSubs_modDie _ _ _)) (hhome _)

theorem sameSubs_setLine (s : State) (line : Nat) (x : LineState) : SameSubs s (s.setLine line x) := sameSubs_modHome _ _ _ fun _ => ⟨rfl, rfl⟩

theorem sameSubs_cleanLine (s : State) (line : Nat) : SameSubs s (cleanLine s line) := by
  unfold cleanLine
  split
  · exact .ite ((sameSubs_setLine _ _ _).trans (sameSubs_modDie _ _ _)) (sameSubs_setLine _ _ _)
  · exact .refl s

theorem sameSubs_l2Put (s : State) (die line : Nat) : SameSubs s (l2Put s die line) := by
  unfold l2Put
  refine .ite (.refl s) (SameSubs.trans (.ite (.refl s) ?_) (sameSubs_modDie _ _ _))
  split
  · exact sameSubs_leaveLine _ _ _
  · exact .refl s

theorem sameSubs_grantLease (s : State) (agent pa : Nat) (write : Bool) : SameSubs s (grantLease s agent pa write) := by
  unfold grantLease
  refine .ite (.refl s) (sameSubs_modHome _ _ _ fun k => ?_)
  split <;> exact ⟨rfl, rfl⟩

theorem sameSubs_grantLine (s : State) (agent line : Nat) (v : LineUse) : SameSubs s (grantLine s agent line v) := by
  have hput (x : State) : SameSubs x (if agent < 4 then l2Put x agent line else x) := .ite (sameSubs_l2Put _ _ _) (.refl x)
  cases v with
  | share =>
    exact (((SameSubs.ite (.refl s) (sameSubs_cleanLine _ _)).trans (.ite (.refl _) (sameSubs_setLine _ _ _))).trans (hput _)).trans (sameSubs_grantLease _ _ _ _)
  | own =>
    exact (((SameSubs.foldl (fun x a => sameSubs_leaveLine x line a) _ s).trans (sameSubs_setLine _ _ _)).trans (hput _)).trans (sameSubs_grantLease _ _ _ _)
  | homeRead => exact sameSubs_cleanLine _ _
  | homeStore => exact SameSubs.foldl (fun x a => sameSubs_leaveLine x line a) _ s

theorem sameSubs_lineRequest (s : State) (part agent pa : Nat) (v : LineUse) : SameSubs s (lineRequest s part agent pa v) := by
  unfold lineRequest upstreamRequest
  refine .ite (sameSubs_modHub _ _) (.ite (.refl s) (.ite (sameSubs_modDie _ _ _) (SameSubs.trans ?_ (sameSubs_grantLine _ _ _ _))))
  exact (sameSubs_countAccess _ _ _).trans (.ite (sameSubs_modDie _ _ _) (.refl _))

/-! ## Stores add and remove no subscription -/

/-- The same places of every home's table are taken. -/
def SamePlaces (s t : State) : Prop := ∀ k, (t.home k).subs.map (·.1) = (s.home k).subs.map (·.1)

theorem SamePlaces.refl (s : State) : SamePlaces s s := fun _ => rfl
theorem SamePlaces.trans (a : SamePlaces s t) (b : SamePlaces t u) : SamePlaces s u := fun k => (b k).trans (a k)
theorem SameSubs.places (a : SameSubs s t) : SamePlaces s t := fun k => congrArg (List.map (·.1)) (a k).1

theorem SamePlaces.ite {p : Prop} [Decidable p] (a : SamePlaces s t) (b : SamePlaces s u) : SamePlaces s (if p then t else u) := by
  split
  · exact a
  · exact b

theorem SamePlaces.foldl {α : Type} {f : State → α → State} (hf : ∀ s x, SamePlaces s (f s x)) : ∀ (l : List α) (s : State), SamePlaces s (l.foldl f s)
  | [], s => .refl s
  | x :: r, s => (hf s x).trans (SamePlaces.foldl hf r (f s x))

/-- A free place stays free. -/
theorem SamePlaces.free (a : SamePlaces s t) {home idx : Nat} (h : sfind (s.home home).subs idx = none) : sfind (t.home home).subs idx = none := by
  rw [sfind_eq_none] at h ⊢
  rwa [a home]

theorem samePlaces_pushWord (s : State) (w : Nat) : SamePlaces s (pushWord s w) := by
  unfold pushWord
  refine .ite (.refl s) fun k => ?_
  rw [home_modHub]
  by_cases hk : homeOf w = k
  · rw [← hk, home_setHome, List.map_map]
    refine List.map_congr_left fun e _ => ?_
    rw [Function.comp_apply]
    split <;> rfl
  · rw [home_setHome_ne _ _ _ _ hk]

theorem samePlaces_applyWord (keep : Bool) (s : State) (w : Nat) : SamePlaces s (applyWord keep s w) := by
  unfold applyWord
  refine SamePlaces.trans ?_ (samePlaces_pushWord _ _)
  refine SameSubs.places (SameSubs.trans (sameSubs_modHome _ _ _ ?_) (.ite (.refl _) (sameSubs_modHub _ _)))
  exact fun _ => ⟨rfl, rfl⟩

theorem samePlaces_performWrite (s : State) (x : HomeWrite) : SamePlaces s (performWrite s x) := by
  have hwords (m : List Host.Cell) (ws : List Nat) : SamePlaces s (ws.foldl (applyWord x.keep) { s with mem := m }) :=
    (SamePlaces.refl s).trans (SamePlaces.foldl (fun _ _ => samePlaces_applyWord _ _ _) ws _)
  unfold performWrite
  dsimp only
  split
  · exact hwords _ _
  · exact (hwords _ _).trans (sameSubs_modHub _ _).places

theorem samePlaces_storeAt (own : Bool) (s : State) (x : HomeWrite) : SamePlaces s (storeAt own s x) := by
  unfold storeAt
  split
  · exact .ite (sameSubs_modHub _ _).places (sameSubs_modHub _ _).places
  · refine SamePlaces.trans ?_ (samePlaces_performWrite _ _)
    exact (SameSubs.ite (.refl s) (SameSubs.foldl (fun t l => sameSubs_grantLine t 0 l .homeStore) _ s)).places

theorem samePlaces_writeBackCells (s : State) (core : Nat) (x : L1Line) : SamePlaces s (writeBackCells s core x) := by
  have hask := (sameSubs_lineRequest s x.part (dieOf core) (x.pline * 128) .own).places
  unfold writeBackCells
  dsimp only
  split
  · exact .refl s
  · split
    · exact hask.trans ((sameSubs_modDie _ _ _).places.trans (samePlaces_storeAt _ _ _))
    · exact hask.trans (samePlaces_storeAt _ _ _)

theorem samePlaces_cleanLines (s : State) (core : Nat) (p : L1Line → Bool) (inv : Bool) : SamePlaces s (cleanLines s core p inv) :=
  SamePlaces.foldl (fun t x => samePlaces_writeBackCells t core x) _ s

end Sys2Proof.Machine
end

section
/-! The end of a subscription (O35): removal, the end of an UNSUB, parking and re-pointing. -/
namespace Sys2Proof.Machine

variable {s t u : State} {p : Push} {d : DirSlot} {x : Sub} {o : LogOp} {tid off core home idx n : Nat}

/-! ## Removal at the home (R171, R186) -/

theorem home_dropSub (hx : sfind (s.home home).subs idx = some x) : (dropSub s home idx).home home =
    { s.home home with subs := sdel (s.home home).subs idx,
                       seqs := if (sdel (s.home home).subs idx).any fun e => e.2.word == x.word then (s.home home).seqs else sdel (s.home home).seqs x.word } := by
  rw [dropSub, home_modHome]
  simp only [hx]

theorem subRemove_holds {h i : Nat} (hmsg : s.hub.subMsgs[n]? = some (.remove core tid off)) (hsub : s.subOf tid off = some (h, i))
    (hx : sfind (s.home h).subs i = some x) (hfirst : ∀ d, s.dirSlot tid off = some d → SubMsg.repoint d.home d.idx (tid / 32) tid ∉ s.hub.subMsgs.take n) :
    Completes (.subRemove n) s fun t => t.mem = s.mem ∧ t.groups = s.groups ∧ t.cores = s.cores ∧ t.teams = s.teams ∧
      (t.home h).subs = sdel (s.home h).subs i ∧ ((∀ e ∈ sdel (s.home h).subs i, e.2.word ≠ x.word) → (t.home h).seqs = sdel (s.home h).seqs x.word) ∧
      t.hub = { s.hub with subMsgs := ldrop s.hub.subMsgs n ++ [.removed core tid off] } := by
  have hready : removeReady s n = true := by
    simp only [removeReady, hmsg]
    split
    · rename_i d hd
      rw [Bool.not_eq_true', List.any_eq_false]
      intro m hm hbeq
      exact hfirst d hd (beq_iff_eq.mp hbeq ▸ hm)
    · rfl
  have he : exec (.subRemove n) s = execSubRemove n s := rfl
  rw [Completes, he, execSubRemove]
  simp only [hready, hmsg, hsub, Bool.not_true, Bool.false_eq_true, if_false]
  refine ⟨_, rfl, rfl, rfl, rfl, rfl, ?_, fun hlast => ?_, rfl⟩
  · rw [home_modHub, State.dropMsg, home_modHub, home_dropSub hx]
  · have hnone : ¬ (sdel (s.home h).subs i).any (fun e => e.2.word == x.word) = true := fun hany => by
      obtain ⟨e, hmem, hword⟩ := List.any_eq_true.mp hany
      exact hlast e hmem (beq_iff_eq.mp hword)
    rw [home_modHub, State.dropMsg, home_modHub, home_dropSub hx]
    exact if_neg hnone

/-! ## The end of an UNSUB (R186) -/

/-- The end of an operation changes no slot and nothing outside its core and group. -/
structure SlotsKept (s t : State) : Prop where
  mem : t.mem = s.mem
  teams : t.teams = s.teams
  slots : ∀ tid off, t.dirSlot tid off = s.dirSlot tid off

theorem slotsKept_finishOp (s : State) (o : LogOp) : SlotsKept s (finishOp s o) :=
  ⟨rfl, rfl, fun tid off => dirSlot_modCore s (s.group o.gid).core (fun k => { k with log := k.log.filter fun p => decide (p.id ≠ o.id) }) (fun _ => rfl) tid off⟩

theorem slotsKept_putOp (s : State) (o : LogOp) : SlotsKept s (putOp s o) :=
  ⟨rfl, rfl, fun tid off => dirSlot_modCore s (s.group o.gid).core (fun k => { k with log := k.log.map fun p => if p.id = o.id then o else p }) (fun _ => rfl) tid off⟩

theorem slotsKept_unsubDone (s : State) (tid off : Nat) : SlotsKept s (unsubDone s tid off) := by
  unfold unsubDone
  split
  · dsimp only
    split
    · exact slotsKept_finishOp _ _
    · exact slotsKept_putOp _ _
  · exact ⟨rfl, rfl, fun _ _ => rfl⟩

/-- With no entry for the slot in the inbox nothing is written to it. -/
theorem drainSlot_none (hnone : ∀ p ∈ (s.core core).inbox, ¬ (p.tid = tid ∧ p.off = off)) :
    drainSlot s core tid off = s.modCore core fun k => { k with inbox := k.inbox.filter fun p => !(p.tid == tid && p.off == off) } := by
  have hmine : (s.core core).inbox.filter (fun p => p.tid == tid && p.off == off) = [] := List.filter_eq_nil_iff.mpr fun p hp h => by
    rw [Bool.and_eq_true, beq_iff_eq, beq_iff_eq] at h
    exact hnone p hp h
  simp only [drainSlot, hmine, List.foldl_nil]

/-- The bits of a slot that an UNSUB has ended (R167, R186). -/
theorem slotBits_ended (value : DWord) (seq : BitVec 16) (count : Nat) (acq : Bool) :
    slotBits value seq count acq false false false = value.toNat + seq.toNat * 2 ^ 64 + min count 15 * 2 ^ 80 + acq.toNat * 2 ^ 86 := by
  have hsum (a b c q r e f : Nat) : a + b + c + false.toNat * q + false.toNat * r + e + false.toNat * f = a + b + c + e := by
    simp only [Bool.toNat_false, Nat.zero_mul, Nat.add_zero]
  exact hsum _ _ _ _ _ _ _

theorem unsubComplete_holds (hmsg : s.hub.subMsgs[n]? = some (.removed core tid off))
    (hquiet : ∀ p ∈ s.hub.pushNet ++ s.hub.refusals, ¬ (p.tid = tid ∧ p.off = off)) (hslot : s.dirSlot tid off = some d)
    (hinbox : ∀ p ∈ (s.core core).inbox, ¬ (p.tid = tid ∧ p.off = off)) (hwf : Memory.wf (s.team tid).scratch) :
    Completes (.unsubComplete n) s fun t => t.mem = s.mem ∧ t.dirSlot tid off = none ∧
      (∀ k, k < 16 → bget (t.team tid).scratch (off + k) =
        BitVec.ofNat 8 ((d.value.toNat + d.seq.toNat * 2 ^ 64 + min d.count 15 * 2 ^ 80 + d.acq.toNat * 2 ^ 86) / 2 ^ (8 * k))) := by
  have hready : unsubReady s n = true := by
    simp only [unsubReady, hmsg, Bool.not_eq_true', List.any_eq_false, Bool.and_eq_true, beq_iff_eq]
    exact hquiet
  have hdrain := drainSlot_none (s := s.dropMsg n) hinbox
  have hslot1 : (drainSlot (s.dropMsg n) core tid off).dirSlot tid off = some d := by
    rw [hdrain, dirSlot_modCore]
    · exact hslot
    · exact fun _ => rfl
  have he : exec (.unsubComplete n) s = execUnsubComplete n s := rfl
  rw [Completes, he, execUnsubComplete]
  simp only [hready, if_true, hmsg, hslot1]
  generalize hv : writeSlot (drainSlot (s.dropMsg n) core tid off) tid off (slotBits d.value d.seq d.count d.acq false false false) = v
  have hkept := slotsKept_unsubDone (v.freeSlot tid off) tid off
  refine ⟨_, rfl, ?_, ?_, fun k hk => ?_⟩
  · rw [hkept.mem, ← hv, hdrain]
    rfl
  · rw [hkept.slots, dirSlot_freeSlot]
  · have hteam : (unsubDone (v.freeSlot tid off) tid off).team tid = v.team tid := congrArg (fun m => sget Team.reset m tid) hkept.teams
    have hteam0 : (drainSlot (s.dropMsg n) core tid off).team tid = s.team tid := by
      rw [hdrain]
      rfl
    rw [hteam, ← hv, bget_writeSlot _ (by rwa [hteam0]), if_pos ⟨Nat.le_add_right _ _, Nat.add_lt_add_left hk _⟩, Nat.add_sub_cancel_left, slotBits_ended]

/-! ## Parking and re-pointing (R190, R191) -/

theorem grantLease_hub (s : State) (agent pa : Nat) (write : Bool) : (grantLease s agent pa write).hub = s.hub := by
  unfold grantLease
  dsimp only
  split <;> rfl

theorem subPark_holds (hmsg : s.hub.subMsgs[n]? = some (.park home idx)) (hx : sfind (s.home home).subs idx = some x) :
    Completes (.subPark n) s fun t => t.mem = s.mem ∧ t.groups = s.groups ∧ t.cores = s.cores ∧ sfind (t.home home).subs idx = some { x with st := .parked } ∧
      t.hub = { s.hub with subMsgs := ldrop s.hub.subMsgs n } := by
  have he : exec (.subPark n) s = execSubPark n s := rfl
  rw [Completes, he, execSubPark, hmsg]
  refine ⟨_, rfl, rfl, rfl, rfl, ?_, rfl⟩
  rw [sfind_modSub, State.dropMsg, home_modHub, hx, Option.map_some]

theorem subRepoint_holds (hmsg : s.hub.subMsgs[n]? = some (.repoint home idx core tid)) (hx : sfind (s.home home).subs idx = some x) (hparked : x.st = .parked) :
    Completes (.subRepoint n) s fun t => t.mem = s.mem ∧ t.groups = s.groups ∧ t.cores = s.cores ∧
      (∃ y, sfind (t.home home).subs idx = some y ∧ y.st = .live ∧ y.core = core ∧ y.tid = tid ∧ y.word = x.word) ∧
      (sget 0 (s.home home).seqs x.word = x.lastSeq → t.hub.pushNet = s.hub.pushNet) ∧
      (sget 0 (s.home home).seqs x.word ≠ x.lastSeq → ∃ p, t.hub.pushNet = s.hub.pushNet ++ [p] ∧ p.core = core ∧ p.tid = tid ∧ p.redelivery = true ∧
        p.seq = sget 0 (s.home home).seqs x.word ∧ p.value = BitVec.ofNat 64 (leNat (bgets s.mem x.word 8))) := by
  have he : exec (.subRepoint n) s = execSubRepoint n s := rfl
  rw [Completes, he, execSubRepoint, hmsg]
  dsimp only
  generalize hs1 : (s.dropMsg n).modSub home idx (fun x => if x.st = .parked then { x with st := .live, core := core, tid := tid } else x) = s1
  have hx1 : sfind (s1.home home).subs idx = some { x with st := .live, core := core, tid := tid } := by
    rw [← hs1, sfind_modSub, State.dropMsg, home_modHub, hx, Option.map_some, if_pos hparked]
  have hseqs1 : (s1.home home).seqs = (s.home home).seqs := by
    rw [← hs1, modSub_seqs]
    rfl
  obtain ⟨hmem1, hgroups1, hcores1, hnet1⟩ : s1.mem = s.mem ∧ s1.groups = s.groups ∧ s1.cores = s.cores ∧ s1.hub.pushNet = s.hub.pushNet := by
    rw [← hs1]
    exact ⟨rfl, rfl, rfl, rfl⟩
  have hask := asks_grantLease s1 (dieOf core) x.word false
  have hsubs := sameSubs_grantLease s1 (dieOf core) x.word false home
  have hgroups := (traffic_grantLease s1 (dieOf core) x.word false).groups
  have hnet := grantLease_hub s1 (dieOf core) x.word false
  simp only [hx1, ne_eq, not_true_eq_false, if_false, hseqs1]
  generalize grantLease s1 (dieOf core) x.word false = s2 at hask hsubs hgroups hnet
  obtain ⟨hsubs2, hseqs2⟩ := hsubs
  have hx2 : sfind (s2.home home).subs idx = some { x with st := .live, core := core, tid := tid } := by rw [hsubs2, hx1]
  by_cases hmoved : sget 0 (s.home home).seqs x.word = x.lastSeq
  · rw [if_neg (not_not.mpr hmoved)]
    exact ⟨_, rfl, hask.mem.trans hmem1, hgroups.trans hgroups1, hask.cores.trans hcores1, ⟨_, hx2, rfl, rfl, rfl, rfl⟩,
      fun _ => (congrArg Hub.pushNet hnet).trans hnet1, fun h => absurd hmoved h⟩
  · rw [if_pos hmoved]
    have hsend := redelivers_send s2 home idx { x with st := .live, core := core, tid := tid }
    refine ⟨_, rfl, hsend.mem.trans (hask.mem.trans hmem1), hsend.groups.trans (hgroups.trans hgroups1), hsend.cores.trans (hask.cores.trans hcores1),
      ⟨{ x with st := .live, core := core, tid := tid, skip := 0 }, ?_, rfl, rfl, rfl, rfl⟩,
      fun h => absurd h hmoved, fun _ => ⟨_, by rw [hsend.hub, hnet, hnet1], rfl, rfl, rfl, ?_, ?_⟩⟩
    · rw [sendRedelivery, home_modHub, sfind_modSub, hx2]
      rfl
    · rw [State.pushOf, hseqs2, hseqs1]
    · rw [State.pushOf, hask.mem, hmem1]

end Sys2Proof.Machine
end

section
/-! The loss of a subscription (O35): what its slot is left with, and the trap that it raises. -/
namespace Sys2Proof.Machine

variable {s t u : State} {p : Push} {d : DirSlot} {x : Sub} {tid off core home idx n gid : Nat}

/-! ## Bytes that are read back -/

theorem leNat_leBytes (n x : Nat) : leNat (leBytes n x) = x % 2 ^ (8 * n) := by
  induction n generalizing x with
  | zero => rw [leBytes, leNat, Nat.mul_zero, Nat.pow_zero, Nat.mod_one]
  | succ n ih =>
    have hpow : 2 ^ (8 * (n + 1)) = 256 * 2 ^ (8 * n) := by rw [Nat.mul_succ, Nat.pow_add, Nat.mul_comm]
    rw [leBytes, leNat, ih, BitVec.toNat_ofNat, hpow, Nat.mod_mul]

theorem leNat_lt (l : List Byte) : leNat l < 2 ^ (8 * l.length) := by
  induction l with
  | nil => exact Nat.one_pos
  | cons b r ih =>
    have hpow : 2 ^ (8 * (r.length + 1)) = 256 * 2 ^ (8 * r.length) := by rw [Nat.mul_succ, Nat.pow_add, Nat.mul_comm]
    have hb : b.toNat < 256 := b.isLt
    rw [leNat, List.length_cons, hpow]
    omega

/-- Bytes read where they were written. -/
theorem bgets_bputs {m : List Host.Cell} (hm : Memory.wf m) (a : Nat) (bs : List Byte) : bgets (bputs m a bs) a bs.length = bs := by
  refine List.ext_getElem (by rw [bgets, List.length_map, List.length_range]) fun i hi hbs => ?_
  simp only [bgets, List.getElem_map, List.getElem_range]
  rw [bget_bputs _ _ _ _ hm, if_pos ⟨Nat.le_add_right _ _, Nat.add_lt_add_left hbs _⟩, Nat.add_sub_cancel_left,
    List.getD_eq_getElem _ _ hbs]

theorem leNat_writeSlot (hwf : Memory.wf (s.team tid).scratch) (off x : Nat) : leNat (bgets ((writeSlot s tid off x).team tid).scratch off 16) = x % 2 ^ 128 := by
  have hbytes := bgets_bputs hwf off (leBytes 16 x)
  rw [length_leBytes] at hbytes
  rw [team_writeSlot, Team.swrite, hbytes, leNat_leBytes]

/-! ## The fields of a slot (R167) -/

/-- The fields of a slot lie side by side. -/
theorem slotBits_fields (value : DWord) (seq : BitVec 16) (count : Nat) (acq live lost lease : Bool) (b : Nat) (hb : b = slotBits value seq count acq live lost lease) :
    b % 2 ^ 128 = b ∧ b % 2 ^ 64 = value.toNat ∧ b / 2 ^ 64 % 2 ^ 16 = seq.toNat ∧ b.testBit 84 = lost ∧ b.testBit 85 = lease ∧ b.testBit 86 = acq ∧
      b.testBit 87 = live ∧ b / 2 ^ 88 = 0 := by
  have hbool (c : Bool) (k : Nat) : (k % 2 = c.toNat) → decide (k % 2 = 1) = c := by
    intro h
    rw [h]
    cases c <;> rfl
  have hv := value.isLt
  have hs := seq.isLt
  have hc : min count 15 < 16 := by omega
  have h84 := lost.toNat_lt
  have h85 := lease.toNat_lt
  have h86 := acq.toNat_lt
  have h87 := live.toNat_lt
  unfold slotBits at hb
  simp only [Nat.testBit_eq_decide_div_mod_eq]
  generalize value.toNat = v at *
  generalize seq.toNat = q at *
  generalize min count 15 = c at *
  refine ⟨?_, ?_, ?_, hbool _ _ ?_, hbool _ _ ?_, hbool _ _ ?_, hbool _ _ ?_, ?_⟩ <;> omega

/-! ## What delivering and closing a slot leave alone -/

/-- What work on the standing slots of a core keeps: groups and referee, the places of the homes' tables, bind records, held traps, and scratchpads in their canonical form. -/
structure SlotWork (s t : State) : Prop where
  groups : t.groups = s.groups
  referee : t.referee = s.referee
  places : SamePlaces s t
  binds : ∀ k, (t.core k).binds = (s.core k).binds
  held : ∀ k, (t.core k).held = (s.core k).held
  scratch : ∀ j, Memory.wf (s.team j).scratch → Memory.wf (t.team j).scratch

theorem SlotWork.refl (s : State) : SlotWork s s := ⟨rfl, rfl, .refl s, fun _ => rfl, fun _ => rfl, fun _ => id⟩

theorem SlotWork.trans (a : SlotWork s t) (b : SlotWork t u) : SlotWork s u where
  groups := b.groups.trans a.groups
  referee := b.referee.trans a.referee
  places := a.places.trans b.places
  binds k := (b.binds k).trans (a.binds k)
  held k := (b.held k).trans (a.held k)
  scratch j h := b.scratch j (a.scratch j h)

theorem Traffic.slotWork (h : Traffic s t) (hp : SamePlaces s t) : SlotWork s t where
  groups := h.groups
  referee := h.referee
  places := hp
  binds k := by rw [h.cores]
  held k := by rw [h.cores]
  scratch j hw := by rwa [h.team]

theorem slotWork_modCore (s : State) (c : Nat) (f : Core → Core) (hf : ∀ k, (f k).binds = k.binds ∧ (f k).held = k.held) : SlotWork s (s.modCore c f) := by
  have hcore (k : Nat) : ((s.modCore c f).core k).binds = (s.core k).binds ∧ ((s.modCore c f).core k).held = (s.core k).held := by
    by_cases h : c = k
    · rw [h, core_modCore]
      exact hf _
    · rw [core_modCore_ne _ _ _ _ h]
      exact ⟨rfl, rfl⟩
  exact ⟨rfl, rfl, .refl s, fun k => (hcore k).1, fun k => (hcore k).2, fun _ => id⟩

theorem slotWork_modSlot (s : State) (tid off : Nat) (f : DirSlot → DirSlot) : SlotWork s (s.modSlot tid off f) :=
  slotWork_modCore s (tid / 32) (fun k => { k with directory := k.directory.map fun d => if d.tid = tid ∧ d.off = off then f d else d }) fun _ => ⟨rfl, rfl⟩

theorem slotWork_freeSlot (s : State) (tid off : Nat) : SlotWork s (s.freeSlot tid off) :=
  slotWork_modCore s (tid / 32) (fun k => { k with directory := k.directory.filter fun d => !(d.tid == tid && d.off == off) }) fun _ => ⟨rfl, rfl⟩

theorem slotWork_writeSlot (s : State) (tid off x : Nat) : SlotWork s (writeSlot s tid off x) := by
  refine ⟨rfl, rfl, .refl s, fun _ => rfl, fun _ => rfl, fun j hj => ?_⟩
  by_cases h : tid = j
  · rw [h, team_writeSlot]
    exact wf_bputs _ _ _ hj
  · rwa [team_writeSlot_ne _ _ _ h]

theorem samePlaces_prepareSlot (s : State) (p : Push) : SamePlaces s (prepareSlot s p) := by
  unfold prepareSlot
  split
  · exact .refl s
  · exact .ite (samePlaces_cleanLines _ _ _ _) (.refl s)

/-! ## The entries that the inbox holds for a slot -/

/-- A delivery writes what the push carries; the slot stays with its group and kind. -/
theorem deliverPush_spec (hslot : s.dirSlot p.tid p.off = some d) : SlotWork s (deliverPush s p) ∧
    (deliverPush s p).dirSlot p.tid p.off = some { d with value := p.value, seq := p.seq, count := p.count } := by
  have htraffic : Traffic s (if p.begun then s else prepareSlot s p) := .ite (.refl s) (traffic_prepareSlot s p)
  have hplaces : SamePlaces s (if p.begun then s else prepareSlot s p) := .ite (.refl s) (samePlaces_prepareSlot s p)
  rw [deliverPush_eq hslot]
  generalize (if p.begun then s else prepareSlot s p) = u at htraffic hplaces
  exact ⟨(htraffic.slotWork hplaces).trans ((slotWork_writeSlot _ _ _ _).trans (slotWork_modSlot _ _ _ _)), putPush_slot ((htraffic.dirSlot _ _).trans hslot) d⟩

/-- After deliveries to one slot it holds what the last of them carried. -/
theorem foldl_deliverPush (l : List Push) (hl : ∀ p ∈ l, p.tid = tid ∧ p.off = off) (hslot : s.dirSlot tid off = some d) :
    SlotWork s (l.foldl deliverPush s) ∧ ∃ e, (l.foldl deliverPush s).dirSlot tid off = some e ∧ e.value = (l.getLast?.map Push.value).getD d.value ∧
      e.seq = (l.getLast?.map Push.seq).getD d.seq ∧ e.acq = d.acq ∧ e.gid = d.gid := by
  induction l generalizing s d with
  | nil => exact ⟨.refl s, d, hslot, rfl, rfl, rfl, rfl⟩
  | cons p r ih =>
    obtain ⟨⟨rfl, rfl⟩, hr⟩ := List.forall_mem_cons.mp hl
    obtain ⟨hwork, hput⟩ := deliverPush_spec hslot
    obtain ⟨hrest, e, he, hvalue, hseq, hacq, hgid⟩ := ih hr hput
    refine ⟨hwork.trans hrest, e, he, ?_, ?_, hacq, hgid⟩
    · rw [hvalue, List.getLast?_cons, Option.map_some, Option.getD_some]
      exact Option.getD_map Push.value p r.getLast?
    · rw [hseq, List.getLast?_cons, Option.map_some, Option.getD_some]
      exact Option.getD_map Push.seq p r.getLast?

theorem drainSlot_spec (hslot : s.dirSlot tid off = some d) (core : Nat) :
    SlotWork s (drainSlot s core tid off) ∧ ∃ e, (drainSlot s core tid off).dirSlot tid off = some e ∧
      e.value = ((((s.core core).inbox.filter fun p => p.tid == tid && p.off == off).getLast?).map Push.value).getD d.value ∧
      e.seq = ((((s.core core).inbox.filter fun p => p.tid == tid && p.off == off).getLast?).map Push.seq).getD d.seq ∧ e.acq = d.acq ∧ e.gid = d.gid := by
  have hmine : ∀ p ∈ (s.core core).inbox.filter (fun p => p.tid == tid && p.off == off), p.tid = tid ∧ p.off = off := fun p hp => by
    simpa only [Bool.and_eq_true, beq_iff_eq] using (List.mem_filter.mp hp).2
  have hwork := slotWork_modCore s core (fun k => { k with inbox := k.inbox.filter fun p => !(p.tid == tid && p.off == off) }) fun _ => ⟨rfl, rfl⟩
  have hslot1 := dirSlot_modCore s core (fun k => { k with inbox := k.inbox.filter fun p => !(p.tid == tid && p.off == off) }) (fun _ => rfl) tid off
  obtain ⟨hfold, e, he⟩ := foldl_deliverPush _ hmine (hslot1.trans hslot)
  exact ⟨hwork.trans hfold, e, he⟩

/-! ## The asynchronous trap (R189; 12 R337, R428) -/

/-- What an asynchronous trap for a group changes beside that group: no home, no team, no slot and no other group. -/
structure TrapWork (s t : State) (gid : Nat) : Prop where
  homes : t.homes = s.homes
  teams : t.teams = s.teams
  slots : ∀ tid off, t.dirSlot tid off = s.dirSlot tid off
  groups : ∀ j, j ≠ gid → t.group j = s.group j

theorem TrapWork.refl (s : State) (gid : Nat) : TrapWork s s gid := ⟨rfl, rfl, fun _ _ => rfl, fun _ _ => rfl⟩

theorem TrapWork.trans (a : TrapWork s t gid) (b : TrapWork t u gid) : TrapWork s u gid where
  homes := b.homes.trans a.homes
  teams := b.teams.trans a.teams
  slots tid off := (b.slots tid off).trans (a.slots tid off)
  groups j hj := (b.groups j hj).trans (a.groups j hj)

theorem trapWork_setGroup (s : State) (gid : Nat) (g : Group) : TrapWork s (s.setGroup gid g) gid :=
  ⟨rfl, rfl, fun _ _ => rfl, fun j hj => group_setGroup_ne _ _ _ j (Ne.symm hj)⟩

theorem trapWork_modCore (s : State) (gid c : Nat) (f : Core → Core) (hf : ∀ k, (f k).directory = k.directory) : TrapWork s (s.modCore c f) gid :=
  ⟨rfl, rfl, dirSlot_modCore s c f hf, fun _ _ => rfl⟩

theorem trapWork_post (s : State) (gid : Nat) (g : Group) (r : Record) : TrapWork s (s.post g r) gid := ⟨rfl, rfl, fun _ _ => rfl, fun _ _ => rfl⟩

theorem trapWork_tryDeliver (s : State) (gid : Nat) : TrapWork s (tryDeliver s gid) gid := by
  have hcount := trapWork_modCore s gid (s.group gid).core (fun k => { k with delivered := k.delivered + 1 }) fun _ => rfl
  have hends (b : Bool) (g1 g2 : Group) (r : Record) : TrapWork s
      (if b then ((s.modCore (s.group gid).core fun k => { k with delivered := k.delivered + 1 }).setGroup gid g2).post g2 r
        else (s.modCore (s.group gid).core fun k => { k with delivered := k.delivered + 1 }).setGroup gid g1) gid := by
    split
    · exact hcount.trans ((trapWork_setGroup _ _ _).trans (trapWork_post _ _ _ _))
    · exact hcount.trans (trapWork_setGroup _ _ _)
  unfold tryDeliver
  dsimp only
  split
  · exact .refl s gid
  · split
    · exact .refl s gid
    · exact hends _ _ _ _

/-- With a frame open the group takes no trap. -/
theorem tryDeliver_framed (hframe : (s.group gid).frame ≠ none) : tryDeliver s gid = s := by
  have hopen : (s.group gid).frame.isSome = true := Option.isSome_iff_ne_none.mpr hframe
  unfold tryDeliver
  dsimp only
  split
  · rfl
  · rw [hopen, Bool.or_true, Bool.true_or, Bool.true_or, Bool.true_or, Bool.true_or, if_pos rfl]

theorem trapWork_deliverIfQuiet (s : State) (gid : Nat) : TrapWork s (deliverIfQuiet s gid) gid := by
  unfold deliverIfQuiet
  dsimp only
  split
  · exact trapWork_tryDeliver s gid
  · exact .refl s gid

theorem trapWork_queueAsync (s : State) (n gid : Nat) (r : Record) (e : EngineRef) : TrapWork s (queueAsync s n gid r e) n := by
  unfold queueAsync
  split
  · exact (trapWork_setGroup _ _ _).trans (trapWork_deliverIfQuiet _ _)
  · refine trapWork_modCore _ _ _ _ fun k => ?_
    dsimp only
    split <;> rfl

theorem raiseAsync_none (htarget : s.asyncTarget gid = none) (r : Record) (e : EngineRef) : raiseAsync s gid r e = s.post (s.group gid) r := by
  simp only [raiseAsync, htarget]

theorem raiseAsync_some (htarget : s.asyncTarget gid = some n) (r : Record) (e : EngineRef) : raiseAsync s gid r e = queueAsync s n gid r e := by
  simp only [raiseAsync, htarget]

/-- Raising a trap leaves what stands of a subscription alone. -/
theorem trapWork_raiseAsync (s : State) (gid : Nat) (r : Record) (e : EngineRef) : ∃ n, TrapWork s (raiseAsync s gid r e) n := by
  cases h : s.asyncTarget gid with
  | none => exact ⟨gid, by rw [raiseAsync_none h]; exact trapWork_post _ _ _ _⟩
  | some n => exact ⟨n, by rw [raiseAsync_some h]; exact trapWork_queueAsync _ _ _ _ _⟩

/-- The queue entry of an asynchronous trap. -/
def asyncEntry (g : Group) (r : Record) (e : EngineRef) : TrapEntry :=
  { record := r, fmask := 0, gang := 0, key := g.issueNo, log := none, atIssue := false, resume := 0, engine := e }

/-- A group whose frame is open has the trap in its queue (12 R337). -/
theorem queueAsync_framed (hroom : asyncRoom s n = true) (hframe : (s.group n).frame ≠ none) (gid : Nat) (r : Record) (e : EngineRef) :
    (queueAsync s n gid r e).group n = { s.group n with queue := enqueue (asyncEntry (s.group n) r e) (s.group n).queue } := by
  have henter : enterAsync s n r e = deliverIfQuiet (s.setGroup n { s.group n with queue := enqueue (asyncEntry (s.group n) r e) (s.group n).queue }) n := rfl
  rw [queueAsync, if_pos hroom, henter]
  generalize hg : ({ s.group n with queue := enqueue (asyncEntry (s.group n) r e) (s.group n).queue } : Group) = g
  have hframe' : ((s.setGroup n g).group n).frame ≠ none := by
    rw [group_setGroup, ← hg]
    exact hframe
  have hstay : deliverIfQuiet (s.setGroup n g) n = s.setGroup n g := by
    unfold deliverIfQuiet
    dsimp only
    rw [tryDeliver_framed hframe', ite_self]
  rw [hstay, group_setGroup]

/-- Work on slots changes neither who a trap goes to nor whether it finds room. -/
theorem SlotWork.group (h : SlotWork s t) (j : Nat) : t.group j = s.group j := congrArg (fun l => sget Group.reset l j) h.groups

theorem SlotWork.asyncTarget (h : SlotWork s t) (gid : Nat) : t.asyncTarget gid = s.asyncTarget gid := by
  have hgids (tid : Nat) : t.teamGids tid = s.teamGids tid := by
    simp only [State.teamGids, State.bindField, State.bindRec, h.binds]
  simp only [State.asyncTarget, State.lowestLiveGroup, h.group, hgids]

theorem SlotWork.asyncRoom (h : SlotWork s t) (n : Nat) : asyncRoom t n = asyncRoom s n := by
  simp only [Machine.asyncRoom, h.group, h.held, h.asyncTarget]

/-! ## The loss (R187, R189) -/

/-- The record of SUB_LOST (R189). -/
theorem asyncRecord_lost (home cause off : Nat) (seq : BitVec 16) : asyncRecord 0x13 (home * 2 ^ 8 + cause) (BitVec.ofNat 64 off) seq.toNat =
    { cause := BitVec.ofNat 16 (home * 2 ^ 8 + cause), nested := false, logged := false, async := true, code := 0x13, qleft := 0, lane := 0,
      addr := BitVec.ofNat 64 off, pc := 0, opword := seq.setWidth 64 } := by
  rw [asyncRecord, BitVec.ofNat_toNat]
  rfl

/-- The slot of a loss just before its trap is raised: the waiting entries are written, then the final write, and the slot is FREE. -/
def closedSlot (s : State) (tid off cause : Nat) (e : DirSlot) : State :=
  (writeSlot (drainSlot s (tid / 32) tid off) tid off (slotBits e.value e.seq (Config.lossCount s.time).toNat e.acq false true (cause == 4))).freeSlot tid off

theorem loseSlot_eq {e : DirSlot} (hslot : s.dirSlot tid off = some d) (hopen : d.st ≠ .closing) (he : (drainSlot s (tid / 32) tid off).dirSlot tid off = some e)
    (home cause : Nat) : loseSlot s home tid off cause =
      raiseAsync (closedSlot s tid off cause e) e.gid (asyncRecord 0x13 (home * 2 ^ 8 + cause) (BitVec.ofNat 64 off) e.seq.toNat) .none := by
  simp only [loseSlot, hslot, if_neg hopen, he, Option.getD_some]
  rfl

theorem closedSlot_slot (s : State) (tid off cause : Nat) (e : DirSlot) : (closedSlot s tid off cause e).dirSlot tid off = none := dirSlot_freeSlot _ _ _

theorem closedSlot_work (hwork : SlotWork s (drainSlot s (tid / 32) tid off)) (cause : Nat) (e : DirSlot) : SlotWork s (closedSlot s tid off cause e) :=
  hwork.trans ((slotWork_writeSlot _ _ _ _).trans (slotWork_freeSlot _ _ _))

/-- The final write of a loss (R187). -/
theorem closedSlot_bits (hwf : Memory.wf ((drainSlot s (tid / 32) tid off).team tid).scratch) (cause : Nat) (e : DirSlot) :
    ∃ bits, leNat (bgets ((closedSlot s tid off cause e).team tid).scratch off 16) = bits ∧ bits % 2 ^ 64 = e.value.toNat ∧ bits / 2 ^ 64 % 2 ^ 16 = e.seq.toNat ∧
      bits.testBit 84 = true ∧ (bits.testBit 85 ↔ cause = 4) ∧ bits.testBit 86 = e.acq ∧ bits.testBit 87 = false ∧ bits / 2 ^ 88 = 0 := by
  obtain ⟨hlow, hvalue, hseq, hlost, hlease, hacq, hlive, hhigh⟩ :=
    slotBits_fields e.value e.seq (Config.lossCount s.time).toNat e.acq false true (cause == 4) _ rfl
  refine ⟨_, ?_, hvalue, hseq, hlost, ?_, hacq, hlive, hhigh⟩
  · exact (leNat_writeSlot hwf off _).trans hlow
  · rw [hlease, beq_iff_eq]

/-- A subscription that is not parked is lost at its home, and its slot with it. -/
theorem exec_subLoss {cause : Nat} (h1 : 1 ≤ cause) (h4 : cause ≤ 4) (hx : sfind (s.home home).subs idx = some x) (hst : x.st ≠ .parked) :
    ∃ f : Hub → Hub, exec (.subLoss home idx cause) s = .next (loseSlot ((dropSub s home idx).modHub f) home x.tid x.off cause) := by
  have he : exec (.subLoss home idx cause) s = execSubLoss home idx cause s := rfl
  have hdue : 1 ≤ cause ∧ cause ≤ 4 ∧ ¬ (cause = 4 ∧ (x.st == .parked) = true) := ⟨h1, h4, fun h => hst (beq_iff_eq.mp h.2)⟩
  rw [he, execSubLoss]
  simp only [hx, if_pos hdue, loseSub, if_neg hst]
  exact ⟨_, rfl⟩

theorem losses_holds : losses := by
  intro home idx cause x d s h1 h4 hx hst hslot hopen hcore hwf hsorted last value seq r
  obtain ⟨f, hexec⟩ := exec_subLoss h1 h4 hx hst
  have hfree : sfind (((dropSub s home idx).modHub f).home home).subs idx = none := by
    rw [home_modHub, home_dropSub hx]
    exact sfind_sdel_self hsorted idx
  have hslot0 : ((dropSub s home idx).modHub f).dirSlot x.tid x.off = some d := hslot
  have htarget0 : ((dropSub s home idx).modHub f).asyncTarget d.gid = s.asyncTarget d.gid := rfl
  have hroom0 (n : Nat) : asyncRoom ((dropSub s home idx).modHub f) n = asyncRoom s n := rfl
  obtain ⟨hdrained, e, he, hvalue, hseq, hacq, hgid⟩ := drainSlot_spec hslot0 (x.tid / 32)
  rw [← hcore] at hvalue hseq
  have hwork := closedSlot_work hdrained cause e
  have hclosed := closedSlot_slot ((dropSub s home idx).modHub f) x.tid x.off cause e
  have hbits := closedSlot_bits (hdrained.scratch x.tid hwf) cause e
  have hrecord : asyncRecord 0x13 (home * 2 ^ 8 + cause) (BitVec.ofNat 64 x.off) e.seq.toNat = r := by
    rw [asyncRecord_lost, hseq]
    rfl
  have htarget := (hwork.asyncTarget d.gid).trans htarget0
  refine ⟨_, hexec.trans (congrArg _ (loseSlot_eq hslot0 hopen he home cause)), ?_⟩
  rw [hrecord, hgid]
  generalize closedSlot ((dropSub s home idx).modHub f) x.tid x.off cause e = u at hwork hclosed hbits htarget
  obtain ⟨n, htrap⟩ := trapWork_raiseAsync u d.gid r .none
  have hhome : (raiseAsync u d.gid r .none).home home = u.home home := congrArg (fun m => sget Home.reset m home) htrap.homes
  have hteam : (raiseAsync u d.gid r .none).team x.tid = u.team x.tid := congrArg (fun m => sget Team.reset m x.tid) htrap.teams
  refine ⟨?_, (htrap.slots _ _).trans hclosed, ?_, fun hnone => ?_, fun n hsome => ?_⟩
  · rw [hhome]
    exact hwork.places.free hfree
  · rw [hvalue, hseq, hacq] at hbits
    rw [hteam]
    exact hbits
  · rw [raiseAsync_none (htarget.trans hnone)]
    exact ⟨hwork.groups, _, by rw [State.post, modReferee_referee, hwork.referee]; rfl, rfl⟩
  · rw [raiseAsync_some (htarget.trans hsome)]
    refine ⟨fun j hj => ((trapWork_queueAsync _ _ _ _ _).groups j hj).trans (hwork.group j), ?_⟩
    intro entry hroom hframe
    have hgroup : u.group n = s.group n := hwork.group n
    rw [queueAsync_framed ((hwork.asyncRoom n).trans ((hroom0 n).trans hroom)) (by rwa [hgroup]), hgroup]
    rfl

end Sys2Proof.Machine
end

section
/-! LDS and UNSUB of one lane (O35): an entry made at the home and at the core, a slot that closes. -/
namespace Sys2Proof.Machine

variable {s t u : State} {o : LogOp} {d : DirSlot} {a : Acc} {h : Hit} {tid off core home idx l : Nat} {acq : Bool} {sc : Nat}

/-! ## Predicates of a logged operation -/

/-- A predicate written before an operation leaves the log. -/
theorem Served.after_regs {f : Group → Group} (a : Served (s.modGroup o.gid f) t o) (hf : RegsOnly (s.group o.gid) (f (s.group o.gid))) : Served s t o where
  wf := a.wf
  groups j hj := (a.groups j hj).trans (group_modGroup_ne _ _ _ _ (Ne.symm hj))
  group := by
    have hk := a.group
    rw [group_modGroup, hf] at hk
    exact ⟨hk.core, hk.part, hk.tid, hk.num, hk.role, hk.budget, hk.queue, hk.frame, hk.parked, hk.parkSerial, hk.solo, hk.openBatch, hk.openLeft, hk.closed, hk.posts,
      hk.postNo, hk.withdrawn, hk.retired⟩
  issueNo := by rw [a.issueNo, group_modGroup, hf.issueNo]
  counted i hi hb := by
    have hc := a.counted i
    rw [group_modGroup, Group.slice, Group.slice, hf.slices] at hc
    exact hc hi hb
  others i hb := by rw [a.others i hb, group_modGroup, Group.slice, hf.slices, Group.slice]
  log := by
    have hl := a.log
    rw [group_modGroup, hf] at hl
    exact hl
  logs i hi := a.logs i (by rw [group_modGroup, hf]; exact hi)
  referee := a.referee
  cur := a.cur
  inputs := a.inputs
  time := a.time

/-- What an operation of one lane answers: its predicate in that lane (R25), and no register besides. -/
def answersLane (g k : Group) (l : Nat) (p : BitVec 4) (b : Bool) : Prop :=
  SameV g k never ∧ SameU g k never ∧ (p.toNat % 8 ≠ 7 → (k.preds.getD (p.toNat % 8) 0).getLsbD l = (b != decide (8 ≤ p.toNat)))

theorem answersLane_pput {g k : Group} (hv : k.vregs = g.vregs) (hu : k.uregs = g.uregs) {p : BitVec 4} {b : Bool} {f : Nat → Option Bool} (hl : l < 256) (hf : f l = some b) :
    answersLane g (pput k p.toNat f) l p b := by
  refine ⟨fun n i _ => vget_congr ?_ n i, fun n _ => uget_congr ?_ n, fun h7 => ?_⟩
  · rw [pput_eq]
    exact hv
  · rw [pput_eq]
    exact hu
  · have hp : p.toNat % 16 = p.toNat := Nat.mod_eq_of_lt p.isLt
    rw [pput_bit _ _ _ _ h7 hl, hf, hp, Option.map_some, Option.getD_some]

/-! ## Subscribing (R183) -/

/-- A subscription enters its home's table and its core's directory, and the core's die takes a read lease. -/
def subscribe (s : State) (x : Sub) (e : DirSlot) : State :=
  (grantLease (s.modHome (homeOf x.word) fun k => { k with subs := sput k.subs e.idx x, seqs := sput k.seqs x.word x.lastSeq }) (dieOf x.core) x.word false).modCore x.core
    fun k => { k with directory := k.directory ++ [e] }

theorem subscribe_home (s : State) (x : Sub) (e : DirSlot) : ((subscribe s x e).home (homeOf x.word)).subs = sput (s.home (homeOf x.word)).subs e.idx x ∧
    ((subscribe s x e).home (homeOf x.word)).seqs = sput (s.home (homeOf x.word)).seqs x.word x.lastSeq := by
  have hlease := sameSubs_grantLease (s.modHome (homeOf x.word) fun k => { k with subs := sput k.subs e.idx x, seqs := sput k.seqs x.word x.lastSeq }) (dieOf x.core) x.word
    false (homeOf x.word)
  rw [home_modHome] at hlease
  exact hlease

theorem subscribe_mem (s : State) (x : Sub) (e : DirSlot) : (subscribe s x e).mem = s.mem :=
  (asks_grantLease (s.modHome (homeOf x.word) fun k => { k with subs := sput k.subs e.idx x, seqs := sput k.seqs x.word x.lastSeq }) _ _ _).mem

theorem subscribe_slot {x : Sub} {e : DirSlot} (hcore : x.core = e.tid / 32) (hfree : s.dirSlot e.tid e.off = none) :
    (subscribe s x e).dirSlot e.tid e.off = some e := by
  have hasks := asks_grantLease (s.modHome (homeOf x.word) fun k => { k with subs := sput k.subs e.idx x, seqs := sput k.seqs x.word x.lastSeq }) (dieOf x.core) x.word false
  have hself : ((e.tid == e.tid) && e.off == e.off) = true := by rw [beq_self_eq_true, beq_self_eq_true, Bool.and_self]
  rw [State.dirSlot] at hfree
  rw [State.dirSlot, subscribe, hcore, core_modCore, State.core, ← hcore, hasks.cores, hcore]
  rw [modHome_cores, ← State.core, List.find?_append, hfree, Option.none_or, List.find?_cons, hself]

/-- Stages that keep what performing keeps, and the teams. -/
theorem subscribe_kept (s : State) (x : Sub) (e : DirSlot) : PerformKept s (subscribe s x e) ∧ (subscribe s x e).teams = s.teams := by
  have htraffic := (traffic_modHome s (homeOf x.word) fun k => { k with subs := sput k.subs e.idx x, seqs := sput k.seqs x.word x.lastSeq }).trans
    (traffic_grantLease _ (dieOf x.core) x.word false)
  rw [subscribe]
  refine ⟨htraffic.performKept.trans ⟨id, rfl, fun k => ?_, rfl, rfl, rfl, rfl⟩, htraffic.teams⟩
  by_cases hk : x.core = k
  · rw [hk, core_modCore]
  · rw [core_modCore_ne _ _ _ _ hk]

/-! ## One lane of an LDS (R183) -/

/-- A word at the homes reads the same where memory, hub and time are the same. -/
theorem pread_congr (hmem : t.mem = s.mem) (hhub : t.hub = s.hub) (htime : t.time = s.time) (pa n : Nat) : t.pread pa n = s.pread pa n := by
  have hbyte (a : Nat) : t.pbyte a = s.pbyte a := by
    unfold State.pbyte State.recordByte State.frameRec State.route
    rw [hmem, hhub, htime]
  simp only [State.pread, State.pbytes, hbyte]

theorem pread_lt (s : State) (pa n : Nat) : s.pread pa n < 2 ^ (8 * n) := by
  have hlt := leNat_lt (s.pbytes pa n)
  rwa [State.pbytes, List.length_map, List.length_range] at hlt

/-- The flush before an LDS finds no line, and changes no byte, no home and nothing of the hub. -/
theorem flushed_absent {va : Nat} (habsent : (s.core (s.group o.gid).core).l1Find (s.asid (s.group o.gid).tid) (s.vmid (s.group o.gid).tid) (va / 128) = none) :
    ∃ u, (if h.attr = 0 then flushFor s o.gid va else s) = u ∧ Traffic s u ∧ u.mem = s.mem ∧ u.homes = s.homes ∧ u.hub = s.hub := by
  refine ⟨_, rfl, .ite (traffic_flushFor _ _ _) (.refl s), ?_⟩
  obtain ⟨f, hf⟩ := flushFor_absent habsent
  split
  · rw [hf]
    exact ⟨rfl, rfl, rfl⟩
  · exact ⟨rfl, rfl, rfl⟩

/-- An LDS lane finds room for its subscription: in the core's directory and in the home's table, at a page that is not IO (R183). -/
def ldsRoom (s : State) (tid : Nat) (h : Hit) : Bool :=
  decide ((s.core (tid / 32)).directory.length < 4096) && decide ((s.home (homeOf h.pa)).subs.length < 65536) && h.attr != 2 && decide (homeOf h.pa < 6)

theorem ldsRoom_iff : ldsRoom s tid h = true ↔
    (s.core (tid / 32)).directory.length < 4096 ∧ (s.home (homeOf h.pa)).subs.length < 65536 ∧ h.attr ≠ 2 ∧ homeOf h.pa < 6 := by
  simp only [ldsRoom, Bool.and_eq_true, decide_eq_true_eq, bne_iff_ne, and_assoc]

/-- The subscription that an LDS lane makes, as its home keeps it. -/
def ldsSub (s : State) (o : LogOp) (acq : Bool) (sc off : Nat) (h : Hit) : Sub :=
  { word := h.pa, core := (s.group o.gid).tid / 32, tid := (s.group o.gid).tid, off := off, acq := acq, scope := sc, lcore := (s.group o.gid).core, st := .live,
    lastSeq := sget 0 (s.home (homeOf h.pa)).seqs h.pa, skip := 0 }

/-- The same as the core's directory keeps it. -/
def ldsSlot (s : State) (o : LogOp) (acq : Bool) (off : Nat) (h : Hit) : DirSlot :=
  { tid := (s.group o.gid).tid, off := off, st := .live, gid := o.gid, home := homeOf h.pa, idx := freeIdx 0 (s.home (homeOf h.pa)).subs, acq := acq,
    value := BitVec.ofNat 64 (s.pread h.pa 8), seq := sget 0 (s.home (homeOf h.pa)).seqs h.pa, count := 0, refuses := false }

/-- The bits that an LDS lane writes to its slot. -/
def ldsBits (s : State) (o : LogOp) (acq : Bool) (h : Hit) : Nat :=
  slotBits (BitVec.ofNat 64 (s.pread h.pa 8)) (sget 0 (s.home (homeOf h.pa)).seqs h.pa) 0 (ldsRoom s (s.group o.gid).tid h && acq) (ldsRoom s (s.group o.gid).tid h) false false

theorem ldsLane_taken (hoff : slotOff s (s.group o.gid).tid (o.value a.lane % 2 ^ 64) = some off) (htaken : (s.dirSlot (s.group o.gid).tid off).isSome = true) :
    ldsLane s o acq sc a h = (s, false) := by
  simp only [ldsLane, hoff, htaken, if_true]

/-- A lane that names a free slot: the subscription where there is room, a read at the home, and the whole slot. -/
theorem ldsLane_free (hoff : slotOff s (s.group o.gid).tid (o.value a.lane % 2 ^ 64) = some off) (hfree : s.dirSlot (s.group o.gid).tid off = none)
    (hmoves : s.hub.moves = []) (habsent : (s.core (s.group o.gid).core).l1Find (s.asid (s.group o.gid).tid) (s.vmid (s.group o.gid).tid) (a.va / 128) = none)
    (hsync : acq = false ∨ s.syncFind h.pa = none) :
    ∃ u, Traffic s u ∧ u.mem = s.mem ∧ u.homes = s.homes ∧ ldsLane s o acq sc a h =
      (writeSlot (lineRequest (if ldsRoom s (s.group o.gid).tid h then subscribe u (ldsSub s o acq sc off h) (ldsSlot s o acq off h) else u)
        (s.partOf (s.group o.gid).tid) (dieOf (s.group o.gid).core) h.pa .homeRead) (s.group o.gid).tid off (ldsBits s o acq h), ldsRoom s (s.group o.gid).tid h) := by
  obtain ⟨u, hu, htraffic, hmem, hhomes, hhub⟩ := flushed_absent (h := h) habsent
  refine ⟨u, htraffic, hmem, hhomes, ?_⟩
  have hroute : u.route h.pa = h.pa := route_eq (by rw [hhub, hmoves]) _
  have hhome (k : Nat) : u.home k = s.home k := congrArg (fun m => sget Home.reset m k) hhomes
  have hdirectory : (u.core ((s.group o.gid).tid / 32)).directory = (s.core ((s.group o.gid).tid / 32)).directory := by rw [htraffic.cores]
  have hroom : (decide ((u.core ((s.group o.gid).tid / 32)).directory.length < 4096) && decide ((s.home (homeOf h.pa)).subs.length < 65536) && h.attr != 2 &&
      decide (homeOf h.pa < 6)) = ldsRoom s (s.group o.gid).tid h := by rw [hdirectory, ldsRoom]
  have hjoin (b : Bool) : (if (b && acq) = true then syncJoin u h.pa (.core (s.group o.gid).core) else u) = u := by
    obtain hplain | hnone := hsync
    · rw [hplain, Bool.and_false, if_neg Bool.false_ne_true]
    · have hfind : u.syncFind h.pa = none := by rw [State.syncFind, hhub]; exact hnone
      have hsame : syncJoin u h.pa (.core (s.group o.gid).core) = u := by simp only [syncJoin, hfind]
      rw [hsame, ite_self]
  have hread := pread_congr hmem hhub htraffic.time h.pa 8
  simp only [ldsLane, hoff, hfree, Option.isSome_none, Bool.false_eq_true, if_false, hu, hroute, hhome, hroom, hjoin, hread]
  rw [ldsBits]
  cases ldsRoom s (s.group o.gid).tid h
  · rfl
  · rfl

/-! ## LDS is performed (R183) -/

theorem exec_loadDataReturn {id : Nat} (hfind : s.findOp core id = some o) (hready : opReady s o = true) :
    exec (.loadDataReturn core id) s = .next (returnLoad s o) := by
  have he : exec (.loadDataReturn core id) s = execLoadDataReturn core id s := rfl
  rw [he, execLoadDataReturn, performOp, hfind]
  simp only [hready, if_true]

theorem returnLoad_lds {p : BitVec 4} (hk : o.kind = .lds p acq sc) (hh : o.hits = [[h]]) (hact : lanesOf o.active = [l]) :
    ∃ f : Nat → Option Bool, f l = some (ldsLane s o acq sc ⟨l, o.ea l, 8⟩ h).2 ∧
      returnLoad s o = (finishOp (ldsLane s o acq sc ⟨l, o.ea l, 8⟩ h).1 o).modGroup o.gid fun g => pput g p.toNat f := by
  have hplaced : s.placed o = [(⟨l, o.ea l, 8⟩, [h])] := by
    simp only [State.placed, State.accesses, hk, hact, hh, List.map_cons, List.map_nil, List.zip_cons_cons, List.zip_nil_left]
  refine ⟨fun k => ([(l, (ldsLane s o acq sc ⟨l, o.ea l, 8⟩ h).2)].find? fun e => e.1 == k).map (·.2), ?_, ?_⟩
  · simp only [List.find?_cons, beq_self_eq_true, Option.map_some]
  · simp only [returnLoad, hk, doLds, hplaced, List.foldl_cons, List.foldl_nil, List.nil_append]

/-- The answer of an LDS after stages that leave its group alone. -/
theorem lds_answers {p : BitVec 4} {b : Bool} {f : Nat → Option Bool} (hkept : PerformKept s u) (hl : l < 256) (hf : f l = some b) :
    Served s ((finishOp u o).modGroup o.gid fun g => pput g p.toNat f) o ∧
      answersLane (s.group o.gid) (((finishOp u o).modGroup o.gid fun g => pput g p.toNat f).group o.gid) l p b := by
  refine ⟨((served_finishOp u o).after_stage hkept).then_regs fun g => pput_regsOnly g _ _, ?_⟩
  obtain ⟨hv, -, hu, -⟩ := hkept.group o.gid ▸ finishOp_regs u o
  rw [group_modGroup]
  exact answersLane_pput hv hu hl hf

theorem slotsKept_answered (s : State) (o : LogOp) (f : Group → Group) : SlotsKept s ((finishOp s o).modGroup o.gid f) :=
  ⟨rfl, rfl, (slotsKept_finishOp s o).slots⟩

/-- The bits of a slot that an LDS writes (R183). -/
theorem ldsBits_eq (s : State) (o : LogOp) (acq : Bool) (h : Hit) : ldsBits s o acq h = s.pread h.pa 8 + (sget 0 (s.home (homeOf h.pa)).seqs h.pa).toNat * 2 ^ 64 +
    (if ldsRoom s (s.group o.gid).tid h = true ∧ acq = true then 2 ^ 86 else 0) + (if ldsRoom s (s.group o.gid).tid h = true then 2 ^ 87 else 0) := by
  have hvalue : (BitVec.ofNat 64 (s.pread h.pa 8)).toNat = s.pread h.pa 8 := BitVec.toNat_ofNat _ _ ▸ Nat.mod_eq_of_lt (pread_lt s h.pa 8)
  have hsum (v q x y z a b : Nat) (r c : Bool) : v + q + min 0 15 * x + false.toNat * y + false.toNat * z + (r && c).toNat * a + r.toNat * b =
      v + q + (if r = true ∧ c = true then a else 0) + (if r = true then b else 0) := by
    cases r <;> cases c <;> simp
  rw [ldsBits, slotBits, hvalue]
  exact hsum _ _ _ _ _ _ _ _ _

/-- The state after the slot of an LDS is written: memory as it was, the slot's bytes, and homes and directories as the lane left them. -/
theorem lds_written {v : State} (hwf : Memory.wf (v.team tid).scratch) (part agent pa off x : Nat) :
    let u := writeSlot (lineRequest v part agent pa .homeRead) tid off x
    u.mem = v.mem ∧ (∀ k, bget (u.team tid).scratch k = if off ≤ k ∧ k < off + 16 then BitVec.ofNat 8 (x / 2 ^ (8 * (k - off))) else bget (v.team tid).scratch k) ∧
      SameSubs v u ∧ (∀ i j, u.dirSlot i j = v.dirSlot i j) ∧ PerformKept v u := by
  intro u
  have htraffic := traffic_lineRequest v part agent pa .homeRead
  have hteam := htraffic.team tid
  refine ⟨(asks_lineRequest v part agent pa .homeRead).mem, fun k => ?_, sameSubs_lineRequest v part agent pa .homeRead, htraffic.dirSlot,
    htraffic.performKept.trans (performKept_modTeam _ _ _)⟩
  rw [← hteam]
  exact bget_writeSlot _ (by rwa [hteam]) off x k

/-- LDS of one lane at a slot that is taken (R183). -/
theorem lds_taken {id : Nat} {p : BitVec 4} (hfind : s.findOp core id = some o) (hready : opReady s o = true) (hk : o.kind = .lds p acq sc) (hh : o.hits = [[h]])
    (hact : lanesOf o.active = [l]) (hoff : slotOff s (s.group o.gid).tid (o.value l % 2 ^ 64) = some off)
    (htaken : (s.dirSlot (s.group o.gid).tid off).isSome = true) :
    Completes (.loadDataReturn core id) s fun t => Served s t o ∧ answersLane (s.group o.gid) (t.group o.gid) l p false ∧ t.mem = s.mem ∧ t.teams = s.teams ∧
      t.homes = s.homes ∧ t.hub = s.hub := by
  obtain ⟨f, hf, hreturn⟩ := returnLoad_lds (s := s) hk hh hact
  rw [ldsLane_taken (a := ⟨l, o.ea l, 8⟩) hoff htaken] at hf hreturn
  obtain ⟨hserved, hanswers⟩ := lds_answers (PerformKept.refl s) (lt_of_mem_lanesOf (hact ▸ List.mem_singleton_self l)) hf
  exact ⟨_, (exec_loadDataReturn hfind hready).trans (congrArg _ hreturn), hserved, hanswers, rfl, rfl, rfl, rfl⟩

/-- LDS of one lane at a free slot (R183). -/
theorem lds_free {id : Nat} {p : BitVec 4} (hfind : s.findOp core id = some o) (hready : opReady s o = true) (hk : o.kind = .lds p acq sc) (hh : o.hits = [[h]])
    (hact : lanesOf o.active = [l]) (hoff : slotOff s (s.group o.gid).tid (o.value l % 2 ^ 64) = some off) (hfree : s.dirSlot (s.group o.gid).tid off = none)
    (hmoves : s.hub.moves = []) (habsent : (s.core (s.group o.gid).core).l1Find (s.asid (s.group o.gid).tid) (s.vmid (s.group o.gid).tid) (o.ea l / 128) = none)
    (hsync : acq = false ∨ s.syncFind h.pa = none) (hwf : Memory.wf (s.team (s.group o.gid).tid).scratch)
    (hsorted : ((s.home (homeOf h.pa)).subs.map (·.1)).Pairwise (· < ·)) :
    Completes (.loadDataReturn core id) s fun t => Served s t o ∧ answersLane (s.group o.gid) (t.group o.gid) l p (ldsRoom s (s.group o.gid).tid h) ∧ t.mem = s.mem ∧
      (∀ a, bget (t.team (s.group o.gid).tid).scratch a = if off ≤ a ∧ a < off + 16 then BitVec.ofNat 8 (ldsBits s o acq h / 2 ^ (8 * (a - off)))
        else bget (s.team (s.group o.gid).tid).scratch a) ∧
      (ldsRoom s (s.group o.gid).tid h = false → t.dirSlot (s.group o.gid).tid off = none ∧ ∀ k, (t.home k).subs = (s.home k).subs) ∧
      (ldsRoom s (s.group o.gid).tid h = true → sget 0 (t.home (homeOf h.pa)).seqs h.pa = sget 0 (s.home (homeOf h.pa)).seqs h.pa ∧ ∃ idx,
        idx = freeIdx 0 (s.home (homeOf h.pa)).subs ∧ sfind (s.home (homeOf h.pa)).subs idx = none ∧
        sfind (t.home (homeOf h.pa)).subs idx = some (ldsSub s o acq sc off h) ∧
        (∀ j, j ≠ idx → sfind (t.home (homeOf h.pa)).subs j = sfind (s.home (homeOf h.pa)).subs j) ∧
        t.dirSlot (s.group o.gid).tid off = some (ldsSlot s o acq off h)) := by
  obtain ⟨f, hf, hreturn⟩ := returnLoad_lds (s := s) hk hh hact
  obtain ⟨u, htraffic, hmem, hhomes, hlane⟩ := ldsLane_free (sc := sc) (a := ⟨l, o.ea l, 8⟩) hoff hfree hmoves habsent hsync
  rw [hlane] at hf hreturn
  have hhome (k : Nat) : u.home k = s.home k := congrArg (fun m => sget Home.reset m k) hhomes
  generalize hv : (if ldsRoom s (s.group o.gid).tid h then subscribe u (ldsSub s o acq sc off h) (ldsSlot s o acq off h) else u) = v at hreturn
  obtain ⟨hkept, hteams⟩ := subscribe_kept u (ldsSub s o acq sc off h) (ldsSlot s o acq off h)
  have hvkept : PerformKept s v := by
    rw [← hv]
    split
    · exact htraffic.performKept.trans hkept
    · exact htraffic.performKept
  have hvteam : v.team (s.group o.gid).tid = s.team (s.group o.gid).tid := by
    rw [← htraffic.team, ← hv, State.team, apply_ite State.teams, hteams, ite_self, State.team]
  have hvmem : v.mem = s.mem := by rw [← hv, apply_ite State.mem, subscribe_mem, ite_self, hmem]
  obtain ⟨hwmem, hbytes, hsubs, hslots, hwkept⟩ := lds_written (v := v) (tid := (s.group o.gid).tid) (by rwa [hvteam]) (s.partOf (s.group o.gid).tid)
    (dieOf (s.group o.gid).core) h.pa off (ldsBits s o acq h)
  generalize writeSlot (lineRequest v _ _ h.pa .homeRead) _ off (ldsBits s o acq h) = w at hreturn hwmem hbytes hsubs hslots hwkept
  obtain ⟨hserved, hanswers⟩ := lds_answers (hvkept.trans hwkept) (lt_of_mem_lanesOf (hact ▸ List.mem_singleton_self l)) hf
  have hsame := slotsKept_answered w o fun g => pput g p.toNat f
  have hdir : ((finishOp w o).modGroup o.gid fun g => pput g p.toNat f).dirSlot (s.group o.gid).tid off = v.dirSlot (s.group o.gid).tid off :=
    (hsame.slots _ _).trans (hslots _ _)
  have htable (k : Nat) : (((finishOp w o).modGroup o.gid fun g => pput g p.toNat f).home k).subs = (v.home k).subs ∧
      (((finishOp w o).modGroup o.gid fun g => pput g p.toNat f).home k).seqs = (v.home k).seqs := hsubs k
  refine ⟨_, (exec_loadDataReturn hfind hready).trans (congrArg _ hreturn), hserved, hanswers, hwmem.trans hvmem, fun a => ?_, fun hno => ?_, fun hroom => ?_⟩
  · rw [← hvteam]
    exact hbytes a
  · rw [hno, if_neg Bool.false_ne_true] at hv
    refine ⟨?_, fun k => ?_⟩
    · rw [hdir, ← hv, htraffic.dirSlot, hfree]
    · rw [(htable k).1, ← hv, hhome]
  · rw [if_pos hroom] at hv
    obtain ⟨hnew, hseqs⟩ := subscribe_home u (ldsSub s o acq sc off h) (ldsSlot s o acq off h)
    have hunlisted := sfind_freeIdx hsorted
    have hentries (j : Nat) : sfind (((finishOp w o).modGroup o.gid fun g => pput g p.toNat f).home (homeOf h.pa)).subs j =
        if freeIdx 0 (s.home (homeOf h.pa)).subs = j then some (ldsSub s o acq sc off h) else sfind (s.home (homeOf h.pa)).subs j := by
      rw [(htable _).1, ← hv, ← sfind_sput, ← hhome]
      exact congrArg (fun m => sfind m j) (hnew.trans (by rw [ldsSlot, ← hhome]; rfl))
    refine ⟨?_, _, rfl, hunlisted, ?_, fun j hj => ?_, ?_⟩
    · rw [(htable _).2, ← hv]
      refine (congrArg (fun m => sget 0 m h.pa) hseqs).trans ?_
      exact sget_sput_self _ _ _ _
    · rw [hentries, if_pos rfl]
    · rw [hentries, if_neg (Ne.symm hj)]
    · rw [hdir, ← hv]
      exact subscribe_slot (e := ldsSlot s o acq off h) rfl ((htraffic.dirSlot _ _).trans hfree)

/-! ## UNSUB (R185) -/

theorem performStore_unsub {p : BitVec 4} (hk : o.kind = .unsub p false) : performStore s o = doUnsub s o p := by
  simp only [performStore, hk, Bool.false_eq_true, if_false]

/-- The predicate of an UNSUB in the lanes that have closed a slot. -/
def unsubAnswer (o : LogOp) (closed : List Nat) (k : Nat) : Option Bool := if o.active.getLsbD k then some (closed.contains k) else none

theorem unsubAnswer_lane (hact : lanesOf o.active = [l]) (closed : List Nat) : l < 256 ∧ unsubAnswer o closed l = some (closed.contains l) := by
  have hmem : l ∈ lanesOf o.active := hact ▸ List.mem_singleton_self l
  exact ⟨lt_of_mem_lanesOf hmem, if_pos (List.mem_filter.mp hmem).2⟩

/-- An UNSUB of a FREE or a CLOSING slot leaves it. -/
theorem doUnsub_leaves {p : BitVec 4} (hact : lanesOf o.active = [l]) (hoff : slotOff s (s.group o.gid).tid (o.value l % 2 ^ 64) = some off)
    (hleft : s.dirSlot (s.group o.gid).tid off = none ∨ ∃ d, s.dirSlot (s.group o.gid).tid off = some d ∧ d.st = .closing) :
    doUnsub s o p = finishOp (s.modGroup o.gid fun g => pput g p.toNat (unsubAnswer o [])) o := by
  obtain hfree | ⟨d, hslot, hclosing⟩ := hleft
  · simp only [doUnsub, hact, List.foldl_cons, List.foldl_nil, hoff, hfree, List.isEmpty_nil, if_true]
    rfl
  · simp only [doUnsub, hact, List.foldl_cons, List.foldl_nil, hoff, hslot, hclosing, List.isEmpty_nil, if_true]
    rfl

/-- The slot closes and its home is asked to remove it. -/
def closing (s : State) (tid off : Nat) : State :=
  (s.modSlot tid off fun y => { y with st := .closing }).modHub fun h => { h with subMsgs := h.subMsgs ++ [.remove (tid / 32) tid off] }

theorem doUnsub_closes {p : BitVec 4} (hact : lanesOf o.active = [l]) (hoff : slotOff s (s.group o.gid).tid (o.value l % 2 ^ 64) = some off)
    (hslot : s.dirSlot (s.group o.gid).tid off = some d) (hopen : d.st ≠ .closing) :
    doUnsub s o p = putOp ((closing s (s.group o.gid).tid off).modGroup o.gid fun g => pput g p.toNat (unsubAnswer o [l]))
      { o with kind := .unsub p true, left := laneSet fun k => k == l } := by
  have hone (k : Nat) : [l].contains k = (k == l) := by rw [List.contains_cons, List.contains_nil, Bool.or_false]
  simp only [doUnsub, hact, List.foldl_cons, List.foldl_nil, hoff, hslot, if_neg hopen, List.nil_append, List.isEmpty_cons, Bool.false_eq_true, if_false, ← hone]
  rfl

theorem unsub_leaves {id : Nat} {p : BitVec 4} (hfind : s.findOp core id = some o) (hready : opReady s o = true) (hk : o.kind = .unsub p false)
    (hact : lanesOf o.active = [l]) (hoff : slotOff s (s.group o.gid).tid (o.value l % 2 ^ 64) = some off)
    (hleft : s.dirSlot (s.group o.gid).tid off = none ∨ ∃ d, s.dirSlot (s.group o.gid).tid off = some d ∧ d.st = .closing) :
    Completes (.storePerformed core id) s fun t => Served s t o ∧ answersLane (s.group o.gid) (t.group o.gid) l p false ∧ t.mem = s.mem ∧ t.teams = s.teams ∧
      t.homes = s.homes ∧ t.hub = s.hub ∧ ∀ k, (t.core k).directory = (s.core k).directory := by
  obtain ⟨hl, hanswer⟩ := unsubAnswer_lane hact []
  have hexec := (exec_storePerformed hfind hready).trans (congrArg _ ((performStore_unsub hk).trans (doUnsub_leaves (p := p) hact hoff hleft)))
  refine ⟨_, hexec, (served_finishOp _ o).after_regs (pput_regsOnly _ _ _), ?_, rfl, rfl, rfl, rfl, fun k => ?_⟩
  · have hgroup : (finishOp (s.modGroup o.gid fun g => pput g p.toNat (unsubAnswer o [])) o).group o.gid =
        uncountOp (pput (s.group o.gid) p.toNat (unsubAnswer o [])) o.kind o.gang o.active := by rw [finishOp_group, group_modGroup]
    rw [hgroup]
    exact answersLane_pput rfl rfl hl hanswer
  · rw [finishOp_core]
    split <;> rfl

theorem unsub_closes {id : Nat} {p : BitVec 4} (hfind : s.findOp core id = some o) (hcore : (s.group o.gid).core = core) (hready : opReady s o = true)
    (hk : o.kind = .unsub p false) (hact : lanesOf o.active = [l]) (hoff : slotOff s (s.group o.gid).tid (o.value l % 2 ^ 64) = some off)
    (hslot : s.dirSlot (s.group o.gid).tid off = some d) (hopen : d.st ≠ .closing) :
    Completes (.storePerformed core id) s fun t => answersLane (s.group o.gid) (t.group o.gid) l p true ∧ t.mem = s.mem ∧ t.teams = s.teams ∧ t.homes = s.homes ∧
      t.hub = { s.hub with subMsgs := s.hub.subMsgs ++ [.remove ((s.group o.gid).tid / 32) (s.group o.gid).tid off] } ∧
      t.dirSlot (s.group o.gid).tid off = some { d with st := .closing } ∧ (∀ i, (t.group o.gid).slice i = (s.group o.gid).slice i) ∧
      (t.core core).log = (s.core core).log.map fun q => if q.id = o.id then { o with kind := .unsub p true, left := laneSet fun k => k == l } else q := by
  obtain ⟨hl, hanswer⟩ := unsubAnswer_lane hact [l]
  rw [List.contains_cons, beq_self_eq_true, Bool.true_or] at hanswer
  have hexec := (exec_storePerformed hfind hready).trans (congrArg _ ((performStore_unsub hk).trans (doUnsub_closes (p := p) hact hoff hslot hopen)))
  generalize hq : ({ o with kind := .unsub p true, left := laneSet fun k => k == l } : LogOp) = q at hexec
  have hid : q.gid = o.gid ∧ q.id = o.id := by rw [← hq]; exact ⟨rfl, rfl⟩
  generalize hv : (closing s (s.group o.gid).tid off).modGroup o.gid (fun g => pput g p.toNat (unsubAnswer o [l])) = v at hexec
  have hgroup : (putOp v q).group o.gid = pput (s.group o.gid) p.toNat (unsubAnswer o [l]) := by
    rw [putOp, group_modCore, ← hv, group_modGroup]
    rfl
  have hvcore : (v.group o.gid).core = core := by
    rw [← hv, group_modGroup, pput_eq]
    exact hcore
  have hvlog : (v.core core).log = (s.core core).log := by
    rw [← hv, core_modGroup, closing, core_modHub, modSlot_core]
  refine ⟨_, hexec, ?_, ?_, ?_, ?_, ?_, ?_, fun i => ?_, ?_⟩
  · rw [hgroup]
    exact answersLane_pput rfl rfl hl hanswer
  · rw [← hv]
    rfl
  · rw [← hv]
    rfl
  · rw [← hv]
    rfl
  · rw [← hv]
    rfl
  · have hmod := dirSlot_modSlot s (s.group o.gid).tid off (f := fun y => { y with st := .closing }) fun _ => ⟨rfl, rfl⟩
    rw [hslot] at hmod
    rw [(slotsKept_putOp v q).slots, ← hv]
    exact hmod
  · rw [hgroup, pput_eq]
    rfl
  · rw [putOp, hid.1, hvcore, core_modCore, hvlog, hid.2]

/-! ## The statement -/

theorem subscribing_holds : subscribing := by
  intro core id s o h l off hfind hcore hready hact g tid answers hoff
  refine ⟨fun p acq sc hk hh hmoves habsent hsync hwf hsorted => ?_, fun p hk => ⟨fun hleft => ?_, fun d hslot hopen => ?_⟩⟩
  · intro home ok seq entry slot bits
    have hok : ldsRoom s (s.group o.gid).tid h = true ↔ ok := ldsRoom_iff
    refine ⟨fun htaken => lds_taken hfind hready hk hh hact hoff htaken, fun hfree => ?_⟩
    obtain ⟨t, hexec, hserved, hanswers, hmem, hbytes, hno, hyes⟩ := lds_free hfind hready hk hh hact hoff hfree hmoves (hcore ▸ habsent) hsync hwf hsorted
    have hdecide : ldsRoom s (s.group o.gid).tid h = decide ok := Bool.eq_iff_iff.mpr (hok.trans decide_eq_true_iff.symm)
    have hbits : ldsBits s o acq h = bits := by
      rw [ldsBits_eq]
      simp only [hok]
      rfl
    rw [hbits] at hbytes
    refine ⟨t, hexec, hserved, hdecide ▸ hanswers, hmem, hbytes, fun hnot => hno (Bool.eq_false_iff.mpr fun h => hnot (hok.mp h)), fun hroom => ?_⟩
    obtain ⟨hseqs, idx, hidx, hunlisted, hnew, hothers, hdir⟩ := hyes (hok.mpr hroom)
    refine ⟨hseqs, idx, hunlisted, hnew.trans ?_, hothers, hdir.trans ?_⟩
    · rw [ldsSub, hcore]
    · rw [ldsSlot, ← hidx]
  · exact unsub_leaves hfind hready hk hact hoff hleft
  · exact unsub_closes hfind hcore hready hk hact hoff hslot hopen

end Sys2Proof.Machine

namespace Sys2Proof
open Machine

/-- Settles O35: LDS and UNSUB of one lane (`lds_taken`, `lds_free`, `unsub_leaves`, `unsub_closes`), the loss of a subscription (`drainSlot_spec` says what its slot
last received), and each message between core and home. -/
theorem subscriptionsEnd : Obligations.SubscriptionsEnd := by
  unfold Obligations.SubscriptionsEnd
  refine ⟨subscribing_holds, losses_holds, fun n core tid off h i x s hmsg hsub hx hfirst => subRemove_holds hmsg hsub hx hfirst, ?_,
    fun n home idx x s hmsg hx => subPark_holds hmsg hx, fun n home idx core tid x s hmsg hx hparked => subRepoint_holds hmsg hx hparked⟩
  intro n core tid off d s hmsg _ hquiet hslot hinbox hwf
  exact unsubComplete_holds hmsg hquiet hslot hinbox hwf

end Sys2Proof
end

section
/-! The lines of an L1 after a clean, and FENCE and WAITC (O30). -/
namespace Sys2Proof.Machine

variable {s u : State} {c : Ctx} {core : Nat} {p : L1Line → Bool} {inv : Bool} {x : L1Line}

/-! ## What a clean makes of an L1 (R204, R207) -/

/-- Writing lines back changes no core. -/
theorem foldl_writeBackCells_cores (core : Nat) (l : List L1Line) (s : State) : (l.foldl (fun t x => writeBackCells t core x) s).cores = s.cores := by
  induction l generalizing s with
  | nil => rfl
  | cons y r ih => rw [List.foldl_cons, ih, writeBackCells_cores]

/-- The lines of an L1 after a clean of those that satisfy p: dropped with inv, else without dirty bytes. -/
def cleanedLines (p : L1Line → Bool) (inv : Bool) (l : List L1Line) : List L1Line :=
  if inv then l.filter fun x => !p x else l.map fun x => if p x then { x with dirty := 0 } else x

theorem cleanLines_core (s : State) (core : Nat) (p : L1Line → Bool) (inv : Bool) (k : Nat) :
    (cleanLines s core p inv).core k = if core = k then { s.core k with l1 := cleanedLines p inv (s.core k).l1 } else s.core k := by
  have hcore (j : Nat) : (((s.core core).l1.filter p).foldl (fun t x => writeBackCells t core x) s).core j = s.core j :=
    congrArg (fun m => sget Core.reset m j) (foldl_writeBackCells_cores core _ s)
  rw [cleanLines]
  by_cases h : core = k
  · rw [if_pos h, ← h, core_modCore, hcore]
    rfl
  · rw [if_neg h, core_modCore_ne _ _ _ _ h, hcore]

theorem cleanLines_lines (s : State) (core : Nat) (p : L1Line → Bool) (inv : Bool) :
    ((cleanLines s core p inv).core core).l1 = cleanedLines p inv (s.core core).l1 := by rw [cleanLines_core, if_pos rfl]

theorem mem_cleanedLines_dropped {l : List L1Line} (hx : x ∈ cleanedLines p true l) : p x = false :=
  Bool.not_eq_true' _ ▸ (List.mem_filter.mp hx).2

/-- A line that a clean names is not dirty afterwards. -/
theorem mem_cleanedLines_clean {l : List L1Line} (hx : x ∈ cleanedLines p inv l) (hpx : p x = true) : x.dirty = 0 := by
  cases inv with
  | true => exact absurd (mem_cleanedLines_dropped hx) (by rw [hpx]; decide)
  | false =>
    obtain ⟨y, -, rfl⟩ := List.mem_map.mp hx
    by_cases hy : p y = true
    · rw [if_pos hy]
    · rw [if_neg hy] at hpx
      exact absurd hpx hy

/-! ## The issue leaves what FENCE looks at -/

@[simp] theorem countIssue_asid (s : State) (c : Ctx) (tid : Nat) : (countIssue s c).asid tid = s.asid tid := by rw [State.asid, countIssue_bindField, State.asid]
@[simp] theorem countIssue_vmid (s : State) (c : Ctx) (tid : Nat) : (countIssue s c).vmid tid = s.vmid tid := by rw [State.vmid, countIssue_bindField, State.vmid]

@[simp] theorem countIssue_fenceWorks (s : State) (c : Ctx) (tid scope : Nat) : fenceWorks (countIssue s c) tid scope = fenceWorks s tid scope := by
  have hcores : (countIssue s c).teamCores tid = s.teamCores tid := by simp only [State.teamCores, countIssue_bindField]
  rw [fenceWorks, hcores, fenceWorks]

/-- No slice of the gang has an access outstanding. -/
theorem quiet_counted_iff (g : Group) (c : Ctx) :
    quiet (counted g c) c true = true ↔ ∀ i ∈ ctxSlices c, (g.slice i).loads = 0 ∧ (g.slice i).stores = 0 ∧ (g.slice i).atomics = 0 := by
  have hlike := counted_like g c
  simp only [quiet, List.all_eq_true, Bool.not_true, Bool.false_or, Bool.and_eq_true, beq_iff_eq, (hlike _).loads, (hlike _).stores, (hlike _).atomics, and_assoc]

/-! ## FENCE (R214) -/

theorem traffic_fenceWork (s : State) (g : Group) (scope : Nat) (clean inv : Bool) : Traffic s (fenceWork s g scope clean inv) := by
  rw [fenceWork]
  exact .ite (.refl s) (.ite (traffic_cleanLines _ _ _ _) (.ite (traffic_cleanLines _ _ _ _) (.refl s)))

theorem fenceWork_idle {g : Group} {scope : Nat} (h : fenceWorks s g.tid scope = false) (clean inv : Bool) : fenceWork s g scope clean inv = s := by
  simp only [fenceWork, h, Bool.not_false, if_true]

/-- At a scope that asks for cache work, INV drops the lines of the address space. -/
theorem fenceWork_invalidates {g : Group} {scope : Nat} (h : fenceWorks s g.tid scope = true) {clean : Bool}
    (hx : x ∈ ((fenceWork s g scope clean true).core g.core).l1) : ownLine s g x = false := by
  simp only [fenceWork, h, Bool.not_true, Bool.false_eq_true, if_false, if_true, cleanLines_lines] at hx
  exact mem_cleanedLines_dropped hx

/-- At a scope that asks for cache work, CLEAN leaves no dirty byte in them. -/
theorem fenceWork_cleans {g : Group} {scope : Nat} (h : fenceWorks s g.tid scope = true) {inv : Bool}
    (hx : x ∈ ((fenceWork s g scope true inv).core g.core).l1) (hown : ownLine s g x = true) : x.dirty = 0 := by
  have hclean (b : Bool) (hb : x ∈ ((cleanLines s g.core (ofAsid (s.asid g.tid) (s.vmid g.tid)) b).core g.core).l1) : x.dirty = 0 := by
    rw [cleanLines_lines] at hb
    exact mem_cleanedLines_clean hb hown
  simp only [fenceWork, h, Bool.not_true, Bool.false_eq_true, if_false, if_true] at hx
  cases inv with
  | true => exact hclean true hx
  | false => exact hclean false hx

/-- Retiring after work that leaves the groups alone: the gang goes on to the next word. -/
theorem retire_gangFlow (hu : u.groups = (countIssue s c).groups) :
    let t := retire u c (counted (s.group c.gid) c)
    GangFlow s t c onward ∧ RegsKept (s.group c.gid) (t.group c.gid) := by
  intro t
  have hgroup (j : Nat) : t.group j = (retire (countIssue s c) c (counted (s.group c.gid) c)).group j := by
    simp only [t, retire, State.group, setGroup_groups, hu]
  obtain ⟨beyond, group, regs, issueNo, slices, others⟩ := retire_onward s c
  exact ⟨⟨fun j hj => (hgroup j).trans (beyond.groups j hj), hgroup c.gid ▸ group, hgroup c.gid ▸ issueNo, hgroup c.gid ▸ slices, hgroup c.gid ▸ others⟩,
    hgroup c.gid ▸ regs⟩

theorem exec_fence (n cl : BitVec 1) (sc : BitVec 3) (s : State) : exec (.fence n cl sc) s = execFence n cl sc s := rfl

/-- What FENCE does once its word issues. -/
theorem fence_issued (n cl : BitVec 1) (sc : BitVec 3) (hc : issuer s = some c) (hi : issues (encode (.fence n cl sc)) s = true) :
    exec (.fence n cl sc) s =
      if !quiet (counted (s.group c.gid) c) c true || (fenceWorks s (s.group c.gid).tid sc.toNat &&
          !cleanReady s (s.group c.gid).core (ofAsid (s.asid (s.group c.gid).tid) (s.vmid (s.group c.gid).tid))) then .next s
      else .next (retire (fenceWork (countIssue s c) (counted (s.group c.gid) c) sc.toNat (cl == 1) (n == 1)) c (counted (s.group c.gid) c)) := by
  rw [exec_fence, execFence, issue_body _ hc hi]
  rfl

theorem fence_holds (n cl : BitVec 1) (sc : BitVec 3) (hc : issuer s = some c) (hi : issues (encode (.fence n cl sc)) s = true) :
    let g := s.group c.gid
    let still := ∀ i ∈ ctxSlices c, (g.slice i).loads = 0 ∧ (g.slice i).stores = 0 ∧ (g.slice i).atomics = 0
    (¬ still → exec (.fence n cl sc) s = .next s) ∧
    (still → fenceWorks s g.tid sc.toNat = false → Completes (.fence n cl sc) s fun t => Flow s t c onward) ∧
    (still → fenceWorks s g.tid sc.toNat = true → cleanReady s g.core (ofAsid (s.asid g.tid) (s.vmid g.tid)) = true →
      Completes (.fence n cl sc) s fun t => GangFlow s t c onward ∧ RegsKept g (t.group c.gid) ∧ t.teams = s.teams ∧ t.referee = s.referee ∧
        (Memory.wf s.mem → Memory.wf t.mem) ∧
        (n = 1 → ∀ x ∈ (t.core g.core).l1, ownLine s g x = false) ∧
        (cl = 1 → ∀ x ∈ (t.core g.core).l1, ownLine s g x = true → x.dirty = 0)) := by
  intro g still
  have hexec := fence_issued n cl sc hc hi
  have hquiet := quiet_counted_iff g c
  refine ⟨fun hbusy => ?_, fun hstill hidle => ?_, fun hstill hworks hready => ?_⟩
  · rw [hexec, Bool.eq_false_iff.mpr (mt hquiet.mp hbusy)]
    rfl
  · rw [hquiet.mpr hstill, hidle, fenceWork_idle (g := counted g c) ((countIssue_fenceWorks _ _ _ _).trans hidle)] at hexec
    exact ⟨_, hexec, retire_onward s c⟩
  · rw [hquiet.mpr hstill, hworks, hready] at hexec
    have htraffic := traffic_fenceWork (countIssue s c) (counted g c) sc.toNat (cl == 1) (n == 1)
    have hworks' : fenceWorks (countIssue s c) (counted g c).tid sc.toNat = true := (countIssue_fenceWorks _ _ _ _).trans hworks
    have hown (x : L1Line) : ownLine (countIssue s c) (counted g c) x = ownLine s g x := by simp only [ownLine, counted_tid, countIssue_asid, countIssue_vmid]
    obtain ⟨hflow, hregs⟩ := retire_gangFlow htraffic.groups
    refine ⟨_, hexec, hflow, hregs, htraffic.teams, htraffic.referee, htraffic.wf, fun hn x hx => ?_, fun hcl x hx hmine => ?_⟩
    · rw [hn] at hx
      exact (hown x).symm.trans (fenceWork_invalidates hworks' hx)
    · rw [hcl] at hx
      exact fenceWork_cleans hworks' hx ((hown x).trans hmine)

/-! ## WAITC and WAITC_PASS (R215) -/

theorem waitcDone_iff {m : BitVec 4} {n : Nat} {x : Slice} : waitcDone m n x = true ↔
    (m.getLsbD 0 = true → x.loads ≤ n) ∧ (m.getLsbD 1 = true → x.stores ≤ n) ∧ (m.getLsbD 2 = true → x.atomics ≤ n) ∧
      (m.getLsbD 3 = true → x.posts ≤ n) := by
  have himp (b : Bool) (k : Nat) : (!b || decide (k ≤ n)) = true ↔ (b = true → k ≤ n) := by cases b <;> simp
  simp only [waitcDone, Bool.and_eq_true, himp, and_assoc]

theorem waitcDone_counted (m : BitVec 4) (n : Nat) (g : Group) (c : Ctx) (i : Nat) : waitcDone m n ((counted g c).slice i) = waitcDone m n (g.slice i) := by
  have hlike := counted_like g c i
  simp only [waitcDone, hlike.loads, hlike.stores, hlike.atomics, hlike.posts]

theorem exec_waitc (lim : BitVec 8) (m : BitVec 4) (s : State) : exec (.waitc lim m) s = execWaitc lim m s := rfl
theorem exec_waitcPass (gid gang : Nat) (s : State) : exec (.waitcPass gid gang) s = execWaitcPass gid gang s := rfl

theorem waitc_issued (lim : BitVec 8) (m : BitVec 4) (hc : issuer s = some c) (hi : issues (encode (.waitc lim m)) s = true) :
    exec (.waitc lim m) s = if (ctxSlices c).all fun i => waitcDone m lim.toNat ((s.group c.gid).slice i) then
      .next (retire (countIssue s c) c (counted (s.group c.gid) c))
      else .next ((countIssue s c).setGroup c.gid ((counted (s.group c.gid) c).mapSlices c.gang fun _ x => { x with wait := .waitc m lim.toNat })) := by
  rw [exec_waitc, execWaitc, issue_body _ hc hi]
  simp only [waitcDone_counted]

theorem waitc_holds (lim : BitVec 8) (m : BitVec 4) (hc : issuer s = some c) (hi : issues (encode (.waitc lim m)) s = true) :
    let g := s.group c.gid
    let low := ∀ i ∈ ctxSlices c, (m.getLsbD 0 = true → (g.slice i).loads ≤ lim.toNat) ∧ (m.getLsbD 1 = true → (g.slice i).stores ≤ lim.toNat) ∧
      (m.getLsbD 2 = true → (g.slice i).atomics ≤ lim.toNat) ∧ (m.getLsbD 3 = true → (g.slice i).posts ≤ lim.toNat)
    (low → Completes (.waitc lim m) s fun t => Flow s t c onward) ∧
    (¬ low → Completes (.waitc lim m) s fun t => Flow s t c fun _ x => { x with wait := .waitc m lim.toNat }) := by
  intro g low
  have hexec := waitc_issued lim m hc hi
  have hlow : ((ctxSlices c).all fun i => waitcDone m lim.toNat (g.slice i)) = true ↔ low := by simp only [List.all_eq_true, waitcDone_iff, low]
  refine ⟨fun h => ⟨_, hexec.trans (if_pos (hlow.mpr h)), retire_onward s c⟩, fun h => ⟨_, hexec.trans (if_neg (mt hlow.mp h)), ?_⟩⟩
  exact mapSlices_flow s c _ _ fun i n => (like_issues _ n).withWait _

theorem waitcPass_holds {gid gang : Nat} (h : waitcReady s gid gang = true) :
    Completes (.waitcPass gid gang) s fun t => SliceEvent s t gid ((s.group gid).gangSlices gang) fun _ x =>
      ({ x with wait := .none, pc := x.pc + 4, promoted := false } : Slice).spinCheck := by
  refine ⟨_, ?_, modGroup_sliceEvent s gid _ _⟩
  rw [exec_waitcPass, execWaitcPass, if_pos h]
  rfl

end Sys2Proof.Machine

namespace Sys2Proof
open Machine

/-- Settles O30: FENCE (`fence_holds`), WAITC (`waitc_holds`) and WAITC_PASS. -/
theorem fencesAndCounters : Obligations.FencesAndCounters := by
  unfold Obligations.FencesAndCounters
  exact ⟨fun n cl sc s c hc hi => fence_holds n cl sc hc hi, fun lim m s c hc hi => waitc_holds lim m hc hi, fun gid gang s h => waitcPass_holds h⟩

end Sys2Proof
end

section
/-! Sync objects (O60): agents that join, BIND and UNBIND. -/
namespace Sys2Proof.Machine

variable {s t u : State} {obj core : Nat} {e f : SyncEntry} {a : Agent} {o : LogOp}

/-! ## Agents of an entry (R203, R205) -/

theorem covers_iff {c ceiling : Nat} : covers c ceiling a = true ↔ ceilingCovers c ceiling a := by
  cases a with
  | hart => exact decide_eq_true_iff
  | pkg p => exact decide_eq_true_iff
  | core n =>
    have hself (k : Nat) (h : n = c) : n / k = c / k := h ▸ rfl
    match ceiling with
    | 0 | 2 => simp [covers, ceilingCovers]
    | 1 => simpa [covers, ceilingCovers, clusterOf] using hself 8
    | 3 => simpa [covers, ceilingCovers, dieOf] using hself 40
    | k + 4 => simp [covers, ceilingCovers]

/-- One bit is set, and no other changes. -/
theorem getLsbD_or_bit {w n i : Nat} (m : BitVec w) (hn : n < w) : (m ||| 1#w <<< n).getLsbD i = true ↔ m.getLsbD i = true ∨ n = i := by
  have hbit : (1#w <<< n).getLsbD i = (BitVec.twoPow w n).getLsbD i := rfl
  rw [BitVec.getLsbD_or, hbit, BitVec.getLsbD_twoPow, Bool.or_eq_true, Bool.and_eq_true, decide_eq_true_iff, decide_eq_true_iff]
  exact or_congr_right (and_iff_right hn)

theorem has_add (ha : a.exists) (b : Agent) : (e.add a).has b = true ↔ e.has b = true ∨ b = a := by
  cases a with
  | core n =>
    cases b with
    | core m => exact (getLsbD_or_bit e.cores ha).trans (or_congr_right (by rw [Agent.core.injEq, eq_comm]))
    | hart => exact (or_iff_left (by rintro ⟨⟩)).symm
    | pkg p => exact (or_iff_left (by rintro ⟨⟩)).symm
  | hart =>
    cases b with
    | core m => exact (or_iff_left (by rintro ⟨⟩)).symm
    | hart => exact iff_of_true rfl (.inr rfl)
    | pkg p => exact (or_iff_left (by rintro ⟨⟩)).symm
  | pkg p =>
    cases b with
    | core m => exact (or_iff_left (by rintro ⟨⟩)).symm
    | hart => exact (or_iff_left (by rintro ⟨⟩)).symm
    | pkg q => exact (getLsbD_or_bit e.pkgs ha).trans (or_congr_right (by rw [Agent.pkg.injEq, eq_comm]))

/-! ## The table of objects (R202) -/

theorem syncFind_obj (h : s.syncFind obj = some e) : e.obj = obj :=
  beq_iff_eq.mp (List.find?_some (p := fun x : SyncEntry => x.obj == obj) h)

/-- An entry written in its place is found there. -/
theorem syncFind_syncPut (h : s.syncFind obj = some e) (hf : f.obj = obj) : (s.syncPut f).syncFind obj = some f := by
  have hsame : ((fun x : SyncEntry => x.obj == obj) ∘ fun x => if x.obj = f.obj then f else x) = fun x => x.obj == obj := by
    funext x
    rw [Function.comp]
    split
    · rename_i hx
      rw [hx]
    · rfl
  rw [State.syncFind, State.syncPut, modHub_hub, List.find?_map, hsame]
  rw [State.syncFind] at h
  rw [h, Option.map_some, if_pos ((syncFind_obj h).trans hf.symm)]

/-- What lies below the sync table changes no entry. -/
theorem Traffic.sync (h : Traffic s t) : t.hub.sync = s.hub.sync := by rw [h.hub]
theorem Traffic.syncFind (h : Traffic s t) (obj : Nat) : t.syncFind obj = s.syncFind obj := by rw [State.syncFind, h.sync, State.syncFind]

/-! ## Joining (R203, R205) -/

/-- The lines of an entry's bound regions. -/
def boundLine (e : SyncEntry) (x : L1Line) : Bool := x.asid == e.asid && x.inRanges e.asid x.vmid e.regions

/-- No line of an entry's regions is dirty in a core. -/
def RegionsClean (s : State) (e : SyncEntry) (core : Nat) : Prop := ∀ y ∈ (s.core core).l1, boundLine e y = true → y.dirty = 0

theorem cleanRegions_cleans (s : State) (core : Nat) (e : SyncEntry) : RegionsClean (cleanRegions s core e) e core := by
  intro y hy hbound
  have hlines : ((cleanRegions s core e).core core).l1 = _ := cleanLines_lines s core (boundLine e) false
  rw [hlines] at hy
  exact mem_cleanedLines_clean hy hbound

/-- Cleaning keeps clean what is clean. -/
theorem RegionsClean.cleanRegions {k : Nat} (h : RegionsClean s e k) (core : Nat) : RegionsClean (cleanRegions s core e) e k := by
  by_cases hk : core = k
  · exact hk ▸ cleanRegions_cleans s core e
  · have hcore : (Machine.cleanRegions s core e).core k = _ := cleanLines_core s core (boundLine e) false k
    rw [RegionsClean, hcore, if_neg hk]
    exact h

/-- The dirty places of an entry are cleaned one after another. -/
def cleanPlaces (s : State) (e : SyncEntry) (ds : List DirtyPlace) : State := ds.foldl (fun t d => cleanRegions t d.core e) s

theorem traffic_cleanPlaces (s : State) (e : SyncEntry) (ds : List DirtyPlace) : Traffic s (cleanPlaces s e ds) :=
  Traffic.foldl (fun _ _ => traffic_cleanLines _ _ _ _) ds s

theorem cleanPlaces_cleans (e : SyncEntry) (ds : List DirtyPlace) (s : State) (k : Nat) (h : RegionsClean s e k ∨ ∃ d ∈ ds, d.core = k) :
    RegionsClean (cleanPlaces s e ds) e k := by
  induction ds generalizing s with
  | nil => exact h.resolve_right fun ⟨d, hd, _⟩ => List.not_mem_nil hd
  | cons d r ih =>
    refine ih (cleanRegions s d.core e) ?_
    obtain hclean | ⟨x, hx, rfl⟩ := h
    · exact .inl (hclean.cleanRegions d.core)
    · obtain rfl | hr := List.mem_cons.mp hx
      · exact .inl (cleanRegions_cleans s x.core e)
      · exact .inr ⟨x, hr, rfl⟩

/-- An entry after an agent has joined: the dirty places that its ceiling covered are gone. -/
def SyncEntry.joined (e : SyncEntry) (a : Agent) : SyncEntry := SyncEntry.add { e with dirty := e.dirty.filter fun d => !covers d.core d.ceiling a } a

theorem joined_fields (e : SyncEntry) (a : Agent) : (e.joined a).obj = e.obj ∧ (e.joined a).asid = e.asid ∧ (e.joined a).regions = e.regions ∧
    (e.joined a).dirty = e.dirty.filter fun d => !covers d.core d.ceiling a := by
  cases a <;> exact ⟨rfl, rfl, rfl, rfl⟩

theorem syncJoin_unbound (h : s.syncFind obj = none) (a : Agent) : syncJoin s obj a = s := by simp only [syncJoin, h]

theorem syncJoin_joined (h : s.syncFind obj = some e) (ha : e.has a = true) : syncJoin s obj a = s := by simp only [syncJoin, h, ha, if_true]

theorem syncJoin_new (h : s.syncFind obj = some e) (ha : e.has a = false) :
    syncJoin s obj a = (cleanPlaces s e (e.dirty.filter fun d => covers d.core d.ceiling a)).syncPut (e.joined a) := by
  simp only [syncJoin, h, ha, Bool.false_eq_true, if_false]
  rfl

theorem joins_holds : joins := by
  intro s obj a
  refine ⟨fun h => syncJoin_unbound h a, fun e h ha => syncJoin_joined h ha, fun e h ha => ?_⟩
  rw [syncJoin_new h ha]
  generalize hv : cleanPlaces s e (e.dirty.filter fun d => covers d.core d.ceiling a) = v
  have htraffic : Traffic s v := hv ▸ traffic_cleanPlaces _ _ _
  obtain ⟨hobj, hasid, hregions, hdirty⟩ := joined_fields e a
  refine ⟨htraffic.groups, htraffic.teams, htraffic.wf, fun d hd hcov y hy hy1 hy2 => ?_, e.joined a, ?_, hobj.trans (syncFind_obj h), hasid, hregions, ?_, fun d => ?_,
    fun hex b => has_add hex b⟩
  · have howed : d ∈ e.dirty.filter fun d => covers d.core d.ceiling a := List.mem_filter.mpr ⟨hd, covers_iff.mpr hcov⟩
    have hclean := cleanPlaces_cleans e _ s d.core (.inr ⟨d, howed, rfl⟩)
    rw [hv] at hclean
    exact hclean y hy (by rw [boundLine, hy1, beq_self_eq_true, hy2]; rfl)
  · exact syncFind_syncPut ((htraffic.syncFind obj).trans h) (hobj.trans (syncFind_obj h))
  · exact hdirty ▸ List.filter_sublist
  · rw [hdirty, List.mem_filter, Bool.not_eq_true', ← covers_iff, Bool.not_eq_true]

/-! ## BIND and UNBIND (R208, R210, R211) -/

theorem qput_uq_congr {g h : Group} (e : h.uq = g.uq) (q : Nat) (b : Bool) : (qput h q b).uq = (qput g q b).uq := by
  unfold qput
  split
  · exact e
  · simp only [e]

/-- A request of the sync table is answered: the operation leaves the log, and its uniform predicate is all that changes of the registers. -/
theorem tableAnswer (s : State) (o : LogOp) (p : BitVec 4) (q : Bool) (table : List SyncEntry) :
    let t := (finishOp (s.modHub fun h => { h with sync := table }) o).modGroup o.gid fun g => qput g p.toNat q
    Served s t o ∧ t.mem = s.mem ∧ t.teams = s.teams ∧ t.dies = s.dies ∧ t.homes = s.homes ∧ t.hub = { s.hub with sync := table } ∧
      SameV (s.group o.gid) (t.group o.gid) never ∧ SameU (s.group o.gid) (t.group o.gid) never ∧ SameP (s.group o.gid) (t.group o.gid) never ∧
      (t.group o.gid).uq = (qput (s.group o.gid) p.toNat q).uq := by
  intro t
  have hserved := ((served_finishOp (s.modHub fun h => { h with sync := table }) o).after_stage (performKept_modHub s _)).then_regs fun g => qput_regsOnly g p.toNat q
  obtain ⟨hv, hp, hu, hq⟩ := finishOp_regs (s.modHub fun h => { h with sync := table }) o
  have hgroup : t.group o.gid = qput ((finishOp (s.modHub fun h => { h with sync := table }) o).group o.gid) p.toNat q := group_modGroup _ _ _
  refine ⟨hserved, rfl, rfl, rfl, rfl, rfl, ?_⟩
  rw [hgroup]
  refine ⟨fun n l _ => ?_, fun n _ => ?_, fun n _ => ?_, qput_uq_congr hq _ _⟩
  · rw [qput_eq]
    exact vget_congr hv n l
  · rw [qput_eq]
    exact uget_congr hu n
  · rw [qput_eq]
    exact congrArg (fun x => List.getD x n 0) hp

theorem replyAtomic_bind {p : BitVec 4} {r : Nat} {base len : DWord} (hk : o.kind = .bind p r base len) : replyAtomic s o = doBind s o p r base len := by
  simp only [replyAtomic, hk]
theorem replyAtomic_unbind {p : BitVec 4} (hk : o.kind = .unbind p) : replyAtomic s o = doUnbind s o p := by simp only [replyAtomic, hk]

theorem bindings_holds : bindings := by
  intro core id s o hfind _ hready asid gives
  have hgives {p : BitVec 4} {q : Bool} {table : List SyncEntry}
      (h : replyAtomic s o = (finishOp (s.modHub fun h => { h with sync := table }) o).modGroup o.gid fun g => qput g p.toNat q) : gives p q table :=
    ⟨_, (exec_atomicReply hfind hready).trans (congrArg _ h), tableAnswer s o p q table⟩
  refine ⟨fun p r base len hk => ?_, fun p hk => ?_⟩
  · intro bound
    refine ⟨fun e he hown => hgives ?_, fun e he hother => hgives ?_, fun hnone hfull => hgives ?_, fun hnone hroom => hgives ?_⟩
    · rw [replyAtomic_bind hk, doBind]
      simp only [he]
      rw [if_pos hown, State.syncPut, ← syncFind_obj he]
      rfl
    · rw [replyAtomic_bind hk, doBind]
      simp only [he]
      rw [if_neg hother]
      rfl
    · rw [replyAtomic_bind hk, doBind]
      simp only [hnone]
      rw [if_pos hfull]
      rfl
    · rw [replyAtomic_bind hk, doBind]
      simp only [hnone]
      rw [if_neg (by omega)]
      rfl
  · refine ⟨fun e he hown => hgives ?_, fun hleft => hgives ?_⟩
    · rw [replyAtomic_unbind hk, doUnbind]
      simp only [he]
      rw [beq_iff_eq.mpr hown]
      rfl
    · rw [replyAtomic_unbind hk, doUnbind]
      obtain hnone | ⟨e, he, hother⟩ := hleft
      · simp only [hnone]
        rfl
      · simp only [he]
        rw [beq_eq_false_iff_ne.mpr hother]
        rfl

end Sys2Proof.Machine
end

section
/-! What requests of sync objects share (O60): the state below a join and its cleans, the L1 that a flush finds without its line, and bytes that a write-back leaves alone. -/
namespace Sys2Proof.Machine

variable {s t u : State} {core obj l : Nat} {e f : SyncEntry} {o : LogOp} {h : Hit}

/-! ## What a request keeps -/

/-- What a request of a sync object leaves as it was until it is done: what every stage keeps, the teams, the bind records, and that no move is under way. -/
structure SyncKept (s t : State) : Prop extends PerformKept s t where
  teams : t.teams = s.teams
  binds : ∀ k, (t.core k).binds = (s.core k).binds
  still : s.hub.moves = [] → t.hub.moves = []

theorem SyncKept.refl (s : State) : SyncKept s s := ⟨.refl s, rfl, fun _ => rfl, id⟩

theorem SyncKept.trans (a : SyncKept s t) (b : SyncKept t u) : SyncKept s u :=
  ⟨a.toPerformKept.trans b.toPerformKept, b.teams.trans a.teams, fun k => (b.binds k).trans (a.binds k), fun h => b.still (a.still h)⟩

theorem Traffic.syncKept (h : Traffic s t) (hstill : s.hub.moves = [] → t.hub.moves = []) : SyncKept s t :=
  ⟨h.performKept, h.teams, fun k => by rw [h.cores k], hstill⟩

/-- Another sync table. -/
def withSync (s : State) (table : List SyncEntry) : State := s.modHub fun h => { h with sync := table }

theorem syncKept_withSync (s : State) (table : List SyncEntry) : SyncKept s (withSync s table) := ⟨performKept_modHub s _, rfl, fun _ => rfl, id⟩

theorem SyncKept.bindField (h : SyncKept s t) (tid off n : Nat) : t.bindField tid off n = s.bindField tid off n := by
  simp only [State.bindField, State.bindRec, h.binds]

theorem SyncKept.asid (h : SyncKept s t) (tid : Nat) : t.asid tid = s.asid tid := by rw [State.asid, h.bindField, State.asid]
theorem SyncKept.vmid (h : SyncKept s t) (tid : Nat) : t.vmid tid = s.vmid tid := by rw [State.vmid, h.bindField, State.vmid]

theorem syncKept_lineRequest (s : State) (part agent pa : Nat) (v : LineUse) : SyncKept s (lineRequest s part agent pa v) :=
  (traffic_lineRequest s part agent pa v).syncKept fun h => (asks_lineRequest s part agent pa v).moves.trans h

theorem syncKept_homeStore (s : State) (x : HomeWrite) : SyncKept s (homeStore s x) := (traffic_homeStore s x).syncKept fun h => storeAt_moves h _ _

/-! ## Write-backs (R204, R207) -/

theorem bget_foldl_bput {m : List Host.Cell} (hm : Memory.wf m) {cells : List (Nat × Byte)} {a : Nat} (h : ∀ e ∈ cells, e.1 ≠ a) :
    bget (cells.foldl (fun m e => bput m e.1 e.2) m) a = bget m a := by
  induction cells generalizing m with
  | nil => rfl
  | cons e r ih =>
    obtain ⟨he, hr⟩ := List.forall_mem_cons.mp h
    rw [List.foldl_cons, ih (wf_bput m e.1 e.2 hm) hr, bget_bput _ _ _ _ hm, if_neg he]

/-- A write changes no byte but those it names. -/
theorem bget_storeAt (hm : s.hub.moves = []) (hwf : Memory.wf s.mem) (own : Bool) {x : HomeWrite} {a : Nat} (h : ∀ e ∈ x.cells, e.1 ≠ a) :
    bget (storeAt own s x).mem a = bget s.mem a := by
  have hasks : Asks s (if own then s else (s.linesOf x.cells).foldl (fun t l => grantLine t 0 l .homeStore) s) :=
    .ite (.refl s) (Asks.foldl (fun x l => asks_grantLine x 0 l .homeStore) _ s)
  rw [storeAt_eq hm, performWrite_mem, hasks.mem]
  refine bget_foldl_bput hwf fun e he => ?_
  obtain ⟨c, hc, rfl⟩ := List.mem_map.mp (List.mem_filter.mp he).1
  rw [route_eq (hasks.moves.trans hm)]
  exact h c hc

theorem mem_dirtyCells {x : L1Line} {c : Nat × Byte} (h : c ∈ x.dirtyCells) : c.1 / 128 = x.pline := by
  obtain ⟨i, hi, rfl⟩ := List.mem_map.mp h
  have hlt := List.mem_range.mp (List.mem_filter.mp hi).1
  dsimp only
  omega

/-- A write-back is a store of the line's dirty bytes, after requests; or nothing. -/
theorem writeBackCells_eq (s : State) (core : Nat) (x : L1Line) : writeBackCells s core x = s ∨
    ∃ v own, Asks s v ∧ writeBackCells s core x = storeAt own v { cells := x.dirtyCells, keep := false } := by
  have hasks := asks_lineRequest s x.part (dieOf core) (x.pline * 128) .own
  unfold writeBackCells
  dsimp only
  split
  · exact .inl rfl
  · split
    · exact .inr ⟨_, true, hasks.trans (asks_modDie _ _ _), rfl⟩
    · exact .inr ⟨_, false, hasks, rfl⟩

theorem writeBackCells_moves (hm : s.hub.moves = []) (core : Nat) (x : L1Line) : (writeBackCells s core x).hub.moves = [] := by
  obtain heq | ⟨v, own, hasks, heq⟩ := writeBackCells_eq s core x
  · rw [heq, hm]
  · rw [heq, storeAt_moves (hasks.moves.trans hm)]

/-- A write-back changes no byte of another line. -/
theorem bget_writeBackCells (hm : s.hub.moves = []) (hwf : Memory.wf s.mem) (core : Nat) {x : L1Line} {a : Nat} (ha : x.pline ≠ a / 128) :
    bget (writeBackCells s core x).mem a = bget s.mem a := by
  obtain heq | ⟨v, own, hasks, heq⟩ := writeBackCells_eq s core x
  · rw [heq]
  · rw [heq, bget_storeAt (hasks.moves.trans hm) (hasks.mem.symm ▸ hwf) own fun c hc hca => ha ((mem_dirtyCells hc).symm.trans (congrArg (· / 128) hca)), hasks.mem]

theorem syncKept_writeBackCells (s : State) (core : Nat) (x : L1Line) : SyncKept s (writeBackCells s core x) :=
  (traffic_writeBackCells s core x).syncKept fun hm => writeBackCells_moves hm core x

theorem syncKept_foldl_writeBackCells (core : Nat) (ls : List L1Line) (s : State) : SyncKept s (ls.foldl (fun t x => writeBackCells t core x) s) := by
  induction ls generalizing s with
  | nil => exact .refl s
  | cons x r ih => exact (syncKept_writeBackCells s core x).trans (ih _)

theorem syncKept_cleanLines (s : State) (core : Nat) (p : L1Line → Bool) (inv : Bool) : SyncKept s (cleanLines s core p inv) :=
  (traffic_cleanLines s core p inv).syncKept fun hm => (syncKept_foldl_writeBackCells core _ s).still hm

/-- A clean changes no byte of a line that the L1 does not hold. -/
theorem bget_cleanLines (hm : s.hub.moves = []) (hwf : Memory.wf s.mem) {a : Nat} (ha : ∀ x ∈ (s.core core).l1, x.pline ≠ a / 128) (p : L1Line → Bool) (inv : Bool) :
    bget (cleanLines s core p inv).mem a = bget s.mem a := by
  have hfold (ls : List L1Line) (hl : ∀ x ∈ ls, x.pline ≠ a / 128) (v : State) (hv : v.hub.moves = []) (hw : Memory.wf v.mem) :
      bget (ls.foldl (fun t x => writeBackCells t core x) v).mem a = bget v.mem a := by
    induction ls generalizing v with
    | nil => rfl
    | cons x r ih =>
      obtain ⟨hx, hr⟩ := List.forall_mem_cons.mp hl
      rw [List.foldl_cons, ih hr _ (writeBackCells_moves hv core x) ((traffic_writeBackCells _ _ _).wf hw), bget_writeBackCells hv hw core hx]
  exact hfold _ (fun x hx => ha x (List.mem_filter.mp hx).1) s hm hwf

/-! ## A flush that finds no line (R201) -/

/-- Where the L1 does not hold the line, a flush changes nothing that can be read of a core, and nothing besides. -/
theorem flushFor_idle {gid va : Nat} (h : (s.core (s.group gid).core).l1Find (s.asid (s.group gid).tid) (s.vmid (s.group gid).tid) (va / 128) = none) :
    ∃ m, flushFor s gid va = { s with cores := m } ∧ ∀ k, sget Core.reset m k = s.core k := by
  obtain ⟨f, hf⟩ := flushFor_absent h
  refine ⟨_, hf, fun k => ?_⟩
  have hcore : (flushFor s gid va).core k = _ := cleanLines_core s (s.group gid).core
    (fun x => x.asid == s.asid (s.group gid).tid && x.vmid == s.vmid (s.group gid).tid && x.vline == va / 128) true k
  refine Eq.trans (b := (flushFor s gid va).core k) (by rw [hf]; rfl) ?_
  rw [hcore]
  split
  · rename_i hk
    subst hk
    have hall : ∀ x ∈ (s.core (s.group gid).core).l1,
        (!(x.asid == s.asid (s.group gid).tid && x.vmid == s.vmid (s.group gid).tid && x.vline == va / 128)) = true := fun x hx => by
      rw [Bool.not_eq_true', ← Bool.not_eq_true]
      exact List.find?_eq_none.mp h x hx
    rw [cleanedLines, if_pos rfl, List.filter_eq_self.mpr hall]
  · rfl

/-! ## One object (R206, R212, R213) -/

/-- An entry once a core has joined. -/
def SyncEntry.withCore (e : SyncEntry) (core : Nat) : SyncEntry := { e with cores := e.cores ||| 1#160 <<< core }

theorem has_withCore (e : SyncEntry) (h : core < 160) : (e.withCore core).has (.core core) = true := (getLsbD_or_bit e.cores h).mpr (.inr rfl)

theorem withCore_of_has (h : e.has (.core core) = true) (hc : core < 160) : e.withCore core = e := by
  have hcores : e.cores ||| 1#160 <<< core = e.cores := BitVec.eq_of_getLsbD_eq fun i _ => Bool.eq_iff_iff.mpr
    ((getLsbD_or_bit e.cores hc).trans (or_iff_left_of_imp fun hi => hi ▸ h))
  rw [SyncEntry.withCore, hcores]

/-- A core that joins where nothing is to be cleaned changes its entry alone. -/
theorem syncJoin_core (hfind : s.syncFind obj = some e) (hc : core < 160) (h : e.has (.core core) = true ∨ e.dirty = []) :
    ∃ table, syncJoin s obj (.core core) = withSync s table ∧ (withSync s table).syncFind obj = some (e.withCore core) := by
  cases hhas : e.has (.core core) with
  | true => exact ⟨s.hub.sync, syncJoin_joined hfind hhas, (withCore_of_has hhas hc).symm ▸ hfind⟩
  | false =>
    have hdirty : e.dirty = [] := h.resolve_left (by rw [hhas]; decide)
    have hjoined : e.joined (.core core) = e.withCore core := by rw [SyncEntry.joined, hdirty, List.filter_nil, ← hdirty]; rfl
    refine ⟨_, ?_, syncFind_syncPut (f := e.withCore core) hfind (syncFind_obj hfind :)⟩
    rw [syncJoin_new hfind hhas, hdirty, List.filter_nil, hjoined]
    rfl

/-- R206: only this core has joined. -/
theorem only_withCore : (e.withCore core).only core = true ↔ aloneAfter e core := by
  simp only [SyncEntry.only, SyncEntry.withCore, aloneAfter, Bool.and_eq_true, beq_iff_eq, Bool.not_eq_true', and_assoc]

theorem accesses_acq {d sc : Nat} (hk : o.kind = .acq d sc) : s.accesses o = (lanesOf o.active).map fun l => ⟨l, o.ea l, 8⟩ := by simp only [State.accesses, hk]
theorem accesses_rel {add : Bool} {sc : Nat} (hk : o.kind = .rel add sc) : s.accesses o = (lanesOf o.active).map fun l => ⟨l, o.ea l, 8⟩ := by
  simp only [State.accesses, hk]

/-- The access of an operation of one lane. -/
theorem placed_one (ha : s.accesses o = (lanesOf o.active).map fun l => ⟨l, o.ea l, 8⟩) (hh : o.hits = [[h]]) (hact : lanesOf o.active = [l]) :
    s.placed o = [(⟨l, o.ea l, 8⟩, [h])] := by
  rw [State.placed, ha, hact, hh]
  rfl

/-- Its object. -/
theorem objectsOf_one (hplaced : s.placed o = [(⟨l, o.ea l, 8⟩, [h])]) (hm : s.hub.moves = []) : objectsOf s o = [(h.pa, o.ea l)] := by
  simp only [objectsOf, hplaced, List.foldl_cons, List.foldl_nil, List.any_nil, Bool.false_eq_true, if_false, List.nil_append, route_eq hm]

end Sys2Proof.Machine
end

section
/-! Relay-written marks below the sync objects (O60): no request for a line, no store and no clean sets one (08 R238). -/
namespace Sys2Proof.Machine

variable {s t u : State}

/-- No home has a relay-written mark that it did not have. -/
def NoNewMarks (s t : State) : Prop := ∀ k, ∀ w ∈ (t.home k).relayMarks, w ∈ (s.home k).relayMarks

theorem NoNewMarks.refl (s : State) : NoNewMarks s s := fun _ _ => id
theorem NoNewMarks.trans (a : NoNewMarks s t) (b : NoNewMarks t u) : NoNewMarks s u := fun k w h => a k w (b k w h)

theorem NoNewMarks.ite {p : Prop} [Decidable p] (a : NoNewMarks s t) (b : NoNewMarks s u) : NoNewMarks s (if p then t else u) := by
  split
  · exact a
  · exact b

theorem NoNewMarks.foldl {α : Type} {f : State → α → State} (hf : ∀ s x, NoNewMarks s (f s x)) : ∀ (l : List α) (s : State), NoNewMarks s (l.foldl f s)
  | [], s => .refl s
  | x :: r, s => (hf s x).trans (NoNewMarks.foldl hf r (f s x))

/-- A word without a mark stays without. -/
theorem NoNewMarks.unmarked (a : NoNewMarks s t) {k w : Nat} (h : (s.home k).relayMarks.contains w = false) : (t.home k).relayMarks.contains w = false := by
  rw [← Bool.not_eq_true, List.contains_iff_mem] at h ⊢
  exact mt (a k w) h

theorem noNewMarks_modHome (s : State) (h : Nat) (f : Home → Home) (hf : ∀ k, ∀ w ∈ (f k).relayMarks, w ∈ k.relayMarks) : NoNewMarks s (s.modHome h f) := by
  intro k
  by_cases hk : h = k
  · rw [hk, home_modHome]
    exact hf _
  · rw [home_modHome_ne _ _ _ _ hk]
    exact fun _ => id

theorem noNewMarks_modDie (s : State) (d : Nat) (f : Die → Die) : NoNewMarks s (s.modDie d f) := .refl s
theorem noNewMarks_modHub (s : State) (f : Hub → Hub) : NoNewMarks s (s.modHub f) := .refl s

/-! ## Requests for lines -/

theorem noNewMarks_countAccess (s : State) (part pa : Nat) : NoNewMarks s (countAccess s part pa) := .ite (noNewMarks_modHub _ _) (.refl s)

theorem noNewMarks_leaveLine (s : State) (line agent : Nat) : NoNewMarks s (leaveLine s line agent) := by
  have hhome (f : Home → Sparse LineState) : NoNewMarks s (s.modHome (homeOf (line * 128)) fun k => { k with lines := f k }) :=
    noNewMarks_modHome _ _ _ fun _ _ => id
  exact .ite ((hhome _).trans (noNewMarks_modDie _ _ _)) (hhome _)

theorem noNewMarks_setLine (s : State) (line : Nat) (x : LineState) : NoNewMarks s (s.setLine line x) := noNewMarks_modHome _ _ _ fun _ _ => id

theorem noNewMarks_cleanLine (s : State) (line : Nat) : NoNewMarks s (cleanLine s line) := by
  unfold cleanLine
  split
  · exact .ite ((noNewMarks_setLine _ _ _).trans (noNewMarks_modDie _ _ _)) (noNewMarks_setLine _ _ _)
  · exact .refl s

theorem noNewMarks_l2Put (s : State) (die line : Nat) : NoNewMarks s (l2Put s die line) := by
  unfold l2Put
  refine .ite (.refl s) (NoNewMarks.trans (.ite (.refl s) ?_) (noNewMarks_modDie _ _ _))
  split
  · exact noNewMarks_leaveLine _ _ _
  · exact .refl s

theorem noNewMarks_grantLease (s : State) (agent pa : Nat) (write : Bool) : NoNewMarks s (grantLease s agent pa write) := by
  unfold grantLease
  refine .ite (.refl s) (noNewMarks_modHome _ _ _ fun k => ?_)
  split <;> exact fun _ => id

theorem noNewMarks_grantLine (s : State) (agent line : Nat) (v : LineUse) : NoNewMarks s (grantLine s agent line v) := by
  have hput (x : State) : NoNewMarks x (if agent < 4 then l2Put x agent line else x) := .ite (noNewMarks_l2Put _ _ _) (.refl x)
  have hleave (l : List Nat) : NoNewMarks s (l.foldl (fun t a => leaveLine t line a) s) := NoNewMarks.foldl (fun x a => noNewMarks_leaveLine x line a) l s
  cases v with
  | share =>
    exact (((NoNewMarks.ite (.refl s) (noNewMarks_cleanLine _ _)).trans (.ite (.refl _) (noNewMarks_setLine _ _ _))).trans (hput _)).trans (noNewMarks_grantLease _ _ _ _)
  | own => exact (((hleave _).trans (noNewMarks_setLine _ _ _)).trans (hput _)).trans (noNewMarks_grantLease _ _ _ _)
  | homeRead => exact noNewMarks_cleanLine _ _
  | homeStore => exact hleave _

theorem noNewMarks_lineRequest (s : State) (part agent pa : Nat) (v : LineUse) : NoNewMarks s (lineRequest s part agent pa v) := by
  unfold lineRequest upstreamRequest
  refine .ite (noNewMarks_modHub _ _) (.ite (.refl s) (.ite (noNewMarks_modDie _ _ _) (NoNewMarks.trans ?_ (noNewMarks_grantLine _ _ _ _))))
  exact (noNewMarks_countAccess _ _ _).trans (.ite (noNewMarks_modDie _ _ _) (.refl _))

/-! ## Stores and cleans -/

theorem noNewMarks_pushWord (s : State) (w : Nat) : NoNewMarks s (pushWord s w) := by
  unfold pushWord
  refine .ite (.refl s) fun k => ?_
  rw [home_modHub]
  by_cases hk : homeOf w = k
  · rw [← hk, home_setHome]
    exact fun _ => id
  · rw [home_setHome_ne _ _ _ _ hk]
    exact fun _ => id

theorem noNewMarks_applyWord (keep : Bool) (s : State) (w : Nat) : NoNewMarks s (applyWord keep s w) := by
  unfold applyWord
  refine NoNewMarks.trans (NoNewMarks.trans (noNewMarks_modHome _ _ _ fun k x hx => ?_) (.ite (.refl _) (noNewMarks_modHub _ _))) (noNewMarks_pushWord _ _)
  dsimp only at hx
  split at hx
  · exact hx
  · exact (List.mem_filter.mp hx).1

theorem noNewMarks_performWrite (s : State) (x : HomeWrite) : NoNewMarks s (performWrite s x) := by
  have hwords (m : List Host.Cell) (ws : List Nat) : NoNewMarks s (ws.foldl (applyWord x.keep) { s with mem := m }) :=
    (NoNewMarks.refl s).trans (NoNewMarks.foldl (fun _ _ => noNewMarks_applyWord _ _ _) ws _)
  unfold performWrite
  dsimp only
  split
  · exact hwords _ _
  · exact (hwords _ _).trans (noNewMarks_modHub _ _)

theorem noNewMarks_storeAt (own : Bool) (s : State) (x : HomeWrite) : NoNewMarks s (storeAt own s x) := by
  unfold storeAt
  split
  · exact .ite (noNewMarks_modHub _ _) (noNewMarks_modHub _ _)
  · exact (NoNewMarks.ite (.refl s) (NoNewMarks.foldl (fun t l => noNewMarks_grantLine t 0 l .homeStore) _ s)).trans (noNewMarks_performWrite _ _)

theorem noNewMarks_writeBackCells (s : State) (core : Nat) (x : L1Line) : NoNewMarks s (writeBackCells s core x) := by
  have hask := noNewMarks_lineRequest s x.part (dieOf core) (x.pline * 128) .own
  unfold writeBackCells
  dsimp only
  split
  · exact .refl s
  · split
    · exact hask.trans ((noNewMarks_modDie _ _ _).trans (noNewMarks_storeAt _ _ _))
    · exact hask.trans (noNewMarks_storeAt _ _ _)

theorem noNewMarks_cleanLines (s : State) (core : Nat) (p : L1Line → Bool) (inv : Bool) : NoNewMarks s (cleanLines s core p inv) :=
  NoNewMarks.foldl (fun t x => noNewMarks_writeBackCells t core x) _ s

end Sys2Proof.Machine
end

section
/-! ACQ and REL performed by one lane (O60): the join, the flush and the request before, and what each then invalidates or cleans. -/
namespace Sys2Proof.Machine

variable {s t u v w : State} {core id d l sc : Nat} {e f : SyncEntry} {o : LogOp} {h : Hit} {table : List SyncEntry}

/-! ## Before the invalidations of an ACQ (R201, R206) -/

/-- The state in which an ACQ by one lane reads: its core has joined, its own line is written back, and the line is asked for. -/
def acqAsked (s : State) (o : LogOp) (va pa : Nat) : State :=
  lineRequest (flushFor (syncJoin s pa (.core (s.group o.gid).core)) o.gid va) (s.partOf (s.group o.gid).tid) (dieOf (s.group o.gid).core) pa .homeRead

/-- The end of an ACQ by one lane. -/
def acqDone (s : State) (o : LogOp) (d l x : Nat) : State := (finishOp s o).modGroup o.gid fun g => writeRegs g d (fun k => laneVal [(l, x)] k) 2

theorem noNewMarks_of_homes (h : t.homes = s.homes) : NoNewMarks s t := fun k w hw => by rwa [State.home, h] at hw

/-- A core that joins where nothing is to be cleaned, and whose L1 holds nothing of its object's line, finds all but the sync table as it was. -/
theorem acqAsked_keeps (hjoin : syncJoin s h.pa (.core (s.group o.gid).core) = withSync s table) (hheld : unheld s (s.group o.gid).core o l) :
    let u := flushFor (syncJoin s h.pa (.core (s.group o.gid).core)) o.gid (o.ea l)
    let v := acqAsked s o (o.ea l) h.pa
    u.pread h.pa 8 = s.pread h.pa 8 ∧ SyncKept s v ∧ NoNewMarks s v ∧ v.mem = s.mem ∧ (∀ k, v.core k = s.core k) ∧ v.hub.sync = table := by
  obtain ⟨m, hflush, hcores⟩ := flushFor_idle (s := withSync s table) (gid := o.gid) (va := o.ea l) hheld
  have hask := asks_lineRequest { withSync s table with cores := m } (s.partOf (s.group o.gid).tid) (dieOf (s.group o.gid).core) h.pa .homeRead
  have hkept : SyncKept s { withSync s table with cores := m } :=
    (syncKept_withSync s table).trans (hflush ▸ (traffic_flushFor (withSync s table) o.gid (o.ea l)).syncKept fun hm => hflush ▸ hm)
  intro u v
  have hu : u = { withSync s table with cores := m } := (congrArg (flushFor · o.gid (o.ea l)) hjoin).trans hflush
  have hv : v = lineRequest { withSync s table with cores := m } (s.partOf (s.group o.gid).tid) (dieOf (s.group o.gid).core) h.pa .homeRead :=
    congrArg (lineRequest · (s.partOf (s.group o.gid).tid) (dieOf (s.group o.gid).core) h.pa .homeRead) hu
  rw [hu, hv]
  refine ⟨rfl, hkept.trans (syncKept_lineRequest _ _ _ _ _), (noNewMarks_of_homes rfl).trans (noNewMarks_lineRequest _ _ _ _ _), hask.mem, fun k => ?_,
    (traffic_lineRequest _ _ _ _ _).sync⟩
  rw [State.core, hask.cores]
  exact hcores k

/-- The relay's invalidation does nothing where no mark stands. -/
theorem relayInval_unmarked {asid vmid flag : Nat} (hm : s.hub.moves = []) (h : (s.home (homeOf flag)).relayMarks.contains flag = false) :
    relayInval s core asid vmid flag = s := by
  simp only [relayInval, route_eq hm, h, Bool.false_eq_true, if_false]

theorem doAcq_single (hplaced : ∀ t : State, t.placed o = [(⟨l, o.ea l, 8⟩, [h])]) (hm : s.hub.moves = []) :
    doAcq s o d = acqDone (relayInval (acqInval (acqAsked s o (o.ea l) h.pa) (s.group o.gid).core (s.asid (s.group o.gid).tid) (s.vmid (s.group o.gid).tid) h.pa)
      (s.group o.gid).core (s.asid (s.group o.gid).tid) (s.vmid (s.group o.gid).tid) h.pa) o d l
      ((flushFor (syncJoin s h.pa (.core (s.group o.gid).core)) o.gid (o.ea l)).pread h.pa 8) := by
  simp only [doAcq, objectsOf_one (hplaced s) hm, hplaced, List.foldl_cons, List.foldl_nil, List.nil_append]
  rfl

/-! ## What an ACQ gives (R206, R212) -/

/-- The lines that an ACQ drops of an object's entry. -/
def acqLine (asid vmid : Nat) (e : SyncEntry) (x : L1Line) : Bool := if e.asid = asid then x.inRanges asid vmid e.regions else ofAsid asid vmid x

theorem acqInval_unbound {asid vmid pa : Nat} (h : s.syncFind pa = none) : acqInval s core asid vmid pa = s := by simp only [acqInval, h]

theorem acqInval_alone {asid vmid pa : Nat} (h : s.syncFind pa = some e) (honly : e.only core = true) : acqInval s core asid vmid pa = s := by
  simp only [acqInval, h, honly, if_true]

theorem acqInval_shared {asid vmid pa : Nat} (h : s.syncFind pa = some e) (honly : ¬ e.only core = true) :
    acqInval s core asid vmid pa = cleanLines s core (acqLine asid vmid e) true := by
  simp only [acqInval, h, if_neg honly]
  by_cases ha : e.asid = asid
  · rw [if_pos ha, show acqLine asid vmid e = fun x => x.inRanges asid vmid e.regions from funext fun _ => if_pos ha]
  · rw [if_neg ha, show acqLine asid vmid e = ofAsid asid vmid from funext fun _ => if_neg ha]

/-- The registers and the log after an ACQ by one lane. -/
theorem acqDone_reads (hkept : SyncKept s w) (x : Nat) (ht : t = acqDone w o d l x) :
    Served s t o ∧ t.teams = s.teams ∧ SameU (s.group o.gid) (t.group o.gid) never ∧ SameP (s.group o.gid) (t.group o.gid) never ∧
      (t.group o.gid).uq = (s.group o.gid).uq ∧ ∀ n k, k < 256 → vget (t.group o.gid) n k =
        if d ≤ n ∧ n < d + 2 ∧ k = l then BitVec.ofNat 32 (x / 2 ^ (32 * (n - d))) else vget (s.group o.gid) n k := by
  subst ht
  obtain ⟨hv, hp, hu, hq⟩ := hkept.group o.gid ▸ finishOp_regs w o
  refine ⟨((served_finishOp w o).after_stage hkept.toPerformKept).then_regs fun g => writeRegs_regsOnly g _ _ _, hkept.teams, ?_⟩
  rw [acqDone, group_modGroup]
  refine ⟨fun n _ => ?_, fun n _ => ?_, ?_, fun n k hk => ?_⟩
  · rw [writeRegs_eq]
    exact uget_congr hu n
  · rw [writeRegs_eq]
    exact congrArg (fun x => List.getD x n _) hp
  · rw [writeRegs_eq]
    exact hq
  · rw [vget_writeRegs _ _ _ _ hk, laneVal_single, vget_congr hv]
    by_cases hin : d ≤ n ∧ n < d + 2
    · by_cases hl : k = l
      · rw [if_pos hin, if_pos hl, if_pos ⟨hin.1, hin.2, hl⟩, Option.map_some, Option.getD_some]
      · rw [if_pos hin, if_neg hl, if_neg fun hc => hl hc.2.2, Option.map_none, Option.getD_none]
    · rw [if_neg hin, if_neg fun hc => hin ⟨hc.1, hc.2.1⟩]

theorem acqDone_lines (x : Nat) : ((acqDone w o d l x).core core).l1 = (w.core core).l1 := by
  rw [acqDone, core_modGroup, finishOp_core]
  split <;> rfl

theorem returnLoad_acq (hk : o.kind = .acq d sc) : returnLoad s o = doAcq s o d := by simp only [returnLoad, hk]

/-- An ACQ by one lane where its core's join cleans nothing: the value goes to its registers after the invalidations. -/
theorem exec_acq (hone : OneLane s core id o h l) (hk : o.kind = .acq d sc) (hjoin : syncJoin s h.pa (.core core) = withSync s table) (hheld : unheld s core o l)
    (hmark : (s.home (homeOf h.pa)).relayMarks.contains h.pa = false) : ∃ v, SyncKept s v ∧ v.mem = s.mem ∧ (∀ k, v.core k = s.core k) ∧ v.hub.sync = table ∧
      exec (.loadDataReturn core id) s =
        .next (acqDone (acqInval v core (s.asid (s.group o.gid).tid) (s.vmid (s.group o.gid).tid) h.pa) o d l (s.pread h.pa 8)) := by
  obtain ⟨hfind, rfl, -, hready, hhits, hact, hmoves⟩ := hone
  obtain ⟨hread, hkept, hmarks, hmem, hcores, hsync⟩ := acqAsked_keeps hjoin hheld
  refine ⟨acqAsked s o (o.ea l) h.pa, hkept, hmem, hcores, hsync, ?_⟩
  have hrelay : NoNewMarks (acqAsked s o (o.ea l) h.pa)
      (acqInval (acqAsked s o (o.ea l) h.pa) (s.group o.gid).core (s.asid (s.group o.gid).tid) (s.vmid (s.group o.gid).tid) h.pa) ∧
      (acqInval (acqAsked s o (o.ea l) h.pa) (s.group o.gid).core (s.asid (s.group o.gid).tid) (s.vmid (s.group o.gid).tid) h.pa).hub.moves = [] := by
    have hstill := hkept.still hmoves
    unfold acqInval
    split
    · exact ⟨.refl _, hstill⟩
    · split
      · exact ⟨.refl _, hstill⟩
      · split
        · exact ⟨noNewMarks_cleanLines _ _ _ _, (syncKept_cleanLines _ _ _ _).still hstill⟩
        · exact ⟨noNewMarks_cleanLines _ _ _ _, (syncKept_cleanLines _ _ _ _).still hstill⟩
  rw [exec_loadDataReturn hfind hready, returnLoad_acq hk, doAcq_single (fun t => placed_one (accesses_acq hk) hhits hact) hmoves, hread,
    relayInval_unmarked hrelay.2 ((hmarks.trans hrelay.1).unmarked hmark)]

theorem acquires_holds : acquires := by
  intro core id s o d sc h l hone hk hheld hmark
  have hcore : core < 160 := hone.2.2.1
  have hgroup : (s.group o.gid).core = core := hone.2.1
  refine ⟨fun hnone => ?_, fun e hfind hdirty => ?_⟩
  · obtain ⟨v, hkept, hmem, hcores, hsync, hexec⟩ := exec_acq (table := s.hub.sync) hone hk (syncJoin_unbound hnone _) hheld hmark
    rw [acqInval_unbound (by rw [State.syncFind, hsync]; exact hnone)] at hexec
    exact ⟨_, hexec, acqDone_reads hkept _ rfl, hmem, by rw [acqDone_lines, hcores], hsync⟩
  · obtain ⟨table, hjoin, hjoined⟩ := syncJoin_core hfind hcore (.inr hdirty)
    obtain ⟨v, hkept, hmem, hcores, hsync, hexec⟩ := exec_acq hone hk hjoin hheld hmark
    have hv : v.syncFind h.pa = some (e.withCore core) := by rw [State.syncFind, hsync]; exact hjoined
    by_cases halone : aloneAfter e core
    · rw [acqInval_alone hv (only_withCore.mpr halone)] at hexec
      exact ⟨_, hexec, acqDone_reads hkept _ rfl, ⟨_, hv, has_withCore e hcore, rfl, rfl, hdirty⟩, fun _ => ⟨hmem, by rw [acqDone_lines, hcores]⟩,
        fun hn => absurd halone hn⟩
    · rw [acqInval_shared hv (mt only_withCore.mp halone)] at hexec
      refine ⟨_, hexec, acqDone_reads (hkept.trans (syncKept_cleanLines _ _ _ _)) _ rfl, ⟨_, ?_, has_withCore e hcore, rfl, rfl, hdirty⟩,
        fun ha => absurd ha halone, fun _ => ?_⟩
      · exact ((traffic_cleanLines _ _ _ true).syncFind h.pa).trans hv
      · rw [acqDone_lines, cleanLines_lines, hcores]
        rfl

end Sys2Proof.Machine
end

section
/-! REL performed by one lane (O60), and the obligation. -/
namespace Sys2Proof.Machine

variable {s t u v w : State} {core id l sc asid vmid : Nat} {e f : SyncEntry} {o p : LogOp} {h : Hit} {table : List SyncEntry} {add : Bool}

/-! ## A REL waits (R213) -/

theorem rel_blocked (hk : o.kind = .rel add sc) (hlog : p ∈ (s.core (s.group o.gid).core).log) (hgid : p.gid = o.gid) (hid : p.id ≠ o.id) (hkey : p.key < o.key)
    (hgang : p.gang &&& o.gang ≠ 0) (hcounter : p.kind.counter < 3) (hframe : (s.group o.gid).frameOp = []) : unblocked s o = false := by
  have hholds : holdsBack s p o = true := by
    have hthree : (p.kind.counter != 3) = true := bne_iff_ne.mpr (Nat.ne_of_lt hcounter)
    simp only [holdsBack, hk, decide_eq_true hkey, bne_iff_ne.mpr hid, shareSlice, bne_iff_ne.mpr hgang, hthree, Bool.and_true, Bool.true_or, Bool.or_true]
  have hpending : p ∈ pendingOps s o.gid (s.group o.gid) := by
    rw [pendingOps, List.append_assoc, List.append_assoc]
    exact List.mem_append_left _ (List.mem_filter.mpr ⟨hlog, beq_iff_eq.mpr hgid⟩)
  rw [← Bool.not_eq_true, unblocked, List.all_eq_true]
  intro hall
  have hp := hall p hpending
  rw [hholds, hframe, List.any_nil, Bool.and_false, Bool.or_false] at hp
  exact Bool.false_ne_true hp

theorem exec_storePerformed_waits (hfind : s.findOp core id = some o) (hblocked : unblocked s o = false) : exec (.storePerformed core id) s = .next s := by
  have hready : opReady s o = false := by simp only [opReady, performable, hblocked, Bool.and_false, Bool.false_and]
  have he : exec (.storePerformed core id) s = execStorePerformed core id s := rfl
  rw [he, execStorePerformed, performOp, hfind]
  simp only [hready, Bool.false_eq_true, if_false]

/-! ## The store of a REL (R213) -/

/-- What a REL by one lane stores: its value, or the sum with what the object holds. -/
def relValue (s : State) (o : LogOp) (add : Bool) (pa l : Nat) : Nat := if add then (s.pread pa 8 + o.value l) % 2 ^ 64 else o.value l

/-- A REL by one lane after the clean. -/
def relDone (s : State) (g : Group) (o : LogOp) (part : Nat) (add : Bool) (pa l : Nat) : State :=
  finishOp (homeStore (lineRequest (flushFor s o.gid (o.ea l)) part (dieOf g.core) pa .homeStore)
    { cells := cellsOf pa (leBytes 8 (relValue (flushFor s o.gid (o.ea l)) o add pa l)), keep := true }) o

theorem doRel_single (hplaced : ∀ t : State, t.placed o = [(⟨l, o.ea l, 8⟩, [h])]) (hm : s.hub.moves = []) :
    doRel s o add sc = relDone (relClean (syncJoin s h.pa (.core (s.group o.gid).core)) (s.group o.gid).core (s.asid (s.group o.gid).tid) (s.vmid (s.group o.gid).tid)
      h.pa sc) (s.group o.gid) o (s.partOf (s.group o.gid).tid) add h.pa l := by
  simp only [doRel, objectsOf_one (hplaced s) hm, hplaced, List.foldl_cons, List.foldl_nil]
  rfl

/-- A plain value is what memory holds. -/
theorem pread_plain {pa n : Nat} (h : plainBytes s pa n) : s.pread pa n = leNat (bgets s.mem pa n) := by
  obtain ⟨hm, -, hplain⟩ := h
  rw [State.pread, State.pbytes, bgets]
  refine congrArg leNat (List.map_congr_left fun i hi => ?_)
  obtain ⟨hup, hrec⟩ := hplain i (List.mem_range.mp hi)
  simp only [State.pbyte, route_eq hm, hrec, if_neg hup, Bool.false_eq_true, if_false]

/-- The store after the clean: at the object, with the L1 and the sync table as the clean left them. -/
theorem relDone_spec {part pa : Nat} (hkept : SyncKept s u) (hheld : unheld u (u.group o.gid).core o l) (hplain : plainBytes u pa 8)
    (ht : t = relDone u (s.group o.gid) o part add pa l) :
    (Served s t o ∧ t.teams = s.teams ∧ RegsKept (s.group o.gid) (t.group o.gid)) ∧ t.mem = bputs u.mem pa (leBytes 8 (relValue u o add pa l)) ∧
      (∀ k, (t.core k).l1 = (u.core k).l1) ∧ t.hub.sync = u.hub.sync := by
  obtain ⟨m, hflush, hcores⟩ := flushFor_idle hheld
  have hflushed : SyncKept u { u with cores := m } := hflush ▸ (traffic_flushFor u o.gid (o.ea l)).syncKept fun hm => hflush ▸ hm
  have hask := asks_lineRequest { u with cores := m } part (dieOf (s.group o.gid).core) pa .homeStore
  let v := homeStore (lineRequest { u with cores := m } part (dieOf (s.group o.gid).core) pa .homeStore)
    { cells := cellsOf pa (leBytes 8 (relValue u o add pa l)), keep := true }
  have hv : SyncKept s v := (hkept.trans hflushed).trans ((syncKept_lineRequest _ _ _ _ _).trans (syncKept_homeStore _ _))
  have htv : t = finishOp v o := by
    rw [ht, relDone, hflush]
    rfl
  subst htv
  have hgroup := hv.group o.gid
  refine ⟨⟨(served_finishOp v o).after_stage hv.toPerformKept, hv.teams, hgroup ▸ finishOp_regsKept v o⟩, ?_, fun k => ?_, ?_⟩
  · exact hask.storeAt_mem (s := { u with cores := m }) (by rw [length_leBytes]; exact hplain)
  · have hvk : v.core k = u.core k := by
      rw [State.core, show v.cores = m from (storeAt_cores _ _ _).trans hask.cores]
      exact hcores k
    rw [finishOp_core, hvk]
    split <;> rfl
  · exact ((traffic_homeStore _ _).sync).trans (traffic_lineRequest _ _ _ _ _).sync

/-! ## The clean of a REL (R204) -/

theorem width_wider (a b : Nat) : width (wider a b) = max (width a) (width b) := by
  have hrank (c : Nat) : ceilingRank c = width c := match c with
    | 0 | 1 | 2 | 3 | 4 => rfl
    | n + 5 => rfl
  have hzero (c : Nat) : width (if c = 0 then 2 else c) = width c := by
    split
    · rename_i hc
      rw [hc]
      rfl
    · rfl
  rw [wider]
  simp only [hrank, hzero]
  split
  · omega
  · omega

/-- R204: the place keeps the wider of the two ceilings. -/
theorem widerOf_wider (a b : Nat) : WiderOf a b (wider a b) := by
  have hwider (c : Nat) (hc : c = a ∨ c = b) (w : Nat) (hw : w = if c = 0 then 2 else c) : w ≠ 0 ∧ (w = a ∨ w = b ∨ w = 2) := by
    by_cases h0 : c = 0
    · rw [if_pos h0] at hw
      omega
    · rw [if_neg h0] at hw
      omega
  refine ⟨width_wider a b, hwider (if ceilingRank b < ceilingRank a then a else b) ?_ _ rfl⟩
  split
  · exact .inl rfl
  · exact .inr rfl

/-- The dirty places after a REL that leaves its writes in the L1. -/
def placedDirty (e : SyncEntry) (core sc : Nat) : List DirtyPlace :=
  if (e.dirty.any fun x => x.core == core) = true then e.dirty.map fun x => if x.core = core then { x with ceiling := wider x.ceiling sc } else x
  else e.dirty ++ [{ core := core, ceiling := wider sc sc }]

/-- The entry after such a REL. -/
def SyncEntry.marked (e : SyncEntry) (core sc : Nat) : SyncEntry := { e.withCore core with dirty := placedDirty e core sc }

/-- R204: a place for the core's writes is there or free. -/
def placeRoom (e : SyncEntry) (core : Nat) : Prop := (e.dirty.any fun x => x.core == core) = true ∨ e.dirty.length < 8

theorem skip_placed (halone : aloneAfter e core) (hroom : placeRoom e core) :
    (e.withCore core).skip core sc = some (e.marked core sc) := by
  have honly := only_withCore.mpr halone
  have hdirty : (e.withCore core).dirty = e.dirty := rfl
  unfold SyncEntry.skip SyncEntry.marked placedDirty
  rw [honly, hdirty]
  by_cases hplace : (e.dirty.any fun x => x.core == core) = true
  · simp only [Bool.not_true, Bool.false_eq_true, if_false, if_pos hplace]
  · simp only [Bool.not_true, Bool.false_eq_true, if_false, if_neg hplace, if_pos (hroom.resolve_left hplace)]

theorem skip_cleans (h : ¬ (aloneAfter e core ∧ placeRoom e core)) : (e.withCore core).skip core sc = none := by
  unfold SyncEntry.skip
  by_cases honly : (e.withCore core).only core = true
  · have hroom := fun hr => h ⟨only_withCore.mp honly, hr⟩
    have hdirty : (e.withCore core).dirty = e.dirty := rfl
    rw [honly, hdirty, if_neg (by decide), if_neg fun hp => hroom (.inl hp), if_neg fun hl => hroom (.inr hl)]
  · rw [if_pos (by simp only [honly, Bool.not_false])]

theorem relClean_unbound {pa : Nat} (h : s.syncFind pa = none) : relClean s core asid vmid pa sc = s := by simp only [relClean, h]

theorem relClean_placed {pa : Nat} (h : s.syncFind pa = some (e.withCore core)) (ha : e.asid = asid) (halone : aloneAfter e core) (hroom : placeRoom e core) :
    relClean s core asid vmid pa sc = s.syncPut (e.marked core sc) := by
  have hasid : (e.withCore core).asid = asid := ha
  simp only [relClean, h, hasid, ne_eq, not_true_eq_false, if_false, skip_placed halone hroom]

theorem relClean_cleans {pa : Nat} (h : s.syncFind pa = some (e.withCore core)) (hn : ¬ (e.asid = asid ∧ aloneAfter e core ∧ placeRoom e core)) :
    relClean s core asid vmid pa sc = cleanLines s core (acqLine asid vmid e) false := by
  simp only [relClean, h]
  by_cases ha : e.asid = asid
  · have hasid : ¬ (e.withCore core).asid ≠ asid := not_not.mpr ha
    rw [if_neg hasid, skip_cleans fun hc => hn ⟨ha, hc⟩, show acqLine asid vmid e = fun x => x.inRanges asid vmid e.regions from funext fun _ => if_pos ha]
    rfl
  · have hasid : (e.withCore core).asid ≠ asid := ha
    rw [if_pos hasid, show acqLine asid vmid e = ofAsid asid vmid from funext fun _ => if_neg ha]

/-- A clean changes no tag. -/
theorem unheld_cleanLines {p : L1Line → Bool} (h : unheld s core o l) : unheld (cleanLines s core p false) core o l := by
  have hkept := syncKept_cleanLines s core p false
  rw [unheld, hkept.asid, hkept.vmid, hkept.group, Core.l1Find, cleanLines_lines, List.find?_eq_none]
  intro y hy
  obtain ⟨x, hx, rfl⟩ := List.mem_map.mp hy
  have hnone := List.find?_eq_none.mp h x hx
  split <;> exact hnone

/-- The clean leaves the object's bytes alone. -/
theorem plain_cleanLines {pa n : Nat} (hplain : plainBytes s pa n) (p : L1Line → Bool) (inv : Bool) : plainBytes (cleanLines s core p inv) pa n :=
  ⟨(syncKept_cleanLines s core p inv).still hplain.1, (syncKept_cleanLines s core p inv).wf hplain.2.1, hplain.2.2⟩

theorem pread_cleanLines {pa : Nat} (hplain : plainBytes s pa 8) (hal : pa % 8 = 0) (hline : ∀ x ∈ (s.core core).l1, x.pline ≠ pa / 128)
    (p : L1Line → Bool) (inv : Bool) : (cleanLines s core p inv).pread pa 8 = s.pread pa 8 := by
  rw [pread_plain (plain_cleanLines hplain p inv), pread_plain hplain, bgets, bgets]
  refine congrArg leNat (List.map_congr_left fun i hi => ?_)
  have hi8 := List.mem_range.mp hi
  have hsame : (pa + i) / 128 = pa / 128 := by omega
  exact bget_cleanLines hplain.1 hplain.2.1 (fun x hx => hsame ▸ hline x hx) p inv

/-! ## RELs (R213) -/

theorem performStore_rel (hk : o.kind = .rel add sc) : performStore s o = doRel s o add sc := by simp only [performStore, hk]

theorem exec_rel (hone : OneLane s core id o h l) (hk : o.kind = .rel add sc) (hjoin : syncJoin s h.pa (.core core) = withSync s table)
    (hclean : relClean (withSync s table) core (s.asid (s.group o.gid).tid) (s.vmid (s.group o.gid).tid) h.pa sc = u) :
    exec (.storePerformed core id) s = .next (relDone u (s.group o.gid) o (s.partOf (s.group o.gid).tid) add h.pa l) := by
  obtain ⟨hfind, rfl, -, hready, hhits, hact, hmoves⟩ := hone
  rw [exec_storePerformed hfind hready, performStore_rel hk, doRel_single (fun t => placed_one (accesses_rel hk) hhits hact) hmoves, hjoin, hclean]

/-- What every REL by one lane gives, from the state after its clean. -/
theorem rel_completes {pa : Nat} (hkept : SyncKept s u) (hheld : unheld u (s.group o.gid).core o l) (hplain : plainBytes u pa 8)
    (hread : u.pread pa 8 = s.pread pa 8) (ht : t = relDone u (s.group o.gid) o (s.partOf (s.group o.gid).tid) add pa l) :
    (Served s t o ∧ t.teams = s.teams ∧ RegsKept (s.group o.gid) (t.group o.gid)) ∧ t.mem = bputs u.mem pa (leBytes 8 (relValue s o add pa l)) ∧
      bgets t.mem pa 8 = leBytes 8 (relValue s o add pa l) ∧ (∀ k, (t.core k).l1 = (u.core k).l1) ∧ t.hub.sync = u.hub.sync := by
  have hcore : (u.group o.gid).core = (s.group o.gid).core := by rw [hkept.group]
  obtain ⟨hserved, hmem, hlines, hsync⟩ := relDone_spec hkept (hcore.symm ▸ hheld) hplain ht
  have hvalue : relValue u o add pa l = relValue s o add pa l := by rw [relValue, hread, relValue]
  rw [hvalue] at hmem
  have hbytes := bgets_bputs hplain.2.1 pa (leBytes 8 (relValue s o add pa l))
  rw [length_leBytes] at hbytes
  exact ⟨hserved, hmem, hmem ▸ hbytes, hlines, hsync⟩

/-- A REL of a core that is alone and has room for its mark leaves the writes in the L1. -/
theorem rel_marks (hone : OneLane s core id o h l) (hk : o.kind = .rel add sc) (hheld : unheld s core o l) (hplain : plainBytes s h.pa 8)
    (hfind : s.syncFind h.pa = some e) (hjoins : e.has (.core core) = true ∨ e.dirty = []) (hasid : e.asid = s.asid (s.group o.gid).tid)
    (halone : aloneAfter e core) (hroom : placeRoom e core) :
    Completes (.storePerformed core id) s fun t => (Served s t o ∧ t.teams = s.teams ∧ RegsKept (s.group o.gid) (t.group o.gid)) ∧
      bgets t.mem h.pa 8 = leBytes 8 (relValue s o add h.pa l) ∧ t.syncFind h.pa = some (e.marked core sc) ∧
      storedAt s t h.pa (leBytes 8 (relValue s o add h.pa l)) ∧ (t.core core).l1 = (s.core core).l1 := by
  obtain rfl : (s.group o.gid).core = core := hone.2.1
  obtain ⟨table, hjoin, hjoined⟩ := syncJoin_core hfind hone.2.2.1 hjoins
  have hkept : SyncKept s ((withSync s table).syncPut (e.marked (s.group o.gid).core sc)) := (syncKept_withSync s table).trans (syncKept_withSync _ _)
  obtain ⟨hserved, hmem, hbytes, hlines, hsync⟩ := rel_completes (add := add) hkept hheld hplain rfl rfl
  refine ⟨_, exec_rel hone hk hjoin (relClean_placed hjoined hasid halone hroom), hserved, hbytes, ?_, storedAt_of_mem hplain.2.1 hmem, hlines _⟩
  rw [State.syncFind, hsync]
  exact syncFind_syncPut hjoined (syncFind_obj hjoined :)

/-- Any other REL of an object with an entry cleans. -/
theorem rel_cleans (hone : OneLane s core id o h l) (hk : o.kind = .rel add sc) (hheld : unheld s core o l) (hline : ∀ x ∈ (s.core core).l1, x.pline ≠ h.pa / 128)
    (hal : h.pa % 8 = 0) (hplain : plainBytes s h.pa 8) (hfind : s.syncFind h.pa = some e) (hjoins : e.has (.core core) = true ∨ e.dirty = [])
    (hn : ¬ (e.asid = s.asid (s.group o.gid).tid ∧ aloneAfter e core ∧ placeRoom e core)) :
    Completes (.storePerformed core id) s fun t => (Served s t o ∧ t.teams = s.teams ∧ RegsKept (s.group o.gid) (t.group o.gid)) ∧
      bgets t.mem h.pa 8 = leBytes 8 (relValue s o add h.pa l) ∧ t.syncFind h.pa = some (e.withCore core) ∧
      (t.core core).l1 = cleanedLines (acqLine (s.asid (s.group o.gid).tid) (s.vmid (s.group o.gid).tid) e) false (s.core core).l1 := by
  obtain rfl : (s.group o.gid).core = core := hone.2.1
  obtain ⟨table, hjoin, hjoined⟩ := syncJoin_core hfind hone.2.2.1 hjoins
  have hplain' : plainBytes (withSync s table) h.pa 8 := hplain
  let p := acqLine (s.asid (s.group o.gid).tid) (s.vmid (s.group o.gid).tid) e
  have hkept : SyncKept s (cleanLines (withSync s table) (s.group o.gid).core p false) := (syncKept_withSync s table).trans (syncKept_cleanLines _ _ _ _)
  obtain ⟨hserved, -, hbytes, hlines, hsync⟩ := rel_completes (add := add) hkept (unheld_cleanLines (s := withSync s table) hheld) (plain_cleanLines hplain' p false)
    (pread_cleanLines hplain' hal hline p false) rfl
  refine ⟨_, exec_rel hone hk hjoin (relClean_cleans hjoined hn), hserved, hbytes, ?_, (hlines _).trans (cleanLines_lines _ _ _ _)⟩
  rw [State.syncFind, hsync, (traffic_cleanLines _ _ _ _).sync]
  exact hjoined

theorem releases_holds : releases := by
  intro core id s o add sc hk
  refine ⟨fun p hfind hcore hlog hgid hid hkey hgang hcounter hframe => ?_, fun h l hone hheld hline hal hplain => ⟨fun hnone => ?_, fun e hfind hjoins => ?_⟩⟩
  · exact exec_storePerformed_waits hfind (rel_blocked hk (hcore.symm ▸ hlog) hgid hid hkey hgang hcounter hframe)
  · obtain rfl : (s.group o.gid).core = core := hone.2.1
    have hexec := exec_rel (table := s.hub.sync) hone hk (syncJoin_unbound hnone _) (relClean_unbound hnone)
    obtain ⟨hserved, hmem, -, hlines, hsync⟩ := rel_completes (add := add) (.refl s) hheld hplain rfl rfl
    exact ⟨_, hexec, hserved, ⟨storedAt_of_mem hplain.2.1 hmem, hlines _⟩, hsync⟩
  · have hc : core < 160 := hone.2.2.1
    by_cases hskips : e.asid = s.asid (s.group o.gid).tid ∧ aloneAfter e core ∧ placeRoom e core
    · obtain ⟨t, hexec, hkept, hbytes, hentry, hinL1⟩ := rel_marks hone hk hheld hplain hfind hjoins hskips.1 hskips.2.1 hskips.2.2
      exact ⟨t, hexec, hkept, hbytes, ⟨_, hentry, has_withCore e hc, rfl, rfl, fun hn => absurd hskips hn,
        fun _ => ⟨fun a => wider a sc, fun a => widerOf_wider a sc, rfl⟩⟩, fun _ => hinL1, fun hn => absurd hskips hn⟩
    · obtain ⟨t, hexec, hkept, hbytes, hentry, hlines⟩ := rel_cleans hone hk hheld hline hal hplain hfind hjoins hskips
      refine ⟨t, hexec, hkept, hbytes, ⟨_, hentry, has_withCore e hc, rfl, rfl, fun _ => rfl, fun hs => absurd hs hskips⟩, fun hs => absurd hs hskips,
        fun _ x hx hown => ?_⟩
      rw [hlines] at hx
      exact mem_cleanedLines_clean hx hown

end Sys2Proof.Machine

namespace Sys2Proof
open Machine

/-- Settles O60: joins, BIND, UNBIND, ACQ and REL, each from what its stages below the operation keep. -/
theorem synchronisationPerforms : Obligations.SynchronisationPerforms := ⟨joins_holds, bindings_holds, acquires_holds, releases_holds⟩

end Sys2Proof
end

section
/-! LEASE_LOST (O36): an access that meets the flag of its die ends its walk in a trap. -/
namespace Sys2Proof.Machine

variable {s s1 : State} {core id l va n : Nat} {o : LogOp} {h : Hit} {k : BitVec 2} {f : TrapInfo} {x : Xctx}

/-! ## What the access reaches (R220) -/

theorem accWrites_of_kind (b : Bool) : accWrites (if b then 1 else 0) = b := by cases b <;> rfl

theorem reach_leaseLost {acc : Nat} (htr : translate s x va acc = (s1, .ok h)) (herr : homeError s1 x.part h.pa (accWrites acc) = none) (hdie : x.die < 4)
    (hflag : s1.leaseFlag x.die h.pa = some k) : reach s x va acc = (s1, .trap 0x0E (homeOf (s1.route h.pa) * 2 ^ 8 + k.toNat)) := by
  simp only [reach, htr, herr, if_pos hdie, hflag]

/-- A kind that is no placement instruction of R317 or R320 meets the lease flags. -/
theorem reachFor_reach {m : MemKind} (hm : ∀ d c, m ≠ .pcnt d c ∧ m ≠ .pin (BitVec.ofNat 4 d) ∧ m ≠ .unpin (BitVec.ofNat 4 d)) :
    reachFor s x m va = reach s x va (if m.writes then 1 else 0) := by
  have hnat (d : BitVec 4) : d = BitVec.ofNat 4 d.toNat := (BitVec.ofNat_toNat 4 d ▸ BitVec.setWidth_eq d).symm
  cases m with
  | pcnt d c => exact absurd rfl (hm d c).1
  | pin d => exact absurd (congrArg MemKind.pin (hnat d)) (hm d.toNat true).2.1
  | unpin d => exact absurd (congrArg MemKind.unpin (hnat d)) (hm d.toNat true).2.2
  | _ => rfl

/-- An access outside the window, of which the L1 serves nothing, reaches what its kind does. -/
theorem walkPiece_outside (hoff : (s.team (s.group o.gid).tid).offset (BitVec.ofNat 64 va) = none)
    (hheld : o.kind.cached = true → (s.core (s.group o.gid).core).l1Find (s.asid (s.group o.gid).tid) (s.vmid (s.group o.gid).tid) (va / 128) = none) :
    walkPiece s o va n = reachFor s (s.xctx (s.group o.gid).tid (s.group o.gid).core o.priv) o.kind va := by
  have hserve : (if o.kind.cached = true then (s.core (s.group o.gid).core).l1Find (s.asid (s.group o.gid).tid) (s.vmid (s.group o.gid).tid) (va / 128) else none) = none := by
    by_cases hc : o.kind.cached = true
    · rw [if_pos hc, hheld hc]
    · rw [if_neg hc]
  simp only [walkPiece, hoff, hserve]

/-- The walk of an operation with one access within a line. -/
theorem walkAll_one {r : Reach} (hacc : s.accesses o = [⟨l, va, n⟩]) (h1 : 1 ≤ n) (hn : va % 128 + n ≤ 128) (hpiece : walkPiece s o va n = (s1, r)) :
    walkAll s o = (s1, [(⟨l, va, n⟩, [(va, r)])]) := by
  simp only [walkAll, walkAcc, hacc, List.foldl_cons, List.foldl_nil, List.nil_append, pieces_within (show 0 < va % 128 + n by omega) hn, hpiece]

/-- Its outcome where the access faults: the lanes of the access. -/
theorem walkOut_one {code cause : Nat} : walkOut o [(⟨l, va, n⟩, [(va, .trap code cause)])] =
    .trap { code := code, cause := cause, fmask := laneSet fun j => o.accLane ⟨l, va, n⟩ j, lane := lowestLane (laneSet fun j => o.accLane ⟨l, va, n⟩ j),
            addr := BitVec.ofNat 64 va, opw := 0 } := by
  simp only [walkOut, firstTrap, List.findSome?_cons, Option.map_some, List.any_cons, List.any_nil, beq_self_eq_true, Bool.and_true, Bool.or_false]

/-! ## The trap of a logged operation (R338, R341) -/

theorem exec_translationWalk_trap (hfind : s.findOp core id = some o) (hw : o.walked = false) (hout : walkOut o (walkAll s o).2 = .trap f)
    (hroom : trapRoom s o = true) : exec (.translationWalk core id) s = .next (raiseLogged (walkAll s o).1 o f) := by
  have he : exec (.translationWalk core id) s = execTranslationWalk core id s := rfl
  rw [he, execTranslationWalk, hfind]
  simp only [hw, Bool.false_eq_true, if_false, walkOp, hout, hroom, if_true]

/-- A live slice of which a lane faults. -/
def faultsIn (g : Group) (fmask : LaneMask) (i : Nat) : Bool := !(g.slice i).isDead && fmask &&& (0xF#256 <<< (4 * i)) != 0

/-- The gangs of the lanes that fault. -/
def faultGang (g : Group) (fmask : LaneMask) : SliceMask :=
  sliceSet fun i => !(g.slice i).isDead && (List.range 64).any fun j => faultsIn g fmask j && (g.slice j).ownGang == (g.slice i).ownGang

/-- The queue entry of a fault outside the handler. -/
def faultEntry (g : Group) (o : LogOp) (f : TrapInfo) : TrapEntry :=
  { record := { cause := BitVec.ofNat 16 f.cause, nested := false, logged := true, async := false, code := BitVec.ofNat 8 f.code, qleft := 0,
                lane := BitVec.ofNat 8 f.lane, addr := f.addr, pc := o.pc, opword := o.word.setWidth 64 }
    fmask := f.fmask, gang := faultGang g f.fmask, key := o.key, log := some { o with walked := false, hits := [] }, atIssue := false,
    resume := g.nextPc (f.lane / 4), engine := .none }

theorem raiseLogged_outside (hframe : (s.group o.gid).frame = none) :
    raiseLogged s o f = loggedFault s (s.group o.gid).core o (faultEntry (s.group o.gid) o f) := by
  have hopen : ¬ (o.priv = true ∧ (s.group o.gid).frame.isSome = true) := by rw [hframe]; exact fun h => absurd h.2 (by decide)
  rw [raiseLogged]
  simp only [if_neg hopen]
  rfl

theorem faultGang_bit (g : Group) (m : LaneMask) {i : Nat} (hi : i < 64) : (faultGang g m).getLsbD i = true ↔ (g.slice i).isDead = false ∧
    ∃ j, j < 64 ∧ (g.slice j).isDead = false ∧ m &&& (0xF#256 <<< (4 * j)) ≠ 0 ∧ (g.slice j).ownGang = (g.slice i).ownGang := by
  rw [faultGang, sliceSet_bit _ _ hi]
  simp only [faultsIn, Bool.and_eq_true, Bool.not_eq_true', List.any_eq_true, List.mem_range, bne_iff_ne, beq_iff_eq, and_assoc]

theorem loggedEntry_faultEntry (s : State) (o : LogOp) (f : TrapInfo) : LoggedEntry s o f (faultEntry (s.group o.gid) o f) where
  code := rfl
  cause := rfl
  lane := rfl
  addr := rfl
  pc := rfl
  opword := rfl
  kind := ⟨rfl, rfl, rfl⟩
  fmask := rfl
  key := rfl
  log := rfl
  resume hframe := by
    simp only [faultEntry, Group.nextPc, hframe]
  atIssue := rfl
  engine := rfl
  gang _ hi := faultGang_bit _ _ hi

theorem leaseLostRaises_holds : leaseLostRaises := by
  intro core id s o l va n s1 h k hfind hcore hdie hw g hacc h1 hn _ hoff hheld hkind htr herr hflag hframe hqueue m
  subst hcore
  have hpiece : walkPiece s o va n = (s1, .trap 0x0E (homeOf (s1.route h.pa) * 2 ^ 8 + k.toNat)) := by
    rw [walkPiece_outside hoff hheld, reachFor_reach hkind]
    exact reach_leaseLost htr ((accWrites_of_kind _).symm ▸ herr) hdie hflag
  have hall := walkAll_one hacc h1 hn hpiece
  have htraffic : Traffic s s1 := by
    have := traffic_walkAll s o
    rwa [hall] at this
  have hgroup : s1.group o.gid = s.group o.gid := htraffic.performKept.group o.gid
  have hroom : trapRoom s o = true := by
    rw [trapRoom]
    exact (Bool.or_eq_true _ _).mpr (.inr (decide_eq_true hqueue))
  have hout := walkOut_one (o := o) (l := l) (va := va) (n := n) (code := 0x0E) (cause := homeOf (s1.route h.pa) * 2 ^ 8 + k.toNat)
  refine ⟨_, exec_translationWalk_trap hfind hw ((congrArg (walkOut o ·.2) hall).trans hout) hroom, s1, _, htraffic, ?_, loggedEntry_faultEntry s o _⟩
  rw [hall, raiseLogged_outside (hgroup.symm ▸ hframe), hgroup]

end Sys2Proof.Machine
end

section
/-! What an agent loses with a lease (O36): the lines of a region at its home, in its L2 and in the die's cores, and the flags that stand meanwhile (07 R219). -/
namespace Sys2Proof.Machine

variable {s t u : State} {home agent region line : Nat}

/-! ## Tables whose keys rise -/

theorem sdel_sublist {α : Type} (m : Sparse α) (i : Nat) : (sdel m i).Sublist m := by
  induction m with
  | nil => exact .slnil
  | cons e r ih =>
    rw [sdel]
    split
    · exact .refl _
    · split
      · exact List.sublist_cons_self _ _
      · exact ih.cons_cons e

theorem sfind_sdel_ne {α : Type} (m : Sparse α) {i j : Nat} (h : i ≠ j) : sfind (sdel m i) j = sfind m j := by
  induction m with
  | nil => rfl
  | cons e r ih =>
    rw [sdel]
    split
    · rfl
    · split
      · rename_i hi
        rw [sfind, if_neg (hi ▸ h)]
      · rw [sfind, sfind, ih]

theorem mem_keys_sput {α : Type} {m : Sparse α} {i j : Nat} {x : α} (h : j ∈ (sput m i x).map (·.1)) : j = i ∨ j ∈ m.map (·.1) := by
  by_cases hj : i = j
  · exact .inl hj.symm
  · refine .inr (not_not.mp fun hnot => ?_)
    rw [← sfind_eq_none] at hnot
    have hnone : sfind (sput m i x) j = none := by rw [sfind_sput, if_neg hj, hnot]
    exact sfind_eq_none.mp hnone h

theorem rising_sput {α : Type} {m : Sparse α} (h : (m.map (·.1)).Pairwise (· < ·)) (i : Nat) (x : α) : ((sput m i x).map (·.1)).Pairwise (· < ·) := by
  induction m with
  | nil => exact List.pairwise_singleton _ _
  | cons e r ih =>
    obtain ⟨k, v⟩ := e
    obtain ⟨hk, hr⟩ := List.pairwise_cons.mp h
    rw [sput]
    by_cases hlt : i < k
    · rw [if_pos hlt]
      exact List.pairwise_cons.mpr ⟨List.forall_mem_cons.mpr ⟨hlt, fun j hj => hlt.trans (hk j hj)⟩, h⟩
    · rw [if_neg hlt]
      by_cases hik : i = k
      · rw [if_pos hik]
        exact List.pairwise_cons.mpr ⟨hik ▸ hk, hr⟩
      · rw [if_neg hik]
        refine List.pairwise_cons.mpr ⟨fun j hj => ?_, ih hr⟩
        obtain rfl | hj := mem_keys_sput hj
        · show k < j
          omega
        · exact hk j hj

/-- A property of the default and of all entries of a key holds of what is read there. -/
theorem sget_of_forall {α : Type} {p : α → Prop} {d : α} {m : Sparse α} {i : Nat} (h0 : p d) (h : ∀ e ∈ m, e.1 = i → p e.2) : p (sget d m i) := by
  induction m with
  | nil => exact h0
  | cons e r ih =>
    obtain ⟨he, hr⟩ := List.forall_mem_cons.mp h
    obtain ⟨k, v⟩ := e
    rw [sget]
    split
    · exact he ‹_›
    · exact ih hr

/-! ## Lines that are left (R219) -/

/-- A change of memory, homes and dies that leaves leases and the flags of lost leases. -/
structure LeaveKept (s t : State) : Prop where
  rest : t = { s with mem := t.mem, homes := t.homes, dies := t.dies }
  leases : ∀ k, (t.home k).leases = (s.home k).leases
  flags : ∀ d, (t.die d).leaseLost = (s.die d).leaseLost

theorem LeaveKept.refl (s : State) : LeaveKept s s := ⟨rfl, fun _ => rfl, fun _ => rfl⟩

theorem LeaveKept.trans (a : LeaveKept s t) (b : LeaveKept t u) : LeaveKept s u :=
  ⟨by rw [b.rest, a.rest], fun k => (b.leases k).trans (a.leases k), fun d => (b.flags d).trans (a.flags d)⟩

/-- A home's directory once an agent has left a line. -/
def withoutAgent (m : Sparse LineState) (line agent : Nat) : Sparse LineState :=
  match sfind m line with
  | some (.modified a) => if a = agent then sdel m line else m
  | some (.shared l) => if l.filter (· ≠ agent) = [] then sdel m line else sput m line (.shared (l.filter (· ≠ agent)))
  | none => m

theorem leaveLine_eq (s : State) (line agent : Nat) : leaveLine s line agent =
    if agent < 4 then (s.modHome (homeOf (line * 128)) fun k => { k with lines := withoutAgent k.lines line agent }).modDie agent fun d =>
      { d with l2 := d.l2.filter fun x => x.line ≠ line }
    else s.modHome (homeOf (line * 128)) fun k => { k with lines := withoutAgent k.lines line agent } := rfl

/-- An agent outside the compute dies has no L2. -/
theorem leaveLine_outside (h : ¬ agent < 4) (s : State) (line : Nat) :
    leaveLine s line agent = s.modHome (homeOf (line * 128)) fun k => { k with lines := withoutAgent k.lines line agent } := by rw [leaveLine_eq, if_neg h]

theorem leaveLine_mem (s : State) (line agent : Nat) : (leaveLine s line agent).mem = s.mem := by
  rw [leaveLine_eq]
  split <;> rfl

theorem leaveLine_lines (s : State) (line agent k : Nat) :
    ((leaveLine s line agent).home k).lines = if homeOf (line * 128) = k then withoutAgent (s.home k).lines line agent else (s.home k).lines := by
  have hhome : (leaveLine s line agent).home k = (s.modHome (homeOf (line * 128)) fun k => { k with lines := withoutAgent k.lines line agent }).home k := by
    rw [leaveLine_eq]
    split <;> rfl
  rw [hhome]
  by_cases hk : homeOf (line * 128) = k
  · rw [if_pos hk, hk, home_modHome]
  · rw [if_neg hk, home_modHome_ne _ _ _ _ hk]

theorem leaveKept_modHome (s : State) (h : Nat) (f : Home → Sparse LineState) : LeaveKept s (s.modHome h fun k => { k with lines := f k }) := by
  refine ⟨rfl, fun k => ?_, fun _ => rfl⟩
  by_cases hk : h = k
  · rw [hk, home_modHome]
  · rw [home_modHome_ne _ _ _ _ hk]

theorem leaveKept_modDie (s : State) (d : Nat) (f : Die → List L2Line) : LeaveKept s (s.modDie d fun k => { k with l2 := f k }) := by
  refine ⟨rfl, fun _ => rfl, fun k => ?_⟩
  by_cases hk : d = k
  · rw [hk, die_modDie]
  · rw [die_modDie_ne _ _ _ _ hk]

theorem leaveKept_leaveLine (s : State) (line agent : Nat) : LeaveKept s (leaveLine s line agent) := by
  rw [leaveLine_eq]
  split
  · exact (leaveKept_modHome _ _ _).trans (leaveKept_modDie _ _ _)
  · exact leaveKept_modHome _ _ _

/-- The lines that an agent leaves one after another. -/
def leaveLines (s : State) (agent : Nat) (ls : Sparse LineState) : State := ls.foldl (fun t e => leaveLine t e.1 agent) s

theorem leaveKept_leaveLines (agent : Nat) (ls : Sparse LineState) (s : State) : LeaveKept s (leaveLines s agent ls) := by
  induction ls generalizing s with
  | nil => exact .refl s
  | cons e r ih => exact (leaveKept_leaveLine s e.1 agent).trans (ih _)

theorem leaveLines_mem (agent : Nat) (ls : Sparse LineState) (s : State) : (leaveLines s agent ls).mem = s.mem := by
  induction ls generalizing s with
  | nil => rfl
  | cons e r ih => exact (ih _).trans (leaveLine_mem s e.1 agent)

theorem leaveLines_dies (h : ¬ agent < 4) (ls : Sparse LineState) (s : State) : (leaveLines s agent ls).dies = s.dies := by
  induction ls generalizing s with
  | nil => rfl
  | cons e r ih =>
    have hstep : (leaveLine s e.1 agent).dies = s.dies := by rw [leaveLine_outside h, modHome_dies]
    exact (ih _).trans hstep

/-! ## The agent is gone from the directory -/

/-- The directory of a home lists its lines in rising order. -/
def Rising (s : State) (home : Nat) : Prop := ((s.home home).lines.map (·.1)).Pairwise (· < ·)

theorem rising_withoutAgent {m : Sparse LineState} (h : (m.map (·.1)).Pairwise (· < ·)) (line agent : Nat) :
    ((withoutAgent m line agent).map (·.1)).Pairwise (· < ·) := by
  have hdel : ((sdel m line).map (·.1)).Pairwise (· < ·) := h.sublist ((sdel_sublist m line).map _)
  unfold withoutAgent
  split
  · split
    · exact hdel
    · exact h
  · split
    · exact hdel
    · exact rising_sput h _ _
  · exact h

theorem sfind_withoutAgent_ne {m : Sparse LineState} {l : Nat} (h : l ≠ line) : sfind (withoutAgent m l agent) line = sfind m line := by
  unfold withoutAgent
  split
  · split
    · exact sfind_sdel_ne m h
    · rfl
  · split
    · exact sfind_sdel_ne m h
    · rw [sfind_sput, if_neg h]
  · rfl

theorem agents_withoutAgent {m : Sparse LineState} (h : (m.map (·.1)).Pairwise (· < ·)) : agent ∉ LineState.agents (sfind (withoutAgent m line agent) line) := by
  have hgone : agent ∉ LineState.agents (sfind (sdel m line) line) := by
    rw [sfind_sdel_self h]
    exact List.not_mem_nil
  unfold withoutAgent
  split
  · rename_i a ha
    split
    · exact hgone
    · rename_i hne
      rw [ha]
      exact fun hmem => hne (List.mem_singleton.mp hmem).symm
  · split
    · exact hgone
    · rw [sfind_sput, if_pos rfl]
      exact fun hmem => of_decide_eq_true (List.mem_filter.mp hmem).2 rfl
  · rename_i hnone
    rw [hnone]
    exact List.not_mem_nil

theorem rising_leaveLine (h : Rising s home) (line agent : Nat) : Rising (leaveLine s line agent) home := by
  rw [Rising, leaveLine_lines]
  split
  · exact rising_withoutAgent h line agent
  · exact h

/-- An agent that leaves the line, or did not hold it, does not hold it after leaving some lines. -/
theorem leaveLines_agents (ls : Sparse LineState) (s : State) (h : Rising s (homeOf (line * 128)))
    (hout : agent ∉ LineState.agents (s.lineState line) ∨ line ∈ ls.map (·.1)) : agent ∉ LineState.agents ((leaveLines s agent ls).lineState line) := by
  induction ls generalizing s with
  | nil => exact hout.resolve_right List.not_mem_nil
  | cons e r ih =>
    refine ih (leaveLine s e.1 agent) (rising_leaveLine h e.1 agent) ?_
    rw [State.lineState, leaveLine_lines]
    by_cases he : e.1 = line
    · rw [he, if_pos rfl]
      exact .inl (agents_withoutAgent h)
    · have hkeep : sfind (if homeOf (e.1 * 128) = homeOf (line * 128) then withoutAgent (s.home (homeOf (line * 128))).lines e.1 agent
          else (s.home (homeOf (line * 128))).lines) line = s.lineState line := by
        split
        · exact sfind_withoutAgent_ne he
        · rfl
      rw [hkeep]
      exact hout.imp id fun hmem => (List.mem_cons.mp hmem).resolve_left (Ne.symm he)

/-! ## What reverts (R219) -/

/-- The memory after what an L2 held modified has reverted. -/
def revertedMem (p : L2Line → Bool) (ls : List L2Line) (m : List Host.Cell) : List Host.Cell :=
  ls.foldl (fun m x => if p x then x.stale.foldl (fun m e => bput m e.1 e.2) m else m) m

theorem revertLines_eq (s : State) (die : Nat) (p : Nat → Bool) :
    revertLines s die p = { s with mem := revertedMem (fun x => p x.line && !Config.l2Cleaned s.time x.line) (s.die die).l2 s.mem } := by
  have hfold (q : L2Line → Bool) (ls : List L2Line) (t : State) :
      ls.foldl (fun t x => if q x then { t with mem := x.stale.foldl (fun m e => bput m e.1 e.2) t.mem } else t) t = { t with mem := revertedMem q ls t.mem } := by
    induction ls generalizing t with
    | nil => rfl
    | cons x r ih =>
      rw [List.foldl_cons, ih, revertedMem, revertedMem, List.foldl_cons]
      split <;> rfl
  exact hfold _ _ s

/-- A byte after writes is as it was, or one that was written there. -/
theorem bget_foldl_bput_cases {m : List Host.Cell} (h : Memory.wf m) (cells : List (Nat × Byte)) (a : Nat) :
    bget (cells.foldl (fun m e => bput m e.1 e.2) m) a = bget m a ∨ ∃ e ∈ cells, e.1 = a ∧ bget (cells.foldl (fun m e => bput m e.1 e.2) m) a = e.2 := by
  induction cells generalizing m with
  | nil => exact .inl rfl
  | cons e r ih =>
    obtain hsame | ⟨x, hx, hxa, hval⟩ := ih (wf_bput m e.1 e.2 h)
    · rw [bget_bput _ _ _ _ h] at hsame
      by_cases ha : e.1 = a
      · exact .inr ⟨e, List.mem_cons_self, ha, by rw [List.foldl_cons, hsame, if_pos ha]⟩
      · exact .inl (by rw [List.foldl_cons, hsame, if_neg ha])
    · exact .inr ⟨x, List.mem_cons_of_mem _ hx, hxa, hval⟩

/-- A byte after a reversion is as it was, or what the home's memory held of a line that reverts. -/
theorem bget_revertedMem (p : L2Line → Bool) (ls : List L2Line) {m : List Host.Cell} (h : Memory.wf m) (a : Nat) :
    bget (revertedMem p ls m) a = bget m a ∨ ∃ x ∈ ls, p x = true ∧ ∃ e ∈ x.stale, e.1 = a ∧ bget (revertedMem p ls m) a = e.2 := by
  induction ls generalizing m with
  | nil => exact .inl rfl
  | cons x r ih =>
    have hcons : revertedMem p (x :: r) m = revertedMem p r (if p x then x.stale.foldl (fun m e => bput m e.1 e.2) m else m) := List.foldl_cons ..
    have hwf : Memory.wf (if p x then x.stale.foldl (fun m e => bput m e.1 e.2) m else m) := by
      split
      · exact wf_foldl_bput _ _ h
      · exact h
    rw [hcons]
    obtain hsame | ⟨y, hy, hpy, e, he, hea, hval⟩ := ih hwf
    · rw [hsame]
      split
      · exact (bget_foldl_bput_cases h x.stale a).imp id fun he => ⟨x, List.mem_cons_self, ‹_›, he⟩
      · exact .inl rfl
    · exact .inr ⟨y, List.mem_cons_of_mem _ hy, hpy, e, he, hea, hval⟩

/-! ## A region that is dropped -/

theorem dropRegion_eq (s : State) (home agent region : Nat) : dropRegion s home agent region =
    leaveLines (if agent < 4 then revertLines s agent fun l => inRegion home region (l * 128) else s) agent
      ((s.home home).lines.filter fun e => inRegion home region (e.1 * 128)) := rfl

theorem leaveKept_revert (s : State) (home agent region : Nat) : LeaveKept s (if agent < 4 then revertLines s agent fun l => inRegion home region (l * 128) else s) := by
  split
  · rw [revertLines_eq]
    exact ⟨rfl, fun _ => rfl, fun _ => rfl⟩
  · exact .refl s

theorem leaveKept_dropRegion (s : State) (home agent region : Nat) : LeaveKept s (dropRegion s home agent region) :=
  (leaveKept_revert s home agent region).trans (leaveKept_leaveLines _ _ _)

theorem bget_dropRegion (h : Memory.wf s.mem) (home agent region a : Nat) : bget (dropRegion s home agent region).mem a = bget s.mem a ∨
    (agent < 4 ∧ ∃ x ∈ (s.die agent).l2, inRegion home region (x.line * 128) = true ∧
      ∃ e ∈ x.stale, e.1 = a ∧ bget (dropRegion s home agent region).mem a = e.2) := by
  rw [dropRegion_eq, leaveLines_mem]
  split
  · rename_i hdie
    rw [revertLines_eq]
    refine (bget_revertedMem _ (s.die agent).l2 h a).imp id fun ⟨x, hx, hpx, he⟩ => ⟨hdie, x, hx, ?_, he⟩
    exact (Bool.and_eq_true_iff.mp hpx).1
  · exact .inl rfl

theorem inRegion_home {pa : Nat} (h : inRegion home region pa = true) : homeOf pa = home := beq_iff_eq.mp (Bool.and_eq_true_iff.mp h).1

theorem dropRegion_agents (h : Rising s home) (hline : inRegion home region (line * 128) = true) :
    agent ∉ LineState.agents ((dropRegion s home agent region).lineState line) := by
  have hhome := inRegion_home hline
  have hhomes : (if agent < 4 then revertLines s agent fun l => inRegion home region (l * 128) else s).homes = s.homes := by
    split
    · rw [revertLines_eq]
    · rfl
  have hsame (k : Nat) : (if agent < 4 then revertLines s agent fun l => inRegion home region (l * 128) else s).home k = s.home k :=
    congrArg (fun m => sget Home.reset m k) hhomes
  rw [dropRegion_eq]
  refine leaveLines_agents _ _ ?_ ?_
  · rw [Rising, hsame, hhome]
    exact h
  · rw [State.lineState, hsame, hhome]
    by_cases hkey : line ∈ (s.home home).lines.map (·.1)
    · obtain ⟨e, he, rfl⟩ := List.mem_map.mp hkey
      exact .inr (List.mem_map_of_mem (List.mem_filter.mpr ⟨he, hline⟩))
    · rw [sfind_eq_none.mpr hkey]
      exact .inl List.not_mem_nil

end Sys2Proof.Machine
end

section
/-! Leases (O36): renewal, release, expiry and LEASE_CLR. -/
namespace Sys2Proof.Machine

variable {s t u v : State} {home agent region : Nat} {l m : Lease}

/-! ## Renewal and release (R217, R218) -/

theorem renewals_hold (home agent : Nat) (s : State) : Completes (.leaseRenew home agent) s fun t =>
    t.mem = s.mem ∧ t.groups = s.groups ∧ t.cores = s.cores ∧ t.dies = s.dies ∧ t.hub = s.hub ∧
    (∀ h, h ≠ home → t.home h = s.home h) ∧ (t.home home).leases.length = (s.home home).leases.length ∧
    ∀ (i : Nat) (l m : Lease), (s.home home).leases[i]? = some l → (t.home home).leases[i]? = some m →
      m = if l.agent = agent then { l with since := s.time } else l := by
  refine ⟨_, rfl, rfl, rfl, rfl, rfl, rfl, fun h hh => home_modHome_ne _ _ _ _ (Ne.symm hh), ?_, fun i l m hl hm => ?_⟩
  · rw [home_modHome, List.length_map]
  · rw [home_modHome, List.getElem?_map, hl, Option.map_some] at hm
    exact (Option.some.inj hm).symm

/-- The lease is the agent's in the region. -/
def ofAgent (agent region : Nat) (l : Lease) : Bool := l.agent == agent && l.region == region

theorem ofAgent_iff : ofAgent agent region l = true ↔ l.agent = agent ∧ l.region = region := by rw [ofAgent, Bool.and_eq_true, beq_iff_eq, beq_iff_eq]

theorem dropRegion_outside (h : ¬ agent < 4) (s : State) (home region : Nat) :
    (dropRegion s home agent region).mem = s.mem ∧ (dropRegion s home agent region).dies = s.dies := by
  rw [dropRegion_eq, if_neg h]
  exact ⟨leaveLines_mem _ _ _, leaveLines_dies h _ _⟩

theorem releases_lease (hfree : agent < 4 → holdsRegion s home agent region = false) : Completes (.leaseRelease home agent region) s fun t =>
    t.mem = s.mem ∧ t.groups = s.groups ∧ t.cores = s.cores ∧ t.dies = s.dies ∧
      ∀ l, l ∈ (t.home home).leases ↔ l ∈ (s.home home).leases ∧ ¬ (l.agent = agent ∧ l.region = region) := by
  have hgo : ¬ (agent < 4 ∧ holdsRegion s home agent region = true) := fun h => Bool.false_ne_true ((hfree h.1).symm.trans h.2)
  let u := if agent < 4 then s else dropRegion s home agent region
  have hexec : exec (.leaseRelease home agent region) s = .next (u.modHome home fun k => { k with leases := k.leases.filter fun l => !ofAgent agent region l }) := by
    have he : exec (.leaseRelease home agent region) s = execLeaseRelease home agent region s := rfl
    rw [he, execLeaseRelease, if_neg hgo]
    rfl
  have hu : LeaveKept s u ∧ u.mem = s.mem ∧ u.dies = s.dies := by
    by_cases hdie : agent < 4
    · rw [show u = s from if_pos hdie]
      exact ⟨.refl s, rfl, rfl⟩
    · rw [show u = dropRegion s home agent region from if_neg hdie]
      exact ⟨leaveKept_dropRegion s home agent region, dropRegion_outside hdie s home region⟩
  obtain ⟨hkept, hmem, hdies⟩ := hu
  have hgroups : u.groups = s.groups := by rw [hkept.rest]
  have hcores : u.cores = s.cores := by rw [hkept.rest]
  refine ⟨_, hexec, hmem, hgroups, hcores, hdies, fun l => ?_⟩
  rw [home_modHome]
  simp only [hkept.leases, List.mem_filter, Bool.not_eq_true', ← Bool.not_eq_true, ofAgent_iff]

/-! ## LEASE_CLR (R351) -/

section
variable {die part : Nat} {w : Word}

/-- Every frame of a region is the partition's own. -/
def RegionOwned (s : State) (part region : Nat) : Prop := ∀ i, i < 512 → (s.frameRec (region * 512 + i)).part.toNat = part

theorem regionOwned_iff : ((List.range 512).all fun i => (s.frameRec (region * 512 + i)).part.toNat == part) = true ↔ RegionOwned s part region := by
  simp only [List.all_eq_true, List.mem_range, beq_iff_eq, RegionOwned]

/-- The flag of a die for a region of a home stands. -/
def FlagStands (s : State) (die home region : Nat) : Prop := ∃ e ∈ (s.die die).leaseLost, e.1 = home ∧ e.2.1 = region

theorem flagStands_iff : ((s.die die).leaseLost.any fun e => e.1 == home && e.2.1 == region) = true ↔ FlagStands s die home region := by
  simp only [List.any_eq_true, Bool.and_eq_true, beq_iff_eq, FlagStands]

/-- LEASE_CLR's answer, in LEASE_ST. -/
def leaseAnswer (s : State) (part x : Nat) : State := s.modRegs part fun r => { r with leaseSt := x }

theorem leaseAnswer_leaseSt (s : State) (part x : Nat) : ((leaseAnswer s part x).regs part).leaseSt = x := congrArg PartRegs.leaseSt (sget_sput_self _ _ _ _)

theorem leaseClr_foreign (h : ¬ RegionOwned s part (w.toNat % 2 ^ 24)) : writeLeaseClr s die part w = leaseAnswer s part 2 := by
  have hbool := Bool.eq_false_iff.mpr (mt regionOwned_iff.mp h)
  simp only [writeLeaseClr, hbool, Bool.not_false, if_true]
  rfl

theorem leaseClr_unset (h : RegionOwned s part (w.toNat % 2 ^ 24)) (hf : ¬ FlagStands s die (w.toNat / 2 ^ 24 % 8) (w.toNat % 2 ^ 24)) :
    writeLeaseClr s die part w = leaseAnswer s part 1 := by
  have hflag := Bool.eq_false_iff.mpr (mt flagStands_iff.mp hf)
  simp only [writeLeaseClr, regionOwned_iff.mpr h, hflag, Bool.not_true, Bool.not_false, Bool.false_eq_true, if_false, if_true]
  rfl

theorem leaseClr_clears (h : RegionOwned s part (w.toNat % 2 ^ 24)) (hf : FlagStands s die (w.toNat / 2 ^ 24 % 8) (w.toNat % 2 ^ 24)) :
    writeLeaseClr s die part w = leaseAnswer (s.modDie die fun d =>
      { d with leaseLost := d.leaseLost.filter fun e => !(e.1 == w.toNat / 2 ^ 24 % 8 && e.2.1 == w.toNat % 2 ^ 24) }) part 0 := by
  simp only [writeLeaseClr, regionOwned_iff.mpr h, flagStands_iff.mpr hf, Bool.not_true, Bool.false_eq_true, if_false]
  rfl

end

/-! ## What the loss of subscriptions leaves (R187, R219) -/

/-- The flags of lost leases stand as they did. -/
structure FlagsKept (s t : State) : Prop where
  dies : ∀ d, (t.die d).leaseLost = (s.die d).leaseLost
  hub : t.hub.leaseLost = s.hub.leaseLost

theorem FlagsKept.refl (s : State) : FlagsKept s s := ⟨fun _ => rfl, rfl⟩
theorem FlagsKept.trans (a : FlagsKept s t) (b : FlagsKept t u) : FlagsKept s u := ⟨fun d => (b.dies d).trans (a.dies d), b.hub.trans a.hub⟩

theorem FlagsKept.ite {p : Prop} [Decidable p] (a : FlagsKept s t) (b : FlagsKept s u) : FlagsKept s (if p then t else u) := by
  split
  · exact a
  · exact b

theorem FlagsKept.foldl {α : Type} {f : State → α → State} (hf : ∀ s x, FlagsKept s (f s x)) : ∀ (l : List α) (s : State), FlagsKept s (l.foldl f s)
  | [], s => .refl s
  | x :: r, s => (hf s x).trans (FlagsKept.foldl hf r (f s x))

theorem Traffic.flagsKept (h : Traffic s t) : FlagsKept s t := ⟨fun d => by rw [h.dies d], by rw [h.hub]⟩

/-- Where no die and nothing of the hub differs. -/
theorem flagsKept_of_dies (hd : t.dies = s.dies) (hh : t.hub = s.hub) : FlagsKept s t := ⟨fun d => by rw [State.die, hd, State.die], by rw [hh]⟩

theorem flagsKept_deliverPush (s : State) (p : Push) : FlagsKept s (deliverPush s p) := by
  cases hslot : s.dirSlot p.tid p.off with
  | none =>
    have hsame : deliverPush s p = s := by simp only [deliverPush, hslot]
    rw [hsame]
    exact .refl s
  | some d =>
    rw [deliverPush_eq hslot]
    exact (FlagsKept.ite (.refl s) (traffic_prepareSlot s p).flagsKept).trans (flagsKept_of_dies rfl rfl)

theorem flagsKept_drainSlot (s : State) (core tid off : Nat) : FlagsKept s (drainSlot s core tid off) :=
  (flagsKept_of_dies rfl rfl : FlagsKept s (s.modCore core fun k => { k with inbox := k.inbox.filter fun p => !(p.tid == tid && p.off == off) })).trans
    (FlagsKept.foldl flagsKept_deliverPush _ _)

theorem flagsKept_modCore (s : State) (core : Nat) (f : Core → Core) : FlagsKept s (s.modCore core f) := flagsKept_of_dies rfl rfl
theorem flagsKept_setGroup (s : State) (gid : Nat) (g : Group) : FlagsKept s (s.setGroup gid g) := flagsKept_of_dies rfl rfl
theorem flagsKept_post (s : State) (g : Group) (r : Record) : FlagsKept s (s.post g r) := flagsKept_of_dies rfl rfl

theorem flagsKept_tryDeliver (s : State) (gid : Nat) : FlagsKept s (tryDeliver s gid) := by
  have hends (b : Bool) (f : Core → Core) (g1 g2 : Group) (r : Record) : FlagsKept s
      (if b then ((s.modCore (s.group gid).core f).setGroup gid g2).post g2 r else (s.modCore (s.group gid).core f).setGroup gid g1) := by
    have hcount := flagsKept_modCore s (s.group gid).core f
    split
    · exact hcount.trans ((flagsKept_setGroup _ _ _).trans (flagsKept_post _ _ _))
    · exact hcount.trans (flagsKept_setGroup _ _ _)
  unfold tryDeliver
  dsimp only
  split
  · exact .refl s
  · split
    · exact .refl s
    · exact hends _ _ _ _ _

theorem flagsKept_deliverIfQuiet (s : State) (gid : Nat) : FlagsKept s (deliverIfQuiet s gid) := by
  unfold deliverIfQuiet
  dsimp only
  split
  · exact flagsKept_tryDeliver s gid
  · exact .refl s

theorem flagsKept_raiseAsync (s : State) (gid : Nat) (r : Record) (e : EngineRef) : FlagsKept s (raiseAsync s gid r e) := by
  cases h : s.asyncTarget gid with
  | none =>
    rw [raiseAsync_none h]
    exact flagsKept_post _ _ _
  | some n =>
    rw [raiseAsync_some h]
    unfold queueAsync
    split
    · exact (flagsKept_setGroup _ _ _).trans (flagsKept_deliverIfQuiet _ _)
    · exact flagsKept_modCore _ _ _

theorem flagsKept_loseSlot (s : State) (home tid off cause : Nat) : FlagsKept s (loseSlot s home tid off cause) := by
  have hclose (x gid : Nat) (r : Record) : FlagsKept s (raiseAsync ((writeSlot (drainSlot s (tid / 32) tid off) tid off x).freeSlot tid off) gid r .none) := by
    have hwrite : FlagsKept (drainSlot s (tid / 32) tid off) (writeSlot (drainSlot s (tid / 32) tid off) tid off x) := flagsKept_of_dies rfl rfl
    exact ((flagsKept_drainSlot s _ _ _).trans (hwrite.trans (flagsKept_modCore _ _ _))).trans (flagsKept_raiseAsync _ _ _ _)
  unfold loseSlot
  split
  · exact .refl s
  · split
    · exact .refl s
    · exact hclose _ _ _

theorem flagsKept_loseSub (s : State) (home idx cause : Nat) : FlagsKept s (loseSub s home idx cause) := by
  have hdrop (f : Hub → Hub) (hf : (f s.hub).leaseLost = s.hub.leaseLost) : FlagsKept s ((dropSub s home idx).modHub f) := ⟨fun _ => rfl, hf⟩
  unfold loseSub
  split
  · exact .refl s
  · refine .ite (.ite ⟨fun _ => rfl, rfl⟩ ?_) ?_
    · split
      · exact (hdrop _ rfl).trans (flagsKept_loseSlot _ _ _ _ _)
      · exact hdrop _ rfl
    · exact (hdrop _ rfl).trans (flagsKept_loseSlot _ _ _ _ _)

end Sys2Proof.Machine
end

section
/-! The expiry of leases (O36), and the obligation. -/
namespace Sys2Proof.Machine

variable {s t u v : State} {home agent region line : Nat} {l m : Lease} {ls : List Lease}

/-! ## The leases that expire (R219) -/

/-- The leases of an agent in a region at a home. -/
def leasesOf (s : State) (home agent region : Nat) : List Lease := (s.home home).leases.filter (ofAgent agent region)

theorem mem_expired : l ∈ expired s home agent region ↔ l ∈ leasesOf s home agent region ∧ ∀ m ∈ leasesOf s home agent region, l.since ≤ m.since := by
  have he : expired s home agent region =
    (leasesOf s home agent region).filter fun l => (leasesOf s home agent region).all fun m => decide (l.since ≤ m.since) := rfl
  rw [he, List.mem_filter]
  simp only [List.all_eq_true, decide_eq_true_eq]

theorem expired_nil (h : leasesOf s home agent region = []) : expired s home agent region = [] := by
  refine List.eq_nil_iff_forall_not_mem.mpr fun l hl => ?_
  have hmem := (mem_expired.mp hl).1
  rw [h] at hmem
  exact List.not_mem_nil hmem

/-- One that has gone unrenewed longest ends. -/
theorem expired_ne_nil (h : leasesOf s home agent region ≠ []) : expired s home agent region ≠ [] := by
  obtain ⟨l, hl⟩ := Option.ne_none_iff_exists'.mp (mt List.argmin_eq_none.mp h : List.argmin Lease.since (leasesOf s home agent region) ≠ none)
  exact List.ne_nil_of_mem (mem_expired.mpr ⟨List.argmin_mem hl, fun m hm => List.le_of_mem_argmin hm hl⟩)

/-! ## The flag (R219) -/

/-- The kinds of lease that expire: bit 0 read, bit 1 write. -/
def leaseKinds (ls : List Lease) : BitVec 2 := BitVec.ofNat 2 ((ls.any fun l => !l.write).toNat + 2 * (ls.any fun l => l.write).toNat)

theorem leaseKinds_bit (h : l ∈ ls) : (leaseKinds ls).getLsbD l.write.toNat = true := by
  have hbits : ∀ a b : Bool, (BitVec.ofNat 2 (a.toNat + 2 * b.toNat)).getLsbD 0 = a ∧ (BitVec.ofNat 2 (a.toNat + 2 * b.toNat)).getLsbD 1 = b := by decide
  cases hw : l.write with
  | false => exact (hbits _ _).1.trans (List.any_eq_true.mpr ⟨l, h, by rw [hw]; rfl⟩)
  | true => exact (hbits _ _).2.trans (List.any_eq_true.mpr ⟨l, h, hw⟩)

/-- The agent's flag for the region stands, with some kinds. -/
def FlagSet (s : State) (home agent region : Nat) (k : BitVec 2) : Prop :=
  if agent < 4 then (home, region, k) ∈ (s.die agent).leaseLost else (agent, home, region, k) ∈ s.hub.leaseLost

theorem FlagsKept.flagSet {k : BitVec 2} (h : FlagsKept s t) (hset : FlagSet s home agent region k) : FlagSet t home agent region k := by
  rwa [FlagSet, h.dies, h.hub]

/-- The flag shows the kinds that have now expired, and those that had before. -/
theorem flagSet_setLeaseLost (s : State) (home agent region : Nat) (k : BitVec 2) :
    ∃ old, FlagSet (setLeaseLost s home agent region k) home agent region (old ||| k) := by
  by_cases hdie : agent < 4
  · simp only [FlagSet, if_pos hdie, setLeaseLost, die_modDie]
    exact ⟨_, List.mem_append_right _ (List.mem_singleton_self _)⟩
  · simp only [FlagSet, if_neg hdie, setLeaseLost, modHub_hub]
    exact ⟨_, List.mem_append_right _ (List.mem_singleton_self _)⟩

/-- Setting the flag changes the dies or the hub alone, and no move. -/
theorem setLeaseLost_rest (s : State) (home agent region : Nat) (k : BitVec 2) : (setLeaseLost s home agent region k).hub.moves = s.hub.moves ∧
    setLeaseLost s home agent region k = { s with dies := (setLeaseLost s home agent region k).dies, hub := (setLeaseLost s home agent region k).hub } := by
  unfold setLeaseLost
  split <;> exact ⟨rfl, rfl⟩

/-! ## The die's cores (R219) -/

/-- A die's cores drop their lines of a region, and their operations walk again; an agent outside the dies has no cores. -/
def dropCores (s : State) (home agent region : Nat) (p : Group → Acc → Hit → Bool) : State :=
  if agent < 4 then unwalk (dropL1 s home agent region) p else s

theorem dropCores_rest (s : State) (home agent region : Nat) (p : Group → Acc → Hit → Bool) :
    ∃ cs, dropCores s home agent region p = { s with cores := cs } := by
  unfold dropCores
  split
  · exact ⟨_, rfl⟩
  · exact ⟨s.cores, rfl⟩

theorem unwalk_core {p : Group → Acc → Hit → Bool} {e : Nat × Core} (h : e ∈ (unwalk s p).cores) : ∃ c ∈ s.cores, c.1 = e.1 ∧ c.2.l1 = e.2.l1 := by
  obtain ⟨c, hc, rfl⟩ := List.mem_map.mp h
  exact ⟨c, hc, rfl, rfl⟩

theorem dropL1_core {e : Nat × Core} (h : e ∈ (dropL1 s home agent region).cores) (hk : dieOf e.1 = agent) :
    ∀ x ∈ e.2.l1, inRegion home region (s.route (x.pline * 128)) = false := by
  obtain ⟨c, -, rfl⟩ := List.mem_map.mp h
  by_cases hc : dieOf c.1 = agent
  · rw [if_pos hc]
    exact fun x hx => Bool.not_eq_true' _ ▸ (List.mem_filter.mp hx).2
  · rw [if_neg hc] at hk
    exact absurd hk hc

/-- No line of the region is left in them. -/
theorem dropCores_lines (hdie : agent < 4) (p : Group → Acc → Hit → Bool) {k : Nat} (hk : dieOf k = agent) :
    ∀ x ∈ ((dropCores s home agent region p).core k).l1, inRegion home region (s.route (x.pline * 128)) = false := by
  rw [dropCores, if_pos hdie]
  refine sget_of_forall (p := fun c : Core => ∀ x ∈ c.l1, inRegion home region (s.route (x.pline * 128)) = false) (fun x hx => absurd hx List.not_mem_nil) ?_
  intro e he hek
  obtain ⟨c, hc, hkey, hlines⟩ := unwalk_core he
  rw [← hlines]
  exact dropL1_core hc (by rw [hkey, hek, hk])

/-! ## The expiry (R219) -/

/-- The home without the leases that expire. -/
def takeLeases (s : State) (home : Nat) (ls : List Lease) : State := s.modHome home fun k => { k with leases := k.leases.filter fun l => !ls.contains l }

/-- The agent has lost the region at its home and in its L2, and its flag stands. -/
def regionLost (s : State) (home agent region : Nat) (ls : List Lease) : State :=
  setLeaseLost (dropRegion (takeLeases s home ls) home agent region) home agent region (leaseKinds ls)

theorem regionLost_rest (s : State) (home agent region : Nat) (ls : List Lease) : (regionLost s home agent region ls).hub.moves = s.hub.moves ∧
    ∃ ds hub, regionLost s home agent region ls = { dropRegion (takeLeases s home ls) home agent region with dies := ds, hub := hub } := by
  obtain ⟨hmoves, heq⟩ := setLeaseLost_rest (dropRegion (takeLeases s home ls) home agent region) home agent region (leaseKinds ls)
  refine ⟨hmoves.trans ?_, _, _, heq⟩
  rw [(leaveKept_dropRegion _ _ _ _).rest]
  rfl

/-- The expiry up to the loss of subscriptions. -/
def leasesEnded (s : State) (home agent region : Nat) (ls : List Lease) : State :=
  dropCores (regionLost s home agent region ls) home agent region fun g _ h => dieOf g.core == agent && inRegion home region (s.route h.pa)

theorem exec_leaseExpiry (h : expired s home agent region = ls) (hne : ls ≠ []) : ∃ subs : List (Nat × Sub), exec (.leaseExpiry home agent region) s =
    .next (if ls.any fun l => !l.write then subs.foldl (fun t e => loseSub t home e.1 4) (leasesEnded s home agent region ls) else leasesEnded s home agent region ls) := by
  have he : exec (.leaseExpiry home agent region) s = execLeaseExpiry home agent region s := rfl
  obtain ⟨x, r, rfl⟩ := List.exists_cons_of_ne_nil hne
  have hends (u : State) (p : Group → Acc → Hit → Bool) :
      (if agent < 4 then unwalk (if agent < 4 then dropL1 u home agent region else u) p else if agent < 4 then dropL1 u home agent region else u) =
        dropCores u home agent region p := by
    unfold dropCores
    split
    · rfl
    · rfl
  rw [he, execLeaseExpiry, h]
  simp only [hends]
  exact ⟨_, rfl⟩

theorem leasesEnded_flag (s : State) (home agent region : Nat) (ls : List Lease) :
    ∃ k, FlagSet (leasesEnded s home agent region ls) home agent region k ∧ ∀ l ∈ ls, k.getLsbD l.write.toNat = true := by
  obtain ⟨old, hset⟩ := flagSet_setLeaseLost (dropRegion (takeLeases s home ls) home agent region) home agent region (leaseKinds ls)
  obtain ⟨cs, hcs⟩ := dropCores_rest (regionLost s home agent region ls) home agent region
    fun g _ h => dieOf g.core == agent && inRegion home region (s.route h.pa)
  refine ⟨old ||| leaseKinds ls, ?_, fun l hl => ?_⟩
  · rw [leasesEnded, hcs]
    exact hset
  · rw [BitVec.getLsbD_or, leaseKinds_bit hl, Bool.or_true]

/-- The expiry is a drop of the region, apart from dies, hub and cores. -/
theorem leasesEnded_rest (s : State) (home agent region : Nat) (ls : List Lease) : ∃ ds hub cs,
    leasesEnded s home agent region ls = { dropRegion (takeLeases s home ls) home agent region with dies := ds, hub := hub, cores := cs } := by
  obtain ⟨-, ds, hub, hlost⟩ := regionLost_rest s home agent region ls
  obtain ⟨cs, hcs⟩ := dropCores_rest (regionLost s home agent region ls) home agent region
    fun g _ h => dieOf g.core == agent && inRegion home region (s.route h.pa)
  exact ⟨ds, hub, cs, by rw [leasesEnded, hcs, hlost]⟩

/-- What the expiry itself takes from the agent. -/
theorem leasesEnded_spec (ht : leasesEnded s home agent region ls = t) : t.groups = s.groups ∧ t.teams = s.teams ∧
    (∀ m, m ∈ (t.home home).leases ↔ m ∈ (s.home home).leases ∧ m ∉ ls) ∧
    (Memory.wf s.mem → ∀ a, bget t.mem a = bget s.mem a ∨ (agent < 4 ∧ ∃ x ∈ (s.die agent).l2, inRegion home region (x.line * 128) = true ∧
      ∃ e ∈ x.stale, e.1 = a ∧ bget t.mem a = e.2)) ∧
    (Rising s home → ∀ line, inRegion home region (line * 128) = true → agent ∉ LineState.agents (t.lineState line)) ∧
    (agent < 4 → ∀ k, dieOf k = agent → ∀ x ∈ (t.core k).l1, inRegion home region (s.route (x.pline * 128)) = false) := by
  obtain ⟨ds, hub, cs, heq⟩ := leasesEnded_rest s home agent region ls
  have hdrop := leaveKept_dropRegion (takeLeases s home ls) home agent region
  have hhome (k : Nat) : t.home k = (dropRegion (takeLeases s home ls) home agent region).home k := by rw [← ht, heq]; rfl
  have hmem : t.mem = (dropRegion (takeLeases s home ls) home agent region).mem := by rw [← ht, heq]
  refine ⟨?_, ?_, fun m => ?_, fun hwf a => ?_, fun hrise line hline => ?_, fun hdie k hk x hx => ?_⟩
  · rw [← ht, heq, hdrop.rest]
    rfl
  · rw [← ht, heq, hdrop.rest]
    rfl
  · rw [hhome, hdrop.leases, takeLeases, home_modHome, List.mem_filter, Bool.not_eq_true', ← Bool.not_eq_true, List.contains_iff_mem]
  · rw [hmem]
    exact bget_dropRegion (s := takeLeases s home ls) hwf home agent region a
  · have hrise' : Rising (takeLeases s home ls) home := by
      rw [Rising, takeLeases, home_modHome]
      exact hrise
    rw [State.lineState, hhome]
    exact dropRegion_agents hrise' hline
  · have hroute (pa : Nat) : (regionLost s home agent region ls).route pa = s.route pa := by
      rw [State.route, (regionLost_rest s home agent region ls).1, State.route]
    rw [← ht] at hx
    rw [← hroute]
    exact dropCores_lines hdie _ hk x hx

theorem leasesEnd_holds : leasesEnd := by
  refine ⟨renewals_hold, fun _ _ _ _ hfree => releases_lease hfree, fun home agent region s => ?_, fun die part v s => ?_⟩
  · intro mine ends
    have hends (l : Lease) : l ∈ expired s home agent region ↔ ends l := mem_expired
    refine ⟨fun hnil => ?_, fun hne => ?_⟩
    · have he : exec (.leaseExpiry home agent region) s = execLeaseExpiry home agent region s := rfl
      rw [he, execLeaseExpiry, expired_nil hnil]
    · obtain ⟨subs, hexec⟩ := exec_leaseExpiry rfl (expired_ne_nil hne)
      obtain ⟨k, hset, hkinds⟩ := leasesEnded_flag s home agent region (expired s home agent region)
      have hloses := FlagsKept.foldl (fun (x : State) (e : Nat × Sub) => flagsKept_loseSub x home e.1 4) subs (leasesEnded s home agent region (expired s home agent region))
      refine ⟨_, hexec, ⟨k, ?_, fun l hl => hkinds l ((hends l).mpr hl)⟩, fun hwrites => ?_⟩
      · exact (FlagsKept.ite hloses (.refl _)).flagSet hset
      · have hread : ¬ (expired s home agent region).any (fun l => !l.write) = true := fun h => by
          obtain ⟨l, hl, hw⟩ := List.any_eq_true.mp h
          rw [hwrites l ((hends l).mp hl)] at hw
          exact Bool.false_ne_true hw
        rw [if_neg hread]
        simp only [← hends]
        exact leasesEnded_spec rfl
  · intro region home mine isSet
    have hexec {t : State} (h : writeLeaseClr s die part v = t) : exec (.leaseClr die part v) s = .next t := congrArg Host.Outcome.next h
    by_cases hm : mine
    · by_cases hs : isSet
      · refine ⟨_, hexec (leaseClr_clears hm hs), rfl, rfl, rfl, rfl, fun h => absurd hm h, fun _ h => absurd hs h, fun _ _ => leaseAnswer_leaseSt _ _ _,
          fun _ _ e he => ?_, fun h => absurd ⟨hm, hs⟩ h⟩
        rw [leaseAnswer, State.modRegs, die_modHub, die_modDie] at he
        have hnot := (List.mem_filter.mp he).2
        rwa [Bool.not_eq_true', ← Bool.not_eq_true, Bool.and_eq_true, beq_iff_eq, beq_iff_eq] at hnot
      · exact ⟨_, hexec (leaseClr_unset hm hs), rfl, rfl, rfl, rfl, fun h => absurd hm h, fun _ _ => leaseAnswer_leaseSt _ _ _, fun _ h => absurd h hs,
          fun _ h => absurd h hs, fun _ => rfl⟩
    · exact ⟨_, hexec (leaseClr_foreign hm), rfl, rfl, rfl, rfl, fun _ => leaseAnswer_leaseSt _ _ _, fun h => absurd h hm, fun h => absurd h hm,
        fun h => absurd h hm, fun _ => rfl⟩

end Sys2Proof.Machine

namespace Sys2Proof
open Machine

/-- Settles O36: what an expiry takes from its agent, and the walk that meets the flag. -/
theorem leases : Obligations.Leases := ⟨leasesEnd_holds, leaseLostRaises_holds⟩

end Sys2Proof
end
